-- ==== Sys2Proof/Word.lean ====
section
/-! DEFINITION. Sys2Proof/Word.lean: the word and byte types of the device (R2, R3, R5). -/
set_option Elab.async false
namespace Sys2Proof

/-- One byte of a structure in memory (R3). -/
abbrev Byte := BitVec 8

/-- One 32-bit word: a register word, a Gallery VALUE or a block parameter (R5, R8). -/
abbrev Word := BitVec 32

end Sys2Proof
end

