-- ==== Sys2Proof/Machine/TypesHost.lean ====
section
/-! DEFINITION. Machine/TypesHost.lean: the state of the host rings, the doorbell page, the Sump and HRDY (R239–R275), and the entry of the Gallery (R8). -/
set_option Elab.async false
namespace Sys2Proof.Machine

/-- One Gallery entry, 64 bits (R8). -/
structure GEntry where
  value : Word
  age : BitVec 16
  quality : Byte
  source : Byte
  /-- produced since the last intake (the model's own mark: AGE counts an intake only where it did not). -/
  fresh : Bool
  deriving DecidableEq, Repr

/-- A command as the device holds it from fetch to its terminal completion (R247, R252–R255).
`pay` is the 32-byte inline payload with the bytes from PLEN on taken as zero; `buf` the part of a pointer payload that was read. -/
structure Cmd where
  op : Nat
  ring : Nat
  seq : Nat
  flags : Nat
  plen : Nat
  secs : Nat
  nanos : Nat
  pay : List Byte
  buf : List Byte
  /-- F, the first boundary whose intake follows acceptance (R252). -/
  first : Nat
  /-- the command's own boundary (R253), once its launch time has mapped to one (R217). -/
  own : Option Nat
  /-- place in the single acceptance order (R252). -/
  order : Nat
  /-- LATE is to be carried in the completion (R254). -/
  late : Bool
  /-- the boundary of effect, and its instant, of a command that waits out a halt (R468). -/
  due : Option (Nat × Nat)
  deriving DecidableEq, Repr

/-- An accepted command that is not terminal; `inEffect` marks one that has taken effect and completes in a later step. -/
structure Pending where
  cmd : Cmd
  inEffect : Bool
  deriving DecidableEq, Repr

/-- A completion entry before it is written (R256), with the bytes of its result slot (R257). -/
structure Cpl where
  ring : Nat
  seq : Nat
  op : Nat
  status : Nat
  flags : Nat
  detail : Nat
  period : Nat
  result : Nat
  slot : List Byte
  deriving DecidableEq, Repr

/-- An event as its detector posts it to the Sump (R265); `sm` is the submodule of a code that R268 gives a bitmap, `cls` the class of SM_ALARM. -/
structure Ev where
  code : Nat
  cls : Nat
  period : Nat
  args : List Nat
  sm : Option Nat
  deriving DecidableEq, Repr

/-- The folded events of one code (R267). -/
structure Fold where
  code : Nat
  cls : Nat
  count : Nat
  period : Nat
  args : List Nat
  sms : List Nat
  deriving DecidableEq, Repr

/-- A record waiting for, or written to, a record ring (R269). -/
structure Rec where
  kind : Nat
  /-- the next record of this kind continues it. -/
  more : Bool
  period : Nat
  tag : Nat
  data : List Byte
  deriving DecidableEq, Repr

/-- One command ring with its completion ring and result area, as sampled at ENABLE (R243, R271). -/
structure Ring where
  cmdE : Nat
  /-- PRIO in force: a write of it acts at once (R275). -/
  prio : Nat
  cmdAddr : Nat
  cplE : Nat
  cplAddr : Nat
  resAddr : Nat
  cmdPi : Nat
  cmdCi : Nat
  cplPi : Nat
  cplCi : Nat
  nextSeq : Nat
  /-- CMD_CI and NEXT_SEQ as the completions in memory count them: what the ring-state block shows (R272). -/
  blkCi : Nat
  blkSeq : Nat
  /-- SEQ of the command last applied (R287). -/
  applied : Nat
  /-- as the completions in memory say. -/
  termLow : Nat
  /-- the SEQs at or above TERM_LOW that are terminal or were rejected, rising (TERM_MAP). -/
  termMap : List Nat
  /-- completions held because the ring is full (R258). -/
  held : List Cpl
  deriving DecidableEq, Repr

/-- One record ring (R269). -/
structure RecRing where
  e : Nat
  addr : Nat
  pi : Nat
  ci : Nat
  queue : List Rec
  deriving DecidableEq, Repr

/-- A fold slot that awaits consumption: EVT_CI must pass the entry `upTo` counts (R268, R273). -/
structure FoldSlot where
  slot : Nat
  upTo : Nat
  deriving DecidableEq, Repr

/-- Bytes of a command's host buffer that wait for the host to be reached: they are written before its terminal completion (R240, R242). -/
structure BufWrite where
  ring : Nat
  seq : Nat
  addr : Nat
  bytes : List Byte
  deriving DecidableEq, Repr

/-- The host interface (R239–R275). -/
structure HostSt where
  linkUp : Bool
  busMaster : Bool
  d3 : Bool
  /-- ENABLE was set and service starts at the next boundary; the flag is RESUME. -/
  starting : Option Bool
  /-- the rings are set up and served (ENABLE in force). -/
  enabled : Bool
  dbAddr : Nat
  rsAddr : Nat
  foldAddr : Nat
  rings : List Ring
  evE : Nat
  evAddr : Nat
  evPi : Nat
  evCi : Nat
  recs : List RecRing
  generation : Nat
  accepted : List Pending
  /-- commands journalled with the partner whose JACK is awaited (R292). -/
  jackWait : List Cmd
  /-- commands whose JACK has come and whose ACCEPTED waits for room (R258, R292). -/
  jacked : List Cmd
  /-- terminal completions of the pair's commands that this unit has determined and no POSTED has confirmed yet (R261, R292). -/
  mirror : List Cpl
  acceptCount : Nat
  evNew : List Ev
  /-- what the period in progress has left of EV_BUDGET (R267). -/
  evLeft : Nat
  folds : List Fold
  foldBusy : List FoldSlot
  /-- a qualifying posting has been made and its attention pulse not yet given (R270). -/
  attnOwed : Bool
  /-- the attention pulse is low now. -/
  attnPulse : Bool
  /-- boundaries since the last pulse, saturating at 255. -/
  attnSince : Nat
  /-- boundary of the last read fault; faults at consecutive boundaries are one run (R241, R293). -/
  faultAt : Option Nat
  /-- the host has been reachable since a boundary (R242). -/
  reach : Bool
  /-- rings of the descriptors fetched since the boundary (R250). -/
  fetched : List Nat
  /-- rings with a read fault on a descriptor or payload since the boundary: they are retried at the next one (R241). -/
  readStuck : List Nat
  bufHeld : List BufWrite
  /-- doorbell words in a run of bad values (R246), by byte offset. -/
  dbBadRun : List Nat
  deriving DecidableEq, Repr

end Sys2Proof.Machine
end

