-- ==== Sys2Proof/Machine/TypesMeas.lean ====
section
/-! DEFINITION. Machine/TypesMeas.lean: converter cores, filter chains, Rimstone, sampled-value streams, Echo and Siphon (R302–R336). -/
set_option Elab.async false
namespace Sys2Proof.Machine

/-- Which conversion a core makes: an entry of a sequencer, an urgent slot, or an ADC_URGENT of a ring and SEQ (R304, R308). -/
inductive AdcSrc where
  | entry (s e : Nat)
  | slot (u : Nat)
  | host (ring seq : Nat)
  deriving DecidableEq, Repr

/-- Entry of a sequencer (R331). -/
structure AdcEntry where
  input : Nat
  gain : Nat
  acq : Nat
  tSample : Nat
  deriving DecidableEq, Repr

/-- Sequencer descriptor (R331). -/
structure AdcSeq where
  mode : Nat
  ageLimit : Nat
  repeatNs : Nat
  entries : List AdcEntry
  deriving DecidableEq, Repr

/-- Urgent slot (R331). -/
structure AdcSlot where
  input : Nat
  gain : Nat
  acq : Nat
  core : Nat
  enable : Bool
  priv : Bool
  src : Nat
  prio : Nat
  deriving DecidableEq, Repr

/-- ADC configuration block in force (R331). -/
structure AdcCfg where
  seqs : List AdcSeq
  slots : List AdcSlot
  deriving DecidableEq, Repr

/-- A conversion asked of a core: PRIV, PRIO, instant of the request in ns of device time, order among equals, the conversion's entry, and the sampling instant asked for in 0.25 ns (R304, R308). -/
structure AdcReq where
  src : AdcSrc
  priv : Bool
  prio : Nat
  at_ : Nat
  order : Nat
  entry : AdcEntry
  wantQ : Nat
  deriving DecidableEq, Repr

/-- A conversion that a core makes: its sampling instant and its end in 0.25 ns of device time (R302, R306). -/
structure AdcRun where
  req : AdcReq
  sampleQ : Nat
  endQ : Nat
  deriving DecidableEq, Repr

/-- One converter core (R302–R309). -/
structure AdcCore where
  low : Bool
  queue : List AdcReq
  /-- ADC_URGENT requests beyond the four of the queue. -/
  waiting : List AdcReq
  /-- conversion in progress. -/
  running : Option AdcRun
  /-- conversion aborted by a PRIV request, to restart when that ends (R309). -/
  aborted : Option AdcReq
  /-- run of periods with a delayed urgent conversion, and one delayed in this period (R306). -/
  delayRun : Bool
  delayed : Bool
  deriving DecidableEq, Repr

/-- A sequencer in operation: its conversions not yet begun, in order; runs of delay and of skipping (R304–R306). -/
structure SeqRun where
  due : List AdcReq
  delayRun : Bool
  skipRun : Bool
  /-- delayed in this period. -/
  delayed : Bool
  deriving DecidableEq, Repr

/-- A conversion result that waits for the intake (R307): Gallery index, code, over range, source code; `late` ones for the next intake but one. -/
structure AdcResult where
  index : Nat
  code : Int
  ovr : Bool
  source : Nat
  late : Bool
  deriving DecidableEq, Repr

/-- A sample on its way through a chain: instant in ns of device time, value, VALID, OVR and SUBST (R311). -/
structure Sample where
  t : Int
  v : Int
  valid : Bool
  ovr : Bool
  subst : Bool
  deriving DecidableEq, Repr

/-- Chain block in force (R332). -/
structure ChainCfg where
  insrc : Nat
  srcA : Nat
  srcB : Nat
  offset : Int
  scale : Int
  m : Nat
  ageLimit : Nat
  frzMode : Nat
  kdc : Int
  frzRef : Nat
  rsMode : Nat
  nsec : Nat
  tout : Nat
  angRef : Nat
  bankA : List Int
  bankB : List Int
  deriving DecidableEq, Repr

/-- The law of the angle from a boundary on: the boundary in ns, the angle there, its increment over a period of `p` ns, and whether the angle entry was good (R314). -/
structure AngLaw where
  b : Int
  theta : Int
  d : Int
  p : Nat
  ok : Bool
  deriving DecidableEq, Repr

/-- One filter chain (R311–R315). -/
structure Chain where
  cfg : Option ChainCfg
  /-- bank B is active. -/
  bankB : Bool
  /-- instants from which the other bank is active, of the swaps that no sample has reached (R313). -/
  swaps : List Int
  started : Bool
  window : List Int
  d : Int
  hist : List Int
  /-- delay line of the resampler, newest first. -/
  line : List Sample
  /-- samples awaiting the angle of their interval, each with whether its result came too late for the next intake (R314, R315). -/
  wait : List (Sample × Bool)
  /-- freeze bit as read at the intakes, with the instants from which it applies, newest first (R312). -/
  freeze : List (Int × Bool)
  sat : Bool
  /-- latest output; the one the next intake writes; and the one that came too late for it (R307, R315). -/
  latest : Option Sample
  out : Option Sample
  lateOut : Option Sample
  /-- angle at the last boundary, once read. -/
  theta : Option Int
  /-- laws of the angle, newest first: those of the last 256 periods (R314). -/
  laws : List AngLaw
  deriving DecidableEq, Repr

/-- State of a comparator (R316). -/
inductive RimState where
  | inside | above | below
  deriving DecidableEq, Repr

/-- One Rimstone comparator (R316). -/
structure Rim where
  enable : Bool
  chain : Bool
  src : Nat
  lo : Int
  hi : Int
  hys : Int
  state : RimState
  bad : Bool
  /-- whether it was outside its band, with the instants from which, newest first (R312). -/
  past : List (Int × Bool)
  deriving DecidableEq, Repr

/-- Stream state (R321). -/
inductive SvState where
  | free | waiting | active | lost | mismatch
  deriving DecidableEq, Repr

/-- Subscription of a sampled-value stream (R333). -/
structure SvSub where
  nch : Nat
  rate : Nat
  ageLimit : Nat
  appid : Nat
  ports : Nat
  lostMs : Nat
  dest : Nat
  confRev : Nat
  svId : List Byte
  deriving DecidableEq, Repr

/-- One ASDU of a sampled-value frame (R318). -/
structure SvAsdu where
  smpCnt : Nat
  smpSynch : Nat
  values : List (Int × Nat)
  deriving DecidableEq, Repr

/-- One stream (R319–R321). -/
structure SvStream where
  sub : Option SvSub
  state : SvState
  lastCnt : Option Nat
  loss : Nat
  lossRun : Bool
  unsync : Bool
  revBad : Bool
  /-- device time in ns of the last accepted sample. -/
  heardAt : Nat
  /-- latest sample for the next intake, with its instant in ns; and one too late for it (R319). -/
  sample : Option (SvAsdu × Int)
  lateSample : Option (SvAsdu × Int)
  deriving DecidableEq, Repr

/-- Trigger condition of an Echo record (R334). -/
structure EchoCond where
  kind : Nat
  which : Nat
  dir : Nat
  level : Nat
  deriving DecidableEq, Repr

/-- Configuration of an Echo slot (R334). -/
structure EchoCfg where
  clock : Nat
  div : Nat
  autoRearm : Bool
  trgOut : Bool
  line : Nat
  pre : Nat
  post : Nat
  conds : List EchoCond
  chans : List Nat
  ring : Nat
  seq : Nat
  deriving DecidableEq, Repr

/-- One sample of an Echo record: instant in ns of device time, boundary number, mask bits and values (R327). -/
structure EchoSample where
  t : Int
  k : Nat
  mask : List Bool
  values : List Int
  deriving DecidableEq, Repr

/-- A trigger of an Echo record: condition number, kind, f, instant in 2^−16 ns (R323), and the boundary it came after. -/
structure EchoTrig where
  cond : Nat
  kind : Nat
  f : Nat
  at16 : Int
  k : Nat
  deriving DecidableEq, Repr

/-- One Echo slot (R322–R327). -/
structure EchoSlot where
  cfg : Option EchoCfg
  /-- samples, newest first. -/
  samples : List EchoSample
  trig : Option EchoTrig
  /-- triggers met and not yet taken: the first to occur is the record's (R323). -/
  cands : List EchoTrig
  retrig : Nat
  safeSeen : Bool
  trunc : Bool
  /-- previous level of each BIT condition. -/
  bits : List Bool
  /-- periods to the next sample of a GALLERY clock. -/
  divCount : Nat
  /-- data of a complete record that waits to be posted, and of the last completed one. -/
  waiting : Option (List Byte)
  last : Option (List Byte)
  deriving DecidableEq, Repr

/-- A complete record: its slot, trigger instant in 2^−16 ns, TAG and data, and whether the slot waits for its posting (R326). -/
structure EchoRec where
  slot : Nat
  at16 : Int
  tag : Nat
  data : List Byte
  holds : Bool
  deriving DecidableEq, Repr

/-- End of a Siphon transfer: a range of the device's memory, or a peripheral (R329). -/
inductive SiphonEnd where
  | mem (addr : Nat)
  | port
  deriving DecidableEq, Repr

/-- A Siphon descriptor: source, destination and count in bytes, with the channel's programming (R329). -/
structure SiphonDesc where
  src : SiphonEnd
  dst : SiphonEnd
  count : Nat
  prio : Nat
  paced : Bool
  host : Bool
  linked : Bool
  deriving DecidableEq, Repr

/-- One Siphon channel (R329, R336). -/
structure SiphonCh where
  desc : Option SiphonDesc
  /-- descriptor that follows in a linked chain. -/
  next : Option SiphonDesc
  /-- bytes of the burst that the peripheral has requested and that waits its turn. -/
  burst : Option Nat
  /-- stopped on a bad descriptor. -/
  stopped : Bool
  remain : Nat
  prio : Nat
  active : Bool
  paced : Bool
  host : Bool
  linked : Bool
  doneCnt : Nat
  deriving DecidableEq, Repr

/-- Measurement (R302–R336). -/
structure MeasSt where
  adc : Option AdcCfg
  cores : List AdcCore
  seqs : List SeqRun
  results : List AdcResult
  urgentOrder : Nat
  mergeRun : Bool
  chains : List Chain
  rims : List Rim
  streams : List SvStream
  echo : List EchoSlot
  /-- complete records that wait to be posted, in order of completion (R326). -/
  echoOrder : List EchoRec
  /-- complete records that this unit of a TWIN has not posted because it does not serve, newest first (R326). -/
  echoKept : List EchoRec
  /-- the first of them has been handed to record ring 0. -/
  echoHanded : Bool
  echoWaitRun : Bool
  /-- TRG lines the device drives low (R324). -/
  trgDriven : List Bool
  siphon : List SiphonCh
  /-- channel that moved a burst last (R329). -/
  siphonTurn : Nat
  /-- memory that memory-to-memory copies work on (R329). -/
  siphonMem : List Host.Cell
  deriving DecidableEq, Repr

end Sys2Proof.Machine
end

