-- ==== Sys2Proof/Machine/TypesTb.lean ====
section
/-! DEFINITION. Machine/TypesTb.lean: the timebase, its servo, the PTP engine and the pulse ports (R210–R238). -/
set_option Elab.async false
namespace Sys2Proof.Machine

/-- Servo state SYNC (R225). -/
inductive Sync where
  | free | acquiring | locked | coasting
  deriving DecidableEq, Repr

/-- Timebase source (R225, R236). -/
inductive Src where
  | none | ptp | ppsi | pair
  deriving DecidableEq, Repr

/-- Convergence authorised by TB_CONVERGE (R227): SLEW with S in ppb, or STEP. -/
inductive Converge where
  | slew (s : Nat)
  | step
  deriving DecidableEq, Repr

/-- An entry of the transmit timestamp queue (R231): timestamp in 2^−16 ns of device time, port, tag, launch time in ns, and the command that asked for it. -/
structure TsEntry where
  stamp : Nat
  port : Nat
  tag : Nat
  launch : Nat
  /-- the requesting command, or the far channel and SEQ of a record. -/
  cmd : Option (Nat × Nat)
  chan : Nat
  seqNo : Nat
  deriving DecidableEq, Repr

/-- What an Announce message says of a master (R228). -/
structure Announce where
  gmIdentity : Nat
  prio1 : Nat
  clockClass : Nat
  accuracy : Nat
  variance : Nat
  prio2 : Nat
  stepsRemoved : Nat
  srcIdentity : Nat
  srcPort : Nat
  utcOffset : Nat
  logInterval : Int
  deriving DecidableEq, Repr

/-- A Sync whose Follow_Up is awaited: source, sequence, receive time and correction in 2^−16 ns (R228). -/
structure SyncPend where
  src : Nat
  seq : Nat
  rx : Nat
  corr : Int
  logInterval : Int
  deriving DecidableEq, Repr

/-- A peer delay measurement under way (R228): sequence, t1, and t4 with t2 once the response is in. Times in 2^−16 ns. -/
structure PdelayPend where
  seq : Nat
  t1 : Nat
  resp : Option (Nat × Nat × Int)
  deriving DecidableEq, Repr

/-- One PTP port (R228, R229). -/
structure PtpPort where
  master : Option Announce
  sync : Option SyncPend
  pdelay : Option PdelayPend
  /-- meanLinkDelay in 2^−16 ns. -/
  linkDelay : Int
  txSeq : Nat
  deriving DecidableEq, Repr

/-- The PTP engine (R228, R229). -/
structure PtpSt where
  ports : List PtpPort
  /-- port of the selected master. -/
  sel : Option Nat
  isMaster : Bool
  deriving DecidableEq, Repr

/-- The timebase (R210–R238). -/
structure TbSt where
  /-- TB cycles since reset at the last boundary, in ns of device rate. -/
  uptime : Nat
  /-- the first boundary after reset has come (R214). -/
  begun : Bool
  /-- period number k of the last boundary (R214). -/
  k : Nat
  /-- device time of the last boundary in ns since the epoch, in three copies (R211). -/
  timeA : Nat
  timeB : Nat
  timeC : Nat
  anchor : Nat
  /-- the boundaries before the last one, newest first, each with its device time as the counter then stood (R217). -/
  hist : List (Nat × Nat)
  p : Nat
  /-- the new P of a TB_PERIOD applied at this period's intake (R216). -/
  pNext : Option Nat
  /-- counter to be stepped by this much, or set to this time, at the next boundary (R215). -/
  stepDue : Option Int
  setDue : Option Nat
  /-- an acquisition is due with the step: TIME_VALID is set and the grid anchored at 0 (R225). -/
  acquireDue : Bool
  timeValid : Bool
  sync : Sync
  src : Src
  ports : Nat
  srcDue : Option (Src × Nat)
  /-- integrator and frequency correction in 2^−16 ppb (R224). -/
  i : Int
  y : Int
  nfracShadow : Int
  nfrac : Int
  /-- consecutive accepted samples within, and beyond, LOCK_TH. -/
  inRun : Nat
  outRun : Nat
  refusedRun : Bool
  refused : Nat
  /-- last θ in 2^−16 ns. -/
  theta : Int
  converge : Option Converge
  /-- uptime of the last accepted sample, and the nominal sample interval in ns. -/
  sampleAt : Nat
  ts : Nat
  secondsKnown : Bool
  needPosted : Bool
  pllLock : Bool
  /-- band entry of a relock in progress (R223). -/
  relock : Option Nat
  band : Nat
  /-- FMAX of the entry in force, or of a relock's target, as its relock found it (R221–R223), in 0.1 MHz. -/
  fmax : Nat
  tsq : List TsEntry
  tsqDropRun : Bool
  /-- TB cycles since reset at the last accepted PPSI edge, in ns (R232). -/
  ppsiAt : Option Nat
  ppso : Bool
  ptp : PtpSt
  deriving DecidableEq, Repr

end Sys2Proof.Machine
end

