-- ==== Sys2Proof/Machine/TypesNet.lean ====
section
/-! DEFINITION. Machine/TypesNet.lean: the Ethernet ports, PRP, GOOSE, far telegrams and CAN FD (R337–R370). -/
set_option Elab.async false
namespace Sys2Proof.Machine

/-- Kinds of frame in the order a port sends them (R339). -/
inductive TxKind where
  | safety | ptp | goose | far | timed | prp
  deriving DecidableEq, Repr

/-- Kinds of PTP message the device sends (R228). -/
inductive PtpTx where
  | pdelayReq | announce | sync | pdelayResp | followUp | pdelayRespFollowUp
  deriving DecidableEq, Repr

/-- A PTP message the device sends: its kind and the fields the device fills (R228). `stamp`, in 2^−16 ns, is the transmit timestamp that Follow_Up and
Pdelay_Resp_Follow_Up carry, and t2 of Pdelay_Resp; of the other kinds it is the instant at which the message leaves. -/
structure PtpOut where
  kind : PtpTx
  domain : Nat
  seq : Nat
  announce : Option Announce
  stamp : Nat
  corr : Int
  deriving DecidableEq, Repr

/-- A member value on the wire: type code, value, and the Quality member that follows it. -/
structure GooseVal where
  typ : Nat
  value : Nat
  qual : Option Nat
  deriving DecidableEq, Repr

/-- A GOOSE message as the device sends it (R343, R345): never simulated, its test flag as configured. -/
structure GooseOut where
  dest : Nat
  appid : Nat
  vlan : Nat
  gocbRef : List Byte
  datSet : List Byte
  goId : List Byte
  confRev : Nat
  stNum : Nat
  sqNum : Nat
  /-- timeAllowedToLive in ms. -/
  tal : Nat
  test : Bool
  sim : Bool
  ndsCom : Bool
  vals : List GooseVal
  deriving DecidableEq, Repr

/-- A safety telegram as queued; SEND_T is the boundary before its departure, the same in every copy, and fixed as the first leaves (R353, R403). -/
structure TelOut where
  chan : Nat
  own : Nat
  peer : Nat
  seq : Nat
  bits : Nat
  crc : Nat
  sendT : Option Nat
  deriving DecidableEq, Repr

/-- What a waiting frame is: bytes with RCT and FCS, a message whose encoding its standard gives, or a supervision frame; a GOOSE message with the sequence number of its RCT (R341). -/
inductive TxBody where
  | tel (o : TelOut)
  | raw (bytes : List Byte)
  | ptp (o : PtpOut)
  | goose (o : GooseOut) (rct : Option Nat)
  | prpSup
  deriving DecidableEq, Repr

/-- A frame waiting to leave a port (R339, R347, R348). -/
structure TxFrame where
  kind : TxKind
  /-- transmit instant in ns of device time, and order of effect. -/
  at_ : Nat
  order : Nat
  /-- ring and SEQ of the command that completes when it has left. -/
  cmd : Option (Nat × Nat)
  /-- its timestamp is recorded in record ring 1. -/
  tsRec : Bool
  /-- far channel and telegram SEQ. -/
  chan : Nat
  seqNo : Nat
  body : TxBody
  deriving DecidableEq, Repr

/-- A command whose frame leaves named ports: the ports, those it has left, whether timestamps are asked for or were lost, and the departures in 2^−16 ns (R348, R350). -/
structure TimedTx where
  ring : Nat
  seq : Nat
  ports : Nat
  left : Nat
  ts : Bool
  tsLost : Bool
  stampA : Option Nat
  stampB : Option Nat
  deriving DecidableEq, Repr

/-- One Ethernet port. -/
structure EthPort where
  link : Bool
  queue : List TxFrame
  deriving DecidableEq, Repr

/-- Entry of the PRP node table: source, last frame, sequence numbers in the drop window, newest first (R341). -/
structure PrpNode where
  src : Nat
  seen : List Nat
  deriving DecidableEq, Repr

/-- Member of a GOOSE dataset: reference word, TYPE, QUAL (R344). -/
structure GooseMember where
  ref : Nat
  typ : Nat
  qual : Bool
  deriving DecidableEq, Repr

/-- A GOOSE block as configured (R344). -/
structure GooseCfg where
  ports : Nat
  flags : Nat
  appid : Nat
  vlan : Nat
  dest : Nat
  confRev : Nat
  tMin : Nat
  tMax : Nat
  gocbRef : List Byte
  datSet : List Byte
  goId : List Byte
  members : List GooseMember
  deriving DecidableEq, Repr

/-- A published block (R345). -/
structure GoosePub where
  cfg : Option GooseCfg
  last : List GooseVal
  sent : Bool
  /-- a message departs at the next boundary. -/
  due : Bool
  stNum : Nat
  sqNum : Nat
  /-- interval to the next retransmission, and time of the last transmission since the last change, in µs. -/
  interval : Nat
  elapsed : Nat
  deriving DecidableEq, Repr

/-- Stream states of GOOSE (R321, R346). -/
inductive StreamState where
  | free | waiting | active | lost | mismatch
  deriving DecidableEq, Repr

/-- A subscribed block (R346). -/
structure GooseSub where
  cfg : Option GooseCfg
  state : StreamState
  last : Option (Nat × Nat)
  /-- timeAllowedToLive in ms of the last accepted message, and its device uptime. -/
  tal : Nat
  heardAt : Nat
  loss : Nat
  lossRun : Bool
  waiting : Option (List GooseVal)
  deriving DecidableEq, Repr

/-- FAR_CONFIG in force (R368). -/
structure FarCfg where
  txEn : Bool
  rxEn : Bool
  prp : Bool
  tsRec : Bool
  ports : Nat
  count : Nat
  linkId : Nat
  dest : Nat
  interval : Nat
  lossMs : Nat
  ageLimit : Nat
  vlan : Nat
  sources : List Nat
  formats : List Nat
  deriving DecidableEq, Repr

/-- One far channel (R349–R352). -/
structure FarCh where
  cfg : Option FarCfg
  txSeq : Nat
  state : Nat
  lastSeq : Option Nat
  loss : Nat
  lossRun : Bool
  noTime : Bool
  heardAt : Nat
  latency : Option Int
  /-- (VALUE, QUALITY) records of the latest DATA for the next intake, and of one that came too late for it (R351). -/
  data : Option (List (Nat × Nat))
  lateData : Option (List (Nat × Nat))
  deriving DecidableEq, Repr

/-- A CAN frame: identifier word as RX_ID, data length, ESI, data, nanoseconds of its SOF (R360). -/
structure CanFrame where
  idWord : Nat
  esi : Bool
  remote : Bool
  data : List Byte
  sof : Nat
  deriving DecidableEq, Repr

/-- Filter of a receive mailbox (R368). -/
structure CanFilter where
  id : Nat
  ide : Bool
  enable : Bool
  mask : Nat
  record : Bool
  deriving DecidableEq, Repr

/-- Bit timing (R356). -/
structure CanTiming where
  nbrp : Nat
  nsjw : Nat
  ntseg1 : Nat
  ntseg2 : Nat
  dbrp : Nat
  dtseg1 : Nat
  dtseg2 : Nat
  dsjw : Nat
  tdco : Nat
  deriving DecidableEq, Repr

/-- CAN_CONFIG in force (R368). -/
structure CanCfg where
  mode : Nat
  fdEn : Bool
  rxAll : Bool
  ageLimit : Nat
  timing : CanTiming
  filters : List CanFilter
  deriving DecidableEq, Repr

/-- A receive mailbox: the latest complete frame, frames replaced, frames received, whether any was ever written, and silence reported (R359, R360). -/
structure Mailbox where
  frame : Option CanFrame
  overwrite : Nat
  count : Nat
  everRx : Bool
  silent : Bool
  deriving DecidableEq, Repr

/-- A frame queued by CAN_TX (R363, R364). -/
structure CanTx where
  ring : Nat
  seq : Nat
  idWord : Nat
  data : List Byte
  /-- SOF sent. -/
  started : Bool
  /-- the CAN_CANCELs that wait on the outcome: ring and SEQ of each. -/
  cancel : List (Nat × Nat)
  deriving DecidableEq, Repr

/-- Entry of a schedule (R368). -/
structure CanEntry where
  kind : Nat
  which : Nat
  ofs : Nat
  cycleMask : Nat
  deriving DecidableEq, Repr

/-- Transmit template (R361, R368). -/
structure CanTemplate where
  idWord : Nat
  len : Nat
  indices : List Nat
  deriving DecidableEq, Repr

/-- A schedule matrix (R361, R368). -/
structure CanSched where
  cycles : Nat
  len : Nat
  guardUs : Nat
  entries : List CanEntry
  templates : List CanTemplate
  deriving DecidableEq, Repr

/-- CAN_AUTOBAUD under way (R365). -/
structure CanAuto where
  nominal : List CanTiming
  data : List CanTiming
  ring : Nat
  seq : Nat
  idx : Nat
  good : Nat
  /-- nominal set found. -/
  found : Bool
  dataIdx : Nat
  deriving DecidableEq, Repr

/-- One CAN channel (R355–R365). -/
structure CanCh where
  cfg : Option CanCfg
  /-- timing found by CAN_AUTOBAUD, in force until a CAN_CONFIG. -/
  timing : Option CanTiming
  state : Nat
  listen : Bool
  txErr : Nat
  rxErr : Nat
  boxes : List Mailbox
  txq : List CanTx
  sched : Option CanSched
  /-- a CAN_SCHEDULE that waits for cycle 0 with its ring and SEQ, and the one to be completed at the next boundary. -/
  schedNext : Option (CanSched × Nat × Nat)
  schedDone : Option (Nat × Nat)
  /-- start of the present basic cycle in ns of device time, and its number. -/
  base : Int
  cycle : Nat
  /-- ARBITRATING window open. -/
  window : Bool
  /-- template of the EXCLUSIVE frame under way, whether its window has ended, and the template of one that waits in its window for the bus. -/
  exclusive : Option Nat
  exclOver : Bool
  exclWait : Option Nat
  /-- frames a mailbox had received at the previous instant of an RX_CHECK entry, and its run of misses. -/
  checks : List (Option Nat × Bool)
  /-- data of the templates as of the latest snapshot, and of those of the schedule that waits. -/
  tplData : List (List Byte)
  tplNext : List (List Byte)
  auto : Option CanAuto
  hold : List CanFrame
  missRun : Bool
  dropRun : Bool
  deriving DecidableEq, Repr

/-- Station networks (R337–R370). -/
structure NetSt where
  ports : List EthPort
  txOrder : Nat
  timed : List TimedTx
  prpSeq : Nat
  nodes : List PrpNode
  prpFullRun : Bool
  pubs : List GoosePub
  subs : List GooseSub
  far : List FarCh
  can : List CanCh
  deriving DecidableEq, Repr

end Sys2Proof.Machine
end

