-- ==== Sys2Proof/Machine/TypesFlow.lean ====
section
/-! DEFINITION. Machine/TypesFlow.lean: the submodule pool, the arms and the placement of a period (R146–R164). -/
set_option Elab.async false
namespace Sys2Proof.Machine

/-- POOL_STATE of a submodule (R146). -/
inductive Pool where
  | uncovered | absent | joining | available | suspect | retired | excluded
  deriving DecidableEq, Repr

/-- What Flowstone keeps for one submodule (R146–R161). -/
structure Sm where
  pool : Pool
  /-- final[i]: the state code it holds at the end of the next period (R155). -/
  final : Nat
  /-- the final state in force when the next report is sampled: that of the cut before the last (R147). -/
  expect : Nat
  cause : Nat
  /-- consecutive periods of suspicion, and of none (R149). -/
  suspectFor : Nat
  cleanFor : Nat
  /-- consecutive periods in which the reported state differed (R147). -/
  mismatch : Nat
  /-- 42-bit switching count (R161). -/
  count : Nat
  /-- F_i in mHz with 16 fraction bits (R161). -/
  favg : Nat
  /-- the bypass variant the next departure from insertion uses is BYPASS_ALT (R156). -/
  altNext : Bool
  stranded : Bool
  deriving DecidableEq, Repr

/-- One entry of an arm's ranking: submodule, SM_VCAP, key, and band (R154). -/
structure RankE where
  g : Nat
  u : Int
  key : Int
  band : Int
  deriving DecidableEq, Repr

/-- What Flowstone keeps for one arm (R148–R173). -/
structure Arm where
  h : Int
  /-- carried residual in submodule units, Q32.32 (R155). -/
  rho : Int
  /-- c[+1] and c[−1] (R154). -/
  cPos : Int
  cNeg : Int
  fsw : Nat
  sticky : Nat
  live : Nat
  mass : Bool
  spread : Bool
  belowWarn : Bool
  belowZero : Bool
  /-- REDUND_LOW and CAPABILITY_LOST have been posted, and ARM_REDUND has not risen above the threshold since. -/
  warnPosted : Bool
  lostPosted : Bool
  idirBad : Bool
  /-- sign of ARM_IARM at the last ranking: 1, −1, or 0 where it was 0 or not good (R158). -/
  idir : Int
  rankPos : List RankE
  rankNeg : List RankE
  deriving DecidableEq, Repr

/-- A command word of a cut for one submodule: state code and edge offset in 0.25 ns (R155, R185). -/
structure SmCmd where
  g : Nat
  state : Nat
  offset : Nat
  deriving DecidableEq, Repr

/-- Flowstone (R146–R168). -/
structure FlowSt where
  /-- pool entries by submodule number; an unlisted one is `smReset`. -/
  sms : List (Nat × Sm)
  arms : List Arm
  /-- the cut of the period is made as in BLOCKED, as seen at its intake (R379, R402, R470). -/
  blockDue : Bool
  /-- F_i has followed the period (R161). -/
  averaged : Bool
  deriving DecidableEq, Repr

end Sys2Proof.Machine
end

