-- ==== Sys2Proof/Machine/TypesLoop.lean ====
section
/-! DEFINITION. Machine/TypesLoop.lean: the converter description record, the attachment of lanes, and the loop engine's graph and block states (R12–R71). -/
set_option Elab.async false
namespace Sys2Proof.Machine

/-- Arm entry of the converter description record (R16). -/
structure ArmRec where
  smCount : Nat
  smType : Nat
  required : Nat
  vNom : Nat
  cSm : Nat
  vBatt : Nat
  deriving DecidableEq, Repr

/-- One segment of a hub entry (R18). -/
structure Segment where
  count : Nat
  firstPos : Nat
  arm : Nat
  deriving DecidableEq, Repr

/-- Hub entry of the converter description record (R17). -/
structure HubRec where
  uid : Nat
  segCount : Nat
  prefLane : Nat
  segs : List Segment
  deriving DecidableEq, Repr

/-- The active converter description record (R15). -/
structure Cdr where
  topology : Nat
  armCount : Nat
  hubCount : Nat
  flags : Nat
  sBase : Nat
  vBaseAc : Nat
  vBaseDc : Nat
  fBase : Nat
  lArm : Nat
  rArm : Nat
  configId : Nat
  ageFast : Nat
  ageSlow : Nat
  arms : List ArmRec
  hubs : List HubRec
  deriving DecidableEq, Repr

/-- Attachment state of a lane (R31). -/
inductive Attach where
  | unbound | waiting | refused | bound
  deriving DecidableEq, Repr

/-- The converter as the device knows it: the record, its staging area and the forced entries (R19–R36). -/
structure ConvSt where
  staged : Option (List Byte)
  active : Option Cdr
  /-- SHA-256 of the record as committed (R22). -/
  digest : List Byte
  /-- lane to which each hub entry is bound; `none` while LOST or never bound. -/
  bind : List (Option Nat)
  /-- entries bound to no lane are to be HELD at the next boundary (R32). -/
  heldDue : Bool
  /-- entries forced by the host, and by debug (R30, R466). -/
  forcedHost : List Nat
  forcedDebug : List Nat
  deriving DecidableEq, Repr

/-- Port word of a block (R42). -/
structure Port where
  index : Nat
  prev : Bool
  none : Bool
  deriving DecidableEq, Repr

/-- Block record of a graph (R41). -/
structure Block where
  typ : Nat
  paramIdx : Nat
  paramCount : Nat
  pinLane : Nat
  rateDiv : Nat
  ratePhase : Nat
  ins : List Port
  outs : List Port
  deriving DecidableEq, Repr

/-- Signal declaration (R43). -/
structure SigDecl where
  index : Nat
  fmt : Nat
  ageLimit : Nat
  initValid : Bool
  init : Word
  deriving DecidableEq, Repr

/-- Where R51 put a block: lane, modelled start step and finish step. -/
structure Place where
  lane : Nat
  start : Nat
  finish : Nat
  deriving DecidableEq, Repr

/-- The committed graph (R40–R51, R70). -/
structure Graph where
  digest : List Byte
  graphId : Nat
  configId : Nat
  replaceEn : Bool
  blocks : List Block
  params : List Word
  decls : List SigDecl
  /-- topological order of R51. -/
  order : List Nat
  places : List Place
  /-- home cluster of every Gallery index the graph names (R166). -/
  homes : List (Nat × Nat)
  steps : Nat
  /-- LOOP_LANES when the placement was made (R62). -/
  lanesAt : Nat
  /-- boundary at which evaluation starts (R48). -/
  startAt : Nat
  lastNs : Nat
  minSlack : Int
  overruns : Nat
  replacements : Nat
  deriving DecidableEq, Repr

/-- A value a block has computed for one of its outputs in the period (R55, R57). -/
structure OutVal where
  index : Nat
  value : Word
  quality : Byte
  sat : Bool
  deriving DecidableEq, Repr

/-- The evaluation of a period between intake and output commit (R54, R55). -/
structure Eval where
  period : Nat
  outs : List OutVal
  /-- block states and sticky flags at the end of the period, per block. -/
  states : List (List Int)
  sticky : List Word
  /-- blocks that ran, by INST, in their order of evaluation. -/
  ran : List Nat
  deriving DecidableEq, Repr

/-- The loop engine (R38–R71). -/
structure LoopSt where
  staged : Option (List Byte)
  graph : Option Graph
  states : List (List Int)
  sticky : List Word
  eval : Option Eval
  /-- period k − 1 was abandoned (R60). -/
  overrunLast : Bool
  /-- what the period just ended gives the servo: `none` no evaluation, else its slack in ns (R64). -/
  slack : Option Int
  highCount : Nat
  /-- periods since VCORE_CEILING was last posted, saturating at 4,096 (R65). -/
  ceilSince : Nat
  /-- a committed graph has been evaluated since reset (R64). -/
  evaluated : Bool
  deriving DecidableEq, Repr

end Sys2Proof.Machine
end

