-- ==== Sys2Proof/Machine/TypesMode.lean ====
section
/-! DEFINITION. Machine/TypesMode.lean: the mode manager and the set-point slots (R126–R138). -/
set_option Elab.async false
namespace Sys2Proof.Machine

/-- Converter modes (R126). -/
inductive Mode where
  | blocked | precharge | deblocked | gridForming | island | blackStart | synchronizing | manual
  deriving DecidableEq, Repr

/-- One bound bit of the mode manager (R129, R136): INDEX and BIT, `none` for unbound; the previous good value;
whether the loss of the bit has been reported; and whether the next good value is the first since MODE_CONFIG. -/
structure ModeBit where
  ref : Option (Nat × Nat)
  good : Option Bool
  lost : Bool
  deriving DecidableEq, Repr

/-- A bound set-point slot (R133, R138). -/
structure SpSlot where
  index : Nat
  lo : Int
  hi : Int
  /-- the value the mechanism produces, and its sticky SAT. -/
  value : Int
  sat : Bool
  deriving DecidableEq, Repr

/-- The mode manager and the set-point mechanism (R126–R138). -/
structure ModeSt where
  mode : Mode
  limited : Bool
  limitedPeriods : Nat
  configured : Bool
  /-- BRK, GRIDOK, LIMIT, PRECH_OK, BS_DONE. -/
  bits : List ModeBit
  /-- SIG_CONV_MODE is still to be written once after an entry into SAFE (R127). -/
  safeWrite : Bool
  slots : List (Option SpSlot)
  deriving DecidableEq, Repr

end Sys2Proof.Machine
end

