-- ==== Sys2Proof/Machine/TypesPair.lean ====
section
/-! DEFINITION. Machine/TypesPair.lean: Morkai pairing (R276–R301). -/
set_option Elab.async false
namespace Sys2Proof.Machine

/-- Pair roles (R281). -/
inductive Role where
  | solo | senior | twin | shadow | deposed
  deriving DecidableEq, Repr

/-- One pair-link path (R276, R278). -/
structure PathSt where
  lock : Bool
  step : Nat
  trainCount : Nat
  farReady : Bool
  calFailed : Bool
  delay : Nat
  inService : Bool
  /-- a heartbeat of this boundary has come on the path, and consecutive boundaries without one. -/
  heard : Bool
  missed : Nat
  /-- the end of the partner's stream of this period has come on the path (R285, R301). -/
  stream : Bool
  /-- arrival of the partner's last heartbeat, in 0.25 ns of device time. -/
  rxT : Nat
  /-- departures of this unit's heartbeats of the last and the previous boundary, in 0.25 ns. -/
  txT : Nat
  txPrev : Nat
  /-- it has been in service since reset. -/
  wasUp : Bool
  deriving DecidableEq, Repr

/-- What the partner's last heartbeat says (R279). -/
structure Partner where
  role : Nat
  claim : Nat
  server : Bool
  devState : Nat
  compat : Nat
  bound : Nat
  epoch : Nat
  cdrTag : Nat
  graphTag : Nat
  deriving DecidableEq, Repr

/-- A CUT, own or the partner's (R284). -/
structure CutMsg where
  digest : BitVec 64
  abandoned : Bool
  deriving DecidableEq, Repr

/-- A journal copy of a partner's command (R292): the 64 descriptor bytes, payload bytes, whether complete, and F once POSTED. -/
structure JournalCopy where
  ring : Nat
  desc : List Byte
  payload : List Byte
  complete : Bool
  f : Option Nat
  deriving DecidableEq, Repr

/-- The senior's state as its image carries it (R287, R289). Its byte layout is internal to the device. -/
structure Image where
  k : Nat
  epoch : Nat
  digest : BitVec 64
  gallery : List (Nat × GEntry)
  conv : ConvSt
  loop : LoopSt
  mode : ModeSt
  flow : FlowSt
  host : HostSt
  agreed : List Nat
  /-- publishers, SEQ values, subscriptions and transmit queues, which both units keep (R354). -/
  net : NetSt
  /-- the state set as the digest last covered it. -/
  base : List (Nat × Nat)
  inRun : Bool
  deriving DecidableEq, Repr

/-- A RECEIPT, own or the partner's (R279, R286). -/
structure Receipt where
  lane : Nat
  entry : Nat
  crc : Nat
  deriving DecidableEq, Repr

/-- A forwarded report frame, its CRC restored, and when its start and its last block arrived (R286). -/
structure Fwd where
  lane : Nat
  bytes : List Byte
  startQ : Int
  lastQ : Int
  deriving DecidableEq, Repr

/-- A copy under way (R289): on the shadow's side the chunks received, by number, and the image once it is whole. -/
structure CopySt where
  chunks : List (Nat × List Byte)
  total : Nat
  image : Option Image
  attempts : Nat
  /-- uptime at its start. -/
  since : Nat
  /-- matching digests counted in step 3, once step 2 is complete. -/
  verified : Option Nat
  /-- the senior's state after the change records received so far. -/
  changed : Option Image
  /-- at the senior: the shadow has sent its first CUT. -/
  lockstep : Bool
  deriving DecidableEq, Repr

/-- What a TWIN needs to take a committed period back (R61, R284). -/
structure Undo where
  gal : List (Nat × GEntry)
  loop : LoopSt
  digest : BitVec 64
  base : List (Nat × Nat)
  deriving DecidableEq, Repr

/-- A shadow's own state as it was before it took over the copied one (R290). -/
structure OwnState where
  gal : List (Nat × GEntry)
  conv : ConvSt
  loop : LoopSt
  mode : ModeSt
  flow : FlowSt
  net : NetSt
  epoch : Nat
  digest : BitVec 64
  base : List (Nat × Nat)
  deriving DecidableEq, Repr

/-- Morkai pairing (R276–R301). -/
structure PairSt where
  /-- PAIRID strap: 0 A, 1 B (R276). -/
  unit : Nat
  role : Role
  /-- a change of role that takes effect at the next boundary (R282). -/
  roleDue : Option Role
  epoch : Nat
  claim : Nat
  acceptJoin : Bool
  paths : List PathSt
  partner : Option Partner
  /-- a heartbeat has arrived for this boundary, and boundaries missed in a row. -/
  heard : Bool
  missed : Nat
  /-- a heartbeat came at the previous boundary (R280, R294). -/
  heardPrev : Bool
  safeSeen : Bool
  /-- messages of this boundary already taken: TYPE, SEQ and key (R278). -/
  taken : List (Nat × Nat × Nat)
  /-- those of the boundary before: a second copy may come after a boundary. -/
  takenPrev : List (Nat × Nat × Nat)
  digest : BitVec 64
  /-- the state set as the digest last covered it, by the model's number of each place (R287). -/
  base : List (Nat × Nat)
  agreed : List Nat
  own : List (Nat × GEntry)
  ownLate : List (Nat × GEntry)
  cutAgree : Bool
  deferRun : Bool
  theirs : List (Nat × GEntry)
  theirsEnd : Bool
  receiptsOwn : List Receipt
  receiptsTheirs : List Receipt
  fwd : Option Fwd
  cutOwn : Option CutMsg
  cutTheirs : Option CutMsg
  /-- downlink held until the partner's CUT (R284). -/
  held : Bool
  /-- in TWIN, what stood before this period's output commit, while the partner may still abandon the period (R61). -/
  undo : Option Undo
  journal : List JournalCopy
  server : Bool
  readFaults : Nat
  /-- the partner was lost while serving, and boundaries since (R293). -/
  takeover : Option Nat
  /-- the rings it serves are those of the pair. -/
  pairRings : Bool
  /-- it has given up service to the partner, which is not yet seen to serve. -/
  yielded : Bool
  /-- its own state, while it holds the copied one. -/
  ownState : Option OwnState
  /-- the ring service of the pair, as the copy carried it (R291). -/
  hostCfg : Option HostSt
  copy : Option CopySt
  copyAttempts : Nat
  twinAt : Nat
  lastSrc : Option (Nat × Nat)
  /-- the local outputs have passed to this unit at a boundary (R294). -/
  outputsOn : Bool
  deriving DecidableEq, Repr

end Sys2Proof.Machine
end

