-- ==== Sys2Proof/Machine/TypesPwm.lean ====
section
/-! DEFINITION. Machine/TypesPwm.lean: the PWM channels, the trip inputs and the Lantern drivers (R371–R389). -/
set_option Elab.async false
namespace Sys2Proof.Machine

/-- One PWM channel (R371–R377, R387). Times in ticks of 62.5 ps, device time. -/
structure PwmCh where
  /-- compare the graph last transferred (R374); with NONE set the shadow is CMP_FIX. -/
  cmpShadow : Nat
  /-- active values, taken at the last reload (R373). -/
  cmp : Nat
  per : Nat
  phase : Nat
  trgCmp : Nat
  trgDiv : Nat
  /-- start of the running carrier. -/
  startAt : Option Nat
  /-- number of the boundary of the last restart, or of the last before the channel was enabled: the next restart is of a later one (R371). -/
  restartK : Option Nat
  /-- the reference signal. -/
  ref : Bool
  /-- levels the reference or an override asks for, dead times running, and levels before the gating of R294 and R429. -/
  wantH : Bool
  wantL : Bool
  deadH : Bool
  deadL : Bool
  h : Bool
  l : Bool
  /-- instants, in ticks, at which the sides last turned off (R376). -/
  offH : Nat
  offL : Nat
  /-- forced levels; and a release, or a force that came with a reload, which acts at the first reload after the PW cycle named (R373, R387). -/
  forced : Option (Bool × Bool)
  pend : Option (Nat × Option (Bool × Bool))
  /-- a trip has been cleared: the outputs resume at the next carrier start (R381). -/
  resuming : Bool
  /-- carriers since the reload that took the trigger values, the carrier of that reload the first (R377). -/
  carriers : Nat
  cutRun : Bool
  /-- the last duty transfer found the entry unusable. -/
  dutyBad : Bool
  deriving DecidableEq, Repr

/-- Phase of a refresh (R384): none; the high side off for DT_L; the low side on for LS_MIN; off again for DT_H. -/
inductive Refresh where
  | none | before | pulse | after
  deriving DecidableEq, Repr

/-- One Lantern driver: its bootstrap voltage is low, which holds the high side off (R383), recovered but waiting for a carrier start, and the phase of its refresh. -/
structure Lantern where
  uvHold : Bool
  recovered : Bool
  refresh : Refresh
  deriving DecidableEq, Repr

/-- PWM, trips and Lantern (R371–R389). -/
structure PwmSt where
  chans : List PwmCh
  lan : List Lantern
  /-- trip latches and inputs low after their filter, bit t for TRIPt_N (R378). -/
  latched : Nat
  active : Nat
  /-- TRIP_LATCHED and LANTERN_SHORT events that wait for the next boundary: input and ns; driver, side (0 high) and ns. -/
  tripEv : List (Nat × Nat)
  shortEv : List (Nat × Nat × Nat)
  deriving DecidableEq, Repr

end Sys2Proof.Machine
end

