-- ==== Sys2Proof/Machine/TypesSafe.lean ====
section
/-! DEFINITION. Machine/TypesSafe.lean: the personnel safety subsystem (R390–R416). -/
set_option Elab.async false
namespace Sys2Proof.Machine

/-- Input of the safety configuration (R411). -/
structure SafeInCfg where
  en : Bool
  startTest : Bool
  periodic : Bool
  tpA : Nat
  tpB : Nat
  filt : Nat
  discT : Nat
  deriving DecidableEq, Repr

/-- Output of the safety configuration (R411). -/
structure SafeOutCfg where
  en : Bool
  auto : Bool
  conv : Bool
  inMask : Nat
  telMask : Nat
  remoteReq : Nat
  deriving DecidableEq, Repr

/-- Telegram channel of the safety configuration (R411). -/
structure SafeTelCfg where
  tx : Bool
  rx : Bool
  ports : Nat
  txMs : Nat
  peer : Nat
  wdMs : Nat
  cmpWin : Nat
  maxAge : Nat
  deriving DecidableEq, Repr

/-- The safety configuration in force (R411). -/
structure SafeCfg where
  ownId : Nat
  tpWidth : Nat
  tpPeriod : Nat
  soTest : Nat
  grace : Nat
  testInt : Nat
  ins : List SafeInCfg
  outs : List SafeOutCfg
  tels : List SafeTelCfg
  crc : Nat
  deriving DecidableEq, Repr

/-- One channel of an input: closed, safety cycles low outside its windows, own test windows passed in a row, and its level in the last cycle outside every window (R393, R395). -/
structure SafeChan where
  closed : Bool
  lowFor : Nat
  passed : Nat
  high : Bool
  deriving DecidableEq, Repr

/-- One dual-channel input (R393–R399). -/
structure SafeIn where
  a : SafeChan
  b : SafeChan
  /-- cycles the discrepancy has run, `none` while the channels agree (R394). -/
  disc : Option Nat
  /-- the channel that is, or was last, closed in the discrepancy: 0 A, 1 B. -/
  discChan : Nat
  discLatch : Bool
  tpLatch : Bool
  /-- since the DISCREPANCY latch: both open together seen, then both closed together seen. -/
  openSeen : Bool
  closedSeen : Bool
  untested : Bool
  /-- cycles open together, and cycles since the first channel closed again (R398). -/
  openFor : Nat
  closing : Option Nat
  due : Bool
  /-- hours since the last passed test (R399). -/
  hours : Nat
  deriving DecidableEq, Repr

/-- One safe output (R400, R401). -/
structure SafeOut where
  on : Bool
  /-- it awaits a reset by R407, and AUTO_RESET does not stand in for one. -/
  needsReset : Bool
  noAuto : Bool
  outLatch : Bool
  /-- a self-test since the latch found the readback correct. -/
  clearable : Bool
  /-- the latch came while a self-test was under way, whose end does not count (R407). -/
  midRun : Bool
  deriving DecidableEq, Repr

/-- A first copy of a telegram that waits for its twin: SEQ, PORT, the bytes that must agree, and its DATA bits (R405). -/
structure TelCopy where
  seq : Nat
  port : Nat
  body : List Byte
  data : Nat
  deriving DecidableEq, Repr

/-- One telegram channel (R403–R406). -/
structure SafeTel where
  valid : Bool
  last : Nat
  /-- bits [63:0] of the DATA in force. -/
  data : Nat
  /-- first copies that wait for their twins within CMP_WIN, oldest first (R405). -/
  copies : List TelCopy
  /-- not valid until a SEQ arrives whose copies agree. -/
  disagree : Bool
  singleRun : Bool
  txSeq : Nat
  /-- bits [18:0] last sent. -/
  sent : Nat
  deriving DecidableEq, Repr

/-- A self-test run: the command that waits for it, and the CRC a SAFETY_CONFIG returns (R411, R412). -/
structure SelfTest where
  ring : Nat
  seq : Nat
  crc : Option Nat
  deriving DecidableEq, Repr

/-- A SAFETY_RESET: its ring and SEQ, OUT_MASK and CLEAR_FAULT (R407). -/
structure SafeReset where
  ring : Nat
  seq : Nat
  mask : Nat
  clear : Bool
  deriving DecidableEq, Repr

/-- The safety subsystem (R390–R416). -/
structure SafeSt where
  cfg : Option SafeCfg
  ins : List SafeIn
  outs : List SafeOut
  tels : List SafeTel
  internal : Bool
  /-- consecutive cycles in which the results of A and B differed (R391). -/
  differ : Nat
  selfTest : List SelfTest
  selfTestOk : Bool
  /-- a test pulse has found a fault during the self-test under way (R412). -/
  runFound : Bool
  /-- SAFETY_RESET commands that passed at their intake and act at the next cycle (R407). -/
  resets : List SafeReset
  /-- levels at the balls in the last cycle: SIA, SIB, readbacks, STP (R416). -/
  sia : Nat
  sib : Nat
  soaRb : Nat
  sobRb : Nat
  stp : Nat
  deriving DecidableEq, Repr

end Sys2Proof.Machine
end

