-- ==== Sys2Proof/Machine/TypesSec.lean ====
section
/-! DEFINITION. Machine/TypesSec.lean: power, boot, security and the Luwin debug port (R434–R474). -/
set_option Elab.async false
namespace Sys2Proof.Machine

/-- An entry of the VCO band table (R221). -/
structure BandEntry where
  fmin : Nat
  fmax : Nat
  cap : Nat
  valid : Bool
  deriving DecidableEq, Repr

/-- Calibration and straps, read at the release of reset (R221, R276, R433, R445): the words of the registers they fill. -/
structure Straps where
  pairId : Nat
  bootSel : Nat
  stepping : Nat
  grade : Nat
  serial : Nat
  crystal : Bool
  macA : Nat
  macB : Nat
  bands : List BandEntry
  deriving DecidableEq, Repr

/-- Power and reset (R434–R444). -/
structure PwrSt where
  /-- the rails are up (R437 step 3). -/
  rails : Bool
  /-- VIN is above its rising threshold. -/
  vin : Bool
  /-- level of WAKE as last seen. -/
  wake : Bool
  /-- a crystal is fitted at DXI/DXO (R440). -/
  crystal : Bool
  /-- reset is held: RST_N low, or power-up not complete. -/
  inReset : Bool
  /-- the device is off for a thermal shutdown (R436). -/
  hotOff : Bool
  /-- SLEEP has been set and is acted on at the next boundary (R439). -/
  sleepDue : Bool
  /-- SLEEP has been set again while it was set: a further request (R426). -/
  sleepAgain : Bool
  /-- the Stewards are held after a lockstep mismatch (R443). -/
  held : Bool
  /-- measured VIN in 2 mV, VMID in mV, Tj of both dies (PWR_MEAS). -/
  vinMeas : Nat
  vmidMeas : Nat
  tjCtrl : Int
  tjPwr : Int
  /-- VIN has been found below VIN_WARN, and a die above T_WARN, since it was last found good (R436). -/
  lowSeen : Bool
  hotCtrl : Bool
  hotPwr : Bool
  straps : Straps
  /-- resets so far, each of which samples the straps (the model's own field, R445). -/
  resets : Nat
  deriving DecidableEq, Repr

/-- State of a key slot (R453). -/
inductive KeyState where
  | empty | valid | revoked
  deriving DecidableEq, Repr

/-- A public-key slot (R453). -/
structure KeySlot where
  state : KeyState
  key : List Byte
  deriving DecidableEq, Repr

/-- Boot control record (R446). -/
structure Bcr where
  active : Nat
  trial : Bool
  tries : Nat
  flashMode : Nat
  generation : Nat
  /-- the copy it was read from or last written to: 0 or 1. -/
  copy : Nat
  deriving DecidableEq, Repr

/-- The running image as its header states it (R447). -/
structure RunImage where
  svn : Nat
  compat : Nat
  version : Nat
  /-- SHA-256 of the header (R456). -/
  digest : List Byte
  deriving DecidableEq, Repr

/-- A quote under way: its command and its 256 bytes (R456, R457). -/
structure QuoteRun where
  ring : Nat
  seq : Nat
  body : List Byte
  /-- the signature is computed and the record handed to its ring. -/
  signed : Bool
  deriving DecidableEq, Repr

/-- Boot and security (R445–R461). -/
structure SecSt where
  slots : List KeySlot
  ownerCosign : Bool
  deny1 : Bool
  deny2 : Bool
  deny3 : Bool
  svnMin : Nat
  stepsLeft : Nat
  bcr : Option Bcr
  /-- BOOT_SLOT: 0 A, 1 B, 2 host memory, 3 none. -/
  bootSlot : Nat
  image : Option RunImage
  /-- IMAGE_STAGE under way: its command and image; and the staged image's SVN. -/
  staging : Option (Nat × Nat × List Byte)
  staged : Option Nat
  activateDue : Bool
  quote : Option QuoteRun
  certSent : Bool
  idKey : List Byte
  /-- hosted boot: the ROM serves ring 0 alone (R450). -/
  romRing : Bool
  deriving DecidableEq, Repr

/-- The engine as the debugger sees it (R467). -/
inductive Engine where
  | running | halted | blockStep
  deriving DecidableEq, Repr

/-- A period under evaluation block by block: the evaluation so far, the due blocks left, and the Gallery and P as its intake took them (R39, R54, R467). -/
structure StepRun where
  eval : Eval
  rest : List Nat
  gal : List (Nat × GEntry)
  p : Nat
  deriving DecidableEq, Repr

/-- Hits of a breakpoint, whether its condition held at the last commit, and the entry's value then (R469). -/
structure BpState where
  hits : Nat
  held : Bool
  prev : Option Word
  deriving DecidableEq, Repr

/-- The Luwin port and the debug unit (R458, R462–R474). -/
structure DbgSt where
  level : Nat
  highest : Nat
  remain : Nat
  /-- the challenge in force, and the one DBG_CHALLENGE shows. -/
  challenge : Option (List Byte)
  shown : List Byte
  challengeCount : Nat
  tokenRes : Nat
  /-- bytes written to the token buffer, by offset. -/
  token : List (Nat × Byte)
  engine : Engine
  stepRun : Option StepRun
  /-- control bits that act at the next intake: a halt with its cause, a period step, a block step. -/
  haltDue : Option Nat
  stepDue : Bool
  blockDue : Bool
  /-- BLOCK_STEP finishes its period at the deadline and enters this state. -/
  finishTo : Option Engine
  haltedPeriods : Nat
  haltBlocked : Bool
  haltAt : Nat
  bps : List BpState
  forceDue : List (Nat × Word)
  releaseDue : Bool
  /-- words the debugger wrote into device memory other than the Gallery (R465), by address. -/
  mem : List (Nat × Word)
  /-- latched high word of a Gallery entry: its index and word (R466). -/
  latch : Option (Nat × Word)
  mdioBusy : Bool
  /-- GO has been written again while a frame is in progress (R426). -/
  mdioAgain : Bool
  /-- a level above 0 was ended by a reset, and DEBUG_ENDED is posted when the reset is released (R458). -/
  ended : Bool
  /-- time since reset of the boundary after which LWCK edges were last seen. -/
  probeAt : Option Nat
  deriving DecidableEq, Repr

end Sys2Proof.Machine
end

