-- ==== Sys2Proof/Machine/TypesCmd.lean ====
section
/-! DEFINITION. Machine/TypesCmd.lean: the operands that the commands of the table carry. -/
set_option Elab.async false
namespace Sys2Proof.Machine

/-- A command descriptor as a host command row carries it: its ring, the fields of R247 but the opcode, and the bytes read from the host buffer. -/
structure Desc where
  ring : Nat
  seq : Nat
  flags : Nat
  plen : Nat
  /-- header bits that R247 reserves. -/
  resv : Nat
  secs : Nat
  nanos : Nat
  pay : List Byte
  buf : List Byte
  deriving DecidableEq, Repr

/-- What the surroundings show the device at a boundary. -/
structure BoundaryEnv where
  /-- level of WAKE (R439). -/
  wake : Bool
  /-- words upset in one copy of a voted register: offset, copy 0 to 2, word found (R425). -/
  upsets : List (Nat × Nat × Word)
  /-- hours the always-on counter has completed since the previous boundary (R399). -/
  aoHours : Nat
  /-- whole seconds the always-on clock has counted since the previous boundary (R458). -/
  aoSecs : Nat
  /-- new values of PWR_MEAS: VIN in 2 mV, VMID in mV, Tj of the control and of the power die in 0.125 °C. -/
  measured : Option (Nat × Nat × Int × Int)
  deriving DecidableEq, Repr

/-- A PTP message received (R228). Times in 2^−16 ns of device time. -/
inductive PtpMsg where
  | announce (domain : Nat) (a : Announce)
  | sync (domain src seq : Nat) (twoStep : Bool) (origin : Nat) (corr : Int) (rx : Nat) (logInterval : Int)
  | followUp (domain src seq origin : Nat) (corr : Int)
  | pdelayReq (domain seq rx : Nat)
  | pdelayResp (domain seq : Nat) (twoStep : Bool) (t2 : Nat) (corr : Int) (rx : Nat)
  | pdelayRespFollowUp (domain seq t3 : Nat) (corr : Int)
  | other
  deriving DecidableEq, Repr

/-- Why a pair-link path leaves service (R278). -/
inductive PathCause where
  | blockLock | hiBer | heartbeats
  deriving DecidableEq, Repr

/-- A sampled-value frame (R318, R319). `rct` is the sequence number of its PRP trailer; `at_` its arrival in ns of device time. -/
structure SvFrame where
  port : Nat
  src : Nat
  rct : Option Nat
  dest : Nat
  appid : Nat
  sim : Bool
  svId : List Byte
  confRev : Nat
  rate : Nat
  asdus : List SvAsdu
  at_ : Nat
  deriving DecidableEq, Repr

/-- A GOOSE message (R343, R346); `tal` in ms, `at_` in ns of device time. -/
structure GooseFrame where
  port : Nat
  src : Nat
  rct : Option Nat
  dest : Nat
  appid : Nat
  gocbRef : List Byte
  datSet : List Byte
  confRev : Nat
  stNum : Nat
  sqNum : Nat
  ndsCom : Bool
  test : Bool
  sim : Bool
  tal : Nat
  vals : List GooseVal
  at_ : Nat
  deriving DecidableEq, Repr

/-- A frame as a port receives it: the port, and the destination address that the frame carries (R337). -/
structure RxPort where
  port : Nat
  dest : Nat
  deriving DecidableEq, Repr

/-- A published block, and the instant in ns of device time at which its message falls due (R345). -/
structure BlockAt where
  block : Nat
  at_ : Nat
  deriving DecidableEq, Repr

/-- A JOURNAL frame; `change` is what a change record says of the senior's state while a copy is under way (R289, R292). -/
structure JournalRx where
  bytes : List Byte
  change : Option Image
  deriving DecidableEq, Repr

/-- A JACK frame, and its arrival in ns after the boundary (R292). -/
structure JackRx where
  bytes : List Byte
  ns : Nat
  deriving DecidableEq, Repr

/-- What the ROM reads from the boot flash (R446): the two copies of the boot control record and the bytes of the two slots. -/
structure FlashRead where
  recA : List Byte
  recB : List Byte
  slotA : List Byte
  slotB : List Byte
  deriving DecidableEq, Repr

/-- Two-valued sides of a leg. -/
inductive Side where
  | high | low
  deriving DecidableEq, Repr

/-- A link of the lane kind: a ZeldLink lane or a pair-link path (R180, R276). -/
inductive Link where
  | lane (l : Nat)
  | path (p : Nat)
  deriving DecidableEq, Repr

/-- What a safety cycle reads (R390–R396): levels of both channels' inputs, the STP output whose window covers the cycle, readbacks, and whether the results of A and B agree. -/
structure SafetyRead where
  sia : Nat
  sib : Nat
  window : Option Nat
  soaRb : Nat
  sobRb : Nat
  agree : Bool
  deriving DecidableEq, Repr

/-- What a host-memory read was for (R241). -/
inductive HostRead where
  | doorbell
  | descriptor (ring : Nat)
  | payload (ring : Nat)
  deriving DecidableEq, Repr

end Sys2Proof.Machine
end

