-- ==== Sys2Proof/Syntax.lean ====
section
/-! DEFINITION. Sys2Proof/Syntax.lean: the commands of the device, one constructor per row of spec/opcode_table.json. -/
set_option Elab.async false
namespace Sys2Proof
open Sys2Proof.Machine

/-- The steps and commands of the table (95_what_each_step_holds.md: each whole and indivisible). Each constructor names the rule that its row cites. -/
inductive Instr where
  /-- PERIOD_BOUNDARY (R53). -/
  | periodBoundary (env : BoundaryEnv)
  /-- INTAKE (R53). -/
  | intake (tripLow departQ : Nat)
  /-- OUTPUT_COMMIT (R55). -/
  | outputCommit (ns departQ : Nat)
  /-- LOOP_OVERRUN (R58). -/
  | loopOverrun (departQ : Nat)
  /-- REPLACEMENT_EVAL (R63). -/
  | replacementEval (stepTimes : List Nat)
  /-- LANE_FAULT (R62). -/
  | laneFault (lane : Nat)
  /-- REPORT_FRAME (R194). -/
  | reportFrame (lane : Nat) (bytes : List Byte) (startQ lastQ : Int)
  /-- HUB_IDENT (R181). -/
  | hubIdent (lane : Nat) (bytes : List Byte)
  /-- ZL_BLOCK_LOCK_LOST (R204). -/
  | zlBlockLockLost (lane : Nat)
  /-- ZL_TRAIN_FRAME (R180). -/
  | zlTrainFrame (lane : Nat) (bytes : List Byte)
  /-- ZL_TRAIN_TIMEOUT (R180). -/
  | zlTrainTimeout (lane : Nat)
  /-- ZL_CAL_RSP (R182). -/
  | zlCalRsp (lane : Nat) (bytes : List Byte) (dtQ : Nat)
  /-- ZL_CAL_RETRY (R182). -/
  | zlCalRetry (lane : Nat)
  /-- ZL_LINK_LOSS (R204). -/
  | zlLinkLoss (lane : Nat)
  /-- ZL_DELAY_TRACK (R183). -/
  | zlDelayTrack (lane : Nat)
  /-- ZL_MARGIN_LOW (R205). -/
  | zlMarginLow (lane margin : Nat)
  /-- ZL_LOCK_LOST (R178). -/
  | zlLockLost
  /-- PTP_MESSAGE (R228). -/
  | ptpMessage (rx : RxPort) (msg : PtpMsg)
  /-- TB_COAST_TIMEOUT (R225). -/
  | tbCoastTimeout
  /-- PPSI_EDGE (R232). -/
  | ppsiEdge (at16 widthNs : Nat)
  /-- PTP_PORT_FAILOVER (R229). -/
  | ptpPortFailover
  /-- PLL_LOCK_DETECTED (R223). -/
  | pllLockDetected
  /-- PLL_LOCK_LOST (R223). -/
  | pllLockLost
  /-- TIME_COUNTER_DISAGREE (R211). -/
  | timeCounterDisagree (a b c : Nat)
  /-- TB_BAND_EDGE (R222). -/
  | tbBandEdge
  /-- PPSO_PULSE (R234). -/
  | ppsoPulse (ns : Nat)
  /-- DOORBELL_READ (R246). -/
  | doorbellRead (words : List Nat)
  /-- DESCRIPTOR_FETCH (R251). -/
  | descriptorFetch (ring : Nat) (bytes buf : List Byte) (slow : Nat)
  /-- HOST_READ_FAULT (R241). -/
  | hostReadFault (what : HostRead) (addr : Nat)
  /-- PCIE_LINK_CHANGE (R242). -/
  | pcieLinkChange (up busMaster : Bool)
  /-- ATTN_PULSE_END (R270). -/
  | attnPulseEnd
  /-- HEARTBEAT (R282). -/
  | heartbeat (path : Nat) (bytes : List Byte) (rxQ : Nat)
  /-- PAIR_PARTNER_LOST (R282). -/
  | pairPartnerLost
  /-- CUT (R284). -/
  | cut (path : Nat) (bytes : List Byte) (departQ : Nat)
  /-- CUT_WAIT_TIMEOUT (R284). -/
  | cutWaitTimeout (departQ : Nat)
  /-- AGREE (R285). -/
  | agree (path : Nat) (bytes : List Byte)
  /-- RECEIPT (R286). -/
  | receipt (path : Nat) (bytes : List Byte)
  /-- FORWARD (R286). -/
  | forward (path : Nat) (bytes : List Byte) (startQ lastQ : Int)
  /-- JOURNAL (R292). -/
  | journal (path : Nat) (frame : JournalRx)
  /-- JACK (R292). -/
  | jack (path : Nat) (frame : JackRx)
  /-- POSTED (R292). -/
  | posted (path : Nat) (bytes : List Byte)
  /-- COPY (R289). -/
  | copy (path : Nat) (bytes : List Byte) (image : Option Image)
  /-- JOIN_REQ (R282). -/
  | joinReq (path : Nat) (bytes : List Byte)
  /-- JOIN_ACK (R289). -/
  | joinAck (path : Nat) (bytes : List Byte)
  /-- JOIN_NAK (R298). -/
  | joinNak (path : Nat) (bytes : List Byte)
  /-- LEAVE (R282). -/
  | leave (path : Nat) (bytes : List Byte)
  /-- SWAP (R296). -/
  | swap (path : Nat) (bytes : List Byte)
  /-- VERIFIED (R289). -/
  | verified (path : Nat) (bytes : List Byte)
  /-- SAFE_NOTE (R282). -/
  | safeNote (path : Nat) (bytes : List Byte)
  /-- PAIR_PATH_CAL (R276). -/
  | pairPathCal (path : Nat) (samples : List Int)
  /-- PAIR_PATH_DOWN (R278). -/
  | pairPathDown (path : Nat) (cause : PathCause)
  /-- COPY_TIMEOUT (R289). -/
  | copyTimeout
  /-- SERVER_CHANGE (R293). -/
  | serverChange (cells : List Host.Cell)
  /-- ADC_CONVERSION_DONE (R307). -/
  | adcConversionDone (core : Nat) (src : AdcSrc) (v : Int) (vref sampleQ endQ : Nat)
  /-- ADC_CONTINUOUS_TRIGGER (R304). -/
  | adcContinuousTrigger (seqn at_ : Nat)
  /-- SV_FRAME (R321). -/
  | svFrame (f : SvFrame)
  /-- SV_LOST_TIMEOUT (R321). -/
  | svLostTimeout (stream : Nat)
  /-- TRG_EDGE (R323). -/
  | trgEdge (line at_ width : Nat)
  /-- TRG_OUT_END (R324). -/
  | trgOutEnd (line : Nat)
  /-- SIPHON_REQUEST (R329). -/
  | siphonRequest (ch burst : Nat) (next : Option SiphonDesc)
  /-- ETH_LINK_CHANGE (R340). -/
  | ethLinkChange (port : Nat) (up : Bool)
  /-- ETH_UNKNOWN_FRAME (R338). -/
  | ethUnknownFrame (rx : RxPort)
  /-- ETH_FRAME_DEPARTURE (R230). -/
  | ethFrameDeparture (port stamp : Nat) (busy inBuffer : Bool)
  /-- GOOSE_FRAME (R346). -/
  | gooseFrame (f : GooseFrame)
  /-- GOOSE_RETRANSMIT (R345). -/
  | gooseRetransmit (due : BlockAt)
  /-- GOOSE_TAL_EXPIRY (R346). -/
  | gooseTalExpiry (block : Nat)
  /-- PRP_SUPERVISION_FRAME (R341). -/
  | prpSupervisionFrame (rx : RxPort) (src : Nat)
  /-- PRP_SUPERVISION_TX (R341). -/
  | prpSupervisionTx
  /-- PRP_NODE_FORGET (R341). -/
  | prpNodeForget (src : Nat)
  /-- FAR_TELEGRAM (R351). -/
  | farTelegram (rx : RxPort) (src : Nat) (rct : Option Nat) (bytes : List Byte) (at_ : Nat)
  /-- FAR_LOSS_TIMEOUT (R352). -/
  | farLossTimeout (ch : Nat)
  /-- SAFETY_TELEGRAM (R404). -/
  | safetyTelegram (rx : RxPort) (bytes : List Byte) (at_ : Nat)
  /-- CAN_FRAME_RECEIVED (R359). -/
  | canFrameReceived (ch : Nat) (f : CanFrame)
  /-- CAN_TX_ACK (R363). -/
  | canTxAck (ch retrans sof at_ : Nat)
  /-- CAN_BIT_ERROR (R358). -/
  | canBitError (ch : Nat) (tx : Bool) (idWord bitPos at_ : Nat) (arb collision : Bool)
  /-- CAN_BUS_RECOVERY (R357). -/
  | canBusRecovery (ch : Nat)
  /-- CAN_SCHEDULE_ENTRY (R361). -/
  | canScheduleEntry (ch entry at_ : Nat) (idle : Bool)
  /-- CAN_AUTOBAUD_DWELL (R365). -/
  | canAutobaudDwell (ch : Nat)
  /-- PWM_CARRIER_START (R373). -/
  | pwmCarrierStart (ch : Nat) (restart : Bool)
  /-- PWM_COMPARE_MATCH (R372). -/
  | pwmCompareMatch (ch : Nat)
  /-- DEAD_TIME_EXPIRY (R375). -/
  | deadTimeExpiry (ch : Nat) (side : Side)
  /-- PWM_TRIGGER (R377). -/
  | pwmTrigger (ch : Nat)
  /-- TRIP_LATCH (R378). -/
  | tripLatch (t ns : Nat)
  /-- BOOT_UV (R383). -/
  | bootUv (n : Nat)
  /-- BOOT_UV_RECOVER (R383). -/
  | bootUvRecover (n : Nat)
  /-- BOOTSTRAP_REFRESH (R384). -/
  | bootstrapRefresh (n : Nat)
  /-- LANTERN_SHORT (R385). -/
  | lanternShort (n : Nat) (side : Side) (ns : Nat)
  /-- SAFETY_CYCLE (R391). -/
  | safetyCycle (r : SafetyRead)
  /-- TEST_PULSE (R395). -/
  | testPulse (stp sia sib : Nat)
  /-- SAFETY_DISCREPANCY (R394). -/
  | safetyDiscrepancy (i : Nat)
  /-- SO_DARK_TEST (R401). -/
  | soDarkTest (o : Nat) (chanB ok : Bool)
  /-- SO_READBACK_FAULT (R401). -/
  | soReadbackFault (o : Nat) (chanB : Bool)
  /-- SAFETY_TEST_DUE (R399). -/
  | safetyTestDue (i : Nat)
  /-- SAFETY_TEST_OVERDUE (R399). -/
  | safetyTestOverdue (i : Nat)
  /-- SAFETY_TELEGRAM_TX (R403). -/
  | safetyTelegramTx (n : Nat)
  /-- SAFETY_TEL_WATCHDOG (R406). -/
  | safetyTelWatchdog (n : Nat)
  /-- SAFETY_TEL_CMP_WIN (R405). -/
  | safetyTelCmpWin (n : Nat)
  /-- SELFTEST_DONE (R412). -/
  | selftestDone (failed : Nat)
  /-- SRAM_ECC_ERROR (R431). -/
  | sramEccError (region addr : Nat) (corrected : Bool) (lane : Option Nat)
  /-- REGISTER_WRITE (R420). -/
  | registerWrite (off be : Nat) (value : Word)
  /-- LOCK_SET (R420). -/
  | lockSet (off : Nat)
  /-- SNAP (R238). -/
  | snap (ns : Nat)
  /-- HOST_ENABLE (R275). -/
  | hostEnable (value : Word) (cells : List Host.Cell)
  /-- SLEEP (R439). -/
  | sleep
  /-- HALT (R467). -/
  | halt
  /-- STEP_PERIOD (R467). -/
  | stepPeriod
  /-- STEP_BLOCK (R467). -/
  | stepBlock
  /-- RESUME (R467). -/
  | resume
  /-- RELEASE_ALL (R474). -/
  | releaseAll
  /-- NEW_CHALLENGE (R472). -/
  | newChallenge
  /-- SUBMIT (R472). -/
  | submit
  /-- END_LEVEL (R474). -/
  | endLevel
  /-- RESET (R472). -/
  | reset
  /-- GO (R472). -/
  | go (value : Word)
  /-- MDIO_FRAME_DONE (R472). -/
  | mdioFrameDone (data : Nat)
  /-- LUWIN_READ (R463). -/
  | luwinRead (hdr addr crc : Nat) (busy : Bool)
  /-- LUWIN_WRITE (R465). -/
  | luwinWrite (hdr addr : Nat) (data : List Word) (crc : Nat) (busy : Bool)
  /-- LUWIN_FRAME_ABANDON (R462). -/
  | luwinFrameAbandon
  /-- HALT_HOLD_EXPIRY (R470). -/
  | haltHoldExpiry
  /-- DEBUG_LEVEL_EXPIRY (R458). -/
  | debugLevelExpiry
  /-- CHALLENGE_EXPIRY (R458). -/
  | challengeExpiry
  /-- VIN_RISE (R437). -/
  | vinRise (wake : Bool)
  /-- RESET_RELEASE (R437). -/
  | resetRelease (straps : Straps)
  /-- PWR_VIN_LOW (R436). -/
  | pwrVinLow (mv : Nat)
  /-- VIN_FAIL (R438). -/
  | vinFail
  /-- PWR_THERMAL (R436). -/
  | pwrThermal (die : Nat) (tj : Int)
  /-- THERMAL_SHUTDOWN (R436). -/
  | thermalShutdown
  /-- THERMAL_RESTART (R436). -/
  | thermalRestart
  /-- WAKE (R440). -/
  | wake (hours : Nat)
  /-- ALARM_EXPIRY (R440). -/
  | alarmExpiry (hours : Nat)
  /-- RST_N (R441). -/
  | rstN
  /-- PERST_N (R441). -/
  | perstN
  /-- LOCKSTEP_MISMATCH (R443). -/
  | lockstepMismatch
  /-- LOCKSTEP_RESET (R443). -/
  | lockstepReset
  /-- BOOT_FROM_FLASH (R449). -/
  | bootFromFlash (flash : FlashRead)
  /-- HOST_BOOT (R450). -/
  | hostBoot
  /-- FLASH_WRITE_DONE (R451). -/
  | flashWriteDone (readback : List Byte)
  /-- ACTIVATE_RESET (R452). -/
  | activateReset
  /-- QUOTE_SIGNED (R457). -/
  | quoteSigned
  /-- CDR_LOAD (R19). -/
  | cdrLoad (d : Desc)
  /-- CDR_COMMIT (R20). -/
  | cdrCommit (d : Desc)
  /-- CDR_READ (R36). -/
  | cdrRead (d : Desc)
  /-- HUB_ADD (R34). -/
  | hubAdd (d : Desc)
  /-- HUB_FORGET (R35). -/
  | hubForget (d : Desc)
  /-- GALLERY_FORCE (R30). -/
  | galleryForce (d : Desc)
  /-- GALLERY_RELEASE (R30). -/
  | galleryRelease (d : Desc)
  /-- STATE_REQUEST (R444). -/
  | stateRequest (d : Desc)
  /-- GRAPH_LOAD (R46). -/
  | graphLoad (d : Desc)
  /-- GRAPH_COMMIT (R47). -/
  | graphCommit (d : Desc)
  /-- GRAPH_WITHDRAW (R69). -/
  | graphWithdraw (d : Desc)
  /-- GRAPH_REPORT (R70). -/
  | graphReport (d : Desc)
  /-- PARAM_WRITE (R67). -/
  | paramWrite (d : Desc)
  /-- PARAM_READ (R67). -/
  | paramRead (d : Desc)
  /-- FLAG_CLEAR (R68). -/
  | flagClear (d : Desc)
  /-- MODE_CONFIG (R136). -/
  | modeConfig (d : Desc)
  /-- MODE_REQUEST (R131). -/
  | modeRequest (d : Desc)
  /-- SP_BIND (R138). -/
  | spBind (d : Desc)
  /-- SETPOINT (R134). -/
  | setpoint (d : Desc)
  /-- SM_EXCLUDE (R170). -/
  | smExclude (d : Desc)
  /-- SM_RESTORE (R170). -/
  | smRestore (d : Desc)
  /-- POOL_REPORT (R172). -/
  | poolReport (d : Desc)
  /-- WEAR_READ (R171). -/
  | wearRead (d : Desc)
  /-- WEAR_WRITE (R171). -/
  | wearWrite (d : Desc)
  /-- FSW_TARGET (R173). -/
  | fswTarget (d : Desc)
  /-- ARM_FLAG_CLEAR (R173). -/
  | armFlagClear (d : Desc)
  /-- LANE_MAP_READ (R174). -/
  | laneMapRead (d : Desc)
  /-- TB_PERIOD (R216). -/
  | tbPeriod (d : Desc)
  /-- TB_SOURCE (R236). -/
  | tbSource (d : Desc)
  /-- TB_CONVERGE (R227). -/
  | tbConverge (d : Desc)
  /-- TB_SET (R233). -/
  | tbSet (d : Desc)
  /-- TB_BAND (R223). -/
  | tbBand (d : Desc)
  /-- TB_REPORT (R237). -/
  | tbReport (d : Desc)
  /-- ADC_SEQ_CONFIG (R331). -/
  | adcSeqConfig (d : Desc)
  /-- ADC_URGENT (R310). -/
  | adcUrgent (d : Desc)
  /-- CHAIN_CONFIG (R332). -/
  | chainConfig (d : Desc)
  /-- CHAIN_BANK_SWAP (R313). -/
  | chainBankSwap (d : Desc)
  /-- RIM_CONFIG (R316). -/
  | rimConfig (d : Desc)
  /-- SV_SUBSCRIBE (R333). -/
  | svSubscribe (d : Desc)
  /-- SV_UNSUBSCRIBE (R321). -/
  | svUnsubscribe (d : Desc)
  /-- ECHO_ARM (R322). -/
  | echoArm (d : Desc)
  /-- ECHO_TRIGGER (R323). -/
  | echoTrigger (d : Desc)
  /-- ECHO_DISARM (R325). -/
  | echoDisarm (d : Desc)
  /-- ECHO_READ (R334). -/
  | echoRead (d : Desc)
  /-- GOOSE_PUBLISH (R344). -/
  | goosePublish (d : Desc)
  /-- GOOSE_SUBSCRIBE (R344). -/
  | gooseSubscribe (d : Desc)
  /-- GOOSE_UNSUBSCRIBE (R346). -/
  | gooseUnsubscribe (d : Desc)
  /-- ETH_TIMED_TX (R347). -/
  | ethTimedTx (d : Desc)
  /-- FAR_CONFIG (R368). -/
  | farConfig (d : Desc)
  /-- FAR_SEND (R350). -/
  | farSend (d : Desc)
  /-- CAN_CONFIG (R368). -/
  | canConfig (d : Desc)
  /-- CAN_AUTOBAUD (R365). -/
  | canAutobaud (d : Desc)
  /-- CAN_SCHEDULE (R362). -/
  | canSchedule (d : Desc)
  /-- CAN_TX (R363). -/
  | canTx (d : Desc)
  /-- CAN_CANCEL (R364). -/
  | canCancel (d : Desc)
  /-- PAIR_CONFIG (R297). -/
  | pairConfig (d : Desc)
  /-- PAIR_JOIN (R298). -/
  | pairJoin (d : Desc)
  /-- PAIR_LEAVE (R298). -/
  | pairLeave (d : Desc)
  /-- PAIR_SWAP (R296). -/
  | pairSwap (d : Desc)
  /-- PAIR_REPORT (R299). -/
  | pairReport (d : Desc)
  /-- PAIR_FW_UPDATE (R298). -/
  | pairFwUpdate (d : Desc)
  /-- SAFETY_CONFIG (R411). -/
  | safetyConfig (d : Desc)
  /-- SAFETY_START_TEST (R412). -/
  | safetyStartTest (d : Desc)
  /-- SAFETY_RESET (R407). -/
  | safetyReset (d : Desc)
  /-- SAFETY_REPORT (R413). -/
  | safetyReport (d : Desc)
  /-- TRIP_CLEAR (R381). -/
  | tripClear (d : Desc)
  /-- OUTPUT_OVERRIDE (R387). -/
  | outputOverride (d : Desc)
  /-- QUOTE (R456). -/
  | quote (d : Desc)
  /-- KEY_INSTALL (R454). -/
  | keyInstall (d : Desc)
  /-- KEY_REVOKE (R454). -/
  | keyRevoke (d : Desc)
  /-- IMAGE_STAGE (R451). -/
  | imageStage (d : Desc)
  /-- IMAGE_ACTIVATE (R452). -/
  | imageActivate (d : Desc)
  /-- DEBUG_UNLOCK (R458). -/
  | debugUnlock (d : Desc)
  /-- NOP (R263). -/
  | nop (d : Desc)
  /-- FENCE (R263). -/
  | fence (d : Desc)
  /-- CANCEL (R263). -/
  | cancel (d : Desc)
  /-- BLOCK_LOCK_ACQUIRED (R180). -/
  | blockLockAcquired (link : Link)
  /-- TRAIN_FRAME_TX (R180). -/
  | trainFrameTx (link : Link)
  /-- PAIR_TRAIN_FRAME (R276). -/
  | pairTrainFrame (path : Nat) (bytes : List Byte)
  /-- PAIR_CAL_REQ (R276). -/
  | pairCalReq (path : Nat) (bytes : List Byte) (turn : Nat)
  /-- PAIR_CAL_RETRY (R276). -/
  | pairCalRetry (path : Nat)
  /-- PTP_MESSAGE_TX (R228). -/
  | ptpMessageTx (port : Nat) (kind : PtpTx) (at_ : Nat)
  /-- PCIE_POWER_STATE (R239). -/
  | pciePowerState (d3 : Bool)
  /-- ETH_BAD_FRAME (R337). -/
  | ethBadFrame (port : Nat)
  /-- CAN_CYCLE_START (R362). -/
  | canCycleStart (ch at_ : Nat)
  /-- CAN_AUTOBAUD_TIMEOUT (R365). -/
  | canAutobaudTimeout (ch : Nat)
  /-- AGREE_CUT (R284). -/
  | agreeCut
  /-- VOTED_FIELD_READ (R425). -/
  | votedFieldRead (off : Nat) (upsets : List (Nat × Nat × Word))
  deriving DecidableEq, Repr

end Sys2Proof
end

