-- ==== Sys2Proof/Decode.lean ====
section
/-! DEFINITION. Sys2Proof/Decode.lean: the command a word spells by the table's bits. -/
set_option Elab.async false
namespace Sys2Proof

/-- No row of the opcode table gives bits: every command comes from outside with its operands, so no word spells one. -/
def decodeTableWord (_nbits _w : Nat) : Option Instr := none

end Sys2Proof
end

