-- ==== Sys2Proof/Config.lean ====
section
/-! DEFINITION. Sys2Proof/Config.lean: what the spec leaves open. Every constant here is opaque: it has no body, nothing can be proved of its value, and a claim holds whatever it is. -/
set_option Elab.async false
namespace Sys2Proof

/-- Whether an SLH-DSA-SHA2-192s signature over a message verifies under a public key (R447, R448 check 5). The standard FIPS 205 is outside the spec. -/
opaque Config.slhVerify : (key message signature : List Byte) → Bool

/-- The SLH-DSA-SHA2-128f signature of the identity key over the bytes of a quote (R456). -/
opaque Config.quoteSignature : (message : List Byte) → List Byte

/-- The identity public key the ROM derives from the device secret (R455), as a number of 256 bits. -/
opaque Config.identityKey : Nat

/-- The X.509 certificate of the identity key (R455). -/
opaque Config.certificate : List Byte

/-- The public key of 48 bytes in a vendor slot, by its code (R453). -/
opaque Config.vendorKey : (code : Nat) → List (BitVec 8)

/-- A word of device memory other than the Gallery as a debugger reads it in a period (R465): the layout is internal to the device. -/
opaque Config.debugMemory : (addr period : Nat) → BitVec 32

/-- Which piece of the device's state a word of its memory holds, as the Luwin port addresses it (R465): the path of the piece within its area, or a path that leads to none. -/
opaque Config.debugCell : (addr : Nat) → List Nat

/-- SHA-256 of the boot ROM (R456), as a number of 256 bits. -/
opaque Config.romDigest : Nat

/-- OPCODE and, above it, ATTN that a REPLAYED completion carries where neither the completion ring nor the command ring holds them any more (R256, R273). -/
opaque Config.lostOp : (cmdAddr seq : Nat) → Nat

/-- Levels of the straps as the n-th reset of the device samples them (R445, R476): BOOTSEL in bits 0 and 1, PAIRID in bit 2. -/
opaque Config.strapLevels : (reset : Nat) → Nat

/-- A copy of the boot control record in flash as the ROM reads it in a boot from the host (R446, R449): the row of that boot carries no flash. -/
opaque Config.flashRecord : (reset copy : Nat) → List (BitVec 8)

/-- The n-th challenge of the entropy source (R458), as a number of 256 bits. -/
opaque Config.challenge : Nat → Nat

/-- How far beyond the graph deadline an abandoned period's commit would have come, in ns less one: its slack is negative, its value not stated (R64). -/
opaque Config.overrunLate : (period : Nat) → Nat

/-- When, after the boundary of a period, the BLOCK_ALL of an entry into SAFE can leave at the earliest, in 0.25 ns, where the command frames of the period have gone already (R206): no command of the block carries that instant. -/
opaque Config.safeDepartQ : (period : Nat) → Nat

/-- The word by which an event or a completion names a case whose encoding the spec does not state: `code` is that of the event, `case_` the place of the case in the text. -/
opaque Config.unstatedArg : (code case_ : Nat) → Nat

/-- What the PTP engine's own clock states of itself in Announce (R228): 0 clockClass, 1 clockAccuracy, 2 offsetScaledLogVariance, 3 currentUtcOffset. -/
opaque Config.ptpClock : (field : Nat) → Nat

/-- How long after its request a PRIV conversion starts, in 0.25 ns, of at most two AD cycles (R309). -/
opaque Config.privLag : (requestNs : Nat) → Nat

/-- Whether an address of the memory that Siphon works on lies in a peripheral window (R329): the layout is internal to the device. -/
opaque Config.siphonWindow : (addr : Nat) → Bool

/-- Whether the error counter of a CAN channel follows one of ISO 11898-1's exceptions at an error (R357): no command of the block tells the exceptions apart. -/
opaque Config.canException : (channel at_ : Nat) → Bool

/-- Tap of the resampling filter for a phase (R314). -/
opaque Config.resampTap : (phase tap : Nat) → Int

/-- The bytes over which the digest of R287 runs for one change: its internal address, then its new value. `key` is the model's own number of the place. -/
opaque Config.changeBytes : (key value : Nat) → List Byte

/-- The body of a change record that the senior sends while a copy is under way (R289): internal to the device. -/
opaque Config.changeRecord : (k epoch : Nat) → List Byte

/-- The bytes of the state image that COPY carries (R279): internal to the device. `k` is the period and `epoch` the epoch the image was frozen in. -/
opaque Config.imageBytes : (k epoch : Nat) → List Byte

/-- The data of a record whose layout the spec does not state: 0x0701 of (frame kind, block or channel, sequence, departure in 2^−16 ns), 0x0710 of a CAN frame (channel, mailbox or 64, identifier word, ESI, SOF, data bytes). -/
opaque Config.recordData : (kind : Nat) → (fields : List Nat) → List (BitVec 8)

end Sys2Proof
end

