-- ==== Sys2Proof/Machine/Bits.lean ====
section
/-! DEFINITION. Machine/Bits.lean: bytes, bit fields, sparse tables, rounding and saturating arithmetic, square root, sine, cosine and arctangent, and the cyclic redundancy checks that every chapter uses. -/
set_option Elab.async false
namespace Sys2Proof.Machine

/-! ### Bytes and fields (R2, R3) -/

/-- Little-endian value of a byte list (R3). -/
def leNat : List Byte → Nat
  | [] => 0
  | b :: bs => b.toNat + 256 * leNat bs

/-- Big-endian value of a byte list, as network structures carry it. -/
def beNat (l : List Byte) : Nat := leNat l.reverse

/-- The `n` little-endian bytes of a value (R3). -/
def leBytes : Nat → Nat → List Byte
  | 0, _ => []
  | n + 1, v => BitVec.ofNat 8 v :: leBytes n (v / 256)

/-- The `n` big-endian bytes of a value. -/
def beBytes (n v : Nat) : List Byte := (leBytes n v).reverse

/-- `n` bytes of `l` from offset `o`, padded with zero bytes. -/
def sliceBytes (l : List Byte) (o n : Nat) : List Byte :=
  let t := (l.drop o).take n
  t ++ List.replicate (n - t.length) 0#8

/-- Little-endian field of `n` bytes at offset `o` (R3). -/
def fieldLE (l : List Byte) (o n : Nat) : Nat := leNat ((l.drop o).take n)

/-- Big-endian field of `n` bytes at offset `o`. -/
def fieldBE (l : List Byte) (o n : Nat) : Nat := beNat ((l.drop o).take n)

/-- The bits [lo + w − 1 : lo] of a value (R2). -/
def bitsOf (v lo w : Nat) : Nat := (v >>> lo) % 2 ^ w

/-- Bit `n` of a value. -/
def bitOf (v n : Nat) : Bool := (v >>> n) % 2 == 1

/-- A value with its bits [lo + w − 1 : lo] replaced. -/
def putBits (v lo w x : Nat) : Nat := v - (bitsOf v lo w <<< lo) + ((x % 2 ^ w) <<< lo)

/-- A Bool as a bit. -/
def b2n (b : Bool) : Nat := if b then 1 else 0

/-- The word that carries the bits listed, bit 0 first. -/
def bitsToNat : List Bool → Nat
  | [] => 0
  | b :: bs => b2n b + 2 * bitsToNat bs

/-- Every element of a list is the zero byte. -/
def allZero (l : List Byte) : Bool := l.all (· == 0#8)

/-- A natural number read as a signed value of `n` bits. -/
def signed (n v : Nat) : Int := if v % 2 ^ n < 2 ^ (n - 1) then (v % 2 ^ n : Nat) else ((v % 2 ^ n : Nat) : Int) - (2 ^ n : Nat)

/-- The `n`-bit two's complement pattern of an integer. -/
def unsigned (n : Nat) (v : Int) : Nat := (v % ((2 ^ n : Nat) : Int)).toNat

/-- A 32-bit word of an integer, two's complement. -/
def wordOf (v : Int) : Word := BitVec.ofInt 32 v

/-! ### Lists used as small tables -/

/-- The list with element `i` replaced; unchanged where there is none. -/
def setAt {α : Type} (l : List α) (i : Nat) (a : α) : List α := l.set i a

/-- The list with element `i` changed by `f`. -/
def modAt {α : Type} (l : List α) (i : Nat) (f : α → α) : List α := l.modify i f

/-- Insertion of an element not yet present in a rising list. -/
def insertNat (n : Nat) : List Nat → List Nat
  | [] => [n]
  | m :: ms => if n < m then n :: m :: ms else if n = m then m :: ms else m :: insertNat n ms

/-! ### Sparse tables in canonical form

A table lists (key, value) pairs with keys strictly rising and no value equal to what an unlisted key reads as. -/

/-- Read of a sparse table. -/
def sget {α : Type} (d : Nat → α) : List (Nat × α) → Nat → α
  | [], k => d k
  | (j, a) :: t, k => if k = j then a else if k < j then d k else sget d t k

/-- Write of a sparse table, keeping its canonical form. -/
def sput {α : Type} [DecidableEq α] (d : Nat → α) (k : Nat) (a : α) : List (Nat × α) → List (Nat × α)
  | [] => if a = d k then [] else [(k, a)]
  | (j, b) :: t =>
    if k < j then (if a = d k then (j, b) :: t else (k, a) :: (j, b) :: t)
    else if k = j then (if a = d k then t else (k, a) :: t)
    else (j, b) :: sput d k a t

/-- Keys strictly rising, each above the bound, and no default value listed. -/
def swfFrom {α : Type} [DecidableEq α] (d : Nat → α) : Option Nat → List (Nat × α) → Bool
  | _, [] => true
  | lo, (k, a) :: t => (match lo with | none => true | some b => decide (b < k)) && decide (a ≠ d k) && swfFrom d (some k) t

/-- The canonical form of a sparse table. -/
def swf {α : Type} [DecidableEq α] (d : Nat → α) (l : List (Nat × α)) : Bool := swfFrom d none l

/-- Every listed entry changed by `f`, entries that become the default dropped. -/
def smap {α : Type} [DecidableEq α] (d : Nat → α) (f : Nat → α → α) : List (Nat × α) → List (Nat × α)
  | [] => []
  | (k, a) :: t => if f k a = d k then smap d f t else (k, f k a) :: smap d f t

/-- The table without the keys in [lo, hi). -/
def sclear {α : Type} (lo hi : Nat) (l : List (Nat × α)) : List (Nat × α) :=
  l.filter fun p => p.1 < lo || hi ≤ p.1

/-! ### Arithmetic (R56, R76) -/

/-- min(max(x, lo), hi), which gives hi whenever lo > hi (R76). -/
def clampI (x lo hi : Int) : Int := min (max x lo) hi

/-- Quotient rounded to nearest with ties away from zero (R76); `b` is positive. -/
def roundDiv (a : Int) (b : Nat) : Int :=
  if 0 ≤ a then (((2 * a.toNat + b) / (2 * b) : Nat) : Int) else -(((2 * (-a).toNat + b) / (2 * b) : Nat) : Int)

/-- Quotient of two integers rounded to nearest with ties away from zero; `b` is not zero. -/
def roundDivI (a b : Int) : Int := if b < 0 then roundDiv (-a) (-b).toNat else roundDiv a b.toNat

/-- Saturation to a signed width of `n` bits (R56). -/
def satBits (n : Nat) (v : Int) : Int := clampI v (-((2 ^ (n - 1) : Nat) : Int)) (((2 ^ (n - 1) : Nat) : Int) - 1)

/-- Saturation to PU32 and INT32 (R56). -/
def sat32 (v : Int) : Int := satBits 32 v

/-- Saturation of an accumulator (R56). -/
def sat64 (v : Int) : Int := satBits 64 v

/-- Saturation to UINT32 (R56). -/
def satU32 (v : Int) : Int := clampI v 0 0xFFFFFFFF

/-- Saturating increment of an unsigned counter of `w` bits. -/
def incSat (w v n : Nat) : Nat := min (v + n) (2 ^ w - 1)

/-- A value with whether it was saturated or clamped on the way (R57). -/
abbrev Sv := Int × Bool

/-- to_pu of R56 and R76: shift right by 24 with rounding, then saturate. -/
def toPu (acc : Int) : Sv :=
  let r := roundDiv acc (2 ^ 24)
  (sat32 r, sat32 r != r)

/-- Sum in a 64-bit saturating accumulator (R56), with whether it saturated on the way.
DESIGN CHOICE: the terms enter from left to right, each as it stands in the equation, and the accumulator saturates after each. -/
def accSum (l : List Int) : Sv := l.foldl (fun a t => (sat64 (a.1 + t), a.2 || sat64 (a.1 + t) != a.1 + t)) (0, false)

/-- to_pu of an accumulated sum; a saturation of the accumulator marks the result (R56, R57, R91). -/
def accPu (l : List Int) : Sv :=
  let a := accSum l
  let r := toPu a.1
  (r.1, r.2 || a.2)

/-- Saturating 32-bit value with its saturation mark (R56). -/
def satS (v : Int) : Sv := (sat32 v, sat32 v != v)

/-- A value clamped to a limit of its block, with the mark of the clamp. -/
def clampS (v lo hi : Int) : Sv := (clampI v lo hi, clampI v lo hi != v)

/-- Division of PU32 values, with division by zero as in R56. -/
def divPu (num den : Int) : Sv :=
  if den = 0 then
    (if num = 0 then 0 else if num < 0 then -0x80000000 else 0x7FFFFFFF, true)
  else satS (roundDivI (num * 2 ^ 24) den)

/-! ### Square root -/

/-- One bit of the integer square root at a time: the bits below `i` remain to be found. -/
def isqrtFrom (n : Nat) : Nat → Nat → Nat
  | 0, r => r
  | i + 1, r => if (r + 2 ^ i) * (r + 2 ^ i) ≤ n then isqrtFrom n i (r + 2 ^ i) else isqrtFrom n i r

/-- Integer square root rounded down. -/
def isqrt (n : Nat) : Nat := isqrtFrom n (n.log2 / 2 + 1) 0

/-- Square root of a natural number rounded to nearest. -/
def roundSqrt (n : Nat) : Nat := (isqrt (4 * n) + 1) / 2

/-- MAG of R82: the rounded magnitude, saturated at 0x7FFF_FFFF. -/
def magPu (a b : Int) : Sv :=
  let m : Int := roundSqrt (a * a + b * b).toNat
  (min m 0x7FFFFFFF, decide (0x7FFFFFFF < m))

/-! ### Sine and cosine (R84)

The tables of R84 are fixed by their defining equations. They are computed here in fixed point with 96 fraction bits. -/

/-- π with 96 fraction bits. -/
def piQ : Nat := 248902613312231085230521944622

/-- Taylor terms of sine or cosine with 96 fraction bits: `t` is the last term, `x2` the squared argument, `k` its index. -/
def trigTerms : Nat → Int → Nat → Nat → Int
  | 0, _, _, _ => 0
  | f + 1, t, x2, k =>
    let t' : Int := -(t * x2 / 2 ^ 96) / (((k + 1) * (k + 2) : Nat) : Int)
    t' + trigTerms f t' x2 (k + 2)

/-- Sine of an angle in [0, π/4] with 96 fraction bits. -/
def sinQ (x : Nat) : Int := (x : Int) + trigTerms 14 (x : Int) (x * x / 2 ^ 96) 1

/-- Cosine of an angle in [0, π/4] with 96 fraction bits. -/
def cosQ (x : Nat) : Int := (2 ^ 96 : Int) + trigTerms 14 (2 ^ 96 : Int) (x * x / 2 ^ 96) 0

/-- round(2^24 × sin(2π m / 2^16)) for m in the first quadrant, 0 to 2^14. -/
def sinQuadrant (m : Nat) : Int :=
  if m ≤ 2 ^ 13 then roundDiv (sinQ (2 * piQ * m / 2 ^ 16)) (2 ^ 72)
  else roundDiv (cosQ (2 * piQ * (2 ^ 14 - m) / 2 ^ 16)) (2 ^ 72)

/-- SIN of R84 for table index m. -/
def sinTab (m : Nat) : Int :=
  let m := m % 2 ^ 16
  if m < 2 ^ 14 then sinQuadrant m
  else if m < 2 ^ 15 then sinQuadrant (2 ^ 15 - m)
  else if m < 3 * 2 ^ 14 then -sinQuadrant (m - 2 ^ 15)
  else -sinQuadrant (2 ^ 16 - m)

/-- Table index of an ANG32 angle (R84). -/
def angIndex (theta : Nat) : Nat := (theta + 2 ^ 15) / 2 ^ 16 % 2 ^ 16

/-- SIN of an ANG32 angle (R84). -/
def sinA (theta : Nat) : Int := sinTab (angIndex theta)

/-- COS of an ANG32 angle (R84). -/
def cosA (theta : Nat) : Int := sinTab (angIndex theta + 2 ^ 14)

/-! ### Arctangent (R87)

Computed with 200 fraction bits: the argument is halved four times, then the series is summed. -/

/-- π with 200 fraction bits. -/
def piA : Nat := 5048344754617993871973410141242436836214643421488662971535368

/-- t / (1 + √(1 + t²)) with 200 fraction bits, the tangent of half the angle. -/
def halfTan (t : Nat) : Nat := t * 2 ^ 200 / (2 ^ 200 + isqrt (2 ^ 400 + t * t))

/-- Series of the arctangent: `p` is the power t^(2i+1) and `k` its divisor. -/
def atanTerms : Nat → Int → Nat → Nat → Int
  | 0, _, _, _ => 0
  | f + 1, p, t2, k => p / (k : Int) + atanTerms f (-(p * t2 / 2 ^ 200)) t2 (k + 2)

/-- Arctangent of t in [0, 1] with 200 fraction bits. -/
def atanQ (t : Nat) : Int :=
  let u := halfTan (halfTan (halfTan (halfTan t)))
  16 * atanTerms 26 (u : Int) (u * u / 2 ^ 200) 1

/-- 2^32 × angle / 2π, rounded, for an angle with 200 fraction bits. -/
def turns32 (a : Int) : Int := roundDiv (a * 2 ^ 32) (2 * piA)

/-- round(2^32 × atan2(y, x) / 2π) mod 2^32, and 0 for x = y = 0 (R87). -/
def atan2A (y x : Int) : Nat :=
  if x = 0 ∧ y = 0 then 0
  else
    let ax := x.natAbs
    let ay := y.natAbs
    -- first-quadrant angle with 200 fraction bits; ⅛-turn multiples exact
    let q : Int :=
      if ay = 0 then 0
      else if ax = 0 then turns32 (piA / 2 : Nat)
      else if ay ≤ ax then turns32 (atanQ (ay * 2 ^ 200 / ax))
      else turns32 ((piA / 2 : Nat) - atanQ (ax * 2 ^ 200 / ay))
    let a : Int := if 0 ≤ x then (if 0 ≤ y then q else -q) else (if 0 ≤ y then 2 ^ 31 - q else q - 2 ^ 31)
    unsigned 32 a

/-! ### Cyclic redundancy checks -/

/-- Remainder of one byte, most significant bit first, in a register of `w` bits. -/
def crcMsbBits (w poly : Nat) : Nat → Nat → Nat
  | 0, r => r
  | n + 1, r =>
    let top := bitOf r (w - 1)
    let s := (r <<< 1) % 2 ^ w
    crcMsbBits w poly n (if top then s ^^^ poly else s)

/-- The register of a CRC after each byte of a list in turn. The match changes nothing: it makes the register a numeral before the next byte. -/
def crcBytes (f : Nat → Byte → Nat) : List Byte → Nat → Nat
  | [], r => r
  | b :: l, r =>
    match f r b with
    | 0 => crcBytes f l 0
    | n + 1 => crcBytes f l (n + 1)

/-- CRC of `w` bits, most significant bit first, without reflection. -/
def crcMsb (w poly init : Nat) (l : List Byte) : Nat := crcBytes (fun r b => crcMsbBits w poly 8 (r ^^^ (b.toNat <<< (w - 8)))) l init

/-- Remainder of one byte, least significant bit first, with a reflected polynomial. -/
def crcLsbBits (poly : Nat) : Nat → Nat → Nat
  | 0, r => r
  | n + 1, r => crcLsbBits poly n (if r % 2 == 1 then (r >>> 1) ^^^ poly else r >>> 1)

/-- Reflected CRC with the given reflected polynomial, initial value and final exclusive or. -/
def crcLsb (poly init fin : Nat) (l : List Byte) : Nat :=
  crcBytes (fun r b => crcLsbBits poly 8 (r ^^^ b.toNat)) l init ^^^ fin

/-- CRC-32 of IEEE 802.3. -/
def crc32 (l : List Byte) : Nat := crcLsb 0xEDB88320 0xFFFFFFFF 0xFFFFFFFF l

/-- CRC-32C (Castagnoli). -/
def crc32c (l : List Byte) : Nat := crcLsb 0x82F63B78 0xFFFFFFFF 0xFFFFFFFF l

end Sys2Proof.Machine
end

