-- ==== Sys2Proof/Machine/RegTable.lean ====
section
/-! DEFINITION. Machine/RegTable.lean: every field of every register of the setup window (R428), as the block tables list it: its place, its access code, whether it is voted, and its reset value. A field whose reset the tables give as Calibration, Strap, Boot, Fuse or Cause has the value the assumption log names (DESIGN CHOICE). -/
set_option Elab.async false
namespace Sys2Proof.Machine

/-- Access codes of R420. -/
inductive Acc where
  | rw | ro | w1c | w1s | wo | rwl
  deriving DecidableEq, Repr

/-- A field row: offset of its word (of the first, for an array), stride and number of elements, bits [lo + w − 1 : lo], access code, voted (R425), reset value. -/
structure FieldRow where
  off : Nat
  stride : Nat
  count : Nat
  lo : Nat
  w : Nat
  acc : Acc
  voted : Bool
  reset : Nat
  deriving DecidableEq, Repr

/-- A field as the device uses it: its word, bits, voted, reset value, and the limits of its stated range. -/
structure FieldRef where
  off : Nat
  lo : Nat
  w : Nat
  voted : Bool
  reset : Nat
  min : Nat
  max : Nat
  deriving DecidableEq, Repr

/-- Fields of the DEV block (R433). -/
def rowsDev : List FieldRow :=
  [⟨0, 0, 1, 0, 16, .ro, false, 18528⟩,
   ⟨0, 0, 1, 16, 8, .ro, false, 0⟩,
   ⟨0, 0, 1, 24, 8, .ro, false, 0⟩,
   ⟨8, 0, 1, 0, 3, .ro, false, 2⟩,
   ⟨8, 0, 1, 3, 1, .ro, false, 0⟩,
   ⟨8, 0, 1, 4, 2, .ro, false, 0⟩,
   ⟨8, 0, 1, 6, 1, .ro, false, 0⟩,
   ⟨8, 0, 1, 8, 1, .w1c, false, 0⟩,
   ⟨8, 0, 1, 9, 1, .w1c, false, 0⟩,
   ⟨8, 0, 1, 10, 1, .w1c, false, 0⟩,
   ⟨8, 0, 1, 11, 1, .w1c, false, 0⟩,
   ⟨12, 0, 1, 0, 4, .rwl, true, 3⟩,
   ⟨16, 0, 1, 0, 8, .ro, false, 0⟩,
   ⟨16, 0, 1, 8, 8, .ro, false, 0⟩,
   ⟨20, 0, 1, 0, 32, .ro, false, 0⟩,
   ⟨24, 0, 1, 0, 16, .ro, false, 0⟩,
   ⟨24, 0, 1, 16, 16, .rw, false, 0⟩,
   ⟨28, 0, 1, 0, 16, .rw, false, 0⟩,
   ⟨28, 0, 1, 16, 16, .ro, false, 0⟩,
   ⟨32, 0, 1, 0, 32, .rw, false, 0⟩,
   ⟨36, 0, 1, 0, 3, .ro, false, 0⟩,
   ⟨40, 0, 1, 0, 32, .ro, false, 0⟩,
   ⟨44, 0, 1, 0, 32, .ro, false, 0⟩,
   ⟨48, 0, 1, 0, 32, .rw, false, 0⟩,
   ⟨1020, 0, 1, 0, 1, .w1s, false, 0⟩]

/-- Fields of the HOST block (R275). -/
def rowsHost : List FieldRow :=
  [⟨1024, 0, 1, 0, 1, .ro, false, 0⟩,
   ⟨1024, 0, 1, 1, 1, .w1c, false, 0⟩,
   ⟨1024, 0, 1, 2, 1, .w1c, false, 0⟩,
   ⟨1024, 0, 1, 3, 1, .w1c, false, 0⟩,
   ⟨1024, 0, 1, 4, 1, .w1c, false, 0⟩,
   ⟨1024, 0, 1, 5, 1, .ro, false, 0⟩,
   ⟨1024, 0, 1, 6, 1, .w1c, false, 0⟩,
   ⟨1028, 0, 1, 0, 1, .rwl, false, 0⟩,
   ⟨1028, 0, 1, 1, 1, .rwl, false, 0⟩,
   ⟨1028, 0, 1, 2, 1, .rwl, false, 1⟩,
   ⟨1028, 0, 1, 8, 8, .rwl, false, 10⟩,
   ⟨1028, 0, 1, 16, 8, .rwl, false, 1⟩,
   ⟨1028, 0, 1, 24, 8, .rwl, false, 32⟩,
   ⟨1032, 0, 1, 0, 16, .rwl, false, 65535⟩,
   ⟨1032, 0, 1, 16, 1, .rwl, false, 1⟩,
   ⟨1032, 0, 1, 17, 1, .rwl, false, 1⟩,
   ⟨1040, 0, 1, 12, 20, .rwl, false, 0⟩,
   ⟨1044, 0, 1, 0, 32, .rwl, false, 0⟩,
   ⟨1048, 0, 1, 13, 19, .rwl, false, 0⟩,
   ⟨1052, 0, 1, 0, 32, .rwl, false, 0⟩,
   ⟨1056, 0, 1, 12, 20, .rwl, false, 0⟩,
   ⟨1060, 0, 1, 0, 32, .rwl, false, 0⟩,
   ⟨1064, 0, 1, 0, 5, .rwl, false, 0⟩,
   ⟨1064, 0, 1, 12, 20, .rwl, false, 0⟩,
   ⟨1068, 0, 1, 0, 32, .rwl, false, 0⟩,
   ⟨1072, 8, 4, 0, 5, .rwl, false, 0⟩,
   ⟨1072, 8, 4, 12, 20, .rwl, false, 0⟩,
   ⟨1076, 8, 4, 0, 32, .rwl, false, 0⟩,
   ⟨1152, 32, 16, 0, 4, .rwl, false, 0⟩,
   ⟨1152, 32, 16, 4, 4, .rwl, false, 0⟩] ++
  [⟨1152, 32, 16, 12, 20, .rwl, false, 0⟩,
   ⟨1156, 32, 16, 0, 32, .rwl, false, 0⟩,
   ⟨1160, 32, 16, 0, 4, .rwl, false, 0⟩,
   ⟨1160, 32, 16, 12, 20, .rwl, false, 0⟩,
   ⟨1164, 32, 16, 0, 32, .rwl, false, 0⟩,
   ⟨1168, 32, 16, 12, 20, .rwl, false, 0⟩,
   ⟨1172, 32, 16, 0, 32, .rwl, false, 0⟩,
   ⟨2044, 0, 1, 0, 1, .w1s, false, 0⟩]

/-- Fields of the TB block (R238). -/
def rowsTb : List FieldRow :=
  [⟨2048, 0, 1, 0, 1, .ro, false, 0⟩,
   ⟨2048, 0, 1, 1, 2, .ro, false, 0⟩,
   ⟨2048, 0, 1, 3, 2, .ro, false, 0⟩,
   ⟨2048, 0, 1, 5, 1, .ro, false, 0⟩,
   ⟨2048, 0, 1, 6, 1, .ro, false, 0⟩,
   ⟨2048, 0, 1, 7, 1, .ro, false, 0⟩,
   ⟨2048, 0, 1, 8, 1, .w1c, false, 0⟩,
   ⟨2048, 0, 1, 9, 1, .w1c, false, 0⟩,
   ⟨2048, 0, 1, 10, 1, .w1c, false, 0⟩,
   ⟨2048, 0, 1, 11, 1, .w1c, false, 0⟩,
   ⟨2052, 0, 1, 0, 2, .rwl, false, 0⟩,
   ⟨2052, 0, 1, 2, 2, .rwl, false, 3⟩,
   ⟨2052, 0, 1, 4, 1, .rwl, false, 0⟩,
   ⟨2052, 0, 1, 8, 8, .rwl, false, 0⟩,
   ⟨2052, 0, 1, 16, 8, .rwl, false, 128⟩,
   ⟨2052, 0, 1, 24, 8, .rwl, false, 128⟩,
   ⟨2056, 0, 1, 0, 18, .ro, false, 10000⟩,
   ⟨2064, 0, 1, 0, 32, .ro, false, 0⟩,
   ⟨2068, 0, 1, 0, 32, .ro, false, 0⟩,
   ⟨2072, 0, 1, 0, 30, .ro, false, 0⟩,
   ⟨2080, 0, 1, 0, 1, .w1s, false, 0⟩,
   ⟨2084, 0, 1, 0, 16, .rwl, false, 16384⟩,
   ⟨2084, 0, 1, 16, 16, .rwl, false, 1024⟩,
   ⟨2088, 0, 1, 0, 32, .rwl, true, 1000⟩,
   ⟨2092, 0, 1, 0, 32, .rwl, false, 100⟩,
   ⟨2096, 0, 1, 0, 16, .rwl, false, 27⟩,
   ⟨2100, 0, 1, 0, 32, .ro, false, 0⟩,
   ⟨2104, 0, 1, 0, 32, .ro, false, 0⟩,
   ⟨2108, 0, 1, 0, 16, .rwl, false, 0⟩,
   ⟨2108, 0, 1, 16, 16, .rwl, false, 0⟩] ++
  [⟨2112, 0, 1, 0, 20, .rwl, false, 100000⟩,
   ⟨2116, 0, 1, 0, 16, .rw, false, 0⟩,
   ⟨2116, 0, 1, 16, 16, .rw, false, 0⟩,
   ⟨2120, 0, 1, 0, 16, .rw, false, 0⟩,
   ⟨2304, 8, 32, 0, 16, .rwl, false, 0⟩,
   ⟨2304, 8, 32, 16, 16, .rwl, false, 0⟩,
   ⟨2308, 8, 32, 0, 6, .rwl, false, 0⟩,
   ⟨2308, 8, 32, 31, 1, .rwl, false, 0⟩,
   ⟨2560, 0, 1, 0, 5, .ro, false, 0⟩,
   ⟨2564, 0, 1, 0, 1, .w1s, false, 0⟩]

/-- Fields of the ZL block (R209). -/
def rowsZl : List FieldRow :=
  [⟨3072, 0, 1, 0, 16, .ro, false, 0⟩,
   ⟨3072, 0, 1, 16, 1, .w1c, false, 0⟩,
   ⟨3072, 0, 1, 17, 1, .w1c, false, 0⟩,
   ⟨3072, 0, 1, 18, 1, .w1c, false, 0⟩,
   ⟨3072, 0, 1, 19, 1, .w1c, false, 0⟩,
   ⟨3072, 0, 1, 20, 1, .w1c, false, 0⟩,
   ⟨3072, 0, 1, 21, 1, .w1c, false, 0⟩,
   ⟨3076, 0, 1, 0, 16, .rwl, false, 65535⟩,
   ⟨3080, 0, 1, 0, 5, .rwl, true, 4⟩,
   ⟨3080, 0, 1, 8, 4, .rwl, false, 3⟩,
   ⟨3084, 0, 1, 0, 5, .rwl, false, 4⟩,
   ⟨3084, 0, 1, 8, 5, .rwl, false, 8⟩,
   ⟨3088, 0, 1, 0, 1, .rwl, false, 1⟩,
   ⟨3088, 0, 1, 8, 8, .rwl, false, 64⟩,
   ⟨3136, 4, 16, 0, 16, .rwl, false, 0⟩,
   ⟨3200, 4, 16, 0, 16, .ro, false, 0⟩,
   ⟨3200, 4, 16, 16, 8, .ro, false, 0⟩,
   ⟨3264, 8, 16, 0, 3, .ro, false, 0⟩,
   ⟨3264, 8, 16, 4, 2, .ro, false, 0⟩,
   ⟨3264, 8, 16, 8, 8, .ro, false, 255⟩,
   ⟨3264, 8, 16, 16, 16, .rw, false, 0⟩,
   ⟨3268, 8, 16, 0, 16, .rw, false, 0⟩,
   ⟨3268, 8, 16, 16, 8, .ro, false, 0⟩,
   ⟨3392, 0, 1, 0, 1, .w1s, false, 0⟩]

/-- Fields of the PAIR block (R301). -/
def rowsPair : List FieldRow :=
  [⟨4096, 0, 1, 0, 3, .ro, false, 0⟩,
   ⟨4096, 0, 1, 3, 1, .ro, false, 0⟩,
   ⟨4096, 0, 1, 4, 1, .ro, false, 0⟩,
   ⟨4096, 0, 1, 5, 1, .ro, false, 0⟩,
   ⟨4096, 0, 1, 6, 1, .ro, false, 0⟩,
   ⟨4096, 0, 1, 7, 1, .ro, false, 0⟩,
   ⟨4096, 0, 1, 8, 1, .w1c, false, 0⟩,
   ⟨4096, 0, 1, 9, 1, .w1c, false, 0⟩,
   ⟨4096, 0, 1, 10, 1, .w1c, false, 0⟩,
   ⟨4096, 0, 1, 11, 1, .w1c, false, 0⟩,
   ⟨4096, 0, 1, 12, 1, .w1c, false, 0⟩,
   ⟨4096, 0, 1, 13, 1, .w1c, false, 0⟩,
   ⟨4096, 0, 1, 14, 1, .w1c, false, 0⟩,
   ⟨4104, 0, 1, 0, 31, .ro, false, 0⟩,
   ⟨4108, 0, 1, 0, 32, .ro, false, 0⟩,
   ⟨4112, 0, 1, 0, 3, .rwl, true, 2⟩,
   ⟨4112, 0, 1, 8, 8, .rwl, false, 16⟩,
   ⟨4112, 0, 1, 16, 4, .rwl, false, 3⟩,
   ⟨4128, 8, 2, 0, 3, .ro, false, 0⟩,
   ⟨4128, 8, 2, 8, 16, .ro, false, 0⟩,
   ⟨4132, 8, 2, 0, 16, .rw, false, 0⟩,
   ⟨4132, 8, 2, 16, 16, .rw, false, 0⟩,
   ⟨4144, 0, 1, 0, 16, .rwl, false, 0⟩,
   ⟨4144, 0, 1, 16, 16, .rwl, false, 0⟩,
   ⟨4152, 0, 1, 0, 16, .rw, false, 0⟩,
   ⟨4152, 0, 1, 16, 16, .rw, false, 0⟩,
   ⟨4156, 0, 1, 0, 16, .rw, false, 0⟩,
   ⟨4156, 0, 1, 16, 16, .rw, false, 0⟩,
   ⟨4160, 0, 1, 0, 1, .w1s, false, 0⟩]

/-- Fields of the LOOP block (R71). -/
def rowsLoop : List FieldRow :=
  [⟨5120, 0, 1, 0, 2, .ro, false, 0⟩,
   ⟨5120, 0, 1, 2, 1, .ro, false, 0⟩,
   ⟨5120, 0, 1, 3, 1, .ro, false, 0⟩,
   ⟨5120, 0, 1, 4, 1, .w1c, false, 0⟩,
   ⟨5120, 0, 1, 5, 1, .w1c, false, 0⟩,
   ⟨5120, 0, 1, 6, 1, .w1c, false, 0⟩,
   ⟨5120, 0, 1, 7, 1, .w1c, false, 0⟩,
   ⟨5124, 0, 1, 0, 32, .rw, false, 0⟩,
   ⟨5128, 0, 1, 0, 32, .ro, false, 0⟩,
   ⟨5132, 0, 1, 0, 32, .ro, false, 0⟩,
   ⟨5136, 0, 1, 0, 32, .ro, false, 0⟩,
   ⟨5140, 0, 1, 0, 32, .rw, false, 2147483647⟩,
   ⟨5144, 0, 1, 0, 7, .rwl, true, 0⟩,
   ⟨5144, 0, 1, 8, 7, .rwl, false, 20⟩,
   ⟨5144, 0, 1, 16, 7, .rwl, false, 40⟩,
   ⟨5144, 0, 1, 24, 1, .rwl, true, 1⟩,
   ⟨5148, 0, 1, 0, 7, .ro, false, 120⟩,
   ⟨5152, 0, 1, 0, 32, .ro, false, 4294967295⟩,
   ⟨5156, 0, 1, 0, 32, .ro, false, 4294967295⟩,
   ⟨5160, 0, 1, 0, 1, .w1s, false, 0⟩]

/-- Fields of the FLOW block (R175). -/
def rowsFlow : List FieldRow :=
  [⟨6144, 0, 1, 0, 1, .ro, false, 0⟩,
   ⟨6144, 0, 1, 1, 1, .w1c, false, 0⟩,
   ⟨6144, 0, 1, 2, 1, .w1c, false, 0⟩,
   ⟨6144, 0, 1, 3, 1, .w1c, false, 0⟩,
   ⟨6144, 0, 1, 4, 1, .w1c, false, 0⟩,
   ⟨6144, 0, 1, 5, 1, .w1c, false, 0⟩,
   ⟨6144, 0, 1, 6, 1, .w1c, false, 0⟩,
   ⟨6148, 0, 1, 0, 32, .rwl, false, 150000⟩,
   ⟨6152, 0, 1, 0, 32, .rwl, false, 41943⟩,
   ⟨6156, 0, 1, 0, 32, .rwl, false, 838861⟩,
   ⟨6160, 0, 1, 0, 32, .rwl, false, 167772⟩,
   ⟨6164, 0, 1, 0, 8, .rwl, false, 13⟩,
   ⟨6164, 0, 1, 8, 5, .rwl, false, 16⟩,
   ⟨6164, 0, 1, 16, 1, .rwl, false, 1⟩,
   ⟨6168, 0, 1, 0, 16, .rwl, false, 200⟩,
   ⟨6172, 0, 1, 0, 32, .rwl, false, 1677722⟩,
   ⟨6176, 0, 1, 0, 8, .rwl, false, 16⟩,
   ⟨6176, 0, 1, 8, 8, .rwl, false, 16⟩,
   ⟨6176, 0, 1, 16, 8, .rwl, false, 20⟩,
   ⟨6180, 0, 1, 0, 32, .rwl, false, 80000⟩,
   ⟨6184, 0, 1, 0, 32, .rwl, false, 65536⟩,
   ⟨6188, 0, 1, 0, 16, .rwl, false, 64⟩,
   ⟨6188, 0, 1, 16, 16, .rwl, false, 64⟩,
   ⟨6192, 0, 1, 0, 32, .rwl, true, 8388608⟩,
   ⟨6196, 0, 1, 0, 32, .rwl, true, 23488102⟩,
   ⟨6200, 0, 1, 0, 8, .rwl, true, 25⟩,
   ⟨6200, 0, 1, 16, 16, .rwl, false, 4⟩,
   ⟨6204, 0, 1, 0, 1, .w1s, false, 0⟩]

/-- Fields of the ADC block (R336). -/
def rowsAdc : List FieldRow :=
  [⟨7168, 0, 1, 0, 1, .ro, false, 0⟩,
   ⟨7168, 0, 1, 1, 1, .w1c, false, 0⟩,
   ⟨7168, 0, 1, 2, 1, .w1c, false, 0⟩,
   ⟨7168, 0, 1, 3, 1, .w1c, false, 0⟩,
   ⟨7168, 0, 1, 4, 1, .w1c, false, 0⟩,
   ⟨7168, 0, 1, 5, 1, .w1c, false, 0⟩,
   ⟨7172, 0, 1, 0, 1, .rwl, false, 0⟩,
   ⟨7172, 0, 1, 1, 1, .rwl, false, 0⟩,
   ⟨7176, 0, 1, 0, 16, .rw, false, 0⟩,
   ⟨7176, 0, 1, 16, 16, .rw, false, 0⟩,
   ⟨7180, 0, 1, 0, 16, .rw, false, 0⟩,
   ⟨7180, 0, 1, 16, 16, .rw, false, 0⟩,
   ⟨7228, 0, 1, 0, 1, .w1s, false, 0⟩]

/-- Fields of the ECHO block (R336). -/
def rowsEcho : List FieldRow :=
  [⟨9216, 0, 1, 0, 8, .ro, false, 0⟩,
   ⟨9216, 0, 1, 8, 8, .ro, false, 0⟩,
   ⟨9216, 0, 1, 16, 1, .w1c, false, 0⟩,
   ⟨9216, 0, 1, 17, 1, .w1c, false, 0⟩,
   ⟨9220, 0, 1, 0, 25, .ro, false, 16777216⟩,
   ⟨9224, 0, 1, 0, 4, .rwl, false, 15⟩,
   ⟨9224, 0, 1, 4, 4, .rwl, false, 0⟩,
   ⟨9276, 0, 1, 0, 1, .w1s, false, 0⟩]

/-- Fields of the ETH block (R370). -/
def rowsEth : List FieldRow :=
  [⟨10240, 0, 1, 0, 1, .ro, false, 0⟩,
   ⟨10240, 0, 1, 1, 1, .ro, false, 0⟩,
   ⟨10240, 0, 1, 2, 1, .w1c, false, 0⟩,
   ⟨10240, 0, 1, 3, 1, .w1c, false, 0⟩,
   ⟨10244, 0, 1, 0, 1, .rwl, false, 0⟩,
   ⟨10244, 0, 1, 1, 1, .rwl, false, 0⟩,
   ⟨10244, 0, 1, 2, 1, .rwl, false, 1⟩,
   ⟨10244, 0, 1, 3, 1, .rwl, false, 1⟩,
   ⟨10244, 0, 1, 4, 1, .rwl, false, 1⟩,
   ⟨10244, 0, 1, 5, 1, .rwl, false, 1⟩,
   ⟨10244, 0, 1, 6, 1, .rwl, false, 0⟩,
   ⟨10244, 0, 1, 8, 8, .rwl, false, 20⟩,
   ⟨10244, 0, 1, 16, 8, .rwl, false, 40⟩,
   ⟨10248, 8, 2, 0, 32, .rwl, false, 0⟩,
   ⟨10252, 8, 2, 0, 16, .rwl, false, 0⟩,
   ⟨10272, 8, 2, 0, 16, .rw, false, 0⟩,
   ⟨10272, 8, 2, 16, 16, .rw, false, 0⟩,
   ⟨10276, 8, 2, 0, 16, .rw, false, 0⟩,
   ⟨10276, 8, 2, 16, 16, .rw, false, 0⟩,
   ⟨10300, 0, 1, 0, 1, .w1s, false, 0⟩]

/-- Fields of the CAN block (R370). -/
def rowsCan : List FieldRow :=
  [⟨11264, 0, 1, 0, 2, .ro, false, 3⟩,
   ⟨11264, 0, 1, 2, 1, .ro, false, 0⟩,
   ⟨11264, 0, 1, 3, 2, .ro, false, 3⟩,
   ⟨11264, 0, 1, 5, 1, .ro, false, 0⟩,
   ⟨11264, 0, 1, 6, 1, .w1c, false, 0⟩,
   ⟨11264, 0, 1, 7, 1, .w1c, false, 0⟩,
   ⟨11264, 0, 1, 8, 1, .w1c, false, 0⟩,
   ⟨11264, 0, 1, 9, 1, .w1c, false, 0⟩,
   ⟨11268, 0, 1, 0, 1, .rwl, false, 1⟩,
   ⟨11268, 0, 1, 1, 1, .rwl, false, 1⟩,
   ⟨11272, 8, 2, 0, 9, .ro, false, 0⟩,
   ⟨11272, 8, 2, 16, 8, .ro, false, 0⟩,
   ⟨11276, 8, 2, 0, 16, .rw, false, 0⟩,
   ⟨11276, 8, 2, 16, 16, .rw, false, 0⟩,
   ⟨11296, 8, 2, 0, 16, .rw, false, 0⟩,
   ⟨11296, 8, 2, 16, 16, .rw, false, 0⟩,
   ⟨11300, 8, 2, 0, 16, .rw, false, 0⟩,
   ⟨11300, 8, 2, 16, 16, .rw, false, 0⟩,
   ⟨11324, 0, 1, 0, 1, .w1s, false, 0⟩]

/-- Fields of the PWM and LANTERN block (R389). -/
def rowsPwm : List FieldRow :=
  [⟨12288, 0, 1, 0, 1, .ro, false, 0⟩,
   ⟨12288, 0, 1, 1, 1, .w1c, false, 0⟩,
   ⟨12288, 0, 1, 2, 1, .w1c, false, 0⟩,
   ⟨12288, 0, 1, 3, 1, .w1c, false, 0⟩,
   ⟨12288, 0, 1, 4, 1, .w1c, false, 0⟩,
   ⟨12292, 0, 1, 0, 12, .rwl, false, 0⟩,
   ⟨12296, 0, 1, 0, 8, .ro, false, 0⟩,
   ⟨12296, 0, 1, 8, 8, .ro, false, 0⟩,
   ⟨12300, 0, 1, 0, 8, .rwl, true, 255⟩,
   ⟨12300, 0, 1, 8, 8, .rwl, true, 25⟩,
   ⟨12304, 4, 8, 0, 12, .rwl, true, 4095⟩,
   ⟨12304, 4, 8, 12, 6, .rwl, true, 63⟩,
   ⟨12304, 4, 8, 18, 1, .rwl, true, 1⟩,
   ⟨12352, 32, 12, 0, 20, .rwl, false, 5000⟩,
   ⟨12352, 32, 12, 20, 1, .rwl, false, 1⟩,
   ⟨12356, 32, 12, 0, 25, .rwl, false, 0⟩,
   ⟨12360, 32, 12, 0, 16, .rwl, false, 1600⟩,
   ⟨12360, 32, 12, 16, 16, .rwl, false, 1600⟩,
   ⟨12364, 32, 12, 0, 20, .rwl, false, 0⟩,
   ⟨12364, 32, 12, 31, 1, .rwl, false, 1⟩,
   ⟨12368, 32, 12, 0, 25, .rwl, false, 0⟩,
   ⟨12372, 32, 12, 0, 25, .rwl, false, 0⟩,
   ⟨12372, 32, 12, 25, 7, .rwl, false, 0⟩,
   ⟨12376, 32, 12, 0, 25, .ro, false, 0⟩,
   ⟨12376, 32, 12, 25, 1, .ro, false, 0⟩,
   ⟨12376, 32, 12, 26, 1, .ro, false, 0⟩,
   ⟨12800, 0, 1, 0, 6, .rwl, false, 0⟩,
   ⟨12804, 0, 1, 0, 16, .rwl, true, 500⟩,
   ⟨12804, 0, 1, 16, 16, .rwl, true, 300⟩,
   ⟨12808, 0, 1, 0, 8, .rwl, false, 50⟩] ++
  [⟨12808, 0, 1, 8, 16, .rwl, false, 500⟩,
   ⟨12812, 0, 1, 0, 6, .w1c, false, 0⟩,
   ⟨12812, 0, 1, 8, 6, .w1c, false, 0⟩,
   ⟨12812, 0, 1, 16, 6, .w1c, false, 0⟩,
   ⟨12812, 0, 1, 24, 6, .ro, false, 0⟩,
   ⟨12816, 0, 1, 0, 32, .rw, false, 0⟩,
   ⟨12820, 0, 1, 0, 16, .rw, false, 0⟩,
   ⟨13308, 0, 1, 0, 1, .w1s, false, 0⟩]

/-- Fields of the SAFE block (R416). -/
def rowsSafe : List FieldRow :=
  [⟨13312, 0, 1, 0, 8, .ro, false, 0⟩,
   ⟨13312, 0, 1, 8, 4, .ro, false, 0⟩,
   ⟨13312, 0, 1, 12, 1, .ro, false, 0⟩,
   ⟨13312, 0, 1, 13, 1, .ro, false, 0⟩,
   ⟨13312, 0, 1, 14, 1, .ro, false, 0⟩,
   ⟨13312, 0, 1, 16, 1, .w1c, false, 0⟩,
   ⟨13312, 0, 1, 17, 1, .w1c, false, 0⟩,
   ⟨13312, 0, 1, 18, 1, .w1c, false, 0⟩,
   ⟨13316, 0, 1, 0, 8, .ro, false, 0⟩,
   ⟨13316, 0, 1, 8, 8, .ro, false, 0⟩,
   ⟨13316, 0, 1, 16, 4, .ro, false, 0⟩,
   ⟨13316, 0, 1, 20, 1, .ro, false, 0⟩,
   ⟨13320, 0, 1, 0, 32, .ro, false, 0⟩,
   ⟨13324, 0, 1, 0, 8, .ro, false, 0⟩,
   ⟨13324, 0, 1, 8, 8, .ro, false, 0⟩,
   ⟨13324, 0, 1, 16, 4, .ro, false, 0⟩,
   ⟨13324, 0, 1, 20, 4, .ro, false, 0⟩,
   ⟨13324, 0, 1, 24, 4, .ro, false, 0⟩,
   ⟨13328, 0, 1, 0, 16, .rw, false, 0⟩,
   ⟨13328, 0, 1, 16, 16, .rw, false, 0⟩,
   ⟨13332, 0, 1, 0, 16, .rw, false, 0⟩,
   ⟨13332, 0, 1, 16, 16, .rw, false, 0⟩,
   ⟨13344, 8, 4, 0, 32, .ro, false, 0⟩,
   ⟨13348, 8, 4, 0, 16, .rw, false, 0⟩,
   ⟨13348, 8, 4, 16, 16, .rw, false, 0⟩]

/-- Fields of the SIPHON block (R336). -/
def rowsSiphon : List FieldRow :=
  [⟨14336, 0, 1, 0, 32, .ro, false, 0⟩,
   ⟨14340, 0, 1, 0, 32, .w1c, false, 0⟩,
   ⟨14592, 8, 32, 0, 24, .ro, false, 0⟩,
   ⟨14592, 8, 32, 24, 4, .ro, false, 0⟩,
   ⟨14592, 8, 32, 28, 1, .ro, false, 0⟩,
   ⟨14592, 8, 32, 29, 1, .ro, false, 0⟩,
   ⟨14592, 8, 32, 30, 1, .ro, false, 0⟩,
   ⟨14592, 8, 32, 31, 1, .ro, false, 0⟩,
   ⟨14596, 8, 32, 0, 16, .ro, false, 0⟩]

/-- Fields of the PWR block (R461). -/
def rowsPwr : List FieldRow :=
  [⟨15360, 0, 1, 0, 1, .ro, false, 0⟩,
   ⟨15360, 0, 1, 1, 1, .ro, false, 0⟩,
   ⟨15360, 0, 1, 2, 1, .ro, false, 0⟩,
   ⟨15360, 0, 1, 3, 1, .ro, false, 0⟩,
   ⟨15360, 0, 1, 4, 1, .ro, false, 0⟩,
   ⟨15360, 0, 1, 5, 1, .w1c, false, 0⟩,
   ⟨15360, 0, 1, 6, 1, .w1c, false, 0⟩,
   ⟨15364, 0, 1, 0, 1, .w1s, false, 0⟩,
   ⟨15368, 0, 1, 0, 32, .rwl, false, 0⟩,
   ⟨15372, 0, 1, 0, 17, .rwl, true, 34000⟩,
   ⟨15372, 0, 1, 24, 8, .rwl, true, 115⟩,
   ⟨15376, 0, 1, 0, 16, .ro, false, 0⟩,
   ⟨15376, 0, 1, 16, 16, .ro, false, 0⟩,
   ⟨15380, 0, 1, 0, 16, .ro, false, 0⟩,
   ⟨15380, 0, 1, 16, 16, .ro, false, 0⟩,
   ⟨15384, 0, 1, 0, 1, .w1c, false, 0⟩,
   ⟨15384, 0, 1, 1, 1, .w1c, false, 0⟩,
   ⟨15384, 0, 1, 2, 1, .w1c, false, 0⟩,
   ⟨15384, 0, 1, 3, 1, .w1c, false, 0⟩,
   ⟨15384, 0, 1, 4, 1, .w1c, false, 0⟩,
   ⟨15384, 0, 1, 5, 1, .w1c, false, 0⟩,
   ⟨15384, 0, 1, 6, 1, .w1c, false, 0⟩,
   ⟨15420, 0, 1, 0, 1, .w1s, false, 0⟩]

/-- Fields of the SEC block (R461). -/
def rowsSec : List FieldRow :=
  [⟨16384, 0, 1, 0, 2, .ro, false, 3⟩,
   ⟨16384, 0, 1, 2, 1, .ro, false, 0⟩,
   ⟨16384, 0, 1, 3, 1, .w1c, false, 0⟩,
   ⟨16384, 0, 1, 4, 2, .ro, false, 0⟩,
   ⟨16384, 0, 1, 6, 1, .ro, false, 0⟩,
   ⟨16384, 0, 1, 7, 1, .w1c, false, 0⟩,
   ⟨16384, 0, 1, 8, 1, .ro, false, 0⟩,
   ⟨16384, 0, 1, 9, 3, .ro, false, 0⟩,
   ⟨16388, 0, 1, 0, 2, .ro, false, 1⟩,
   ⟨16388, 0, 1, 2, 2, .ro, false, 1⟩,
   ⟨16388, 0, 1, 4, 2, .ro, false, 0⟩,
   ⟨16388, 0, 1, 6, 2, .ro, false, 0⟩,
   ⟨16388, 0, 1, 8, 2, .ro, false, 0⟩,
   ⟨16388, 0, 1, 10, 2, .ro, false, 0⟩,
   ⟨16392, 0, 1, 0, 16, .ro, false, 0⟩,
   ⟨16392, 0, 1, 16, 16, .ro, false, 0⟩,
   ⟨16396, 0, 1, 0, 7, .ro, false, 64⟩,
   ⟨16400, 0, 1, 0, 32, .ro, false, 0⟩,
   ⟨16404, 0, 1, 0, 8, .ro, false, 0⟩,
   ⟨16408, 0, 1, 0, 32, .ro, false, 0⟩,
   ⟨16416, 8, 4, 0, 32, .ro, false, 0⟩,
   ⟨16420, 8, 4, 0, 32, .ro, false, 0⟩]

/-- Fields of the DBG block (R474). -/
def rowsDbg : List FieldRow :=
  [⟨17408, 0, 1, 0, 2, .ro, false, 0⟩,
   ⟨17408, 0, 1, 2, 1, .ro, false, 0⟩,
   ⟨17408, 0, 1, 3, 1, .ro, false, 0⟩,
   ⟨17408, 0, 1, 4, 3, .ro, false, 0⟩,
   ⟨17408, 0, 1, 8, 8, .w1c, false, 0⟩,
   ⟨17408, 0, 1, 16, 16, .ro, false, 65535⟩,
   ⟨17412, 0, 1, 0, 1, .w1s, false, 0⟩,
   ⟨17412, 0, 1, 1, 1, .w1s, false, 0⟩,
   ⟨17412, 0, 1, 2, 1, .w1s, false, 0⟩,
   ⟨17412, 0, 1, 3, 1, .w1s, false, 0⟩,
   ⟨17412, 0, 1, 4, 1, .w1s, false, 0⟩,
   ⟨17412, 0, 1, 5, 1, .w1s, false, 0⟩,
   ⟨17412, 0, 1, 6, 1, .w1s, false, 0⟩,
   ⟨17412, 0, 1, 7, 1, .w1s, false, 0⟩,
   ⟨17412, 0, 1, 8, 1, .w1s, false, 0⟩,
   ⟨17416, 0, 1, 0, 1, .rw, false, 0⟩,
   ⟨17416, 0, 1, 16, 16, .rw, false, 100⟩,
   ⟨17420, 0, 1, 0, 16, .rw, false, 0⟩,
   ⟨17420, 0, 1, 16, 5, .rw, false, 0⟩,
   ⟨17420, 0, 1, 21, 5, .rw, false, 0⟩,
   ⟨17420, 0, 1, 26, 2, .rw, false, 0⟩,
   ⟨17420, 0, 1, 28, 1, .w1s, false, 0⟩,
   ⟨17420, 0, 1, 29, 1, .ro, false, 0⟩,
   ⟨17424, 0, 1, 0, 32, .ro, false, 0⟩,
   ⟨17428, 0, 1, 0, 32, .ro, false, 0⟩,
   ⟨17440, 4, 8, 0, 32, .ro, false, 0⟩,
   ⟨17472, 16, 8, 0, 2, .rw, false, 0⟩,
   ⟨17472, 16, 8, 2, 3, .rw, false, 0⟩,
   ⟨17472, 16, 8, 8, 20, .rw, false, 0⟩,
   ⟨17476, 16, 8, 0, 16, .rw, false, 1⟩] ++
  [⟨17480, 16, 8, 0, 32, .rw, false, 0⟩,
   ⟨17484, 16, 8, 0, 32, .rw, false, 0⟩]

/-- The field rows of block `b`, each 1 KiB (R428). -/
def blockRows : Nat → List FieldRow
  | 0 => rowsDev
  | 1 => rowsHost
  | 2 => rowsTb
  | 3 => rowsZl
  | 4 => rowsPair
  | 5 => rowsLoop
  | 6 => rowsFlow
  | 7 => rowsAdc
  | 9 => rowsEcho
  | 10 => rowsEth
  | 11 => rowsCan
  | 12 => rowsPwm
  | 13 => rowsSafe
  | 14 => rowsSiphon
  | 15 => rowsPwr
  | 16 => rowsSec
  | 17 => rowsDbg
  | _ => []

/-- Offset of the LOCK register of block `b`; a block with no RWL field has none (R420). -/
def lockOff : Nat → Option Nat
  | 0 => some 1020
  | 1 => some 2044
  | 2 => some 2564
  | 3 => some 3392
  | 4 => some 4160
  | 5 => some 5160
  | 6 => some 6204
  | 7 => some 7228
  | 9 => some 9276
  | 10 => some 10300
  | 11 => some 11324
  | 12 => some 13308
  | 15 => some 15420
  | _ => none

end Sys2Proof.Machine
end

