-- ==== Sys2Proof/Machine/Fields.lean ====
section
/-! DEFINITION. Machine/Fields.lean: the fields of the setup window by name, with their reset values and stated ranges (R71, R175, R209, R238, R275, R301, R336, R370, R389, R416, R433, R461, R474). -/
set_option Elab.async false
namespace Sys2Proof.Machine

/-- LOOP_STATUS.GRAPH at 0x1400. -/
def F.loopStatusGraph : FieldRef := ⟨5120, 0, 2, false, 0, 0, 3⟩

/-- LOOP_STATUS.EVAL at 0x1400. -/
def F.loopStatusEval : FieldRef := ⟨5120, 2, 1, false, 0, 0, 1⟩

/-- LOOP_STATUS.OVR_LAST at 0x1400. -/
def F.loopStatusOvrLast : FieldRef := ⟨5120, 3, 1, false, 0, 0, 1⟩

/-- LOOP_STATUS.OVR at 0x1400. -/
def F.loopStatusOvr : FieldRef := ⟨5120, 4, 1, false, 0, 0, 1⟩

/-- LOOP_STATUS.VCEIL at 0x1400. -/
def F.loopStatusVceil : FieldRef := ⟨5120, 5, 1, false, 0, 0, 1⟩

/-- LOOP_STATUS.REPLACED at 0x1400. -/
def F.loopStatusReplaced : FieldRef := ⟨5120, 6, 1, false, 0, 0, 1⟩

/-- LOOP_STATUS.LANE_FAULT at 0x1400. -/
def F.loopStatusLaneFault : FieldRef := ⟨5120, 7, 1, false, 0, 0, 1⟩

/-- LOOP_OVERRUN_COUNT.COUNT at 0x1404. -/
def F.loopOverrunCountCount : FieldRef := ⟨5124, 0, 32, false, 0, 0, 4294967295⟩

/-- LOOP_BUDGET.B_NS at 0x1408. -/
def F.loopBudgetBNs : FieldRef := ⟨5128, 0, 32, false, 0, 0, 4294967295⟩

/-- LOOP_BUDGET.TWC_NS at 0x140C. -/
def F.loopBudgetTwcNs : FieldRef := ⟨5132, 0, 32, false, 0, 0, 4294967295⟩

/-- LOOP_SLACK.LAST_SLACK_NS at 0x1410. -/
def F.loopSlackLastSlackNs : FieldRef := ⟨5136, 0, 32, false, 0, 0, 4294967295⟩

/-- LOOP_SLACK.MIN_SLACK_NS at 0x1414. -/
def F.loopSlackMinSlackNs : FieldRef := ⟨5140, 0, 32, false, 2147483647, 0, 4294967295⟩

/-- LOOP_VSERVO.VFLOOR at 0x1418. -/
def F.loopVservoVfloor : FieldRef := ⟨5144, 0, 7, true, 0, 0, 120⟩

/-- LOOP_VSERVO.SLACK_LOW at 0x1418. -/
def F.loopVservoSlackLow : FieldRef := ⟨5144, 8, 7, false, 20, 5, 60⟩

/-- LOOP_VSERVO.SLACK_HIGH at 0x1418. -/
def F.loopVservoSlackHigh : FieldRef := ⟨5144, 16, 7, false, 40, 0, 90⟩

/-- LOOP_VSERVO.SERVO_EN at 0x1418. -/
def F.loopVservoServoEn : FieldRef := ⟨5144, 24, 1, true, 1, 0, 1⟩

/-- LOOP_VCORE.VCODE at 0x141C. -/
def F.loopVcoreVcode : FieldRef := ⟨5148, 0, 7, false, 120, 0, 127⟩

/-- LOOP_LANES.LANE_OK Lo at 0x1420. -/
def F.loopLanesLaneOkLo : FieldRef := ⟨5152, 0, 32, false, 4294967295, 0, 4294967295⟩

/-- LOOP_LANES.LANE_OK Hi at 0x1424. -/
def F.loopLanesLaneOkHi : FieldRef := ⟨5156, 0, 32, false, 4294967295, 0, 4294967295⟩

/-- LOOP_LOCK.LOCK at 0x1428. -/
def F.loopLockLock : FieldRef := ⟨5160, 0, 1, false, 0, 0, 1⟩

/-- FLOW_STATUS.ACTIVE at 0x1800. -/
def F.flowStatusActive : FieldRef := ⟨6144, 0, 1, false, 0, 0, 1⟩

/-- FLOW_STATUS.MASS at 0x1800. -/
def F.flowStatusMass : FieldRef := ⟨6144, 1, 1, false, 0, 0, 1⟩

/-- FLOW_STATUS.RETIRE at 0x1800. -/
def F.flowStatusRetire : FieldRef := ⟨6144, 2, 1, false, 0, 0, 1⟩

/-- FLOW_STATUS.REDUND_LOW at 0x1800. -/
def F.flowStatusRedundLow : FieldRef := ⟨6144, 3, 1, false, 0, 0, 1⟩

/-- FLOW_STATUS.CAP_LOST at 0x1800. -/
def F.flowStatusCapLost : FieldRef := ⟨6144, 4, 1, false, 0, 0, 1⟩

/-- FLOW_STATUS.BANK_FULL at 0x1800. -/
def F.flowStatusBankFull : FieldRef := ⟨6144, 5, 1, false, 0, 0, 1⟩

/-- FLOW_STATUS.CHG_LIM at 0x1800. -/
def F.flowStatusChgLim : FieldRef := ⟨6144, 6, 1, false, 0, 0, 1⟩

/-- FLOW_FSW.FSW_TGT at 0x1804. -/
def F.flowFswFswTgt : FieldRef := ⟨6148, 0, 32, false, 150000, 1000, 10000000⟩

/-- FLOW_BAND.H_MIN at 0x1808. -/
def F.flowBandHMin : FieldRef := ⟨6152, 0, 32, false, 41943, 0, 16777216⟩

/-- FLOW_BAND.H_MAX at 0x180C. -/
def F.flowBandHMax : FieldRef := ⟨6156, 0, 32, false, 838861, 0, 16777216⟩

/-- FLOW_HINIT.H_INIT at 0x1810. -/
def F.flowHinitHInit : FieldRef := ⟨6160, 0, 32, false, 167772, 0, 4294967295⟩

/-- FLOW_SERVO.DB at 0x1814. -/
def F.flowServoDb : FieldRef := ⟨6164, 0, 8, false, 13, 0, 128⟩

/-- FLOW_SERVO.AVG_SHIFT at 0x1814. -/
def F.flowServoAvgShift : FieldRef := ⟨6164, 8, 5, false, 16, 8, 24⟩

/-- FLOW_SERVO.SERVO_EN at 0x1814. -/
def F.flowServoServoEn : FieldRef := ⟨6164, 16, 1, false, 1, 0, 1⟩

/-- FLOW_TMIN.T_MIN at 0x1818. -/
def F.flowTminTMin : FieldRef := ⟨6168, 0, 16, false, 200, 0, 20000⟩

/-- FLOW_SPREAD.SPREAD_MAX at 0x181C. -/
def F.flowSpreadSpreadMax : FieldRef := ⟨6172, 0, 32, false, 1677722, 65536, 8388608⟩

/-- FLOW_WEIGHT.KT at 0x1820. -/
def F.flowWeightKt : FieldRef := ⟨6176, 0, 8, false, 16, 0, 255⟩

/-- FLOW_WEIGHT.KW at 0x1820. -/
def F.flowWeightKw : FieldRef := ⟨6176, 8, 8, false, 16, 0, 255⟩

/-- FLOW_WEIGHT.T_SPAN at 0x1820. -/
def F.flowWeightTSpan : FieldRef := ⟨6176, 16, 8, false, 20, 1, 255⟩

/-- FLOW_TREF.T_REF at 0x1824. -/
def F.flowTrefTRef : FieldRef := ⟨6180, 0, 32, false, 80000, 0, 4294967295⟩

/-- FLOW_WEAR.WEAR_SPAN at 0x1828. -/
def F.flowWearWearSpan : FieldRef := ⟨6184, 0, 32, false, 65536, 1, 4294967295⟩

/-- FLOW_POOL.SUSPECT_N at 0x182C. -/
def F.flowPoolSuspectN : FieldRef := ⟨6188, 0, 16, false, 64, 1, 65535⟩

/-- FLOW_POOL.REJOIN_N at 0x182C. -/
def F.flowPoolRejoinN : FieldRef := ⟨6188, 16, 16, false, 64, 1, 65535⟩

/-- FLOW_VRET.VRET_LO at 0x1830. -/
def F.flowVretVretLo : FieldRef := ⟨6192, 0, 32, true, 8388608, 0, 4294967295⟩

/-- FLOW_VRET.VRET_HI at 0x1834. -/
def F.flowVretVretHi : FieldRef := ⟨6196, 0, 32, true, 23488102, 0, 4294967295⟩

/-- FLOW_LIMITS.MASS_PCT at 0x1838. -/
def F.flowLimitsMassPct : FieldRef := ⟨6200, 0, 8, true, 25, 1, 100⟩

/-- FLOW_LIMITS.REDUND_WARN at 0x1838. -/
def F.flowLimitsRedundWarn : FieldRef := ⟨6200, 16, 16, false, 4, 0, 4096⟩

/-- FLOW_LOCK.LOCK at 0x183C. -/
def F.flowLockLock : FieldRef := ⟨6204, 0, 1, false, 0, 0, 1⟩

/-- ZL_STATUS.LANE_UP at 0x0C00. -/
def F.zlStatusLaneUp : FieldRef := ⟨3072, 0, 16, false, 0, 0, 65535⟩

/-- ZL_STATUS.CAL_FAIL at 0x0C00. -/
def F.zlStatusCalFail : FieldRef := ⟨3072, 16, 1, false, 0, 0, 1⟩

/-- ZL_STATUS.LATE at 0x0C00. -/
def F.zlStatusLate : FieldRef := ⟨3072, 17, 1, false, 0, 0, 1⟩

/-- ZL_STATUS.MARGIN_LOW at 0x0C00. -/
def F.zlStatusMarginLow : FieldRef := ⟨3072, 18, 1, false, 0, 0, 1⟩

/-- ZL_STATUS.FOREIGN_CLAIM at 0x0C00. -/
def F.zlStatusForeignClaim : FieldRef := ⟨3072, 19, 1, false, 0, 0, 1⟩

/-- ZL_STATUS.LOCK_LOST at 0x0C00. -/
def F.zlStatusLockLost : FieldRef := ⟨3072, 20, 1, false, 0, 0, 1⟩

/-- ZL_STATUS.DRIFT at 0x0C00. -/
def F.zlStatusDrift : FieldRef := ⟨3072, 21, 1, false, 0, 0, 1⟩

/-- ZL_ENABLE.LANE_EN at 0x0C04. -/
def F.zlEnableLaneEn : FieldRef := ⟨3076, 0, 16, false, 65535, 0, 65535⟩

/-- ZL_TIMING.HUB_TO at 0x0C08. -/
def F.zlTimingHubTo : FieldRef := ⟨3080, 0, 5, true, 4, 2, 16⟩

/-- ZL_TIMING.LOSS_N at 0x0C08. -/
def F.zlTimingLossN : FieldRef := ⟨3080, 8, 4, false, 3, 1, 15⟩

/-- ZL_TXEQ.PRE at 0x0C0C. -/
def F.zlTxeqPre : FieldRef := ⟨3084, 0, 5, false, 4, 0, 31⟩

/-- ZL_TXEQ.POST at 0x0C0C. -/
def F.zlTxeqPost : FieldRef := ⟨3084, 8, 5, false, 8, 0, 31⟩

/-- ZL_ADAPT.ADAPT_EN at 0x0C10. -/
def F.zlAdaptAdaptEn : FieldRef := ⟨3088, 0, 1, false, 1, 0, 1⟩

/-- ZL_ADAPT.MARGIN_MIN at 0x0C10. -/
def F.zlAdaptMarginMin : FieldRef := ⟨3088, 8, 8, false, 64, 0, 255⟩

/-- ZL_ASYM.ASYM at 0x0C40 + 0x4 × n. -/
def F.zlAsymAsym (n : Nat) : FieldRef := ⟨3136 + 4 * n, 0, 16, false, 0, 0, 65535⟩

/-- ZL_DELAY.D at 0x0C80 + 0x4 × n. -/
def F.zlDelayD (n : Nat) : FieldRef := ⟨3200 + 4 * n, 0, 16, false, 0, 0, 65535⟩

/-- ZL_DELAY.SPREAD at 0x0C80 + 0x4 × n. -/
def F.zlDelaySpread (n : Nat) : FieldRef := ⟨3200 + 4 * n, 16, 8, false, 0, 0, 255⟩

/-- ZL_LANE.TRAIN at 0x0CC0 + 0x8 × n. -/
def F.zlLaneTrain (n : Nat) : FieldRef := ⟨3264 + 8 * n, 0, 3, false, 0, 0, 7⟩

/-- ZL_LANE.ATTACH at 0x0CC0 + 0x8 × n. -/
def F.zlLaneAttach (n : Nat) : FieldRef := ⟨3264 + 8 * n, 4, 2, false, 0, 0, 3⟩

/-- ZL_LANE.ENTRY at 0x0CC0 + 0x8 × n. -/
def F.zlLaneEntry (n : Nat) : FieldRef := ⟨3264 + 8 * n, 8, 8, false, 255, 0, 255⟩

/-- ZL_LANE.CRC_ERR at 0x0CC0 + 0x8 × n. -/
def F.zlLaneCrcErr (n : Nat) : FieldRef := ⟨3264 + 8 * n, 16, 16, false, 0, 0, 65535⟩

/-- ZL_LANE.LATE_CNT at 0x0CC4 + 0x8 × n. -/
def F.zlLaneLateCnt (n : Nat) : FieldRef := ⟨3268 + 8 * n, 0, 16, false, 0, 0, 65535⟩

/-- ZL_LANE.MARGIN at 0x0CC4 + 0x8 × n. -/
def F.zlLaneMargin (n : Nat) : FieldRef := ⟨3268 + 8 * n, 16, 8, false, 0, 0, 255⟩

/-- ZL_LOCK.LOCK at 0x0D40. -/
def F.zlLockLock : FieldRef := ⟨3392, 0, 1, false, 0, 0, 1⟩

/-- TB_STATUS.TIME_VALID at 0x0800. -/
def F.tbStatusTimeValid : FieldRef := ⟨2048, 0, 1, false, 0, 0, 1⟩

/-- TB_STATUS.SYNC at 0x0800. -/
def F.tbStatusSync : FieldRef := ⟨2048, 1, 2, false, 0, 0, 3⟩

/-- TB_STATUS.SRC at 0x0800. -/
def F.tbStatusSrc : FieldRef := ⟨2048, 3, 2, false, 0, 0, 3⟩

/-- TB_STATUS.PLL_LOCK at 0x0800. -/
def F.tbStatusPllLock : FieldRef := ⟨2048, 5, 1, false, 0, 0, 1⟩

/-- TB_STATUS.RELOCK at 0x0800. -/
def F.tbStatusRelock : FieldRef := ⟨2048, 6, 1, false, 0, 0, 1⟩

/-- TB_STATUS.SLEWING at 0x0800. -/
def F.tbStatusSlewing : FieldRef := ⟨2048, 7, 1, false, 0, 0, 1⟩

/-- TB_STATUS.TIME_JUMP at 0x0800. -/
def F.tbStatusTimeJump : FieldRef := ⟨2048, 8, 1, false, 0, 0, 1⟩

/-- TB_STATUS.BAND_EDGE at 0x0800. -/
def F.tbStatusBandEdge : FieldRef := ⟨2048, 9, 1, false, 0, 0, 1⟩

/-- TB_STATUS.VOTE_FIX at 0x0800. -/
def F.tbStatusVoteFix : FieldRef := ⟨2048, 10, 1, false, 0, 0, 1⟩

/-- TB_STATUS.TSQ_OVF at 0x0800. -/
def F.tbStatusTsqOvf : FieldRef := ⟨2048, 11, 1, false, 0, 0, 1⟩

/-- TB_CTRL.SRC_BOOT at 0x0804. -/
def F.tbCtrlSrcBoot : FieldRef := ⟨2052, 0, 2, false, 0, 0, 2⟩

/-- TB_CTRL.PORTS at 0x0804. -/
def F.tbCtrlPorts : FieldRef := ⟨2052, 2, 2, false, 3, 0, 3⟩

/-- TB_CTRL.MASTER_EN at 0x0804. -/
def F.tbCtrlMasterEn : FieldRef := ⟨2052, 4, 1, false, 0, 0, 1⟩

/-- TB_CTRL.DOMAIN at 0x0804. -/
def F.tbCtrlDomain : FieldRef := ⟨2052, 8, 8, false, 0, 0, 255⟩

/-- TB_CTRL.PRIO1 at 0x0804. -/
def F.tbCtrlPrio1 : FieldRef := ⟨2052, 16, 8, false, 128, 0, 255⟩

/-- TB_CTRL.PRIO2 at 0x0804. -/
def F.tbCtrlPrio2 : FieldRef := ⟨2052, 24, 8, false, 128, 0, 255⟩

/-- TB_PERIOD.P_NS at 0x0808. -/
def F.tbPeriodPNs : FieldRef := ⟨2056, 0, 18, false, 10000, 0, 262143⟩

/-- TB_TIME.SECONDS Lo at 0x0810. -/
def F.tbTimeSecondsLo : FieldRef := ⟨2064, 0, 32, false, 0, 0, 4294967295⟩

/-- TB_TIME.SECONDS Hi at 0x0814. -/
def F.tbTimeSecondsHi : FieldRef := ⟨2068, 0, 32, false, 0, 0, 4294967295⟩

/-- TB_TIME.NANOSECONDS at 0x0818. -/
def F.tbTimeNanoseconds : FieldRef := ⟨2072, 0, 30, false, 0, 0, 1073741823⟩

/-- TB_SNAP.SNAP at 0x0820. -/
def F.tbSnapSnap : FieldRef := ⟨2080, 0, 1, false, 0, 0, 1⟩

/-- TB_SERVO.KP at 0x0824. -/
def F.tbServoKp : FieldRef := ⟨2084, 0, 16, false, 16384, 0, 65535⟩

/-- TB_SERVO.KI at 0x0824. -/
def F.tbServoKi : FieldRef := ⟨2084, 16, 16, false, 1024, 0, 65535⟩

/-- TB_THRESH.JUMP_TH at 0x0828. -/
def F.tbThreshJumpTh : FieldRef := ⟨2088, 0, 32, true, 1000, 100, 1000000⟩

/-- TB_THRESH.LOCK_TH at 0x082C. -/
def F.tbThreshLockTh : FieldRef := ⟨2092, 0, 32, false, 100, 1, 4294967295⟩

/-- TB_RAMP.RAMP_STEP at 0x0830. -/
def F.tbRampRampStep : FieldRef := ⟨2096, 0, 16, false, 27, 1, 65535⟩

/-- TB_OFFSET.LAST_OFS at 0x0834. -/
def F.tbOffsetLastOfs : FieldRef := ⟨2100, 0, 32, false, 0, 0, 4294967295⟩

/-- TB_OFFSET.FREQ at 0x0838. -/
def F.tbOffsetFreq : FieldRef := ⟨2104, 0, 32, false, 0, 0, 4294967295⟩

/-- TB_PPS.PPSI_DELAY at 0x083C. -/
def F.tbPpsPpsiDelay : FieldRef := ⟨2108, 0, 16, false, 0, 0, 65535⟩

/-- TB_PPS.PPSO_OFS at 0x083C. -/
def F.tbPpsPpsoOfs : FieldRef := ⟨2108, 16, 16, false, 0, 0, 65535⟩

/-- TB_PPS.PPSO_WIDTH at 0x0840. -/
def F.tbPpsPpsoWidth : FieldRef := ⟨2112, 0, 20, false, 100000, 1, 500000⟩

/-- TB_COUNT.VOTE_FIX_CNT at 0x0844. -/
def F.tbCountVoteFixCnt : FieldRef := ⟨2116, 0, 16, false, 0, 0, 65535⟩

/-- TB_COUNT.OVF_CNT at 0x0844. -/
def F.tbCountOvfCnt : FieldRef := ⟨2116, 16, 16, false, 0, 0, 65535⟩

/-- TB_COUNT.PPS_GLITCH at 0x0848. -/
def F.tbCountPpsGlitch : FieldRef := ⟨2120, 0, 16, false, 0, 0, 65535⟩

/-- TB_BAND.FMIN at 0x0900 + 0x8 × n. -/
def F.tbBandFmin (n : Nat) : FieldRef := ⟨2304 + 8 * n, 0, 16, false, 0, 0, 65535⟩

/-- TB_BAND.FMAX at 0x0900 + 0x8 × n. -/
def F.tbBandFmax (n : Nat) : FieldRef := ⟨2304 + 8 * n, 16, 16, false, 0, 0, 65535⟩

/-- TB_BAND.CAP at 0x0904 + 0x8 × n. -/
def F.tbBandCap (n : Nat) : FieldRef := ⟨2308 + 8 * n, 0, 6, false, 0, 0, 63⟩

/-- TB_BAND.VALID at 0x0904 + 0x8 × n. -/
def F.tbBandValid (n : Nat) : FieldRef := ⟨2308 + 8 * n, 31, 1, false, 0, 0, 1⟩

/-- TB_BANDSEL.SEL at 0x0A00. -/
def F.tbBandselSel : FieldRef := ⟨2560, 0, 5, false, 0, 0, 31⟩

/-- TB_LOCK.LOCK at 0x0A04. -/
def F.tbLockLock : FieldRef := ⟨2564, 0, 1, false, 0, 0, 1⟩

/-- HOST_STATUS.SERVING at 0x0400. -/
def F.hostStatusServing : FieldRef := ⟨1024, 0, 1, false, 0, 0, 1⟩

/-- HOST_STATUS.REBUILT at 0x0400. -/
def F.hostStatusRebuilt : FieldRef := ⟨1024, 1, 1, false, 0, 0, 1⟩

/-- HOST_STATUS.READ_FAULT at 0x0400. -/
def F.hostStatusReadFault : FieldRef := ⟨1024, 2, 1, false, 0, 0, 1⟩

/-- HOST_STATUS.DB_BAD at 0x0400. -/
def F.hostStatusDbBad : FieldRef := ⟨1024, 3, 1, false, 0, 0, 1⟩

/-- HOST_STATUS.CPL_STALL at 0x0400. -/
def F.hostStatusCplStall : FieldRef := ⟨1024, 4, 1, false, 0, 0, 1⟩

/-- HOST_STATUS.FOLDING at 0x0400. -/
def F.hostStatusFolding : FieldRef := ⟨1024, 5, 1, false, 0, 0, 1⟩

/-- HOST_STATUS.CFG_BAD at 0x0400. -/
def F.hostStatusCfgBad : FieldRef := ⟨1024, 6, 1, false, 0, 0, 1⟩

/-- HOST_CTRL.ENABLE at 0x0404. -/
def F.hostCtrlEnable : FieldRef := ⟨1028, 0, 1, false, 0, 0, 1⟩

/-- HOST_CTRL.RESUME at 0x0404. -/
def F.hostCtrlResume : FieldRef := ⟨1028, 1, 1, false, 0, 0, 1⟩

/-- HOST_CTRL.ATTN_EN at 0x0404. -/
def F.hostCtrlAttnEn : FieldRef := ⟨1028, 2, 1, false, 1, 0, 1⟩

/-- HOST_CTRL.ATTN_WIDTH at 0x0404. -/
def F.hostCtrlAttnWidth : FieldRef := ⟨1028, 8, 8, false, 10, 1, 255⟩

/-- HOST_CTRL.ATTN_GAP at 0x0404. -/
def F.hostCtrlAttnGap : FieldRef := ⟨1028, 16, 8, false, 1, 1, 255⟩

/-- HOST_CTRL.EV_BUDGET at 0x0404. -/
def F.hostCtrlEvBudget : FieldRef := ⟨1028, 24, 8, false, 32, 1, 255⟩

/-- HOST_ATTN_MASK.CLASS at 0x0408. -/
def F.hostAttnMaskClass : FieldRef := ⟨1032, 0, 16, false, 65535, 0, 65535⟩

/-- HOST_ATTN_MASK.CPL at 0x0408. -/
def F.hostAttnMaskCpl : FieldRef := ⟨1032, 16, 1, false, 1, 0, 1⟩

/-- HOST_ATTN_MASK.REC at 0x0408. -/
def F.hostAttnMaskRec : FieldRef := ⟨1032, 17, 1, false, 1, 0, 1⟩

/-- HOST_DB_BASE.ADDR Lo at 0x0410. -/
def F.hostDbBaseAddrLo : FieldRef := ⟨1040, 12, 20, false, 0, 0, 1048575⟩

/-- HOST_DB_BASE.ADDR Hi at 0x0414. -/
def F.hostDbBaseAddrHi : FieldRef := ⟨1044, 0, 32, false, 0, 0, 4294967295⟩

/-- HOST_RS_BASE.ADDR Lo at 0x0418. -/
def F.hostRsBaseAddrLo : FieldRef := ⟨1048, 13, 19, false, 0, 0, 524287⟩

/-- HOST_RS_BASE.ADDR Hi at 0x041C. -/
def F.hostRsBaseAddrHi : FieldRef := ⟨1052, 0, 32, false, 0, 0, 4294967295⟩

/-- HOST_FOLD_BASE.ADDR Lo at 0x0420. -/
def F.hostFoldBaseAddrLo : FieldRef := ⟨1056, 12, 20, false, 0, 0, 1048575⟩

/-- HOST_FOLD_BASE.ADDR Hi at 0x0424. -/
def F.hostFoldBaseAddrHi : FieldRef := ⟨1060, 0, 32, false, 0, 0, 4294967295⟩

/-- HOST_EVT.SIZE at 0x0428. -/
def F.hostEvtSize : FieldRef := ⟨1064, 0, 5, false, 0, 0, 31⟩

/-- HOST_EVT.ADDR Lo at 0x0428. -/
def F.hostEvtAddrLo : FieldRef := ⟨1064, 12, 20, false, 0, 0, 1048575⟩

/-- HOST_EVT.ADDR Hi at 0x042C. -/
def F.hostEvtAddrHi : FieldRef := ⟨1068, 0, 32, false, 0, 0, 4294967295⟩

/-- HOST_REC.SIZE at 0x0430 + 0x8 × n. -/
def F.hostRecSize (n : Nat) : FieldRef := ⟨1072 + 8 * n, 0, 5, false, 0, 0, 31⟩

/-- HOST_REC.ADDR Lo at 0x0430 + 0x8 × n. -/
def F.hostRecAddrLo (n : Nat) : FieldRef := ⟨1072 + 8 * n, 12, 20, false, 0, 0, 1048575⟩

/-- HOST_REC.ADDR Hi at 0x0434 + 0x8 × n. -/
def F.hostRecAddrHi (n : Nat) : FieldRef := ⟨1076 + 8 * n, 0, 32, false, 0, 0, 4294967295⟩

/-- HOST_CMD_RING.SIZE at 0x0480 + 0x20 × n. -/
def F.hostCmdRingSize (n : Nat) : FieldRef := ⟨1152 + 32 * n, 0, 4, false, 0, 0, 15⟩

/-- HOST_CMD_RING.PRIO at 0x0480 + 0x20 × n. -/
def F.hostCmdRingPrio (n : Nat) : FieldRef := ⟨1152 + 32 * n, 4, 4, false, 0, 0, 15⟩

/-- HOST_CMD_RING.ADDR Lo at 0x0480 + 0x20 × n. -/
def F.hostCmdRingAddrLo (n : Nat) : FieldRef := ⟨1152 + 32 * n, 12, 20, false, 0, 0, 1048575⟩

/-- HOST_CMD_RING.ADDR Hi at 0x0484 + 0x20 × n. -/
def F.hostCmdRingAddrHi (n : Nat) : FieldRef := ⟨1156 + 32 * n, 0, 32, false, 0, 0, 4294967295⟩

/-- HOST_CMD_CPL.SIZE at 0x0488 + 0x20 × n. -/
def F.hostCmdCplSize (n : Nat) : FieldRef := ⟨1160 + 32 * n, 0, 4, false, 0, 0, 15⟩

/-- HOST_CMD_CPL.ADDR Lo at 0x0488 + 0x20 × n. -/
def F.hostCmdCplAddrLo (n : Nat) : FieldRef := ⟨1160 + 32 * n, 12, 20, false, 0, 0, 1048575⟩

/-- HOST_CMD_CPL.ADDR Hi at 0x048C + 0x20 × n. -/
def F.hostCmdCplAddrHi (n : Nat) : FieldRef := ⟨1164 + 32 * n, 0, 32, false, 0, 0, 4294967295⟩

/-- HOST_CMD_RES.ADDR Lo at 0x0490 + 0x20 × n. -/
def F.hostCmdResAddrLo (n : Nat) : FieldRef := ⟨1168 + 32 * n, 12, 20, false, 0, 0, 1048575⟩

/-- HOST_CMD_RES.ADDR Hi at 0x0494 + 0x20 × n. -/
def F.hostCmdResAddrHi (n : Nat) : FieldRef := ⟨1172 + 32 * n, 0, 32, false, 0, 0, 4294967295⟩

/-- HOST_LOCK.LOCK at 0x07FC. -/
def F.hostLockLock : FieldRef := ⟨2044, 0, 1, false, 0, 0, 1⟩

/-- PAIR_STATUS.ROLE at 0x1000. -/
def F.pairStatusRole : FieldRef := ⟨4096, 0, 3, false, 0, 0, 7⟩

/-- PAIR_STATUS.UNIT at 0x1000. -/
def F.pairStatusUnit : FieldRef := ⟨4096, 3, 1, false, 0, 0, 1⟩

/-- PAIR_STATUS.P_UP at 0x1000. -/
def F.pairStatusPUp : FieldRef := ⟨4096, 4, 1, false, 0, 0, 1⟩

/-- PAIR_STATUS.Q_UP at 0x1000. -/
def F.pairStatusQUp : FieldRef := ⟨4096, 5, 1, false, 0, 0, 1⟩

/-- PAIR_STATUS.PARTNER at 0x1000. -/
def F.pairStatusPartner : FieldRef := ⟨4096, 6, 1, false, 0, 0, 1⟩

/-- PAIR_STATUS.ACCEPT_JOIN at 0x1000. -/
def F.pairStatusAcceptJoin : FieldRef := ⟨4096, 7, 1, false, 0, 0, 1⟩

/-- PAIR_STATUS.PATH_DOWN at 0x1000. -/
def F.pairStatusPathDown : FieldRef := ⟨4096, 8, 1, false, 0, 0, 1⟩

/-- PAIR_STATUS.MISMATCH at 0x1000. -/
def F.pairStatusMismatch : FieldRef := ⟨4096, 9, 1, false, 0, 0, 1⟩

/-- PAIR_STATUS.DEPOSED at 0x1000. -/
def F.pairStatusDeposed : FieldRef := ⟨4096, 10, 1, false, 0, 0, 1⟩

/-- PAIR_STATUS.LOST at 0x1000. -/
def F.pairStatusLost : FieldRef := ⟨4096, 11, 1, false, 0, 0, 1⟩

/-- PAIR_STATUS.COPY_FAIL at 0x1000. -/
def F.pairStatusCopyFail : FieldRef := ⟨4096, 12, 1, false, 0, 0, 1⟩

/-- PAIR_STATUS.CONFLICT at 0x1000. -/
def F.pairStatusConflict : FieldRef := ⟨4096, 13, 1, false, 0, 0, 1⟩

/-- PAIR_STATUS.DEFER at 0x1000. -/
def F.pairStatusDefer : FieldRef := ⟨4096, 14, 1, false, 0, 0, 1⟩

/-- PAIR_EPOCH.EPOCH at 0x1008. -/
def F.pairEpochEpoch : FieldRef := ⟨4104, 0, 31, false, 0, 0, 2147483647⟩

/-- PAIR_EPOCH.CLAIM at 0x100C. -/
def F.pairEpochClaim : FieldRef := ⟨4108, 0, 32, false, 0, 0, 4294967295⟩

/-- PAIR_CTRL.HB_MISS at 0x1010. -/
def F.pairCtrlHbMiss : FieldRef := ⟨4112, 0, 3, true, 2, 1, 4⟩

/-- PAIR_CTRL.SERVE_TO at 0x1010. -/
def F.pairCtrlServeTo : FieldRef := ⟨4112, 8, 8, false, 16, 1, 255⟩

/-- PAIR_CTRL.COPY_RETRY at 0x1010. -/
def F.pairCtrlCopyRetry : FieldRef := ⟨4112, 16, 4, false, 3, 0, 15⟩

/-- PAIR_PATH.TRAIN at 0x1020 + 0x8 × n. -/
def F.pairPathTrain (n : Nat) : FieldRef := ⟨4128 + 8 * n, 0, 3, false, 0, 0, 7⟩

/-- PAIR_PATH.DELAY at 0x1020 + 0x8 × n. -/
def F.pairPathDelay (n : Nat) : FieldRef := ⟨4128 + 8 * n, 8, 16, false, 0, 0, 65535⟩

/-- PAIR_PATH.CRC_ERR at 0x1024 + 0x8 × n. -/
def F.pairPathCrcErr (n : Nat) : FieldRef := ⟨4132 + 8 * n, 0, 16, false, 0, 0, 65535⟩

/-- PAIR_PATH.LOST at 0x1024 + 0x8 × n. -/
def F.pairPathLost (n : Nat) : FieldRef := ⟨4132 + 8 * n, 16, 16, false, 0, 0, 65535⟩

/-- PAIR_ASYM.ASYM_P at 0x1030. -/
def F.pairAsymAsymP : FieldRef := ⟨4144, 0, 16, false, 0, 0, 65535⟩

/-- PAIR_ASYM.ASYM_Q at 0x1030. -/
def F.pairAsymAsymQ : FieldRef := ⟨4144, 16, 16, false, 0, 0, 65535⟩

/-- PAIR_COUNT.RCPT_MISMATCH at 0x1038. -/
def F.pairCountRcptMismatch : FieldRef := ⟨4152, 0, 16, false, 0, 0, 65535⟩

/-- PAIR_COUNT.AGREE_DEFER_CNT at 0x1038. -/
def F.pairCountAgreeDeferCnt : FieldRef := ⟨4152, 16, 16, false, 0, 0, 65535⟩

/-- PAIR_COUNT.SUBST_CNT at 0x103C. -/
def F.pairCountSubstCnt : FieldRef := ⟨4156, 0, 16, false, 0, 0, 65535⟩

/-- PAIR_COUNT.CUT_MISS at 0x103C. -/
def F.pairCountCutMiss : FieldRef := ⟨4156, 16, 16, false, 0, 0, 65535⟩

/-- PAIR_LOCK.LOCK at 0x1040. -/
def F.pairLockLock : FieldRef := ⟨4160, 0, 1, false, 0, 0, 1⟩

/-- ADC_STATUS.CONFIGURED at 0x1C00. -/
def F.adcStatusConfigured : FieldRef := ⟨7168, 0, 1, false, 0, 0, 1⟩

/-- ADC_STATUS.CONFLICT at 0x1C00. -/
def F.adcStatusConflict : FieldRef := ⟨7168, 1, 1, false, 0, 0, 1⟩

/-- ADC_STATUS.SKIPPED at 0x1C00. -/
def F.adcStatusSkipped : FieldRef := ⟨7168, 2, 1, false, 0, 0, 1⟩

/-- ADC_STATUS.MERGED at 0x1C00. -/
def F.adcStatusMerged : FieldRef := ⟨7168, 3, 1, false, 0, 0, 1⟩

/-- ADC_STATUS.CHAIN_SAT at 0x1C00. -/
def F.adcStatusChainSat : FieldRef := ⟨7168, 4, 1, false, 0, 0, 1⟩

/-- ADC_STATUS.SV_LOST at 0x1C00. -/
def F.adcStatusSvLost : FieldRef := ⟨7168, 5, 1, false, 0, 0, 1⟩

/-- ADC_CTRL.LP0 at 0x1C04. -/
def F.adcCtrlLp0 : FieldRef := ⟨7172, 0, 1, false, 0, 0, 1⟩

/-- ADC_CTRL.LP1 at 0x1C04. -/
def F.adcCtrlLp1 : FieldRef := ⟨7172, 1, 1, false, 0, 0, 1⟩

/-- ADC_COUNT.DELAYED at 0x1C08. -/
def F.adcCountDelayed : FieldRef := ⟨7176, 0, 16, false, 0, 0, 65535⟩

/-- ADC_COUNT.SKIP_CNT at 0x1C08. -/
def F.adcCountSkipCnt : FieldRef := ⟨7176, 16, 16, false, 0, 0, 65535⟩

/-- ADC_COUNT.MERGE_CNT at 0x1C0C. -/
def F.adcCountMergeCnt : FieldRef := ⟨7180, 0, 16, false, 0, 0, 65535⟩

/-- ADC_COUNT.ABORT_CNT at 0x1C0C. -/
def F.adcCountAbortCnt : FieldRef := ⟨7180, 16, 16, false, 0, 0, 65535⟩

/-- ADC_LOCK.LOCK at 0x1C3C. -/
def F.adcLockLock : FieldRef := ⟨7228, 0, 1, false, 0, 0, 1⟩

/-- ECHO_STATUS.ARMED at 0x2400. -/
def F.echoStatusArmed : FieldRef := ⟨9216, 0, 8, false, 0, 0, 255⟩

/-- ECHO_STATUS.BUSY at 0x2400. -/
def F.echoStatusBusy : FieldRef := ⟨9216, 8, 8, false, 0, 0, 255⟩

/-- ECHO_STATUS.WAIT_RING at 0x2400. -/
def F.echoStatusWaitRing : FieldRef := ⟨9216, 16, 1, false, 0, 0, 1⟩

/-- ECHO_STATUS.RETRIG at 0x2400. -/
def F.echoStatusRetrig : FieldRef := ⟨9216, 17, 1, false, 0, 0, 1⟩

/-- ECHO_MEM.FREE at 0x2404. -/
def F.echoMemFree : FieldRef := ⟨9220, 0, 25, false, 16777216, 0, 33554431⟩

/-- ECHO_TRG.IN_EN at 0x2408. -/
def F.echoTrgInEn : FieldRef := ⟨9224, 0, 4, false, 15, 0, 15⟩

/-- ECHO_TRG.OUT_EN at 0x2408. -/
def F.echoTrgOutEn : FieldRef := ⟨9224, 4, 4, false, 0, 0, 15⟩

/-- ECHO_LOCK.LOCK at 0x243C. -/
def F.echoLockLock : FieldRef := ⟨9276, 0, 1, false, 0, 0, 1⟩

/-- SIPHON_STATUS.BUSY at 0x3800. -/
def F.siphonStatusBusy : FieldRef := ⟨14336, 0, 32, false, 0, 0, 4294967295⟩

/-- SIPHON_STATUS.BAD at 0x3804. -/
def F.siphonStatusBad : FieldRef := ⟨14340, 0, 32, false, 0, 0, 4294967295⟩

/-- SIPHON_CH.REMAIN at 0x3900 + 0x8 × n. -/
def F.siphonChRemain (n : Nat) : FieldRef := ⟨14592 + 8 * n, 0, 24, false, 0, 0, 16777215⟩

/-- SIPHON_CH.PRIO at 0x3900 + 0x8 × n. -/
def F.siphonChPrio (n : Nat) : FieldRef := ⟨14592 + 8 * n, 24, 4, false, 0, 0, 15⟩

/-- SIPHON_CH.ACTIVE at 0x3900 + 0x8 × n. -/
def F.siphonChActive (n : Nat) : FieldRef := ⟨14592 + 8 * n, 28, 1, false, 0, 0, 1⟩

/-- SIPHON_CH.PACED at 0x3900 + 0x8 × n. -/
def F.siphonChPaced (n : Nat) : FieldRef := ⟨14592 + 8 * n, 29, 1, false, 0, 0, 1⟩

/-- SIPHON_CH.HOST at 0x3900 + 0x8 × n. -/
def F.siphonChHost (n : Nat) : FieldRef := ⟨14592 + 8 * n, 30, 1, false, 0, 0, 1⟩

/-- SIPHON_CH.LINKED at 0x3900 + 0x8 × n. -/
def F.siphonChLinked (n : Nat) : FieldRef := ⟨14592 + 8 * n, 31, 1, false, 0, 0, 1⟩

/-- SIPHON_CH.DONE_CNT at 0x3904 + 0x8 × n. -/
def F.siphonChDoneCnt (n : Nat) : FieldRef := ⟨14596 + 8 * n, 0, 16, false, 0, 0, 65535⟩

/-- ETH_STATUS.LINK_A at 0x2800. -/
def F.ethStatusLinkA : FieldRef := ⟨10240, 0, 1, false, 0, 0, 1⟩

/-- ETH_STATUS.LINK_B at 0x2800. -/
def F.ethStatusLinkB : FieldRef := ⟨10240, 1, 1, false, 0, 0, 1⟩

/-- ETH_STATUS.LINK_LOST at 0x2800. -/
def F.ethStatusLinkLost : FieldRef := ⟨10240, 2, 1, false, 0, 0, 1⟩

/-- ETH_STATUS.PRP_FULL at 0x2800. -/
def F.ethStatusPrpFull : FieldRef := ⟨10240, 3, 1, false, 0, 0, 1⟩

/-- ETH_CTRL.EN_A at 0x2804. -/
def F.ethCtrlEnA : FieldRef := ⟨10244, 0, 1, false, 0, 0, 1⟩

/-- ETH_CTRL.EN_B at 0x2804. -/
def F.ethCtrlEnB : FieldRef := ⟨10244, 1, 1, false, 0, 0, 1⟩

/-- ETH_CTRL.SPEED_A at 0x2804. -/
def F.ethCtrlSpeedA : FieldRef := ⟨10244, 2, 1, false, 1, 0, 1⟩

/-- ETH_CTRL.SPEED_B at 0x2804. -/
def F.ethCtrlSpeedB : FieldRef := ⟨10244, 3, 1, false, 1, 0, 1⟩

/-- ETH_CTRL.FEC_A at 0x2804. -/
def F.ethCtrlFecA : FieldRef := ⟨10244, 4, 1, false, 1, 0, 1⟩

/-- ETH_CTRL.FEC_B at 0x2804. -/
def F.ethCtrlFecB : FieldRef := ⟨10244, 5, 1, false, 1, 0, 1⟩

/-- ETH_CTRL.PRP_EN at 0x2804. -/
def F.ethCtrlPrpEn : FieldRef := ⟨10244, 6, 1, false, 0, 0, 1⟩

/-- ETH_CTRL.LIFE at 0x2804. -/
def F.ethCtrlLife : FieldRef := ⟨10244, 8, 8, false, 20, 1, 255⟩

/-- ETH_CTRL.FORGET at 0x2804. -/
def F.ethCtrlForget : FieldRef := ⟨10244, 16, 8, false, 40, 1, 255⟩

/-- ETH_MAC.ADDR Lo at 0x2808 + 0x8 × n. -/
def F.ethMacAddrLo (n : Nat) : FieldRef := ⟨10248 + 8 * n, 0, 32, false, 0, 0, 4294967295⟩

/-- ETH_MAC.ADDR Hi at 0x280C + 0x8 × n. -/
def F.ethMacAddrHi (n : Nat) : FieldRef := ⟨10252 + 8 * n, 0, 16, false, 0, 0, 65535⟩

/-- ETH_COUNT.RX_BAD at 0x2820 + 0x8 × n. -/
def F.ethCountRxBad (n : Nat) : FieldRef := ⟨10272 + 8 * n, 0, 16, false, 0, 0, 65535⟩

/-- ETH_COUNT.RX_UNKNOWN at 0x2820 + 0x8 × n. -/
def F.ethCountRxUnknown (n : Nat) : FieldRef := ⟨10272 + 8 * n, 16, 16, false, 0, 0, 65535⟩

/-- ETH_COUNT.DUP at 0x2824 + 0x8 × n. -/
def F.ethCountDup (n : Nat) : FieldRef := ⟨10276 + 8 * n, 0, 16, false, 0, 0, 65535⟩

/-- ETH_COUNT.TX_LATE at 0x2824 + 0x8 × n. -/
def F.ethCountTxLate (n : Nat) : FieldRef := ⟨10276 + 8 * n, 16, 16, false, 0, 0, 65535⟩

/-- ETH_LOCK.LOCK at 0x283C. -/
def F.ethLockLock : FieldRef := ⟨10300, 0, 1, false, 0, 0, 1⟩

/-- CAN_STATUS.STATE0 at 0x2C00. -/
def F.canStatusState0 : FieldRef := ⟨11264, 0, 2, false, 3, 0, 3⟩

/-- CAN_STATUS.LISTEN0 at 0x2C00. -/
def F.canStatusListen0 : FieldRef := ⟨11264, 2, 1, false, 0, 0, 1⟩

/-- CAN_STATUS.STATE1 at 0x2C00. -/
def F.canStatusState1 : FieldRef := ⟨11264, 3, 2, false, 3, 0, 3⟩

/-- CAN_STATUS.LISTEN1 at 0x2C00. -/
def F.canStatusListen1 : FieldRef := ⟨11264, 5, 1, false, 0, 0, 1⟩

/-- CAN_STATUS.COLLISION at 0x2C00. -/
def F.canStatusCollision : FieldRef := ⟨11264, 6, 1, false, 0, 0, 1⟩

/-- CAN_STATUS.BUS_OFF at 0x2C00. -/
def F.canStatusBusOff : FieldRef := ⟨11264, 7, 1, false, 0, 0, 1⟩

/-- CAN_STATUS.SLOT_MISS at 0x2C00. -/
def F.canStatusSlotMiss : FieldRef := ⟨11264, 8, 1, false, 0, 0, 1⟩

/-- CAN_STATUS.RX_DROP at 0x2C00. -/
def F.canStatusRxDrop : FieldRef := ⟨11264, 9, 1, false, 0, 0, 1⟩

/-- CAN_CTRL.AUTO_RECOVER0 at 0x2C04. -/
def F.canCtrlAutoRecover0 : FieldRef := ⟨11268, 0, 1, false, 1, 0, 1⟩

/-- CAN_CTRL.AUTO_RECOVER1 at 0x2C04. -/
def F.canCtrlAutoRecover1 : FieldRef := ⟨11268, 1, 1, false, 1, 0, 1⟩

/-- CAN_ERR.TEC at 0x2C08 + 0x8 × n. -/
def F.canErrTec (n : Nat) : FieldRef := ⟨11272 + 8 * n, 0, 9, false, 0, 0, 511⟩

/-- CAN_ERR.REC at 0x2C08 + 0x8 × n. -/
def F.canErrRec (n : Nat) : FieldRef := ⟨11272 + 8 * n, 16, 8, false, 0, 0, 255⟩

/-- CAN_ERR.ERR_FRAMES at 0x2C0C + 0x8 × n. -/
def F.canErrErrFrames (n : Nat) : FieldRef := ⟨11276 + 8 * n, 0, 16, false, 0, 0, 65535⟩

/-- CAN_ERR.COLLISIONS at 0x2C0C + 0x8 × n. -/
def F.canErrCollisions (n : Nat) : FieldRef := ⟨11276 + 8 * n, 16, 16, false, 0, 0, 65535⟩

/-- CAN_COUNT.TX_OK at 0x2C20 + 0x8 × n. -/
def F.canCountTxOk (n : Nat) : FieldRef := ⟨11296 + 8 * n, 0, 16, false, 0, 0, 65535⟩

/-- CAN_COUNT.RX_OK at 0x2C20 + 0x8 × n. -/
def F.canCountRxOk (n : Nat) : FieldRef := ⟨11296 + 8 * n, 16, 16, false, 0, 0, 65535⟩

/-- CAN_COUNT.SLOT_MISSED at 0x2C24 + 0x8 × n. -/
def F.canCountSlotMissed (n : Nat) : FieldRef := ⟨11300 + 8 * n, 0, 16, false, 0, 0, 65535⟩

/-- CAN_COUNT.RX_DROP at 0x2C24 + 0x8 × n. -/
def F.canCountRxDrop (n : Nat) : FieldRef := ⟨11300 + 8 * n, 16, 16, false, 0, 0, 65535⟩

/-- CAN_LOCK.LOCK at 0x2C3C. -/
def F.canLockLock : FieldRef := ⟨11324, 0, 1, false, 0, 0, 1⟩

/-- PWM_STATUS.TRIPPED at 0x3000. -/
def F.pwmStatusTripped : FieldRef := ⟨12288, 0, 1, false, 0, 0, 1⟩

/-- PWM_STATUS.SHOOT_BLOCK at 0x3000. -/
def F.pwmStatusShootBlock : FieldRef := ⟨12288, 1, 1, false, 0, 0, 1⟩

/-- PWM_STATUS.DUTY_BAD at 0x3000. -/
def F.pwmStatusDutyBad : FieldRef := ⟨12288, 2, 1, false, 0, 0, 1⟩

/-- PWM_STATUS.DUTY_CLAMP at 0x3000. -/
def F.pwmStatusDutyClamp : FieldRef := ⟨12288, 3, 1, false, 0, 0, 1⟩

/-- PWM_STATUS.CUT at 0x3000. -/
def F.pwmStatusCut : FieldRef := ⟨12288, 4, 1, false, 0, 0, 1⟩

/-- PWM_CTRL.CH_EN at 0x3004. -/
def F.pwmCtrlChEn : FieldRef := ⟨12292, 0, 12, false, 0, 0, 4095⟩

/-- TRIP_STATUS.LATCHED at 0x3008. -/
def F.tripStatusLatched : FieldRef := ⟨12296, 0, 8, false, 0, 0, 255⟩

/-- TRIP_STATUS.ACTIVE at 0x3008. -/
def F.tripStatusActive : FieldRef := ⟨12296, 8, 8, false, 0, 0, 255⟩

/-- TRIP_CFG.TRIP_EN at 0x300C. -/
def F.tripCfgTripEn : FieldRef := ⟨12300, 0, 8, true, 255, 0, 255⟩

/-- TRIP_CFG.FILT at 0x300C. -/
def F.tripCfgFilt : FieldRef := ⟨12300, 8, 8, true, 25, 1, 255⟩

/-- TRIP_MAP.PWM at 0x3010 + 0x4 × n. -/
def F.tripMapPwm (n : Nat) : FieldRef := ⟨12304 + 4 * n, 0, 12, true, 4095, 0, 4095⟩

/-- TRIP_MAP.LAN at 0x3010 + 0x4 × n. -/
def F.tripMapLan (n : Nat) : FieldRef := ⟨12304 + 4 * n, 12, 6, true, 63, 0, 63⟩

/-- TRIP_MAP.ZL at 0x3010 + 0x4 × n. -/
def F.tripMapZl (n : Nat) : FieldRef := ⟨12304 + 4 * n, 18, 1, true, 1, 0, 1⟩

/-- PWM_PER.PER at 0x3040 + 0x20 × n. -/
def F.pwmPerPer (n : Nat) : FieldRef := ⟨12352 + 32 * n, 0, 20, false, 5000, 50, 1048575⟩

/-- PWM_PER.ALIGN at 0x3040 + 0x20 × n. -/
def F.pwmPerAlign (n : Nat) : FieldRef := ⟨12352 + 32 * n, 20, 1, false, 1, 0, 1⟩

/-- PWM_PHASE.PHASE at 0x3044 + 0x20 × n. -/
def F.pwmPhasePhase (n : Nat) : FieldRef := ⟨12356 + 32 * n, 0, 25, false, 0, 0, 33554431⟩

/-- PWM_DT.DT_H at 0x3048 + 0x20 × n. -/
def F.pwmDtDtH (n : Nat) : FieldRef := ⟨12360 + 32 * n, 0, 16, false, 1600, 0, 65535⟩

/-- PWM_DT.DT_L at 0x3048 + 0x20 × n. -/
def F.pwmDtDtL (n : Nat) : FieldRef := ⟨12360 + 32 * n, 16, 16, false, 1600, 0, 65535⟩

/-- PWM_SRC.INDEX at 0x304C + 0x20 × n. -/
def F.pwmSrcIndex (n : Nat) : FieldRef := ⟨12364 + 32 * n, 0, 20, false, 0, 0, 1048575⟩

/-- PWM_SRC.NONE at 0x304C + 0x20 × n. -/
def F.pwmSrcNone (n : Nat) : FieldRef := ⟨12364 + 32 * n, 31, 1, false, 1, 0, 1⟩

/-- PWM_CMPFIX.CMP_FIX at 0x3050 + 0x20 × n. -/
def F.pwmCmpfixCmpFix (n : Nat) : FieldRef := ⟨12368 + 32 * n, 0, 25, false, 0, 0, 33554431⟩

/-- PWM_TRG.TRG_CMP at 0x3054 + 0x20 × n. -/
def F.pwmTrgTrgCmp (n : Nat) : FieldRef := ⟨12372 + 32 * n, 0, 25, false, 0, 0, 33554431⟩

/-- PWM_TRG.TRG_DIV at 0x3054 + 0x20 × n. -/
def F.pwmTrgTrgDiv (n : Nat) : FieldRef := ⟨12372 + 32 * n, 25, 7, false, 0, 0, 127⟩

/-- PWM_CHSTAT.CMP_ACT at 0x3058 + 0x20 × n. -/
def F.pwmChstatCmpAct (n : Nat) : FieldRef := ⟨12376 + 32 * n, 0, 25, false, 0, 0, 33554431⟩

/-- PWM_CHSTAT.FORCED at 0x3058 + 0x20 × n. -/
def F.pwmChstatForced (n : Nat) : FieldRef := ⟨12376 + 32 * n, 25, 1, false, 0, 0, 1⟩

/-- PWM_CHSTAT.DUTY_BAD at 0x3058 + 0x20 × n. -/
def F.pwmChstatDutyBad (n : Nat) : FieldRef := ⟨12376 + 32 * n, 26, 1, false, 0, 0, 1⟩

/-- LAN_CTRL.LAN_EN at 0x3200. -/
def F.lanCtrlLanEn : FieldRef := ⟨12800, 0, 6, false, 0, 0, 63⟩

/-- LAN_BOOT.BOOT_HOLD at 0x3204. -/
def F.lanBootBootHold : FieldRef := ⟨12804, 0, 16, true, 500, 1, 65535⟩

/-- LAN_BOOT.LS_MIN at 0x3204. -/
def F.lanBootLsMin : FieldRef := ⟨12804, 16, 16, true, 300, 50, 10000⟩

/-- LAN_SC.SC_TH at 0x3208. -/
def F.lanScScTh : FieldRef := ⟨12808, 0, 8, false, 50, 10, 200⟩

/-- LAN_SC.SC_BLANK at 0x3208. -/
def F.lanScScBlank : FieldRef := ⟨12808, 8, 16, false, 500, 0, 10000⟩

/-- LAN_STATUS.SC_H at 0x320C. -/
def F.lanStatusScH : FieldRef := ⟨12812, 0, 6, false, 0, 0, 63⟩

/-- LAN_STATUS.SC_L at 0x320C. -/
def F.lanStatusScL : FieldRef := ⟨12812, 8, 6, false, 0, 0, 63⟩

/-- LAN_STATUS.BOOT_UV at 0x320C. -/
def F.lanStatusBootUv : FieldRef := ⟨12812, 16, 6, false, 0, 0, 63⟩

/-- LAN_STATUS.UV_NOW at 0x320C. -/
def F.lanStatusUvNow : FieldRef := ⟨12812, 24, 6, false, 0, 0, 63⟩

/-- LAN_COUNT.REFRESH_CNT at 0x3210. -/
def F.lanCountRefreshCnt : FieldRef := ⟨12816, 0, 32, false, 0, 0, 4294967295⟩

/-- LAN_COUNT.SC_CNT at 0x3214. -/
def F.lanCountScCnt : FieldRef := ⟨12820, 0, 16, false, 0, 0, 65535⟩

/-- PWM_LOCK.LOCK at 0x33FC. -/
def F.pwmLockLock : FieldRef := ⟨13308, 0, 1, false, 0, 0, 1⟩

/-- SAFE_STATUS.IN_OK at 0x3400. -/
def F.safeStatusInOk : FieldRef := ⟨13312, 0, 8, false, 0, 0, 255⟩

/-- SAFE_STATUS.OUT_ON at 0x3400. -/
def F.safeStatusOutOn : FieldRef := ⟨13312, 8, 4, false, 0, 0, 15⟩

/-- SAFE_STATUS.CONFIGURED at 0x3400. -/
def F.safeStatusConfigured : FieldRef := ⟨13312, 12, 1, false, 0, 0, 1⟩

/-- SAFE_STATUS.FAULT at 0x3400. -/
def F.safeStatusFault : FieldRef := ⟨13312, 13, 1, false, 0, 0, 1⟩

/-- SAFE_STATUS.SELFTEST_OK at 0x3400. -/
def F.safeStatusSelftestOk : FieldRef := ⟨13312, 14, 1, false, 0, 0, 1⟩

/-- SAFE_STATUS.TEL_SINGLE at 0x3400. -/
def F.safeStatusTelSingle : FieldRef := ⟨13312, 16, 1, false, 0, 0, 1⟩

/-- SAFE_STATUS.TEST_DUE at 0x3400. -/
def F.safeStatusTestDue : FieldRef := ⟨13312, 17, 1, false, 0, 0, 1⟩

/-- SAFE_STATUS.DEMAND at 0x3400. -/
def F.safeStatusDemand : FieldRef := ⟨13312, 18, 1, false, 0, 0, 1⟩

/-- SAFE_FAULT.DISC at 0x3404. -/
def F.safeFaultDisc : FieldRef := ⟨13316, 0, 8, false, 0, 0, 255⟩

/-- SAFE_FAULT.TP at 0x3404. -/
def F.safeFaultTp : FieldRef := ⟨13316, 8, 8, false, 0, 0, 255⟩

/-- SAFE_FAULT.OUT at 0x3404. -/
def F.safeFaultOut : FieldRef := ⟨13316, 16, 4, false, 0, 0, 15⟩

/-- SAFE_FAULT.INTERNAL at 0x3404. -/
def F.safeFaultInternal : FieldRef := ⟨13316, 20, 1, false, 0, 0, 1⟩

/-- SAFE_TAG.CFG_CRC at 0x3408. -/
def F.safeTagCfgCrc : FieldRef := ⟨13320, 0, 32, false, 0, 0, 4294967295⟩

/-- SAFE_RAW.SIA at 0x340C. -/
def F.safeRawSia : FieldRef := ⟨13324, 0, 8, false, 0, 0, 255⟩

/-- SAFE_RAW.SIB at 0x340C. -/
def F.safeRawSib : FieldRef := ⟨13324, 8, 8, false, 0, 0, 255⟩

/-- SAFE_RAW.SOA_RB at 0x340C. -/
def F.safeRawSoaRb : FieldRef := ⟨13324, 16, 4, false, 0, 0, 15⟩

/-- SAFE_RAW.SOB_RB at 0x340C. -/
def F.safeRawSobRb : FieldRef := ⟨13324, 20, 4, false, 0, 0, 15⟩

/-- SAFE_RAW.STP at 0x340C. -/
def F.safeRawStp : FieldRef := ⟨13324, 24, 4, false, 0, 0, 15⟩

/-- SAFE_COUNT.DEMANDS at 0x3410. -/
def F.safeCountDemands : FieldRef := ⟨13328, 0, 16, false, 0, 0, 65535⟩

/-- SAFE_COUNT.TEL_MISMATCH at 0x3410. -/
def F.safeCountTelMismatch : FieldRef := ⟨13328, 16, 16, false, 0, 0, 65535⟩

/-- SAFE_COUNT.SINGLE at 0x3414. -/
def F.safeCountSingle : FieldRef := ⟨13332, 0, 16, false, 0, 0, 65535⟩

/-- SAFE_COUNT.TEL_LOST at 0x3414. -/
def F.safeCountTelLost : FieldRef := ⟨13332, 16, 16, false, 0, 0, 65535⟩

/-- SAFE_TEL.LAST_SEQ at 0x3420 + 0x8 × n. -/
def F.safeTelLastSeq (n : Nat) : FieldRef := ⟨13344 + 8 * n, 0, 32, false, 0, 0, 4294967295⟩

/-- SAFE_TEL.LATE at 0x3424 + 0x8 × n. -/
def F.safeTelLate (n : Nat) : FieldRef := ⟨13348 + 8 * n, 0, 16, false, 0, 0, 65535⟩

/-- SAFE_TEL.DISC at 0x3424 + 0x8 × n. -/
def F.safeTelDisc (n : Nat) : FieldRef := ⟨13348 + 8 * n, 16, 16, false, 0, 0, 65535⟩

/-- DEV_ID.PART at 0x0000. -/
def F.devIdPart : FieldRef := ⟨0, 0, 16, false, 18528, 0, 65535⟩

/-- DEV_ID.STEPPING at 0x0000. -/
def F.devIdStepping : FieldRef := ⟨0, 16, 8, false, 0, 0, 255⟩

/-- DEV_ID.GRADE at 0x0000. -/
def F.devIdGrade : FieldRef := ⟨0, 24, 8, false, 0, 0, 255⟩

/-- DEV_STATUS.STATE at 0x0008. -/
def F.devStatusState : FieldRef := ⟨8, 0, 3, false, 2, 0, 7⟩

/-- DEV_STATUS.PAIRID at 0x0008. -/
def F.devStatusPairid : FieldRef := ⟨8, 3, 1, false, 0, 0, 1⟩

/-- DEV_STATUS.BOOTSEL at 0x0008. -/
def F.devStatusBootsel : FieldRef := ⟨8, 4, 2, false, 0, 0, 3⟩

/-- DEV_STATUS.TEST at 0x0008. -/
def F.devStatusTest : FieldRef := ⟨8, 6, 1, false, 0, 0, 1⟩

/-- DEV_STATUS.LOCKVIOL at 0x0008. -/
def F.devStatusLockviol : FieldRef := ⟨8, 8, 1, false, 0, 0, 1⟩

/-- DEV_STATUS.VOTE_FIX at 0x0008. -/
def F.devStatusVoteFix : FieldRef := ⟨8, 9, 1, false, 0, 0, 1⟩

/-- DEV_STATUS.ECC_CE at 0x0008. -/
def F.devStatusEccCe : FieldRef := ⟨8, 10, 1, false, 0, 0, 1⟩

/-- DEV_STATUS.BAD_ACCESS at 0x0008. -/
def F.devStatusBadAccess : FieldRef := ⟨8, 11, 1, false, 0, 0, 1⟩

/-- DEV_CTRL.SCRUB_INT at 0x000C. -/
def F.devCtrlScrubInt : FieldRef := ⟨12, 0, 4, true, 3, 0, 10⟩

/-- DEV_SAFE_CAUSE.CAUSE at 0x0010. -/
def F.devSafeCauseCause : FieldRef := ⟨16, 0, 8, false, 0, 0, 255⟩

/-- DEV_SAFE_CAUSE.SUB at 0x0010. -/
def F.devSafeCauseSub : FieldRef := ⟨16, 8, 8, false, 0, 0, 255⟩

/-- DEV_SAFE_CAUSE.PERIOD at 0x0014. -/
def F.devSafeCausePeriod : FieldRef := ⟨20, 0, 32, false, 0, 0, 4294967295⟩

/-- DEV_VIOL.OFFSET at 0x0018. -/
def F.devViolOffset : FieldRef := ⟨24, 0, 16, false, 0, 0, 65535⟩

/-- DEV_VIOL.VIOL_CNT at 0x0018. -/
def F.devViolViolCnt : FieldRef := ⟨24, 16, 16, false, 0, 0, 65535⟩

/-- DEV_VOTE.FIX_CNT at 0x001C. -/
def F.devVoteFixCnt : FieldRef := ⟨28, 0, 16, false, 0, 0, 65535⟩

/-- DEV_VOTE.LAST_OFS at 0x001C. -/
def F.devVoteLastOfs : FieldRef := ⟨28, 16, 16, false, 0, 0, 65535⟩

/-- DEV_ECC.CE_CNT at 0x0020. -/
def F.devEccCeCnt : FieldRef := ⟨32, 0, 32, false, 0, 0, 4294967295⟩

/-- DEV_ECC.LAST_REGION at 0x0024. -/
def F.devEccLastRegion : FieldRef := ⟨36, 0, 3, false, 0, 0, 7⟩

/-- DEV_SERIAL.SERIAL Lo at 0x0028. -/
def F.devSerialSerialLo : FieldRef := ⟨40, 0, 32, false, 0, 0, 4294967295⟩

/-- DEV_SERIAL.SERIAL Hi at 0x002C. -/
def F.devSerialSerialHi : FieldRef := ⟨44, 0, 32, false, 0, 0, 4294967295⟩

/-- DEV_SCRATCH.VALUE at 0x0030. -/
def F.devScratchValue : FieldRef := ⟨48, 0, 32, false, 0, 0, 4294967295⟩

/-- DEV_LOCK.LOCK at 0x03FC. -/
def F.devLockLock : FieldRef := ⟨1020, 0, 1, false, 0, 0, 1⟩

/-- PWR_STATUS.VMID_OK at 0x3C00. -/
def F.pwrStatusVmidOk : FieldRef := ⟨15360, 0, 1, false, 0, 0, 1⟩

/-- PWR_STATUS.VDRV_OK at 0x3C00. -/
def F.pwrStatusVdrvOk : FieldRef := ⟨15360, 1, 1, false, 0, 0, 1⟩

/-- PWR_STATUS.VIO_OK at 0x3C00. -/
def F.pwrStatusVioOk : FieldRef := ⟨15360, 2, 1, false, 0, 0, 1⟩

/-- PWR_STATUS.AVDD_OK at 0x3C00. -/
def F.pwrStatusAvddOk : FieldRef := ⟨15360, 3, 1, false, 0, 0, 1⟩

/-- PWR_STATUS.VCORE_OK at 0x3C00. -/
def F.pwrStatusVcoreOk : FieldRef := ⟨15360, 4, 1, false, 0, 0, 1⟩

/-- PWR_STATUS.VIN_LOW at 0x3C00. -/
def F.pwrStatusVinLow : FieldRef := ⟨15360, 5, 1, false, 0, 0, 1⟩

/-- PWR_STATUS.HOT at 0x3C00. -/
def F.pwrStatusHot : FieldRef := ⟨15360, 6, 1, false, 0, 0, 1⟩

/-- PWR_CTRL.SLEEP at 0x3C04. -/
def F.pwrCtrlSleep : FieldRef := ⟨15364, 0, 1, false, 0, 0, 1⟩

/-- PWR_ALARM.SECONDS at 0x3C08. -/
def F.pwrAlarmSeconds : FieldRef := ⟨15368, 0, 32, false, 0, 0, 4294967295⟩

/-- PWR_THRESH.VIN_WARN at 0x3C0C. -/
def F.pwrThreshVinWarn : FieldRef := ⟨15372, 0, 17, true, 34000, 32000, 75000⟩

/-- PWR_THRESH.T_WARN at 0x3C0C. -/
def F.pwrThreshTWarn : FieldRef := ⟨15372, 24, 8, true, 115, 80, 125⟩

/-- PWR_MEAS.VIN at 0x3C10. -/
def F.pwrMeasVin : FieldRef := ⟨15376, 0, 16, false, 0, 0, 65535⟩

/-- PWR_MEAS.VMID at 0x3C10. -/
def F.pwrMeasVmid : FieldRef := ⟨15376, 16, 16, false, 0, 0, 65535⟩

/-- PWR_MEAS.TJ_CTRL at 0x3C14. -/
def F.pwrMeasTjCtrl : FieldRef := ⟨15380, 0, 16, false, 0, 0, 65535⟩

/-- PWR_MEAS.TJ_PWR at 0x3C14. -/
def F.pwrMeasTjPwr : FieldRef := ⟨15380, 16, 16, false, 0, 0, 65535⟩

/-- PWR_RESET_CAUSE.POR at 0x3C18. -/
def F.pwrResetCausePor : FieldRef := ⟨15384, 0, 1, false, 0, 0, 1⟩

/-- PWR_RESET_CAUSE.RST_PIN at 0x3C18. -/
def F.pwrResetCauseRstPin : FieldRef := ⟨15384, 1, 1, false, 0, 0, 1⟩

/-- PWR_RESET_CAUSE.LOCKSTEP at 0x3C18. -/
def F.pwrResetCauseLockstep : FieldRef := ⟨15384, 2, 1, false, 0, 0, 1⟩

/-- PWR_RESET_CAUSE.THERMAL at 0x3C18. -/
def F.pwrResetCauseThermal : FieldRef := ⟨15384, 3, 1, false, 0, 0, 1⟩

/-- PWR_RESET_CAUSE.ACTIVATE at 0x3C18. -/
def F.pwrResetCauseActivate : FieldRef := ⟨15384, 4, 1, false, 0, 0, 1⟩

/-- PWR_RESET_CAUSE.DEBUG at 0x3C18. -/
def F.pwrResetCauseDebug : FieldRef := ⟨15384, 5, 1, false, 0, 0, 1⟩

/-- PWR_RESET_CAUSE.WAKE at 0x3C18. -/
def F.pwrResetCauseWake : FieldRef := ⟨15384, 6, 1, false, 0, 0, 1⟩

/-- PWR_LOCK.LOCK at 0x3C3C. -/
def F.pwrLockLock : FieldRef := ⟨15420, 0, 1, false, 0, 0, 1⟩

/-- SEC_STATUS.BOOT_SLOT at 0x4000. -/
def F.secStatusBootSlot : FieldRef := ⟨16384, 0, 2, false, 3, 0, 3⟩

/-- SEC_STATUS.TRIAL at 0x4000. -/
def F.secStatusTrial : FieldRef := ⟨16384, 2, 1, false, 0, 0, 1⟩

/-- SEC_STATUS.FALLBACK at 0x4000. -/
def F.secStatusFallback : FieldRef := ⟨16384, 3, 1, false, 0, 0, 1⟩

/-- SEC_STATUS.DEBUG at 0x4000. -/
def F.secStatusDebug : FieldRef := ⟨16384, 4, 2, false, 0, 0, 3⟩

/-- SEC_STATUS.STAGED at 0x4000. -/
def F.secStatusStaged : FieldRef := ⟨16384, 6, 1, false, 0, 0, 1⟩

/-- SEC_STATUS.AUTH_FAIL at 0x4000. -/
def F.secStatusAuthFail : FieldRef := ⟨16384, 7, 1, false, 0, 0, 1⟩

/-- SEC_STATUS.OWNER_COSIGN at 0x4000. -/
def F.secStatusOwnerCosign : FieldRef := ⟨16384, 8, 1, false, 0, 0, 1⟩

/-- SEC_STATUS.DENY at 0x4000. -/
def F.secStatusDeny : FieldRef := ⟨16384, 9, 3, false, 0, 0, 7⟩

/-- SEC_SLOTS.V0 at 0x4004. -/
def F.secSlotsV0 : FieldRef := ⟨16388, 0, 2, false, 1, 0, 3⟩

/-- SEC_SLOTS.V1 at 0x4004. -/
def F.secSlotsV1 : FieldRef := ⟨16388, 2, 2, false, 1, 0, 3⟩

/-- SEC_SLOTS.O0 at 0x4004. -/
def F.secSlotsO0 : FieldRef := ⟨16388, 4, 2, false, 0, 0, 3⟩

/-- SEC_SLOTS.O1 at 0x4004. -/
def F.secSlotsO1 : FieldRef := ⟨16388, 6, 2, false, 0, 0, 3⟩

/-- SEC_SLOTS.O2 at 0x4004. -/
def F.secSlotsO2 : FieldRef := ⟨16388, 8, 2, false, 0, 0, 3⟩

/-- SEC_SLOTS.O3 at 0x4004. -/
def F.secSlotsO3 : FieldRef := ⟨16388, 10, 2, false, 0, 0, 3⟩

/-- SEC_SVN.SVN_MIN at 0x4008. -/
def F.secSvnSvnMin : FieldRef := ⟨16392, 0, 16, false, 0, 0, 65535⟩

/-- SEC_SVN.SVN_RUN at 0x4008. -/
def F.secSvnSvnRun : FieldRef := ⟨16392, 16, 16, false, 0, 0, 65535⟩

/-- SEC_SVN.STEPS_LEFT at 0x400C. -/
def F.secSvnStepsLeft : FieldRef := ⟨16396, 0, 7, false, 64, 0, 127⟩

/-- SEC_FW.VERSION at 0x4010. -/
def F.secFwVersion : FieldRef := ⟨16400, 0, 32, false, 0, 0, 4294967295⟩

/-- SEC_FW.COMPAT at 0x4014. -/
def F.secFwCompat : FieldRef := ⟨16404, 0, 8, false, 0, 0, 255⟩

/-- SEC_DEBUG.REMAIN at 0x4018. -/
def F.secDebugRemain : FieldRef := ⟨16408, 0, 32, false, 0, 0, 4294967295⟩

/-- SEC_IDKEY.KEY Lo at 0x4020 + 0x8 × n. -/
def F.secIdkeyKeyLo (n : Nat) : FieldRef := ⟨16416 + 8 * n, 0, 32, false, 0, 0, 4294967295⟩

/-- SEC_IDKEY.KEY Hi at 0x4024 + 0x8 × n. -/
def F.secIdkeyKeyHi (n : Nat) : FieldRef := ⟨16420 + 8 * n, 0, 32, false, 0, 0, 4294967295⟩

/-- DBG_STATUS.ENGINE at 0x4400. -/
def F.dbgStatusEngine : FieldRef := ⟨17408, 0, 2, false, 0, 0, 3⟩

/-- DBG_STATUS.HALT_BLOCKED at 0x4400. -/
def F.dbgStatusHaltBlocked : FieldRef := ⟨17408, 2, 1, false, 0, 0, 1⟩

/-- DBG_STATUS.PROBE at 0x4400. -/
def F.dbgStatusProbe : FieldRef := ⟨17408, 3, 1, false, 0, 0, 1⟩

/-- DBG_STATUS.TOKEN_RES at 0x4400. -/
def F.dbgStatusTokenRes : FieldRef := ⟨17408, 4, 3, false, 0, 0, 7⟩

/-- DBG_STATUS.BP_HIT at 0x4400. -/
def F.dbgStatusBpHit : FieldRef := ⟨17408, 8, 8, false, 0, 0, 255⟩

/-- DBG_STATUS.NEXT_INST at 0x4400. -/
def F.dbgStatusNextInst : FieldRef := ⟨17408, 16, 16, false, 65535, 0, 65535⟩

/-- DBG_CTRL.HALT at 0x4404. -/
def F.dbgCtrlHalt : FieldRef := ⟨17412, 0, 1, false, 0, 0, 1⟩

/-- DBG_CTRL.STEP_PERIOD at 0x4404. -/
def F.dbgCtrlStepPeriod : FieldRef := ⟨17412, 1, 1, false, 0, 0, 1⟩

/-- DBG_CTRL.STEP_BLOCK at 0x4404. -/
def F.dbgCtrlStepBlock : FieldRef := ⟨17412, 2, 1, false, 0, 0, 1⟩

/-- DBG_CTRL.RESUME at 0x4404. -/
def F.dbgCtrlResume : FieldRef := ⟨17412, 3, 1, false, 0, 0, 1⟩

/-- DBG_CTRL.RELEASE_ALL at 0x4404. -/
def F.dbgCtrlReleaseAll : FieldRef := ⟨17412, 4, 1, false, 0, 0, 1⟩

/-- DBG_CTRL.NEW_CHALLENGE at 0x4404. -/
def F.dbgCtrlNewChallenge : FieldRef := ⟨17412, 5, 1, false, 0, 0, 1⟩

/-- DBG_CTRL.SUBMIT at 0x4404. -/
def F.dbgCtrlSubmit : FieldRef := ⟨17412, 6, 1, false, 0, 0, 1⟩

/-- DBG_CTRL.END_LEVEL at 0x4404. -/
def F.dbgCtrlEndLevel : FieldRef := ⟨17412, 7, 1, false, 0, 0, 1⟩

/-- DBG_CTRL.RESET at 0x4404. -/
def F.dbgCtrlReset : FieldRef := ⟨17412, 8, 1, false, 0, 0, 1⟩

/-- DBG_CFG.HALT_MODE at 0x4408. -/
def F.dbgCfgHaltMode : FieldRef := ⟨17416, 0, 1, false, 0, 0, 1⟩

/-- DBG_CFG.HOLD_MAX at 0x4408. -/
def F.dbgCfgHoldMax : FieldRef := ⟨17416, 16, 16, false, 100, 1, 65535⟩

/-- DBG_MDIO.DATA at 0x440C. -/
def F.dbgMdioData : FieldRef := ⟨17420, 0, 16, false, 0, 0, 65535⟩

/-- DBG_MDIO.DEVAD at 0x440C. -/
def F.dbgMdioDevad : FieldRef := ⟨17420, 16, 5, false, 0, 0, 31⟩

/-- DBG_MDIO.PRTAD at 0x440C. -/
def F.dbgMdioPrtad : FieldRef := ⟨17420, 21, 5, false, 0, 0, 31⟩

/-- DBG_MDIO.OP at 0x440C. -/
def F.dbgMdioOp : FieldRef := ⟨17420, 26, 2, false, 0, 0, 3⟩

/-- DBG_MDIO.GO at 0x440C. -/
def F.dbgMdioGo : FieldRef := ⟨17420, 28, 1, false, 0, 0, 1⟩

/-- DBG_MDIO.BUSY at 0x440C. -/
def F.dbgMdioBusy : FieldRef := ⟨17420, 29, 1, false, 0, 0, 1⟩

/-- DBG_HALT_AT.PERIOD Lo at 0x4410. -/
def F.dbgHaltAtPeriodLo : FieldRef := ⟨17424, 0, 32, false, 0, 0, 4294967295⟩

/-- DBG_HALT_AT.PERIOD Hi at 0x4414. -/
def F.dbgHaltAtPeriodHi : FieldRef := ⟨17428, 0, 32, false, 0, 0, 4294967295⟩

/-- DBG_CHALLENGE.WORD at 0x4420 + 0x4 × n. -/
def F.dbgChallengeWord (n : Nat) : FieldRef := ⟨17440 + 4 * n, 0, 32, false, 0, 0, 4294967295⟩

/-- DBG_BP_CFG.KIND at 0x4440 + 0x10 × n. -/
def F.dbgBpCfgKind (n : Nat) : FieldRef := ⟨17472 + 16 * n, 0, 2, false, 0, 0, 3⟩

/-- DBG_BP_CFG.CMP at 0x4440 + 0x10 × n. -/
def F.dbgBpCfgCmp (n : Nat) : FieldRef := ⟨17472 + 16 * n, 2, 3, false, 0, 0, 4⟩

/-- DBG_BP_CFG.TARGET at 0x4440 + 0x10 × n. -/
def F.dbgBpCfgTarget (n : Nat) : FieldRef := ⟨17472 + 16 * n, 8, 20, false, 0, 0, 1048575⟩

/-- DBG_BP_CFG.COUNT at 0x4444 + 0x10 × n. -/
def F.dbgBpCfgCount (n : Nat) : FieldRef := ⟨17476 + 16 * n, 0, 16, false, 1, 1, 65535⟩

/-- DBG_BP_ARG.ARG Lo at 0x4448 + 0x10 × n. -/
def F.dbgBpArgArgLo (n : Nat) : FieldRef := ⟨17480 + 16 * n, 0, 32, false, 0, 0, 4294967295⟩

/-- DBG_BP_ARG.ARG Hi at 0x444C + 0x10 × n. -/
def F.dbgBpArgArgHi (n : Nat) : FieldRef := ⟨17484 + 16 * n, 0, 32, false, 0, 0, 4294967295⟩

end Sys2Proof.Machine
end

