-- ==== Sys2Proof/Machine/Blocks.lean ====
section
/-! DEFINITION. Machine/Blocks.lean: the general block types of the block library, their ports, parameter checks and computations (R72–R106). -/
set_option Elab.async false
namespace Sys2Proof.Machine

/-! ### Catalogue (R73) -/

/-- Format codes of R43. -/
inductive Fmt where
  | pu | ang | int | uint | bits
  deriving DecidableEq, Repr

/-- FMT code of a signal declaration (R43). -/
def fmtOfCode : Nat → Option Fmt
  | 1 => some .pu | 2 => some .ang | 3 => some .int | 4 => some .uint | 5 => some .bits | _ => none

/-- Input port of a type: format and whether it is optional. -/
structure InPort where
  fmt : Fmt
  opt : Bool
  deriving DecidableEq, Repr

/-- A block type with its port counts resolved: ports, PARAM_COUNT, S_b and state words (R73). -/
structure BType where
  ins : List InPort
  outs : List Fmt
  /-- an optional last output carries the flag word. -/
  flg : Bool
  params : Nat
  steps : Nat
  words : Nat
  deriving DecidableEq, Repr

/-- One input of a block as it is read in an execution (R54). -/
structure BIn where
  value : Word
  quality : Byte
  conn : Bool
  prev : Bool
  deriving DecidableEq, Repr

/-- One output of an execution; `src` lists the inputs its QUALITY is derived from, `none` for all of them (R55). -/
structure BOut where
  value : Word
  sat : Bool
  src : Option (List Nat)
  deriving DecidableEq, Repr

/-- Result of one execution: outputs, next block state, and the sticky flags set in it (bits of the flag word). -/
structure BRes where
  outs : List BOut
  state : List Int
  sticky : Nat
  deriving DecidableEq, Repr

/-- What a block reads besides ports and parameters: T_e in ns, F_BASE in mHz, and the arms and bases of the record (R75, R123). -/
structure BEnv where
  te : Nat
  fBase : Nat
  topology : Nat
  armCount : Nat
  /-- KPH of R142 and KIB of R144. -/
  kph : Int
  kib : Int
  deriving DecidableEq, Repr

def inP : InPort := ⟨.pu, false⟩
def inPo : InPort := ⟨.pu, true⟩
def inA : InPort := ⟨.ang, false⟩
def inAo : InPort := ⟨.ang, true⟩
def inB : InPort := ⟨.bits, false⟩
def inBo : InPort := ⟨.bits, true⟩
def inU : InPort := ⟨.uint, false⟩

/-- `n` data inputs of format PU32. -/
def nP (n : Nat) : List InPort := List.replicate n inP

/-- ⌈n/4⌉. -/
def ceil4 (n : Nat) : Nat := (n + 3) / 4

/-- Table of R73: the type of a general block for its N_IN and its first parameter word. -/
def genType (code nIn w0 : Nat) : Option BType :=
  match code with
  | 0x0001 => some ⟨[inP], [.pu], false, 1, 2, 0⟩
  | 0x0002 => if 1 ≤ nIn ∧ nIn ≤ 16 then some ⟨nP nIn, [.pu], false, 1, 2 + ceil4 nIn, 0⟩ else none
  | 0x0003 => some ⟨[inP, inP], [.pu], false, 0, 2, 0⟩
  | 0x0004 => some ⟨[inP, inP], [.pu], false, 0, 12, 0⟩
  | 0x0005 => if 2 ≤ nIn ∧ nIn ≤ 16 then some ⟨nP nIn, [.pu, .pu], false, 0, 2 + ceil4 nIn, 0⟩ else none
  | 0x0006 => some ⟨[inP], [.pu], false, 0, 1, 0⟩
  | 0x0007 => some ⟨[inP, inP], [.pu], false, 0, 10, 0⟩
  | 0x0008 => some ⟨[inP, inP], [.bits], false, 0, 1, 0⟩
  | 0x0009 => some ⟨[inB, inP, inP], [.pu], false, 1, 1, 0⟩
  | 0x0101 => some ⟨[inP, inP, inP], [.pu, .pu, .pu], false, 0, 4, 0⟩
  | 0x0102 => some ⟨[inP, inP, inPo], [.pu, .pu, .pu], false, 0, 4, 0⟩
  | 0x0103 => some ⟨[inP, inP, inA], [.pu, .pu], false, 0, 5, 0⟩
  | 0x0104 => some ⟨[inP, inP, inA], [.pu, .pu], false, 0, 5, 0⟩
  | 0x0105 => some ⟨[inA], [.pu, .pu], false, 0, 2, 0⟩
  | 0x0106 => some ⟨[inP, inP], [.ang, .pu], false, 0, 12, 0⟩
  | 0x0107 => some ⟨[inP, inP], [.pu, .pu, .pu, .pu], false, 1, 6, 2 * w0 + 1⟩
  | 0x0201 => some ⟨[inP], [.pu], false, 1, 3, 2⟩
  | 0x0202 => some ⟨[inP], [.pu], false, 1, 6, w0 + 4⟩
  | 0x0203 => some ⟨[inP], [.pu], false, 1 + 5 * w0, 2 + 6 * w0, 4 * w0⟩
  | 0x0204 => some ⟨[inP], [.pu], false, 2, 8, 7⟩
  | 0x0301 => some ⟨[inP, inPo, inPo, inBo, inPo, inPo], [.pu], true, 5, 8, 5⟩
  | 0x0302 => some ⟨[inP, inPo, inAo, inPo, inBo], [.pu], true, 7, 12, 3⟩
  | 0x0401 => some ⟨[inP], [.pu], false, 2, 1, 0⟩
  | 0x0402 => some ⟨[inP, inP, inP], [.pu], true, 0, 2, 1⟩
  | 0x0403 => some ⟨[inP, inPo, inBo], [.pu], true, 5, 4, 3⟩
  | 0x0404 => some ⟨[inP, inP, inB], [.pu, .bits], false, 4, 5, 2⟩
  | 0x0501 | 0x0502 | 0x0503 => if 2 ≤ nIn ∧ nIn ≤ 8 then some ⟨List.replicate nIn inB, [.bits], false, 0, 1, 0⟩ else none
  | 0x0504 => some ⟨[inB], [.bits], false, 0, 1, 0⟩
  | 0x0505 => some ⟨[inB, inB], [.bits], false, 0, 1, 1⟩
  | 0x0506 => some ⟨[inB], [.bits, .bits], false, 0, 1, 2⟩
  | 0x0507 => some ⟨[inP], [.bits], false, 2, 2, 1⟩
  | 0x0508 | 0x0509 | 0x050A => some ⟨[inB], [.bits, .uint], false, 2, 2, 2⟩
  | 0x0601 =>
    if 2 ≤ nIn ∧ nIn ≤ 17 then some ⟨inU :: nP (nIn - 1), [.pu, .bits], true, nIn + 1, 4 + ceil4 (nIn - 1), 4⟩ else none
  | _ => none

/-! ### Parameter ranges and cross-word conditions (R79) -/

/-- Parameter word `i` as PU32. -/
def pS (p : List Word) (i : Nat) : Int := (p.getD i 0#32).toInt

/-- Parameter word `i` as an unsigned value. -/
def pU (p : List Word) (i : Nat) : Nat := (p.getD i 0#32).toNat

/-- `lo ≤ v ≤ hi` for a signed word. -/
def inRangeI (v lo hi : Int) : Bool := decide (lo ≤ v) && decide (v ≤ hi)

/-- `lo ≤ v ≤ hi` for an unsigned word. -/
def inRangeN (v lo hi : Nat) : Bool := decide (lo ≤ v) && decide (v ≤ hi)

/-- Ranges and cross-word conditions of a general block's parameter set (R81–R103). -/
def genParamsOk (code nIn : Nat) (p : List Word) : Bool :=
  match code with
  | 0x0002 => decide (pU p 0 < 2 ^ nIn)
  | 0x0009 => decide (pU p 0 ≤ 31)
  | 0x0107 => inRangeN (pU p 0) 1 4096
  | 0x0201 => inRangeI (pS p 0) 0 0x01000000
  | 0x0202 => inRangeN (pU p 0) 1 4096
  | 0x0203 => inRangeN (pU p 0) 1 8
  | 0x0204 => inRangeI (pS p 0) (-0x01000000) 0x01000000 && inRangeI (pS p 1) 0 0x00FFFFFF
  | 0x0301 => decide (0 ≤ pS p 1) && decide (pS p 2 ≤ pS p 3) && decide (pU p 4 ≤ 31)
  | 0x0302 => decide (0 ≤ pS p 1) && inRangeI (pS p 3) 0 0x01000000 && decide (pS p 4 ≤ pS p 5) && decide (pU p 6 ≤ 31)
  | 0x0401 => decide (pS p 0 ≤ pS p 1)
  | 0x0403 => decide (0 ≤ pS p 0) && decide (0 ≤ pS p 1) && decide (pS p 2 ≤ pS p 3) && decide (pU p 4 ≤ 31)
  | 0x0404 => decide (0 ≤ pS p 0) && decide (pS p 1 ≤ pS p 2) && decide (pU p 3 ≤ 31)
  | 0x0507 => decide (pS p 1 < pS p 0)
  | 0x0508 | 0x0509 | 0x050A => decide (pU p 1 ≤ 31)
  | 0x0601 => decide (1 ≤ pS p 0) && decide (pU p 1 + 1 < nIn)
  | _ => true

/-- Parameter word 0 of SEQSEP, MAVG and BIQUAD is structural (R74). -/
def structuralWord (code i : Nat) : Bool := i == 0 && (code == 0x0107 || code == 0x0202 || code == 0x0203)

/-! ### Reading inputs, giving outputs -/

/-- Input `i`, or an unconnected one. -/
def inAt (x : List BIn) (i : Nat) : BIn := x.getD i ⟨0#32, 0#8, false, false⟩

/-- Input `i` as a signed value; an unconnected input reads as 0. -/
def xS (x : List BIn) (i : Nat) : Int := if (inAt x i).conn then (inAt x i).value.toInt else 0

/-- Input `i` as an unsigned value or as flags. -/
def xU (x : List BIn) (i : Nat) : Nat := if (inAt x i).conn then (inAt x i).value.toNat else 0

/-- Input `i` is connected. -/
def xC (x : List BIn) (i : Nat) : Bool := (inAt x i).conn

/-- VALID and not STALE (R9). -/
def qGood (q : Byte) : Bool := bitOf q.toNat 0 && !bitOf q.toNat 1

/-- State word `i` of a block; state not yet set reads as zero (R78). -/
def sAt (s : List Int) (i : Nat) : Int := s.getD i 0

/-- An output of a signed value with its saturation mark. -/
def oS (v : Sv) : BOut := ⟨wordOf v.1, v.2, none⟩

/-- An output of an unsigned value or of flags. -/
def oU (v : Nat) : BOut := ⟨BitVec.ofNat 32 v, false, none⟩

/-- The flag word output: live bits [7:0] and the sticky bits (R80), given only where the block has it. -/
def oFlg (want : Bool) (live sticky : Nat) : List BOut := if want then [oU (live % 256 + bitsOf sticky 8 8 * 256)] else []

/-- Result without state or flags. -/
def resOf (outs : List BOut) : BRes := ⟨outs, [], 0⟩

/-! ### Sections and coefficients -/

/-- One direct-form-I section (R91): coefficients b0 b1 b2 a1 a2, input, and the histories x1 x2 y1 y2. -/
def section1 (b0 b1 b2 a1 a2 x x1 x2 y1 y2 : Int) : Sv :=
  accPu [b0 * x, b1 * x1, b2 * x2, -(a1 * y1), -(a2 * y2)]

/-- The sections of BIQUAD in turn: the output of each feeds the next, and a section that saturates marks the output (R91). -/
def biquadRun (p : List Word) : Nat → Nat → Sv → List Int → Sv × List Int
  | 0, _, x, _ => (x, [])
  | n + 1, j, x, st =>
    let y := section1 (pS p (1 + 5 * j)) (pS p (2 + 5 * j)) (pS p (3 + 5 * j)) (pS p (4 + 5 * j)) (pS p (5 + 5 * j))
      x.1 (sAt st 0) (sAt st 1) (sAt st 2) (sAt st 3)
    let r := biquadRun p n (j + 1) (y.1, x.2 || y.2) (st.drop 4)
    (r.1, [x.1, sAt st 0, y.1, sAt st 2] ++ r.2)

/-- Bit `n` of input `i`. -/
def xBit (x : List BIn) (i n : Nat) : Bool := bitOf (xU x i) n

/-- Lowest index whose word equals `v` (R103). -/
def findCode (p : List Word) (v : Nat) : Option Nat := (p.map fun w => w.toNat).findIdx? (· == v)

/-! ### Executions (R81–R106)

`p` are the parameter words, `x` the inputs in port order, `st` the block state at the start of the period, `sk` the sticky flags already set and `want` says whether the flag word output is present. -/

/-- PI (R95): state i, e_prev, kp_used, and the mark of the first execution.
DESIGN CHOICE: of what saturates on the way only v and the clamp mark Y with SAT; a saturated error e or integrator does not (R57 speaks of the output value, R95 of `limited`). -/
def execPi (p : List Word) (x : List BIn) (st : List Int) (sk : Nat) (want : Bool) : BRes :=
  let kp := pS p 0
  let e := sat32 (xS x 0 - xS x 1)
  let lo0 := pS p 2
  let hi0 := pS p 3
  let lo := if xC x 4 then max lo0 (xS x 4) else lo0
  let hi := if xC x 5 then min hi0 (xS x 5) else hi0
  let kpUsed := if sAt st 3 = 0 then kp else sAt st 2
  let i0 := if kpUsed ≠ kp then sat64 (sAt st 0 + (kpUsed - kp) * sAt st 1) else sAt st 0
  let order := if hi < lo then 2 ^ 8 else 0
  if xC x 3 && xBit x 3 (pU p 4) then
    let t := clampI (xS x 2) lo hi
    let lim := t != xS x 2
    ⟨oS (t, lim) :: oFlg want (b2n lim + 2) (sk ||| order), [sat64 (t * 2 ^ 24 - kp * e), e, kp, 1], order⟩
  else
    let v := accPu [kp * e, i0]
    let y := clampI v.1 lo hi
    let lim := y != v.1
    let d := pS p 1 * e
    let i1 := if (hi < v.1 ∧ 0 < d) ∨ (v.1 < lo ∧ d < 0) then i0 else sat64 (i0 + d)
    let i2 := clampI i1 (lo * 2 ^ 24) (hi * 2 ^ 24)
    ⟨oS (y, lim || v.2) :: oFlg want (b2n lim) (sk ||| order), [i2, e, kp, 1], order⟩

/-- RES (R96): state s1, s2. DESIGN CHOICE: of what saturates on the way only v and the clamp mark Y with SAT, not e, u1, r1 and r2 (R57, R96). -/
def execRes (p : List Word) (x : List BIn) (st : List Int) (sk : Nat) (want : Bool) : BRes :=
  let kp := pS p 0
  let th := if xC x 2 then xU x 2 else pU p 2
  let c := cosA th
  let s := sinA th
  let g : Int := 2 ^ 24 - pS p 3
  let lo := pS p 4
  let hi := pS p 5
  let e := sat32 (xS x 0 - xS x 1)
  if xC x 4 && xBit x 4 (pU p 6) then
    let t := clampI (xS x 3) lo hi
    let lim := t != xS x 3
    ⟨oS (t, lim) :: oFlg want (b2n lim + 2) sk, [(toPu (sat64 (t * 2 ^ 24 - kp * e))).1, 0], 0⟩
  else
    let s1 := sAt st 0
    let s2 := sAt st 1
    let u1 := sat32 (s1 + (toPu (pS p 1 * e)).1)
    let v := accPu [kp * e, u1 * 2 ^ 24]
    let y := clampI v.1 lo hi
    let lim := y != v.1
    let u := if lim then s1 else u1
    let r1 := (accPu [c * u, -(s * s2)]).1
    let r2 := (accPu [s * u, c * s2]).1
    ⟨oS (y, lim || v.2) :: oFlg want (b2n lim) sk, [(toPu (g * r1)).1, (toPu (g * r2)).1], 0⟩

/-- RATELIM (R98): state mark, y_prev. -/
def execRateLim (p : List Word) (x : List BIn) (st : List Int) (sk : Nat) (want : Bool) : BRes :=
  let lo := pS p 2
  let hi := pS p 3
  if xC x 2 && xBit x 2 (pU p 4) then
    let y := clampI (xS x 1) lo hi
    ⟨oS (y, y != xS x 1) :: oFlg want 2 sk, [1, y], 0⟩
  else
    let t := clampI (xS x 0) lo hi
    let yp := if sAt st 0 = 0 then t else sAt st 1
    let y := yp + clampI (t - yp) (-pS p 1) (pS p 0)
    ⟨oS (y, t != xS x 0) :: oFlg want (b2n (y != t)) sk, [1, y], 0⟩

/-- SOFTSTART (R99): state running, y_prev. -/
def execSoftStart (p : List Word) (x : List BIn) (st : List Int) : BRes :=
  let lo := pS p 1
  let hi := pS p 2
  let m := clampI (xS x 1) lo hi
  let t := clampI (xS x 0) lo hi
  let out (y : Int) (running sat : Bool) : BRes :=
    ⟨[oS (y, sat), oU (b2n running + 2 * b2n (y == t))], [if running then 1 else 0, y], 0⟩
  if !xBit x 2 (pU p 3) then out m false (m != xS x 1)
  else if sAt st 0 = 0 then out m true (m != xS x 1)
  else out (sAt st 1 + clampI (t - sAt st 1) (-pS p 0) (pS p 0)) true (t != xS x 0)

/-- TON, TOF and TP (R102): state et, and q_prev or x_prev. -/
def execTimer (code : Nat) (p : List Word) (x : List BIn) (st : List Int) : BRes :=
  let pt : Int := pU p 0
  let b := xBit x 0 (pU p 1)
  let et := sAt st 0
  let out (q : Bool) (et' m : Int) : BRes := ⟨[oU (b2n q), oU et'.toNat], [et', m], 0⟩
  match code with
  | 0x0508 => if b then out (decide (pt ≤ et)) (min (et + 1) pt) 0 else out false 0 0
  | 0x0509 =>
    if b then out true 0 1
    else
      let q := decide (et < pt) && sAt st 1 == 1
      out q (min (et + 1) pt) (b2n q : Nat)
  | _ =>
    let m : Int := (b2n b : Nat)
    if et = 0 ∧ b ∧ sAt st 1 = 0 ∧ 0 < pt then out true 1 m
    else if 0 < et ∧ et < pt then out true (et + 1) m
    else out false (if b then et else 0) m

/-- MODESEL (R103–R105): state cur, ramping, y_prev, mark of the first execution. -/
def execModeSel (p : List Word) (x : List BIn) (st : List Int) (sk : Nat) (want : Bool) : BRes :=
  let n := x.length - 1
  let cur0 := if sAt st 3 = 0 ∧ st.length < 1 then pU p 1 else (sAt st 0).toNat
  let yPrev := if sAt st 3 = 0 then xS x (1 + cur0) else sAt st 2
  let selGood := qGood (inAt x 0).quality
  let found := findCode ((p.drop 2).take n) (xU x 0)
  let new := if selGood then found.getD cur0 else cur0
  let s0 := if !selGood then 2 ^ 10 else if found.isNone then 2 ^ 9 else 0
  let xc := xS x (1 + new)
  let changed := new != cur0
  let ramp0 := if changed then xc != yPrev else sAt st 1 == 1
  let s1 := if changed && xc != yPrev then s0 ||| 2 ^ 8 else s0
  let y := if ramp0 then yPrev + clampI (xc - yPrev) (-pS p 0) (pS p 0) else xc
  let ramp := ramp0 && y != xc
  ⟨[⟨wordOf y, false, some [1 + new]⟩, ⟨BitVec.ofNat 32 ((2 ^ n - 1) - 2 ^ new), false, some [0]⟩]
      ++ oFlg want (b2n ramp + 16 * new) (sk ||| s1),
    [(new : Int), if ramp then 1 else 0, y, 1], s1⟩

/-- NOTCH (R93): state mark, x1, x2, y1, y2; the coefficients follow K1 and K2. -/
def execNotch (p : List Word) (x : List BIn) (st : List Int) : BRes :=
  let k1 := pS p 0
  let k2 := pS p 1
  let sk : Int := 2 ^ 24 + k2
  let b0 := roundDiv sk 2
  let b1 := (toPu (k1 * sk)).1
  let v := xS x 0
  let st := if sAt st 0 = 0 then [1, v, v, v, v] else st
  let y := section1 b0 b1 b0 b1 k2 v (sAt st 1) (sAt st 2) (sAt st 3) (sAt st 4)
  ⟨[oS y], [1, v, sAt st 1, y.1, sAt st 3], 0⟩

/-- SEQSEP (R88): state mark, then the α and the β line, newest first. -/
def execSeqSep (p : List Word) (x : List BIn) (st : List Int) : BRes :=
  let d := pU p 0
  let a := xS x 0
  let b := xS x 1
  let la := if sAt st 0 = 0 then List.replicate d a else (st.drop 1).take d
  let lb := if sAt st 0 = 0 then List.replicate d b else (st.drop (1 + d)).take d
  let ad := la.getD (d - 1) a
  let bd := lb.getD (d - 1) b
  let h : Int := 8388608
  ⟨[oS (toPu (h * a - h * bd)), oS (toPu (h * b + h * ad)), oS (toPu (h * a + h * bd)), oS (toPu (h * b - h * ad))],
    1 :: (a :: la.take (d - 1)) ++ (b :: lb.take (d - 1)), 0⟩

/-- MAVG (R90): state mark, then the window, newest first. -/
def execMavg (p : List Word) (x : List BIn) (st : List Int) : BRes :=
  let n := pU p 0
  let v := xS x 0
  let w := if sAt st 0 = 0 then List.replicate n v else v :: (st.drop 1).take (n - 1)
  ⟨[oS (roundDiv w.sum (max n 1), false)], 1 :: w, 0⟩

/-- Least and greatest of a list of raw inputs (R82). -/
def minMaxI : List Int → Int × Int
  | [] => (0, 0)
  | [a] => (a, a)
  | a :: t => (min a (minMaxI t).1, max a (minMaxI t).2)

/-- SUM: the inputs with their signs, from input `i` on (R81). -/
def signedSum (signs : Nat) : Nat → List BIn → Int
  | _, [] => 0
  | i, b :: t => (if bitOf signs i then -b.value.toInt else b.value.toInt) + signedSum signs (i + 1) t

/-- One execution of a general block (R81–R105). -/
def genExec (code : Nat) (p : List Word) (x : List BIn) (st : List Int) (sk : Nat) (want : Bool) : BRes :=
  match code with
  | 0x0001 => resOf [oS (toPu (pS p 0 * xS x 0))]
  | 0x0002 => resOf [oS (satS (signedSum (pU p 0) 0 x))]
  | 0x0003 => resOf [oS (toPu (xS x 0 * xS x 1))]
  | 0x0004 => resOf [oS (divPu (xS x 0) (xS x 1))]
  | 0x0005 =>
    let m := minMaxI (x.map fun b => b.value.toInt)
    resOf [oS (m.1, false), oS (m.2, false)]
  | 0x0006 => resOf [oS (satS (xS x 0).natAbs)]
  | 0x0007 => resOf [oS (magPu (xS x 0) (xS x 1))]
  | 0x0008 =>
    let a := xS x 0
    let b := xS x 1
    resOf [oU (if b < a then 1 else if a = b then 2 else 4)]
  | 0x0009 =>
    let i := if xBit x 0 (pU p 0) then 2 else 1
    resOf [⟨wordOf (xS x i), false, some [0, i]⟩]
  | 0x0101 =>
    let a := xS x 0
    let b := xS x 1
    let c := xS x 2
    resOf [oS (accPu [11184811 * a, -(5592405 * b), -(5592405 * c)]),
      oS (accPu [9686330 * b, -(9686330 * c)]),
      oS (accPu [5592405 * a, 5592405 * b, 5592405 * c])]
  | 0x0102 =>
    let a := xS x 0
    let b := xS x 1
    let z := xS x 2
    resOf [oS (satS (a + z)),
      oS (accPu [-(8388608 * a), 14529495 * b, 2 ^ 24 * z]),
      oS (accPu [-(8388608 * a), -(14529495 * b), 2 ^ 24 * z])]
  | 0x0103 =>
    let c := cosA (xU x 2)
    let s := sinA (xU x 2)
    resOf [oS (accPu [c * xS x 0, s * xS x 1]), oS (accPu [c * xS x 1, -(s * xS x 0)])]
  | 0x0104 =>
    let c := cosA (xU x 2)
    let s := sinA (xU x 2)
    resOf [oS (accPu [c * xS x 0, -(s * xS x 1)]), oS (accPu [s * xS x 0, c * xS x 1])]
  | 0x0105 => resOf [oS (sinA (xU x 0), false), oS (cosA (xU x 0), false)]
  | 0x0106 => resOf [oU (atan2A (xS x 1) (xS x 0)), oS (magPu (xS x 0) (xS x 1))]
  | 0x0107 => execSeqSep p x st
  | 0x0201 =>
    let v := xS x 0
    if sAt st 0 = 0 then ⟨[oS (v, false)], [1, v], 0⟩
    else
      let y := accPu [2 ^ 24 * sAt st 1, pS p 0 * (v - sAt st 1)]
      ⟨[oS y], [1, y.1], 0⟩
  | 0x0202 => execMavg p x st
  | 0x0203 =>
    let r := biquadRun p (pU p 0) 0 (xS x 0, false) st
    ⟨[oS r.1], r.2, 0⟩
  | 0x0204 => execNotch p x st
  | 0x0301 => execPi p x st sk want
  | 0x0302 => execRes p x st sk want
  | 0x0401 => resOf [oS (clampS (xS x 0) (pS p 0) (pS p 1))]
  | 0x0402 =>
    let y := clampS (xS x 0) (xS x 1) (xS x 2)
    let o := if xS x 2 < xS x 1 then 2 ^ 8 else 0
    ⟨oS y :: oFlg want (b2n y.2) (sk ||| o), [], o⟩
  | 0x0403 => execRateLim p x st sk want
  | 0x0404 => execSoftStart p x st
  | 0x0501 => resOf [oU ((x.map fun b => b.value.toNat).foldl (· &&& ·) 0xFFFFFFFF)]
  | 0x0502 => resOf [oU ((x.map fun b => b.value.toNat).foldl (· ||| ·) 0)]
  | 0x0503 => resOf [oU ((x.map fun b => b.value.toNat).foldl (· ^^^ ·) 0)]
  | 0x0504 => resOf [oU (0xFFFFFFFF - xU x 0)]
  | 0x0505 =>
    let q := ((sAt st 0).toNat ||| xU x 0) &&& (0xFFFFFFFF - xU x 1)
    ⟨[oU q], [(q : Int)], 0⟩
  | 0x0506 =>
    let v := xU x 0
    let pv := if sAt st 0 = 0 then v else (sAt st 1).toNat
    ⟨[oU (v &&& (0xFFFFFFFF - pv)), oU (pv &&& (0xFFFFFFFF - v))], [1, (v : Int)], 0⟩
  | 0x0507 =>
    let v := xS x 0
    let y : Int := if pS p 0 ≤ v then 1 else if v ≤ pS p 1 then 0 else sAt st 0
    ⟨[oU y.toNat], [y], 0⟩
  | 0x0508 | 0x0509 | 0x050A => execTimer code p x st
  | 0x0601 => execModeSel p x st sk want
  | _ => resOf []

end Sys2Proof.Machine
end

