-- ==== Sys2Proof/Machine/Placement.lean ====
section
/-! DEFINITION. Machine/Placement.lean: the arithmetic of ranking and cut for one arm (R153–R162), as functions of what Flowstone reads. -/
set_option Elab.async false
namespace Sys2Proof.Machine

/-! ### State codes (R187) -/

def stBlock : Nat := 0
def stBypass : Nat := 1
def stInsert : Nat := 2
def stInsertNeg : Nat := 3
def stBypassAlt : Nat := 4
def stHold : Nat := 8

/-- A bypass in either variant. -/
def isBypass (c : Nat) : Bool := c == stBypass || c == stBypassAlt

/-- The insertion of a polarity (R155). -/
def insertOf (pol : Int) : Nat := if 0 ≤ pol then stInsert else stInsertNeg

/-! ### Bases (R24, R151) -/

/-- √(a / b) × 2^`s`, rounded to nearest. -/
def sqrtRatio (a b s : Nat) : Nat := (isqrt (4 * a * 2 ^ (2 * s) / b) + 1) / 2

/-- K_ARM = V_BASE_ARM / V_SM_NOM in Q32.32 (R24, R151). -/
def kArm (topology vAc vDc vNom : Nat) : Nat :=
  if topology = 1 then (roundDiv ((vDc * 2 ^ 32 : Nat) : Int) vNom).toNat
  else if topology = 2 then sqrtRatio (2 * vAc ^ 2) (3 * vNom ^ 2) 32
  else sqrtRatio (2 * vAc ^ 2) (vNom ^ 2) 32

/-- KPH of R142. -/
def kPh (topology vAc vDc : Nat) : Nat :=
  if topology = 1 then sqrtRatio (2 * vAc ^ 2) (3 * vDc ^ 2) 24
  else if topology = 2 then 0x01000000 else 9686330

/-- KIB of R144: I_BASE_DC / (√2 × I_BASE_AC). -/
def kIb (vAc vDc : Nat) : Nat := sqrtRatio (3 * vAc ^ 2) (2 * vDc ^ 2) 24

/-- Voltage capability of an arm (R21): REQUIRED × V_SM_NOM is not less than V_arm. -/
def capable (topology vAc vDc required vNom : Nat) : Bool :=
  if topology = 1 then decide (vDc ≤ required * vNom)
  else if topology = 2 then decide (2 * vAc ^ 2 ≤ 3 * (required * vNom) ^ 2)
  else decide (2 * vAc ^ 2 ≤ (required * vNom) ^ 2)

/-! ### Bands (R153) -/

/-- h_i of a submodule: the arm's band, the weights KT and KW, θ as excess over 1,000 × T_SPAN, ω as excess over the span. -/
def bandOf (h : Int) (kt kw : Nat) (thN thD wN wD : Nat) : Int :=
  let tn := min thN thD
  let wn := min wN wD
  roundDiv (h * ((16 * thD * wD + kt * tn * wD + kw * wn * thD : Nat) : Int)) (16 * thD * wD)

/-! ### Ranking (R154) -/

/-- What the ranking reads of one AVAILABLE submodule: g, SM_VCAP, balancing voltage, band, final state. -/
structure RankIn where
  g : Nat
  u : Int
  b : Int
  band : Int
  final : Nat
  deriving DecidableEq, Repr

/-- Insertion into a ranking in ascending key, ties to the lower g (R154). -/
def rankInsert (e : RankE) : List RankE → List RankE
  | [] => [e]
  | a :: t => if e.key < a.key ∨ (e.key = a.key ∧ e.g < a.g) then e :: a :: t else a :: rankInsert e t

/-- Mean of the balancing voltages (R154). DESIGN CHOICE: it is rounded to nearest; SM_SCORE shows it. -/
def meanB (av : List RankIn) : Int := roundDiv ((av.map fun a => a.b).sum) (max av.length 1)

/-- The ranking of one polarity, with `c` the direction of charge (R154). -/
def rankArm (av : List RankIn) (pol c : Int) : List RankE :=
  let m := meanB av
  av.foldr (fun a r =>
    let k0 := c * (a.b - m)
    let k := if a.final = insertOf pol then k0 - a.band else k0 + a.band
    rankInsert ⟨a.g, a.u, k, a.band⟩ r) []

/-! ### The cut (R155) -/

/-- Largest m with prefix[m] ≤ bound, and that prefix, in raw SM_VCAP units; `bound` is in Q32.32 submodule units. -/
def cutIndex (bound : Int) : List RankE → Nat → Int → Nat × Int → Nat × Int
  | [], _, _, best => best
  | e :: t, m, s, best =>
    let s' := s + e.u
    cutIndex bound t (m + 1) s' (if s' * 2 ^ 8 ≤ bound then (m + 1, s') else best)

/-- Outcome of the cut of one arm. -/
structure Cut where
  pol : Int
  n : Nat
  tOn : Nat
  rho : Int
  vlim : Bool
  /-- whether a fractional submodule takes part, that is n < N. -/
  frac : Bool
  deriving DecidableEq, Repr

/-- Level of the cut: n, t_on, rho and VLIM (R155). `t` is ARM_VREF × K_ARM − z + rho in Q32.32; `tMin4` is 4 × T_MIN. -/
def cutLevel (t : Int) (half : Bool) (rankPos rankNeg : List RankE) (pq tMin4 : Nat) : Cut :=
  let neg := decide (t < 0)
  let clipped := neg && half
  let t := if clipped then 0 else t
  let pol : Int := if neg && !half then -1 else 1
  let r := if pol = 1 then rankPos else rankNeg
  let at_ : Int := t.natAbs
  let nb := cutIndex at_ r 0 0 (0, 0)
  if nb.1 = r.length then
    ⟨pol, nb.1, 0, 0, clipped || decide (nb.2 * 2 ^ 8 < at_), false⟩
  else
    let u := (r.getD nb.1 ⟨0, 0, 0, 0⟩).u
    let f : Int := if u ≤ 0 then 0 else roundDiv ((at_ - nb.2 * 2 ^ 8) * 2 ^ 32) (u * 2 ^ 8).toNat
    let t0 := (roundDiv (f * pq) (2 ^ 32)).toNat
    let t1 := if t0 < tMin4 then 0 else t0
    let tOn := if pq - t1 < tMin4 then pq else t1
    let rho := clampI (roundDiv (pol * (f * pq - (tOn : Int) * 2 ^ 32) * (u * 2 ^ 8)) (2 ^ 32 * max pq 1)) (-(2 ^ 32)) (2 ^ 32)
    ⟨pol, nb.1, tOn, rho, clipped, true⟩

/-- The bypass a submodule receives: BYPASS, or for full bridges the variant of R156. -/
def bypassFor (half : Bool) (final : Nat) (altNext : Bool) : Nat :=
  if half then stBypass
  else if isBypass final then final
  else if final = stInsert ∨ final = stInsertNeg then (if altNext then stBypassAlt else stBypass)
  else stBypass

/-- Command of the ranked submodule at place `i` (R155): state code and edge offset. -/
def cutCommand (c : Cut) (pq i final bypass : Nat) : Nat × Nat :=
  if i < c.n then (insertOf c.pol, 0)
  else if i = c.n ∧ c.frac then
    (if c.tOn = 0 then (bypass, 0)
     else if c.tOn = pq then (insertOf c.pol, 0)
     else if final = insertOf c.pol then (bypass, c.tOn)
     else (insertOf c.pol, pq - c.tOn))
  else (bypass, 0)

/-- Sign with which a state contributes its capacitor voltage to the arm; BLOCK contributes as a stranded submodule does (R157, R158).
DESIGN CHOICE: that holds for a BLOCK commanded in a blocked cut as for one held. -/
def stateSign (half : Bool) (idir : Int) (code : Nat) : Int :=
  if code = stInsert then 1
  else if code = stInsertNeg then -1
  else if code = stBlock then (if half then (if 0 < idir then 1 else 0) else idir)
  else 0

/-- Mean arm voltage of the next period as PU32 on V_BASE_ARM (R139, R157). Each item is (u, old state, new state, offset). -/
def vPlaced (half : Bool) (idir : Int) (k pq : Nat) (z : Int) (l : List (Int × Nat × Nat × Nat)) : Int :=
  let w : Int := (l.map fun (u, old, new, off) =>
    u * (stateSign half idir old * min off pq + stateSign half idir new * (pq - min off pq : Nat))).sum
  roundDiv ((w * 2 ^ 8 + z * pq) * 2 ^ 24) (max (k * pq) 1)

/-- Switchings a command counts (R161). -/
def switchings (final cmd : Nat) : Nat :=
  if final = cmd then 0
  else if isBypass final && isBypass cmd then 0
  else if (final = stInsert ∧ cmd = stInsertNeg) ∨ (final = stInsertNeg ∧ cmd = stInsert) then 2
  else 1

/-- F_i after a period with `s` switchings, held with 16 fraction bits and rounded (R161). -/
def fswAvg (f s p shift : Nat) : Nat :=
  let d := max p 1
  (roundDiv ((f * (2 ^ shift - 1) * d + s * 10 ^ 12 * 2 ^ 16 : Nat) : Int) (2 ^ shift * d)).toNat

/-- The band servo at a period with k mod 1,024 = 0, SERVO_EN set and no spread (R162). -/
def bandServo (h hMin hMax : Int) (m tgt db : Nat) : Int :=
  if tgt * (256 + db) < m * 256 then min hMax (h + h / 16)
  else if m * 256 < tgt * (256 - db) then max hMin (h - h / 16)
  else h

end Sys2Proof.Machine
end

