-- ==== Sys2Proof/Machine/TypesZl.lean ====
section
/-! DEFINITION. Machine/TypesZl.lean: the ZeldLink lanes (R176–R209). -/
set_option Elab.async false
namespace Sys2Proof.Machine

/-- The identity a hub announces (R181). -/
structure Ident where
  uid : Nat
  smCount : Nat
  smType : Nat
  proto : Nat
  cap : Nat
  ulOfs : Nat
  hwId : Nat
  fwId : Nat
  deriving DecidableEq, Repr

/-- One report of a submodule: F and S (R192), or absent fields where NR is set. -/
structure SmReport where
  f : Nat
  s : Nat
  deriving DecidableEq, Repr

/-- The used REPORT frame of the boundary (R194, R196): its reports and the marks of its alarm section, local position and class. -/
structure UsedReport where
  reports : List SmReport
  marks : List (Nat × Nat)
  deriving DecidableEq, Repr

/-- One lane (R180–R205). -/
structure Lane where
  /-- block lock holds. -/
  lock : Bool
  /-- step of R180 reached, as ZL_LANE.TRAIN shows it. -/
  step : Nat
  trainCount : Nat
  farReady : Bool
  identReq : Bool
  ident : Option Ident
  /-- an identity awaits the next boundary (R31). -/
  identNew : Bool
  attach : Attach
  entry : Option Nat
  /-- samples D_s of the calibration under way, exchanges lost, and a CAL_REQ not yet answered (R182). -/
  samples : List Int
  lost : Nat
  calOpen : Bool
  calFailed : Bool
  d : Int
  spread : Nat
  dCal : Int
  /-- drift beyond 16 units has been reported (R183). -/
  drifted : Bool
  /-- sum of 100 × (D_u + ASYM) and number of the report frames averaged (R183). -/
  trackSum : Int
  trackCount : Nat
  /-- consecutive periods without a CRC-valid REPORT, and whether one came in this period (R204). -/
  silent : Nat
  heard : Bool
  /-- link loss to be applied at the next boundary (R204). -/
  lossDue : Bool
  used : Option UsedReport
  /-- a report frame that passes R194 and awaits the agreement of the pair (R286). -/
  pend : Option (List Byte)
  /-- shares of the slow record gathered in this cycle, one list per REPORT frame, `none` where NR was set (R195). -/
  slow : List (List (Option Nat))
  claimSeen : Nat
  margin : Nat
  /-- time of the last ZL_TRAIN_FAIL and ZL_MARGIN_LOW, ns of device uptime, if any (R180, R205). -/
  trainFailAt : Option Nat
  marginAt : Option Nat
  /-- HUB_TO last sent in CONFIG (R203). -/
  hubToSent : Nat
  /-- `entry` is held through the partner, whose lane is BOUND to it (R286). -/
  remote : Bool
  deriving DecidableEq, Repr

/-- ZeldLink (R176–R209). -/
structure ZlSt where
  lanes : List Lane
  /-- the BLOCK_ALL of an entry into SAFE is still to be sent (R189). -/
  blockAllDue : Bool
  /-- the command-type frames for the next boundary have been sent. -/
  sent : Bool
  deriving DecidableEq, Repr

end Sys2Proof.Machine
end

