-- ==== Sys2Proof/Machine/TypesMach.lean ====
section
/-! DEFINITION. Machine/TypesMach.lean: the device as a whole but for its queue of commands: its subsystems, the setup-window registers, the levels of its output balls, and what its last step sent out. -/
set_option Elab.async false
namespace Sys2Proof.Machine

/-- Device states (R37, R444). -/
inductive DevState where
  | off | dormant | boot | ready | run | safe | recovery
  deriving DecidableEq, Repr

/-- Device state and the bookkeeping of entries into SAFE and of voted fields (R37, R260, R425, R429). -/
structure DevSt where
  state : DevState
  /-- test mode is active (R427). -/
  test : Bool
  /-- the intake of the period has been made. -/
  intakeDone : Bool
  /-- commands accepted before this place of the acceptance order complete with ABORTED_SAFE at the next intake (R260). -/
  abortBefore : Option Nat
  /-- voted fields in a run of corrections (R425), by bit address. -/
  voteRun : List Nat
  deriving DecidableEq, Repr

/-- Setup-window registers: per copy, the fields that differ from their reset values, by bit address 8 × offset + low bit. Copies B and C hold voted fields only (R425). -/
structure RegSt where
  a : List (Nat × Nat)
  b : List (Nat × Nat)
  c : List (Nat × Nat)
  deriving DecidableEq, Repr

/-- Levels of output balls, bit n for ball n of a group (R294, R400, R429, R476). -/
structure Pins where
  safeN : Bool
  hrdy : Bool
  pwmH : Nat
  pwmL : Nat
  lho : Nat
  llo : Nat
  soA : Nat
  soB : Nat
  /-- CnTX recessive: no frame of the channel is on the bus. -/
  canTx : Nat
  /-- OSCS_N high: no write to the boot flash is under way. -/
  oscsN : Bool
  /-- MDC runs: a clause 45 frame is under way (else MDC is low and MDIO released). -/
  mdc : Bool
  deriving DecidableEq, Repr

/-- What a step sends out of the device. -/
inductive Out where
  /-- a downlink frame of a lane, and its departure in 0.25 ns after the boundary it is for. -/
  | downlink (lane : Nat) (bytes : List Byte) (departQ : Nat)
  | zlTrain (lane : Nat) (bytes : List Byte)
  | zlCalReq (lane : Nat) (bytes : List Byte)
  | pairFrame (path : Nat) (bytes : List Byte)
  /-- a frame on an Ethernet port. -/
  | eth (port : Nat) (bytes : List Byte)
  | goose (port : Nat) (o : GooseOut) (rct : Option Nat)
  /-- a PTP message on a port, to a destination, under an Ethertype (R228). -/
  | ptp (port dest etherType : Nat) (m : PtpOut)
  | prpSup (port : Nat)
  /-- a CAN frame, with its ESI bit (R355). -/
  | can (ch : Nat) (idWord : Nat) (esi : Bool) (data : List Byte)
  | canError (ch : Nat)
  /-- a completion as it is determined (R256). -/
  | completion (c : Cpl)
  /-- a conversion started by a core (R304, R308). -/
  | sample (core : Nat) (src : AdcSrc)
  | doorbellRead (addr : Nat)
  /-- a word of the setup window returned to a read request of the host (R417). -/
  | readData (off : Nat) (word : Word)
  | trgOut (line : Nat)
  /-- the event of a Siphon channel: half of its descriptor moved, or all of it (R329). -/
  | siphonEvent (ch : Nat) (all : Bool)
  | ppso (high : Bool)
  | attention
  /-- a refresh pulse of a Lantern driver: low side on for LS_MIN ns (R384). -/
  | refresh (n lsMin : Nat)
  | testPulse (stp : Nat)
  /-- a channel (0 A, 1 B) of a safe output switched off for SO_TEST µs, and on again (R401). -/
  | darkTest (out chan us : Nat)
  | mdio (word : Nat)
  /-- bytes written to the boot flash (R446, R451). -/
  | flash (addr : Nat) (bytes : List Byte)
  /-- a Luwin response (R463). -/
  | luwin (status : Nat) (data : List Word) (crc : Nat)
  deriving DecidableEq, Repr

/-- The device but for its queue (R37–R474). -/
structure Mach where
  dev : DevSt
  /-- Gallery entries that differ from their reset content (R8, R497). -/
  gal : List (Nat × GEntry)
  reg : RegSt
  tb : TbSt
  conv : ConvSt
  loop : LoopSt
  mode : ModeSt
  flow : FlowSt
  zl : ZlSt
  host : HostSt
  pair : PairSt
  meas : MeasSt
  net : NetSt
  pwm : PwmSt
  safety : SafeSt
  pwr : PwrSt
  sec : SecSt
  dbg : DbgSt
  /-- bytes the device has written to host memory (R240, R243). -/
  hostMem : List Host.Cell
  pins : Pins
  out : List Out
  deriving DecidableEq, Repr

end Sys2Proof.Machine
end

