-- ==== Sys2Proof/Machine/Initial.lean ====
section
/-! DEFINITION. Machine/Initial.lean: what each subsystem holds right after a reset (R442, R497 and the reset columns of the register tables). Where the spec gives no value the assumption log names the one chosen. -/
set_option Elab.async false
namespace Sys2Proof.Machine

/-- QUALITY bits (R9), within the byte. -/
def qVALID : Nat := 0
def qSTALE : Nat := 1
def qSUBST : Nat := 2
def qSAT : Nat := 3
def qOVR : Nat := 4
def qHELD : Nat := 5
def qFORCED : Nat := 6
def qPAIRED : Nat := 7

/-- Content of a Gallery entry from reset until its producer writes it (R497). -/
def gReset : GEntry := ⟨0#32, 0xFFFF#16, 0x02#8, 0#8, false⟩

def devInit : DevSt := ⟨.boot, false, false, none, []⟩

def regInit : RegSt := ⟨[], [], []⟩

def ptpPortInit : PtpPort := ⟨none, none, none, 0, 0⟩

def tbInit : TbSt :=
  { uptime := 0, begun := false, k := 0, timeA := 0, timeB := 0, timeC := 0, anchor := 0, hist := [], p := 10000, pNext := none, stepDue := none
    setDue := none, acquireDue := false, timeValid := false, sync := .free, src := .none, ports := 3, srcDue := none
    i := 0, y := 0, nfracShadow := 0, nfrac := 0, inRun := 0, outRun := 0, refusedRun := false, refused := 0, theta := 0
    converge := none, sampleAt := 0, ts := 0, secondsKnown := false, needPosted := false, pllLock := false, relock := none
    band := 0, fmax := 40008, tsq := [], tsqDropRun := false, ppsiAt := none, ppso := false
    ptp := ⟨[ptpPortInit, ptpPortInit], none, false⟩ }

def convInit : ConvSt := ⟨none, none, [], [], false, [], []⟩

def loopInit : LoopSt :=
  { staged := none, graph := none, states := [], sticky := [], eval := none, overrunLast := false, slack := none
    highCount := 0, ceilSince := 4096, evaluated := false }

def modeInit : ModeSt :=
  { mode := .blocked, limited := false, limitedPeriods := 0, configured := false, bits := [], safeWrite := false
    slots := List.replicate 32 none }

/-- A submodule Flowstone has not heard of: UNCOVERED, in BLOCK. -/
def smReset : Sm :=
  { pool := .uncovered, final := stBlock, expect := stBlock, cause := 0, suspectFor := 0, cleanFor := 0, mismatch := 0, count := 0, favg := 0
    altNext := false, stranded := false }

def flowInit : FlowSt := ⟨[], [], false, false⟩

def laneInit : Lane :=
  { lock := false, step := 0, trainCount := 0, farReady := false, identReq := false, ident := none, identNew := false
    attach := .unbound, entry := none, samples := [], lost := 0, calOpen := false, calFailed := false, d := 0, spread := 0
    dCal := 0, drifted := false, trackSum := 0, trackCount := 0, silent := 0, heard := false, lossDue := false, used := none, pend := none
    slow := [], claimSeen := 0, margin := 0, trainFailAt := none, marginAt := none, hubToSent := 0, remote := false }

def zlInit : ZlSt := ⟨List.replicate 16 laneInit, false, false⟩

def ringInit : Ring :=
  { cmdE := 0, prio := 0, cmdAddr := 0, cplE := 0, cplAddr := 0, resAddr := 0, cmdPi := 0, cmdCi := 0, cplPi := 0, cplCi := 0
    nextSeq := 1, blkCi := 0, blkSeq := 1, applied := 0, termLow := 1, termMap := [], held := [] }

def recRingInit : RecRing := ⟨0, 0, 0, 0, []⟩

def hostInit : HostSt :=
  { linkUp := false, busMaster := false, d3 := false, starting := none, enabled := false, dbAddr := 0, rsAddr := 0, foldAddr := 0
    rings := List.replicate 16 ringInit, evE := 0, evAddr := 0, evPi := 0, evCi := 0, recs := List.replicate 4 recRingInit
    generation := 0, accepted := [], jackWait := [], jacked := [], mirror := [], acceptCount := 0, evNew := [], evLeft := 0, folds := [], foldBusy := [], attnOwed := false
    attnPulse := false, attnSince := 255, faultAt := none, reach := false, fetched := [], readStuck := [], bufHeld := [], dbBadRun := [] }

def pathInit : PathSt := ⟨false, 0, 0, false, false, 0, false, false, 0, false, 0, 0, 0, false⟩

def pairInit (unit : Nat) : PairSt :=
  { unit := unit, role := .solo, roleDue := none, epoch := 0, claim := 0, acceptJoin := false, paths := [pathInit, pathInit]
    partner := none, heard := false, missed := 0, heardPrev := false, safeSeen := false, taken := [], takenPrev := [], digest := 0#64, base := [], agreed := [], own := []
    ownLate := [], cutAgree := false, deferRun := false, theirs := [], theirsEnd := false, receiptsOwn := [], receiptsTheirs := []
    fwd := none, cutOwn := none, cutTheirs := none, held := false, undo := none, journal := [], server := false, readFaults := 0
    takeover := none, pairRings := false, yielded := false, ownState := none, hostCfg := none, copy := none, copyAttempts := 0, twinAt := 0, lastSrc := none, outputsOn := false }

def coreInit : AdcCore := ⟨false, [], [], none, none, false, false⟩

def seqRunInit : SeqRun := ⟨[], false, false, false⟩

def chainInit : Chain :=
  { cfg := none, bankB := false, swaps := [], started := false, window := [], d := 0, hist := [], line := [], wait := []
    freeze := [], sat := false, latest := none, out := none, lateOut := none, theta := none, laws := [] }

def rimInit : Rim := ⟨false, false, 0, 0, 0, 0, .inside, false, []⟩

def svInit : SvStream := ⟨none, .free, none, 0, false, false, false, 0, none, none⟩

def echoInit : EchoSlot :=
  { cfg := none, samples := [], trig := none, cands := [], retrig := 0, safeSeen := false, trunc := false, bits := []
    divCount := 0, waiting := none, last := none }

def siphonInit : SiphonCh := ⟨none, none, none, false, 0, 0, false, false, false, false, 0⟩

def measInit : MeasSt :=
  { adc := none, cores := [coreInit, coreInit], seqs := List.replicate 4 seqRunInit, results := [], urgentOrder := 0
    mergeRun := false, chains := List.replicate 16 chainInit, rims := List.replicate 16 rimInit
    streams := List.replicate 64 svInit, echo := List.replicate 8 echoInit, echoOrder := [], echoKept := [], echoHanded := false, echoWaitRun := false
    trgDriven := [false, false, false, false], siphon := List.replicate 32 siphonInit, siphonTurn := 0, siphonMem := [] }

def goosePubInit : GoosePub := ⟨none, [], false, false, 0, 0, 0, 0⟩

def gooseSubInit : GooseSub := ⟨none, .free, none, 0, 0, 0, false, none⟩

def farInit : FarCh := ⟨none, 0, 0, none, 0, false, false, 0, none, none, none⟩

def mailboxInit : Mailbox := ⟨none, 0, 0, false, false⟩

def canInit : CanCh :=
  { cfg := none, timing := none, state := 3, listen := false, txErr := 0, rxErr := 0, boxes := List.replicate 64 mailboxInit, txq := []
    sched := none, schedNext := none, schedDone := none, base := 0, cycle := 0, window := false, exclusive := none, exclOver := false, exclWait := none
    checks := List.replicate 64 (none, false), tplData := [], tplNext := [], auto := none, hold := [], missRun := false, dropRun := false }

def netInit : NetSt :=
  { ports := [⟨false, []⟩, ⟨false, []⟩], txOrder := 0, timed := [], prpSeq := 0, nodes := [], prpFullRun := false
    pubs := List.replicate 32 goosePubInit, subs := List.replicate 128 gooseSubInit, far := List.replicate 4 farInit
    can := [canInit, canInit] }

def pwmChInit : PwmCh :=
  { cmpShadow := 0, cmp := 0, per := 5000, phase := 0, trgCmp := 0, trgDiv := 0, startAt := none, restartK := none, ref := false
    wantH := false, wantL := false, deadH := false, deadL := false, h := false, l := false, offH := 0, offL := 0, forced := none, pend := none
    resuming := false, carriers := 0, cutRun := false, dutyBad := false }

/-- DEDUCED: from reset a bootstrap capacitor is discharged, as only an on-time of the low side charges it (R383). -/
def lanternInit : Lantern := ⟨true, false, .none⟩

def pwmInit : PwmSt := ⟨List.replicate 12 pwmChInit, List.replicate 6 lanternInit, 0, 0, [], []⟩

def safeChanInit : SafeChan := ⟨false, 0, 0, false⟩

def safeInInit : SafeIn :=
  { a := safeChanInit, b := safeChanInit, disc := none, discChan := 0, discLatch := false, tpLatch := false, openSeen := false
    closedSeen := false, untested := false, openFor := 0, closing := none, due := false, hours := 0 }

def safeOutInit : SafeOut := ⟨false, true, true, false, false, false⟩

def safeTelInit : SafeTel := ⟨false, 0, 0, [], false, false, 0, 0⟩

def safeInit : SafeSt :=
  { cfg := none, ins := List.replicate 8 safeInInit, outs := List.replicate 4 safeOutInit, tels := List.replicate 4 safeTelInit
    internal := false, differ := 0, selfTest := [], selfTestOk := false, runFound := false, resets := [], sia := 0, sib := 0, soaRb := 0
    sobRb := 0, stp := 0 }

def strapsInit : Straps := ⟨0, 0, 0, 0, 0, true, 0, 0, []⟩

def pwrInit : PwrSt :=
  { rails := true, vin := true, wake := true, crystal := true, inReset := false, hotOff := false, sleepDue := false, sleepAgain := false, held := false
    vinMeas := 0, vmidMeas := 0, tjCtrl := 0, tjPwr := 0, lowSeen := false, hotCtrl := false, hotPwr := false, straps := strapsInit, resets := 0 }

/-- The key slots at shipment (R453): V0 and V1 VALID, the owner slots EMPTY. -/
def slotsInit : List KeySlot := [⟨.valid, []⟩, ⟨.valid, []⟩, ⟨.empty, []⟩, ⟨.empty, []⟩, ⟨.empty, []⟩, ⟨.empty, []⟩]

def secInit : SecSt :=
  { slots := slotsInit, ownerCosign := false, deny1 := false, deny2 := false, deny3 := false, svnMin := 0, stepsLeft := 64
    bcr := none, bootSlot := 3, image := none, staging := none, staged := none, activateDue := false
    quote := none, certSent := false, idKey := [], romRing := false }

def bpInit : BpState := ⟨0, false, none⟩

def dbgInit : DbgSt :=
  { level := 0, highest := 0, remain := 0, challenge := none, shown := [], challengeCount := 0, tokenRes := 0, token := []
    engine := .running, stepRun := none, haltDue := none, stepDue := false, blockDue := false
    finishTo := none, haltedPeriods := 0, haltBlocked := false, haltAt := 0, bps := List.replicate 8 bpInit, forceDue := []
    releaseDue := false, mem := [], latch := none, mdioBusy := false, mdioAgain := false, ended := false, probeAt := none }

def pinsInit : Pins := ⟨false, false, 0, 0, 0, 0, 0, 0, 3, true, false⟩

/-- The device right after the release of a power-on reset (R437 step 4, R441): PWR_RESET_CAUSE shows POR. -/
def machInit : Mach :=
  { dev := devInit, gal := [], reg := ⟨[(8 * 0x3C18, 1)], [], []⟩, tb := tbInit, conv := convInit, loop := loopInit, mode := modeInit
    flow := flowInit, zl := zlInit, host := hostInit, pair := pairInit 0, meas := measInit, net := netInit, pwm := pwmInit
    safety := safeInit, pwr := pwrInit, sec := secInit, dbg := dbgInit, hostMem := [], pins := pinsInit, out := [] }

end Sys2Proof.Machine
end

