-- ==== Sys2Proof/Machine/Gal.lean ====
section
/-! DEFINITION. Machine/Gal.lean: the Gallery index map, the formats of its entries, and the entry as a value (R8, R9, R25–R30, R139, R208, R307–R319, R345–R360, R415). -/
set_option Elab.async false
namespace Sys2Proof.Machine

/-- What the map says of an index: reserved, a fixed format, SM_USER (the format of the ports that connect to it), or a far slot of a channel (R27, R43, R352). -/
inductive SigFmt where
  | reserved
  | fixed (f : Fmt)
  | user
  | far (ch slot : Nat)
  | loopArea
  deriving DecidableEq, Repr

/-- Format of slot `s` of a submodule (R27). -/
def slotFmt (s : Nat) : SigFmt :=
  if s ≤ 1 ∨ s = 3 ∨ s = 16 then .fixed .bits
  else if s = 2 ∨ s = 6 ∨ s = 7 ∨ s = 19 ∨ s = 20 then .fixed .pu
  else if s = 4 ∨ s = 5 then .fixed .int
  else if s ≤ 15 ∨ s = 17 ∨ s = 18 then .fixed .uint
  else if s ≤ 23 then .reserved
  else .user

/-- Format of an entry of the device and converter area (R26). -/
def devFmt (o : Nat) : SigFmt :=
  if o ≤ 5 then .fixed .uint
  else if (0x10 ≤ o ∧ o ≤ 0x12) ∨ (0x14 ≤ o ∧ o ≤ 0x16) ∨ o = 0x18 ∨ o = 0x19 then .fixed .pu
  else .reserved

/-- Format of an arm entry (R139). -/
def armFmt (o : Nat) : SigFmt :=
  if o ≤ 6 ∨ o = 9 ∨ o = 11 ∨ o = 12 ∨ o = 14 then .fixed .pu
  else if o = 7 ∨ o = 10 ∨ o = 15 then .fixed .uint
  else if o = 8 then .fixed .int
  else if o = 13 ∨ o = 16 then .fixed .bits
  else .reserved

/-- Format of a hub entry (R208). -/
def hubFmt (o : Nat) : SigFmt :=
  if o = 3 ∨ o = 4 ∨ o = 5 then .fixed .bits else if o ≤ 6 then .fixed .uint else .reserved

/-- Format of an entry of the ADC, chain and Rimstone area (R307, R310, R311, R317). -/
def adcFmt (o : Nat) : SigFmt :=
  if o < 0x50 then .fixed .int else if o = 0x50 then .fixed .bits
  else if 0x100 ≤ o ∧ o < 0x110 then .fixed .pu else .reserved

/-- Format of a stream entry (R319). -/
def svFmt (o : Nat) : SigFmt :=
  if o = 0 then .fixed .bits else if o ≤ 3 then .fixed .uint
  else if 0x10 ≤ o ∧ o < 0x30 then .fixed .int else if 0x30 ≤ o ∧ o < 0x50 then .fixed .bits else .reserved

/-- Format of a GOOSE block entry (R345, R346). -/
def gooseFmt (o : Nat) : SigFmt := if o = 0 then .fixed .bits else if o ≤ 3 then .fixed .uint else .reserved

/-- Format of a CAN channel entry (R360). -/
def canFmt (o : Nat) : SigFmt :=
  if o = 0 then .fixed .bits
  else if 0x100 ≤ o ∧ o < 0x100 + 0x20 * 64 then
    let b := (o - 0x100) % 0x20
    if b ≤ 1 ∨ 0x10 ≤ b then .fixed .bits else if b = 2 then .fixed .uint else .reserved
  else .reserved

/-- Format of a safety entry (R415). -/
def safetyFmt (o : Nat) : SigFmt := if o ≤ 2 ∨ (0x10 ≤ o ∧ o ≤ 0x13) then .fixed .bits else .reserved

/-- Format of a far entry (R352). -/
def farFmt (ch o : Nat) : SigFmt :=
  if o = 0 then .fixed .bits else if o = 2 then .fixed .int else if o = 1 ∨ o = 3 then .fixed .uint
  else if 0x10 ≤ o ∧ o < 0x30 then .far ch (o - 0x10) else .reserved

/-- The index map of R25. -/
def sigFmt (i : Nat) : SigFmt :=
  if i < 0xC0000 then slotFmt (i % 32)
  else if i < 0xC1000 then devFmt (i - 0xC0000)
  else if i < 0xC1600 then armFmt (i % 0x100)
  else if i < 0xC2000 then .reserved
  else if i < 0xC4000 then hubFmt (i % 0x200)
  else if i < 0xC8000 then adcFmt (i - 0xC4000)
  else if i < 0xD0000 then svFmt (i % 0x200)
  else if i < 0xD5000 then gooseFmt (i % 0x80)
  else if i < 0xD8000 then .reserved
  else if i < 0xDC000 then canFmt (i % 0x2000)
  else if i < 0xDE000 then safetyFmt (i - 0xDC000)
  else if i < 0xDE400 then farFmt ((i - 0xDE000) / 0x100) (i % 0x100)
  else if i < 0xE0000 then .reserved
  else if i < 0x100000 then .loopArea
  else .reserved

/-- A reserved index (R25). -/
def galReserved (i : Nat) : Bool := sigFmt i == .reserved

/-- Names of single entries (R26, R317). -/
def sigPERIOD : Nat := 0xC0000
def sigDEVSTATE : Nat := 0xC0001
def sigCONVMODE : Nat := 0xC0002
def sigPAIRROLE : Nat := 0xC0003
def sigCLAIM : Nat := 0xC0004
def sigCONFIGID : Nat := 0xC0005
def sigRIMSTATE : Nat := 0xC4050

/-- Index of slot `s` of submodule `g` (R25). -/
def slotIdx (g s : Nat) : Nat := 32 * g + s
/-- Index of entry `o` of arm `a` (R139). -/
def armIdx (a o : Nat) : Nat := 0xC1000 + 0x100 * a + o
/-- Index of entry `o` of hub entry `h` (R208). -/
def hubIdx (h o : Nat) : Nat := 0xC2000 + 0x200 * h + o

/-! ### Quality -/

/-- Bit `n` of a quality byte. -/
def qBit (q : Byte) (n : Nat) : Bool := bitOf q.toNat n

/-- A quality byte with bit `n` set or cleared. -/
def qPut (q : Byte) (n : Nat) (b : Bool) : Byte := BitVec.ofNat 8 (putBits q.toNat n 1 (b2n b))

/-- A quality byte of a list of set bits. -/
def qOf (bits : List Nat) : Byte := BitVec.ofNat 8 (bits.foldl (fun a n => putBits a n 1 1) 0)

/-- VALID and not STALE. -/
def GEntry.good (e : GEntry) : Bool := qBit e.quality qVALID && !qBit e.quality qSTALE

/-- The entry as the 64-bit word of R8. -/
def GEntry.bits (e : GEntry) : Nat := e.value.toNat + e.age.toNat * 2 ^ 32 + e.quality.toNat * 2 ^ 48 + e.source.toNat * 2 ^ 56

/-- The entry of a 64-bit word of R8, as just produced. -/
def gOfBits (w : Nat) : GEntry := ⟨BitVec.ofNat 32 w, BitVec.ofNat 16 (w >>> 32), BitVec.ofNat 8 (w >>> 48), BitVec.ofNat 8 (w >>> 56), false⟩

/-! ### The table of entries -/

/-- A reserved index reads as all zero (R25); any other entry from the table. -/
def galGet (t : List (Nat × GEntry)) (i : Nat) : GEntry :=
  if galReserved i then ⟨0#32, 0#16, 0#8, 0#8, false⟩ else sget (fun _ => gReset) t i

/-- Write of an entry; nothing is written at a reserved index. -/
def galPut (t : List (Nat × GEntry)) (i : Nat) (e : GEntry) : List (Nat × GEntry) :=
  if galReserved i then t else sput (fun _ => gReset) i e t

/-- A producer's write: discarded while the entry is forced (R30); AGE 0, STALE and HELD clear as the quality given says. -/
def galProduce (t : List (Nat × GEntry)) (fresh : Bool) (i : Nat) (v : Word) (q : Byte) (src : Nat) : List (Nat × GEntry) :=
  if qBit (galGet t i).quality qFORCED then t else galPut t i ⟨v, 0#16, q, BitVec.ofNat 8 src, fresh⟩

/-- One intake's ageing of an entry (R498): a forced entry holds AGE 0 (R30); one produced since the last intake keeps its AGE; STALE at the limit. -/
def ageEntry (limit : Option Nat) (e : GEntry) : GEntry :=
  if qBit e.quality qFORCED then { e with age := 0#16, fresh := false }
  else
    let a := if e.fresh then e.age.toNat else min (e.age.toNat + 1) 0xFFFF
    let stale := match limit with
      | some l => decide (l ≤ a)
      | none => false
    { e with age := BitVec.ofNat 16 a, quality := if stale then qPut e.quality qSTALE true else e.quality, fresh := false }

end Sys2Proof.Machine
end

