-- ==== Sys2Proof/Machine/State.lean ====
section
/-! DEFINITION. Machine/State.lean: the state of the device with its queue of commands, the reasons a step can stop, and the state after reset. -/
set_option Elab.async false
namespace Sys2Proof.Machine

/-- Why a command stops with a fault. -/
inductive Fault where
  /-- Raised by a register write that changes a reserved bit in READY, RUN or SAFE: the behaviour is then outside the manual (R422). Safe: the device may go on, the model does not say how. -/
  | reservedBitChanged
  deriving DecidableEq, Repr

/-- Why a command has no meaning here. -/
inductive Refusal where
  /-- Raised by an arm of exec that has no meaning yet. Safe. -/
  | notModelled (mnemonic : String)
  deriving DecidableEq, Repr

/-- The whole state: the device, and the commands that wait, first in, first out. -/
structure State where
  m : Mach
  pending : List Instr
  deriving DecidableEq, Repr

/-- The device right after reset, with no command waiting. -/
def State.reset : State := ⟨machInit, []⟩

end Sys2Proof.Machine
end

