-- ==== Sys2Proof/Machine/ZlFrames.lean ====
section
/-! DEFINITION. Machine/ZlFrames.lean: the frames of a ZeldLink lane as bytes (R177, R180–R197). -/
set_option Elab.async false
namespace Sys2Proof.Machine

/-- A frame's length and CRC hold (R177). -/
def frameOk (b : List Byte) : Bool :=
  decide (8 ≤ b.length) && b.length % 4 == 0 && leNat (b.drop (b.length - 4)) == crc32 (b.take (b.length - 4))

/-- A frame with its CRC appended (R177). -/
def withCrc (b : List Byte) : List Byte := b ++ leBytes 4 (crc32 b)

/-- Header of a downlink frame (R184). -/
structure DlHead where
  typ : Nat
  flags : Nat
  bodyWords : Nat
  claim : Nat
  seq : Nat
  lead : Nat
  periodNs : Nat
  param : Nat
  deriving DecidableEq, Repr

/-- A downlink frame of a header and a body (R184). -/
def dlFrame (h : DlHead) (body : List Byte) : List Byte :=
  withCrc (leBytes 1 h.typ ++ leBytes 1 h.flags ++ leBytes 2 h.bodyWords ++ leBytes 4 h.claim ++ leBytes 8 h.seq
    ++ leBytes 4 h.lead ++ leBytes 4 h.periodNs ++ leBytes 4 h.param ++ leBytes 4 0 ++ body)

/-- A command word (R185). -/
def cmdWord (state offset : Nat) : Nat := state % 16 + (offset % 2 ^ 20) * 256

/-- Bytes of the change map of a DELTA body (R157, R186). -/
def mapLen (n : Nat) : Nat := 4 * ((n + 31) / 32)

/-- Body of a DELTA frame for local positions 0 to n − 1: `words j` is the word of a marked position (R186). -/
def deltaBody (n : Nat) (words : Nat → Option Nat) : List Byte :=
  let marks := (List.range n).filterMap fun j => (words j).map fun w => (j, w)
  let map := (List.range (mapLen n)).map fun b =>
    BitVec.ofNat 8 ((marks.filter fun m => m.1 / 8 == b).foldl (fun a m => a + 2 ^ (m.1 % 8)) 0)
  map ++ (marks.map fun m => leBytes 4 m.2).flatten

/-- Header of an uplink frame (R190). -/
structure UlHead where
  typ : Nat
  flags : Nat
  count : Nat
  accClaim : Nat
  seq : Nat
  alarmLen : Nat
  miss : Nat
  tmo : Nat
  disc : List Nat
  badWords : Nat
  deriving DecidableEq, Repr

/-- The header of an uplink frame (R190). -/
def ulHead (b : List Byte) : UlHead :=
  ⟨fieldLE b 0 1, fieldLE b 1 1, fieldLE b 2 2, fieldLE b 4 4, fieldLE b 8 8, fieldLE b 0x10 2, fieldLE b 0x12 1,
    fieldLE b 0x13 1, (List.range 4).map fun i => fieldLE b (0x14 + i) 1, fieldLE b 0x18 1⟩

/-- The body of an IDENT frame (R181). -/
def parseIdent (b : List Byte) : Ident :=
  ⟨fieldLE b 0x20 8, fieldLE b 0x28 2, fieldLE b 0x2A 1, fieldLE b 0x2B 1, fieldLE b 0x2C 2, fieldLE b 0x2E 2, fieldLE b 0x30 4, fieldLE b 0x34 4⟩

/-- Length of one padded bitmap of a coalesced alarm section (R197). -/
def bitmapLen (n : Nat) : Nat := 4 * (((n + 7) / 8 + 3) / 4)

/-- The alarm section's length is one of those R198 allows. -/
def alarmLenOk (n len : Nat) (coalesced : Bool) : Bool :=
  if coalesced then len == 4 * bitmapLen n else len % 4 == 0 && decide (len ≤ 64)

/-- Offset of the alarm section in a REPORT frame of `n` submodules (R190). -/
def alarmOfs (n : Nat) : Nat := 32 + 4 * ((6 * n + 3) / 4)

/-- The reports of a REPORT frame (R190, R192). -/
def parseReports (b : List Byte) (n : Nat) : List SmReport :=
  (List.range n).map fun j => ⟨fieldLE b (32 + 6 * j) 3, fieldLE b (35 + 6 * j) 3⟩

/-- Alarm records of a section that is not coalesced: local position, class and code (R197). -/
def parseAlarms (b : List Byte) (n len : Nat) : List (Nat × Nat × Nat) :=
  (List.range (len / 4)).map fun i =>
    let w := fieldLE b (alarmOfs n + 4 * i) 4
    (bitsOf w 0 12, bitsOf w 12 4, bitsOf w 16 8)

/-- Marks of a coalesced section: local position and class (R197). -/
def parseMarks (b : List Byte) (n : Nat) : List (Nat × Nat) :=
  (List.range 4).flatMap fun c => (List.range n).filterMap fun j =>
    if bitOf (fieldLE b (alarmOfs n + c * bitmapLen n + j / 8) 1) (j % 8) then some (j, c) else none

/-- A REPORT frame is well formed (R177, R190, R198). -/
def reportOk (b : List Byte) : Bool :=
  let h := ulHead b
  frameOk b && h.typ == 0x81 && alarmLenOk h.count h.alarmLen (bitOf h.flags 0)
    && b.length == alarmOfs h.count + h.alarmLen + 4

/-- The 192-bit slow record from its eight shares (R193). -/
def slowRecord (shares : List Nat) : Nat := shares.foldr (fun s a => s % 2 ^ 24 + a * 2 ^ 24) 0

/-- Block in which report `j` begins (R191). -/
def reportBlock (j : Nat) : Nat := (33 + 6 * j) / 8

end Sys2Proof.Machine
end

