-- ==== Sys2Proof/Machine/Ops.lean ====
section
/-! DEFINITION. Machine/Ops.lean: the named operations over the device: registers, time, events, Gallery entries, claims, the levels of the output balls, entry into SAFE, and the frame of every command. -/
set_option Elab.async false
namespace Sys2Proof.Machine

/-! ### Registers (R417–R427) -/

/-- Bit address of a field: the key under which its value is held. -/
def FieldRef.key (f : FieldRef) : Nat := 8 * f.off + f.lo

/-- The value the device acts on for three copies: the majority, else the lowest (R425). -/
def vote (a b c : Nat) : Nat := if a = b ∨ a = c then a else if b = c then b else min a (min b c)

/-- The stored value of a field. -/
def RegSt.raw (r : RegSt) (f : FieldRef) : Nat :=
  let g := fun t => sget (fun _ => f.reset) t f.key
  if f.voted then vote (g r.a) (g r.b) (g r.c) else g r.a

/-- A field set to a value; a voted field in all three copies (R425). -/
def RegSt.put (r : RegSt) (f : FieldRef) (v : Nat) : RegSt :=
  let w := v % 2 ^ f.w
  let p := fun t => sput (fun _ => f.reset) f.key w t
  if f.voted then ⟨p r.a, p r.b, p r.c⟩ else { r with a := p r.a }

/-- The value of a field as the device acts on it: a value outside the stated range acts as the nearer limit. -/
def Mach.fld (m : Mach) (f : FieldRef) : Nat := max f.min (min f.max (m.reg.raw f))

/-- A one-bit field as a Bool. -/
def Mach.flag (m : Mach) (f : FieldRef) : Bool := m.reg.raw f == 1

/-- A signed field of its width, limited to a range. -/
def Mach.sfld (m : Mach) (f : FieldRef) (lo hi : Int) : Int := clampI (signed f.w (m.reg.raw f)) lo hi

/-- A field set by hardware. -/
def Mach.setF (m : Mach) (f : FieldRef) (v : Nat) : Mach := { m with reg := m.reg.put f v }

/-- A status flag set by hardware. -/
def Mach.raise (m : Mach) (f : FieldRef) : Mach := m.setF f 1

/-- A counter raised by `n`, saturating at its width. -/
def Mach.bump (m : Mach) (f : FieldRef) (n : Nat) : Mach := m.setF f (incSat f.w (m.reg.raw f) n)

/-- A field of two words joined, the low word first (R423). -/
def Mach.fld2 (m : Mach) (lo hi : FieldRef) : Nat := m.reg.raw lo + m.reg.raw hi * 2 ^ lo.w

/-! ### Time (R7, R211, R214) -/

/-- Device time of the last boundary in ns: the majority of the three copies (R211). -/
def TbSt.now (t : TbSt) : Nat := vote t.timeA t.timeB t.timeC

/-- The number of the first boundary of an unbroken run, newest first, whose instants lie at or after `l`; `k` is the boundary after the run's first. -/
def boundaryFrom (l : Nat) : Nat → List (Nat × Nat) → Nat
  | k, [] => k
  | k, (j, at_) :: t => if l ≤ at_ then boundaryFrom l j t else k

/-- The boundary to which a launch time maps by the present boundary: the first at or after it, or none while it lies ahead (R217).
DEDUCED: of boundaries more than 1,024 back the oldest held stands for all, since what maps to either is past. -/
def TbSt.mapped (t : TbSt) (l : Nat) : Option Nat := if t.now < l then none else some (boundaryFrom l t.k t.hist)

def Mach.now (m : Mach) : Nat := m.tb.now

/-- SECONDS and NANOSECONDS of a device time in ns. -/
def secsOf (ns : Nat) : Nat := ns / 1000000000
def nanosOf (ns : Nat) : Nat := ns % 1000000000

/-- TS128 of a device time in 2^−16 ns: seconds (64), nanoseconds (32), fraction (16), zero (R5, R231). -/
def ts128 (t16 : Nat) : List Byte :=
  leBytes 8 (secsOf (t16 / 65536)) ++ leBytes 4 (nanosOf (t16 / 65536)) ++ leBytes 2 (t16 % 65536) ++ leBytes 2 0

/-- TS128 of a device time in ns. -/
def ts128ns (ns : Nat) : List Byte := ts128 (ns * 65536)

/-! ### Events (R265) -/

/-- An event handed to the Sump. -/
def Mach.post (m : Mach) (code : Nat) (args : List Nat) : Mach :=
  { m with host := { m.host with evNew := m.host.evNew ++ [⟨code, 0, m.tb.k, args, none⟩] } }

/-- An event that names a submodule (R268), with the class of SM_ALARM. -/
def Mach.postSm (m : Mach) (code cls : Nat) (args : List Nat) (g : Nat) : Mach :=
  { m with host := { m.host with evNew := m.host.evNew ++ [⟨code, cls, m.tb.k, args, some g⟩] } }

/-- The two words of a 64-bit event value, low word first. -/
def w64 (v : Nat) : List Nat := [v % 2 ^ 32, v / 2 ^ 32 % 2 ^ 32]

/-- What the step sends. -/
def Mach.send (m : Mach) (o : Out) : Mach := { m with out := m.out ++ [o] }

def Mach.sendAll (m : Mach) (l : List Out) : Mach := { m with out := m.out ++ l }

/-! ### Device state (R37) -/

/-- Device state codes (R37); OFF has none and reads 0. -/
def DevState.code : DevState → Nat
  | .off => 0 | .dormant => 1 | .boot => 2 | .ready => 3 | .run => 4 | .safe => 5 | .recovery => 6

def Mach.inState (m : Mach) (l : List DevState) : Bool := l.contains m.dev.state

/-- The supply is up and the device is not held in reset. -/
def Mach.alive (m : Mach) : Bool := !m.inState [.off, .dormant] && !m.pwr.inReset

/-- Blocks, engines and the converter side work from READY on. -/
def Mach.working (m : Mach) : Bool := m.inState [.ready, .run, .safe] && !m.pwr.held

/-- Measurement and Echo run, the Stewards held or not (R429, R443). -/
def Mach.measures (m : Mach) : Bool := m.inState [.ready, .run, .safe] && !m.pwr.inReset

/-! ### Pair role and claim (R280, R281) -/

/-- Role codes (R281). -/
def Role.code : Role → Nat
  | .solo => 0 | .senior => 1 | .twin => 2 | .shadow => 3 | .deposed => 4

/-- The partner is in service: SENIOR or TWIN, with a heartbeat at the current or the previous boundary (R280). -/
def PairSt.partnerInService (p : PairSt) : Bool :=
  match p.partner with
  | some q => (q.role == 1 || q.role == 2) && (p.heard || p.heardPrev)
  | none => false

/-- The pair is in TWIN (R281). -/
def PairSt.inTwin (p : PairSt) : Bool :=
  match p.role with
  | .twin => p.partner.isSome
  | .senior => (match p.partner with | some q => q.role == 2 | none => false)
  | _ => false

/-- Agreed inputs and CUT are exchanged: in TWIN, and between senior and shadow under verification (R285, R289). -/
def PairSt.exchanging (p : PairSt) : Bool :=
  p.inTwin || ((p.role == .senior || p.role == .shadow) && (match p.copy with | some c => c.verified.isSome | none => false))

/-- A pair-link frame: header of R277, body padded to words, CRC of R177. -/
def pairFrame (m : Mach) (typ : Nat) (body : List Byte) : List Byte :=
  let pad := body ++ List.replicate ((4 - body.length % 4) % 4) 0#8
  withCrc (leBytes 1 typ ++ leBytes 1 (m.pair.unit % 2 + 2 * m.pair.role.code + 16 * b2n m.pair.server)
    ++ leBytes 2 (pad.length / 4) ++ leBytes 4 m.pair.claim ++ leBytes 8 m.tb.k ++ pad)

/-- A pair-link message sent on every path in service (R278). -/
def Mach.pairSend (m : Mach) (typ : Nat) (body : List Byte) : Mach :=
  let f := pairFrame m typ body
  m.sendAll (((List.range 2).filter fun p => ((m.pair.paths.map PathSt.inService).getD p false)).map fun p => .pairFrame p f)

/-! ### Gallery (R25–R30, R285) -/

def Mach.g (m : Mach) (i : Nat) : GEntry := galGet m.gal i

def Mach.gv (m : Mach) (i : Nat) : Word := (m.g i).value

/-- Insertion of an entry of the agreed set into a stream in index order; a later value replaces an earlier one. -/
def streamPut (i : Nat) (e : GEntry) : List (Nat × GEntry) → List (Nat × GEntry)
  | [] => [(i, e)]
  | (j, f) :: t => if i < j then (i, e) :: (j, f) :: t else if i = j then (i, e) :: t else (j, f) :: streamPut i e t

/-- An AGREE frame with records, END on the one sent at AGREE_CUT (R279, R284). -/
def Mach.sendAgree (m : Mach) (l : List (Nat × GEntry)) (last : Bool) : Mach :=
  m.pairSend 0x03 (leBytes 2 l.length ++ leBytes 1 (b2n last) ++ leBytes 1 0 ++ l.flatMap fun r => leBytes 4 r.1 ++ leBytes 8 r.2.bits)

/-- A producer's write to an entry of the agreed set goes into the unit's stream, and to the partner at once; after AGREE_CUT or beyond 256 records it is deferred (R279, R285). -/
def Mach.agreePut (m : Mach) (i : Nat) (e : GEntry) : Mach :=
  let p := m.pair
  if !p.cutAgree && (decide (p.own.length < 256) || (p.own.map Prod.fst).contains i) then
    { m with pair := { p with own := streamPut i e p.own } }.sendAgree [(i, e)] false
  else
    let m1 := ({ m with pair := { p with ownLate := streamPut i e p.ownLate, deferRun := true } }.raise F.pairStatusDefer).bump F.pairCountAgreeDeferCnt 1
    if p.deferRun then m1 else m1.post 0x080E []

/-- A producer's write of an entry (R28, R30, R285). `fresh` marks a write that the next ageing finds produced since the previous one: every write but those an intake makes after its ageing. -/
def Mach.produce (m : Mach) (fresh : Bool) (i : Nat) (v : Word) (q : Byte) (src : Nat) : Mach :=
  if m.pair.exchanging && m.pair.agreed.contains i then m.agreePut i ⟨v, 0#16, q, BitVec.ofNat 8 src, fresh⟩
  else { m with gal := galProduce m.gal fresh i v q src }

/-- An entry as its producer last wrote it: an agreed one may still be in the stream (R285). -/
def Mach.ownEntry (m : Mach) (i : Nat) : GEntry :=
  if m.pair.exchanging && m.pair.agreed.contains i then ((m.pair.own.find? fun r => r.1 == i).map Prod.snd).getD (m.g i) else m.g i

/-- An entry replaced as it stands. -/
def Mach.gput (m : Mach) (i : Nat) (e : GEntry) : Mach := { m with gal := galPut m.gal i e }

/-- An entry whose VALID is cleared by its producer, with HELD set where asked: as any write of its producer, one of the agreed set goes into the stream (R285). -/
def Mach.invalidate (m : Mach) (i : Nat) (held : Bool) : Mach :=
  let off := fun (e : GEntry) => { e with quality := qPut (if held then qPut e.quality qHELD true else e.quality) qVALID false }
  if m.pair.exchanging && m.pair.agreed.contains i then
    m.agreePut i (off (((m.pair.own.find? fun r => r.1 == i).map Prod.snd).getD (m.g i)))
  else if qBit (m.g i).quality qFORCED then m
  else m.gput i (off (m.g i))

/-- A valid write before the ageing of the intake: AGE 0, only VALID set. -/
def Mach.produceValid (m : Mach) (i : Nat) (v : Nat) (src : Nat) : Mach := m.produce true i (BitVec.ofNat 32 v) 1#8 src

/-- The Gallery without the entries of [lo, hi): their reset content (R497), which also ends a force (R30). -/
def Mach.galReset (m : Mach) (lo hi : Nat) : Mach :=
  { m with gal := sclear lo hi m.gal
           conv := { m.conv with forcedHost := m.conv.forcedHost.filter fun i => i < lo || hi ≤ i
                                 forcedDebug := m.conv.forcedDebug.filter fun i => i < lo || hi ≤ i } }

/-! ### Lists of subsystem elements -/

/-- Change of lane `l`. -/
def Mach.lane (m : Mach) (l : Nat) : Lane := m.zl.lanes.getD l laneInit

def Mach.setLane (m : Mach) (l : Nat) (x : Lane) : Mach := { m with zl := { m.zl with lanes := setAt m.zl.lanes l x } }

def Mach.path (m : Mach) (p : Nat) : PathSt := m.pair.paths.getD p pathInit

def Mach.setPath (m : Mach) (p : Nat) (x : PathSt) : Mach := { m with pair := { m.pair with paths := setAt m.pair.paths p x } }

def Mach.sm (m : Mach) (g : Nat) : Sm := sget (fun _ => smReset) m.flow.sms g

def Mach.setSm (m : Mach) (g : Nat) (x : Sm) : Mach := { m with flow := { m.flow with sms := sput (fun _ => smReset) g x m.flow.sms } }

def armInit : Arm :=
  { h := 0, rho := 0, cPos := 0, cNeg := 0, fsw := 0, sticky := 0, live := 0, mass := false, spread := false, belowWarn := false
    belowZero := false, warnPosted := false, lostPosted := false, idirBad := false, idir := 0, rankPos := [], rankNeg := [] }

def Mach.arm (m : Mach) (a : Nat) : Arm := m.flow.arms.getD a armInit

def Mach.setArm (m : Mach) (a : Nat) (x : Arm) : Mach := { m with flow := { m.flow with arms := setAt m.flow.arms a x } }

/-! ### Local outputs (R294, R376, R378, R382, R400, R429) -/

/-- The situations of R294 in which a unit drives its PWM and Lantern outputs. -/
def mayDrive (m : Mach) : Bool :=
  match m.pair.role, m.dev.state with
  | .solo, .run => true
  | .senior, .run => true
  | .senior, .ready => true
  | .solo, .ready => !(m.pair.heard || m.pair.heardPrev)
  | _, _ => false

/-- PWM and Lantern outputs are driven: the situation holds and the outputs have passed to the unit at a boundary. -/
def driving (m : Mach) : Bool := mayDrive m && m.pair.outputsOn && !m.pwr.inReset && !m.pwr.held

/-- The channels of which a latched trip holds the outputs: bits of PWM and LAN of the latched maps (R378). -/
def tripMask (m : Mach) (lan : Bool) : Nat :=
  (List.range 8).foldl (fun a t => if bitOf m.pwm.latched t then a ||| m.fld (if lan then F.tripMapLan t else F.tripMapPwm t) else a) 0

/-- The levels of leg `n` after the interlock of R376: never both on. -/
def legLevels (c : PwmCh) : Bool × Bool := (c.h && !c.l, c.l && !c.h)

/-- Channel `n` drives Lantern driver `n` (R382). -/
def onLantern (m : Mach) (n : Nat) : Bool := decide (n < 6) && bitOf (m.fld F.lanCtrlLanEn) n

/-- The bits n < `cnt` for which `f` holds. -/
def maskOf (cnt : Nat) (f : Nat → Bool) : Nat := bitsToNat ((List.range cnt).map f)

/-- Level of the PWM output of channel `n` on a side. -/
def pwmLevel (m : Mach) (side : Side) (n : Nat) : Bool :=
  let c := m.pwm.chans.getD n pwmChInit
  let lv := legLevels c
  driving m && bitOf (m.fld F.pwmCtrlChEn) n && !onLantern m n && !bitOf (tripMask m false) n
    && (match side with | .high => lv.1 | .low => lv.2)

/-- Level of Lantern driver `n` on a side; a trip whose map names the driver acts on it, and a refresh cuts its high side (R378, R383, R384). -/
def lanLevel (m : Mach) (side : Side) (n : Nat) : Bool :=
  let c := m.pwm.chans.getD n pwmChInit
  let lv := legLevels c
  let x := m.pwm.lan.getD n lanternInit
  driving m && bitOf (m.fld F.pwmCtrlChEn) n && onLantern m n && !bitOf (tripMask m true) n
    && (match side with | .high => lv.1 && !x.uvHold && x.refresh == .none | .low => lv.2 || (lv.1 && !x.uvHold && x.refresh == .pulse))

/-- Safe outputs are energised only outside SAFE, and only in a device that runs. -/
def safetyLive (m : Mach) : Bool := !m.inState [.off, .dormant, .safe] && !m.pwr.inReset

/-- SAFE_N is high only in READY and RUN (R429). -/
def safeNLevel (m : Mach) : Bool := m.inState [.ready, .run] && !m.pwr.inReset

/-- This unit serves the rings. -/
def Mach.serving (m : Mach) : Bool := m.host.enabled && m.pair.server

/-- Host memory can be reached, from a boundary on: the link is up, Bus Master Enable set, D0, and the Stewards not held (R239, R242, R443). -/
def Mach.hostReach (m : Mach) : Bool := m.host.reach && m.host.linkUp && m.host.busMaster && !m.host.d3 && !m.pwr.held && m.alive

/-- Rings are served now. -/
def Mach.service (m : Mach) : Bool := m.serving && m.hostReach

/-- HRDY: in READY and RUN, while the unit serves the rings (R239, R242, R270). -/
def hrdyLevel (m : Mach) : Bool := safeNLevel m && m.service && !m.host.attnPulse

/-- A frame of the channel is under way. -/
def CanCh.busy (x : CanCh) : Bool := x.exclusive.isSome || x.txq.any CanTx.started

/-- Levels of the output balls as the device's state gives them. -/
def pinsOf (m : Mach) : Pins :=
  let so := if safetyLive m then maskOf 4 fun o => (m.safety.outs.getD o safeOutInit).on else 0
  { safeN := safeNLevel m, hrdy := hrdyLevel m
    pwmH := maskOf 12 (pwmLevel m .high), pwmL := maskOf 12 (pwmLevel m .low)
    lho := maskOf 6 (lanLevel m .high), llo := maskOf 6 (lanLevel m .low), soA := so, soB := so
    canTx := maskOf 2 fun c => !(m.net.can.getD c canInit).busy, oscsN := m.sec.staging.isNone, mdc := m.dbg.mdioBusy }

/-- The output balls brought to the levels the state gives them; nothing else changes. -/
def settle (m : Mach) : Mach := { m with pins := pinsOf m }

/-- A meaning applied to a state: what the last step sent is dropped, the effect is made, the output balls settle; the queue is left alone. -/
def State.run (f : Mach → Mach) (s : State) : State := { s with m := settle (f { s.m with out := [] }) }

/-! ### Ethernet ports and Siphon (R329, R337, R339, R341, R366) -/

/-- A Siphon channel has stopped on a bad descriptor: what its path carries is lost (R329). -/
def siphonLost (m : Mach) (ch : Nat) : Bool := (m.meas.siphon.getD ch siphonInit).stopped

def Mach.ethPort (m : Mach) (p : Nat) : EthPort := m.net.ports.getD p ⟨false, []⟩

def Mach.setEthPort (m : Mach) (p : Nat) (x : EthPort) : Mach := { m with net := { m.net with ports := setAt m.net.ports p x } }

/-- EN of a port. -/
def portEn (m : Mach) (p : Nat) : Bool := if p = 0 then m.flag F.ethCtrlEnA else if p = 1 then m.flag F.ethCtrlEnB else false

def macOf (m : Mach) (p : Nat) : Nat := m.fld2 (F.ethMacAddrLo p) (F.ethMacAddrHi p)

/-- The destination filter of a port: its own address, the multicast addresses of the subscriptions, and three addresses of protocols (R337). -/
def destOk (m : Mach) (p dest : Nat) : Bool :=
  dest == macOf m p || [0x011B19000000, 0x0180C200000E, 0x01154E000100].contains dest
    || (bitOf dest 40 && ((m.meas.streams.any fun s => s.sub.any fun u => u.dest == dest) || (m.net.subs.any fun s => s.cfg.any fun g => g.dest == dest)))

/-- A frame to a destination is received on a port: the port is enabled, its Siphon channel works, and the filter lets it in (R337, R366). -/
def portTakes (m : Mach) (p dest : Nat) : Bool := portEn m p && !siphonLost m (8 + p) && destOk m p dest

/-- Place of a kind in the order of R339. -/
def TxKind.rank : TxKind → Nat
  | .safety => 0 | .ptp => 1 | .goose => 2 | .far => 3 | .timed => 4 | .prp => 5

/-- A frame goes before another: by kind, transmit instant, then order of effect (R339). -/
def txBefore (a b : TxFrame) : Bool :=
  decide (a.kind.rank < b.kind.rank) || (a.kind.rank == b.kind.rank && (decide (a.at_ < b.at_) || (a.at_ == b.at_ && decide (a.order < b.order))))

def txInsert (f : TxFrame) : List TxFrame → List TxFrame
  | [] => [f]
  | g :: t => if txBefore f g then f :: g :: t else g :: txInsert f t

/-- A frame queued on every enabled port of a mask, with the sequence number of its RCT taken where PRP is asked for (R341). -/
def queueFrame (ports : Nat) (prp : Bool) (f : Nat → Option Nat → TxFrame) (m : Mach) : Mach :=
  let rct := if prp && m.flag F.ethCtrlPrpEn then some m.net.prpSeq else none
  let m1 := { m with net := { m.net with txOrder := m.net.txOrder + 1, prpSeq := if rct.isSome then (m.net.prpSeq + 1) % 65536 else m.net.prpSeq } }
  (List.range 2).foldl (fun m p => if bitOf ports p && portEn m p then m.setEthPort p { m.ethPort p with queue := txInsert (f p rct) (m.ethPort p).queue } else m) m1

end Sys2Proof.Machine
end

