-- ==== Sys2Proof/Machine/SafeState.lean ====
section
/-! DEFINITION. Machine/SafeState.lean: entry into SAFE and the reset of the device (R280, R282, R429, R430, R441, R442). -/
set_option Elab.async false
namespace Sys2Proof.Machine

/-- Codes of the converter modes (R126). -/
def Mode.code : Mode → Nat
  | .blocked => 0 | .precharge => 1 | .deblocked => 2 | .gridForming => 3 | .island => 4 | .blackStart => 5
  | .synchronizing => 6 | .manual => 7

/-- MODE_CHANGED: old mode, new mode, cause, and what the cause carries (R131). -/
def postMode (old new : Mode) (cause arg : Nat) (m : Mach) : Mach := m.post 0x0301 [old.code, new.code, cause, arg]

/-- The device leaves RUN for a state: the mode becomes BLOCKED and CURRENT_LIMITED ends (R131, R132).
DESIGN CHOICE: where the mode is BLOCKED already there is no transition and no MODE_CHANGED. -/
def modeLeave (st : DevState) (m : Mach) : Mach :=
  let m1 := if m.mode.mode = .blocked then m else postMode m.mode.mode .blocked 4 st.code m
  let m2 := if m.mode.limited then m1.post 0x0306 [m.mode.limitedPeriods] else m1
  { m2 with mode := { m2.mode with mode := .blocked, limited := false, limitedPeriods := 0 } }

/-- Entry into SAFE: as on leaving RUN, and SIG_CONV_MODE is to be written once (R127). -/
def modeBlocked (m : Mach) : Mach :=
  let m1 := modeLeave .safe m
  { m1 with mode := { m1.mode with safeWrite := true } }

/-- Every override of a PWM channel ends (R387). -/
def endOverrides (p : PwmSt) : PwmSt :=
  { p with chans := p.chans.map fun c => { c with forced := none, pend := none, wantH := false, wantL := false, h := false, l := false, deadH := false, deadL := false } }

/-- Every safe output is de-energised and needs a reset, AUTO_RESET included (R392, R408). -/
def dropSafeOutputs (s : SafeSt) : SafeSt :=
  { s with outs := s.outs.map fun o => { o with on := false, needsReset := true, noAuto := true }, resets := [] }

/-- A change of role due at the next boundary (R282). -/
def Mach.roleAt (m : Mach) (r : Role) : Mach := { m with pair := { m.pair with roleDue := some r } }

/-- The claim of a unit entering SAFE (R280): 0 for a SENIOR or TWIN beside a partner in service, and on a claim conflict. -/
def safeClaim (m : Mach) (conflict : Bool) : Nat :=
  if conflict || ((m.pair.role == .senior || m.pair.role == .twin) && m.pair.partnerInService) then 0 else m.pair.claim

/-- What an entry into SAFE does to the pair: SAFE_NOTE on every path, the claim of R280, and SOLO from the next boundary (R279, R282). -/
def pairSafe (m : Mach) (conflict : Bool) : Mach :=
  let c := safeClaim m conflict
  let m1 := { m with pair := { m.pair with claim := c } }
  let m2 := m1.pairSend 0x0B []
  if m.pair.role == .deposed then m2 else m2.roleAt .solo

/-- The output entries of the blocks selected keep their values with HELD set (R38, R55, R58). -/
def holdOutputs (sel : Nat → Bool) (m : Mach) : Mach :=
  match m.loop.graph with
  | none => m
  | some g => (g.blocks.zipIdx).foldl (fun m p => if sel p.2 then p.1.outs.foldl (fun m o =>
      let e := m.g o.index
      if qBit e.quality qFORCED then m else m.gput o.index { e with quality := qPut e.quality qHELD true }) m else m) m

/-- CnTX goes recessive: a frame under way is cut off, and waits again (R476). -/
def canCut (x : CanCh) : CanCh := { x with exclusive := none, exclWait := none, txq := x.txq.map fun f => { f with started := false } }

/-- The outputs and engines of SAFE (R429); loop-produced entries are HELD (R38). -/
def safeOutputs (m : Mach) (conflict : Bool) : Mach :=
  let m1 := holdOutputs (fun _ => true) (pairSafe m conflict)
  let m2 := modeBlocked m1
  { m2 with dev := { m2.dev with state := .safe, abortBefore := some m2.host.acceptCount }
            pwm := endOverrides m2.pwm
            safety := dropSafeOutputs m2.safety
            loop := { m2.loop with eval := none }
            net := { m2.net with can := m2.net.can.map canCut }
            dbg := { m2.dbg with stepRun := none, finishTo := none }
            zl := { m2.zl with blockAllDue := true }
            meas := { m2.meas with echo := m2.meas.echo.map fun e => { e with safeSeen := e.safeSeen || (e.trig.isSome && e.waiting.isNone) } } }

/-- Entry into SAFE with a cause of R430; a cause in SAFE, or outside READY and RUN, changes nothing. -/
def enterSafe (cause sub : Nat) (m : Mach) : Mach :=
  if m.inState [.ready, .run] then
    let m1 := safeOutputs m (cause == 6)
    (((m1.setF F.devSafeCauseCause cause).setF F.devSafeCauseSub sub).setF F.devSafeCausePeriod m.tb.k).post 0x0E06 ([cause, sub] ++ w64 m.tb.k)
  else m

/-! ### Reset (R441, R442) -/

/-- Sources of a reset and their bits in PWR_RESET_CAUSE (R441). -/
inductive ResetCause where
  | por | rstPin | lockstep | thermal | activate | debug | wake
  deriving DecidableEq, Repr

/-- The register bit of a reset source. -/
def ResetCause.field : ResetCause → FieldRef
  | .por => F.pwrResetCausePor | .rstPin => F.pwrResetCauseRstPin | .lockstep => F.pwrResetCauseLockstep
  | .thermal => F.pwrResetCauseThermal | .activate => F.pwrResetCauseActivate | .debug => F.pwrResetCauseDebug
  | .wake => F.pwrResetCauseWake

/-- The band table and MAC addresses of the calibration record (R221). -/
def applyCalibration (s : Straps) (m : Mach) : Mach :=
  let r := (s.bands.zipIdx).foldl (fun r b =>
    ((((r.put (F.tbBandFmin b.2) b.1.fmin).put (F.tbBandFmax b.2) b.1.fmax).put (F.tbBandCap b.2) b.1.cap).put (F.tbBandValid b.2) (b2n b.1.valid))) m.reg
  let r1 := ((r.put (F.ethMacAddrLo 0) s.macA).put (F.ethMacAddrHi 0) (s.macA / 2 ^ 32))
  { m with reg := (r1.put (F.ethMacAddrLo 1) s.macB).put (F.ethMacAddrHi 1) (s.macB / 2 ^ 32) }

/-- The always-on island's registers (R439, R461): the reset causes and the alarm. -/
def aoRegs (r : RegSt) : RegSt :=
  let keep := fun (acc : RegSt) (f : FieldRef) => acc.put f (r.raw f)
  [F.pwrResetCausePor, F.pwrResetCauseRstPin, F.pwrResetCauseLockstep, F.pwrResetCauseThermal, F.pwrResetCauseActivate,
   F.pwrResetCauseDebug, F.pwrResetCauseWake, F.pwrAlarmSeconds].foldl keep regInit

/-- Fuses, which a reset leaves (R453). -/
def keepFuses (s : SecSt) : SecSt :=
  { secInit with slots := s.slots, ownerCosign := s.ownerCosign, deny1 := s.deny1, deny2 := s.deny2, deny3 := s.deny3
                 svnMin := s.svnMin, stepsLeft := s.stepsLeft }

/-- Everything but the always-on island, the fuses, the supply and host memory at its reset content (R442). -/
def resetContent (m : Mach) : Mach :=
  applyCalibration m.pwr.straps
    { machInit with
      reg := aoRegs m.reg
      pair := pairInit m.pwr.straps.pairId
      safety := { safeInit with ins := m.safety.ins.map fun i => { safeInInit with hours := i.hours } }
      pwr := { m.pwr with sleepDue := false, sleepAgain := false, held := false, lowSeen := false, hotCtrl := false, hotPwr := false
                          vinMeas := 0, vmidMeas := 0, tjCtrl := 0, tjPwr := 0 }
      sec := keepFuses m.sec
      dbg := { dbgInit with challengeCount := m.dbg.challengeCount, ended := m.dbg.ended || decide (0 < m.dbg.level) }
      hostMem := m.hostMem
      pins := m.pins
      out := m.out }

/-- The straps sampled anew at a reset that no row gives them for (R445). -/
def sampleStraps (m : Mach) : Mach :=
  let v := Config.strapLevels m.pwr.resets
  { m with pwr := { m.pwr with straps := { m.pwr.straps with bootSel := v % 4, pairId := v / 4 % 2 }, resets := m.pwr.resets + 1 } }

/-- A level that the reset ended: its event, posted after the reset (R458). -/
def postEnded (m : Mach) : Mach := if m.dbg.ended then { m with dbg := { m.dbg with ended := false } }.post 0x0A08 [] else m

/-- The content of a reset from a source, and the source's bit (R441, R442). -/
def resetFrom (c : ResetCause) (m : Mach) : Mach := (resetContent m).setF c.field 1

/-- A device reset from a source: the device samples its straps and enters BOOT (R441, R442, R445). -/
def deviceReset (c : ResetCause) (m : Mach) : Mach := postEnded (resetFrom c (sampleStraps m))

/-- The supply goes: power-down to OFF or DORMANT (R438 steps 2 and 3, R439). -/
def powerDown (st : DevState) (m : Mach) : Mach :=
  let r := resetContent m
  { r with dev := { r.dev with state := st }, pwr := { r.pwr with rails := false, inReset := true }, dbg := { r.dbg with ended := false } }

end Sys2Proof.Machine
end

