-- ==== Sys2Proof/Machine/BootRec.lean ====
section
/-! DEFINITION. Machine/BootRec.lean: the boot control record, its two copies in the boot flash, and the activation of a staged image (R446, R452). -/
set_option Elab.async false
namespace Sys2Proof.Machine

/-- Flash address of a slot (R446). -/
def slotAddr (slot : Nat) : Nat := 0x01000000 * (slot % 2)

/-- Flash address of a copy of the boot control record (R446). -/
def bcrAddr (copy : Nat) : Nat := 0x02000000 + 0x1000 * (copy % 2)

/-- The 64 bytes of a boot control record (R446). -/
def bcrBytes (b : Bcr) : List Byte :=
  withCrc (leBytes 2 1 ++ leBytes 1 b.active ++ leBytes 1 (b2n b.trial) ++ leBytes 1 b.tries ++ leBytes 1 b.flashMode ++ leBytes 2 0
    ++ leBytes 4 b.generation ++ List.replicate 48 0#8)

/-- A valid copy: FORMAT 0x0001 and a CRC that matches (R446). -/
def parseBcr (copy : Nat) (b : List Byte) : Option Bcr :=
  if fieldLE b 0 2 = 1 ∧ fieldLE b 0x3C 4 = crc32 (b.take 0x3C) ∧ 64 ≤ b.length then
    some ⟨fieldLE b 2 1 % 2, bitOf (fieldLE b 3 1) 0, min (fieldLE b 4 1) 3, fieldLE b 5 1, fieldLE b 8 4, copy⟩
  else none

/-- The valid copy with the higher GENERATION (R446). -/
def readBcr (recA recB : List Byte) : Option Bcr :=
  match parseBcr 0 recA, parseBcr 1 recB with
  | some a, some b => if a.generation < b.generation then some b else some a
  | some a, none => some a
  | none, b => b

/-- The record without a valid copy: slot A at FLASH_MODE 0 as a trial with TRIES 1 (R446). -/
def bcrDefault : Bcr := ⟨0, true, 1, 0, 0, 1⟩

/-- The record in force. -/
def Mach.bcr (m : Mach) : Bcr := m.sec.bcr.getD bcrDefault

/-- An update of the record: GENERATION raised, the other copy written (R446). -/
def updateBcr (f : Bcr → Bcr) (m : Mach) : Mach :=
  let b := f m.bcr
  let c := { b with generation := (m.bcr.generation + 1) % 2 ^ 32, copy := 1 - m.bcr.copy % 2 }
  { m.send (.flash (bcrAddr c.copy) (bcrBytes c)) with sec := { m.sec with bcr := some c } }

/-- The booted slot is on trial (R452). -/
def Mach.onTrial (m : Mach) : Bool := decide (m.sec.bootSlot < 2) && m.bcr.trial && m.bcr.active == m.sec.bootSlot

/-- The slot that IMAGE_STAGE writes: the one not booted; where none is booted, the one that is not ACTIVE. -/
def stageSlot (m : Mach) : Nat := if m.sec.bootSlot < 2 then 1 - m.sec.bootSlot else 1 - m.bcr.active % 2

/-- RESTART of R452: the record written with the staged slot ACTIVE, TRIAL and TRIES 3; the reset follows. -/
def activateStaged (m : Mach) : Mach :=
  let slot := stageSlot m
  let m1 := updateBcr (fun b => { b with active := slot, trial := true, tries := 3 }) m
  { m1 with sec := { m1.sec with staged := none, activateDue := true } }

end Sys2Proof.Machine
end

