-- ==== Sys2Proof/Machine/GfBlocks.lean ====
section
/-! DEFINITION. Machine/GfBlocks.lean: the grid-forming block types VSM, QDROOP, VIMP, CLIM, FEST, BSEQ and SYNC (R108–R125). -/
set_option Elab.async false
namespace Sys2Proof.Machine

/-- Table of R109. -/
def gfType (code : Nat) : Option BType :=
  match code with
  | 0x0801 => some ⟨[inP, inP, inU, inPo, inPo, inBo, inBo, inAo, inPo], [.ang, .pu], true, 10, 14, 7⟩
  | 0x0802 => some ⟨[inP, inP, inP, inBo], [.pu], true, 5, 5, 2⟩
  | 0x0803 => some ⟨[inP, inP, inP], [.pu, .pu], false, 2, 6, 2⟩
  | 0x0804 => some ⟨[inP, inP, inPo], [.pu, .pu], true, 4, 16, 2⟩
  | 0x0805 => some ⟨[inA], [.pu], false, 2, 14, 3⟩
  | 0x0806 => some ⟨[inB, inP], [.pu, .uint], true, 8, 5, 3⟩
  | 0x0807 => some ⟨[inB, inA, inA, inP, inP, inP, inP], [.pu, .bits], true, 10, 12, 3⟩
  | _ => none

/-- Ranges and cross-word conditions of a grid-forming block (R111, R114, R116, R117, R120, R121, R123); `te` is T_e in ns. -/
def gfParamsOk (code : Nat) (env : BEnv) (p : List Word) : Bool :=
  match code with
  | 0x0801 =>
    -- KM between round(2^36 T_e / 60 s) and round(2^36 T_e / 0.2 s), T_e in ns
    inRangeI (pU p 0) (roundDiv (2 ^ 36 * env.te) (60 * 10 ^ 9)) (roundDiv (2 ^ 36 * env.te) (2 * 10 ^ 8))
      && inRangeI (pS p 1) 0 0x64000000 && inRangeI (pS p 2) 0 0x64000000 && inRangeI (pS p 3) 0 0x01000000
      && inRangeI (pS p 4) 0x00800000 0x00FFFFFF && inRangeI (pS p 5) 0x01000001 0x01800000
      && inRangeN (pU p 7) 1 0x3FFFFFFF && decide (pU p 8 ≤ 31) && decide (pU p 9 ≤ 31)
  | 0x0802 =>
    inRangeI (pS p 0) 0 0x0A000000 && inRangeI (pS p 1) 0 0x01000000 && inRangeI (pS p 2) 0 0x01FFFFFF
      && inRangeI (pS p 3) 1 0x02000000 && decide (pS p 2 < pS p 3) && decide (pU p 4 ≤ 31)
  | 0x0803 => inRangeI (pS p 0) 0 0x01000000 && inRangeI (pS p 1) 0x00028F5C 0x02000000
  | 0x0804 =>
    inRangeI (pS p 0) 1 0x02000000 && decide (pU p 1 ≤ 2) && inRangeI (pS p 2) 0x00800000 0x01000000
      && inRangeN (pU p 3) 1 65535
  | 0x0805 => inRangeN (pU p 0) 1 0x7FFFFFFF && inRangeI (pS p 1) 0 0x01000000
  | 0x0806 =>
    decide (pU p 0 ≤ 31) && inRangeI (pS p 1) 0 (pS p 3) && inRangeI (pS p 2) 1 0x00100000
      && inRangeI (pS p 3) 1 0x01333333 && inRangeI (pS p 4) 1 0x00400000 && inRangeN (pU p 5) 1 1048576
      && inRangeN (pU p 6) 1 1048576 && inRangeI (pS p 7) 1 0x00800000
  | 0x0807 =>
    decide (pU p 0 ≤ 31) && decide (pU p 2 ≤ 0x40000000) && inRangeI (pS p 3) 0 0x00800000
      && inRangeI (pS p 4) 0 0x00800000 && inRangeI (pS p 5) 0 0x01000000 && inRangeI (pS p 6) 0 0x00800000
      && decide (1 ≤ pU p 7) && inRangeI (pS p 8) 0 0x00800000 && inRangeN (pU p 9) 1 65535
  | _ => true

/-- VSM (R112): state mark, w and wd in Q14.48, θ with 2^64 per turn. -/
def execVsm (p : List Word) (x : List BIn) (st : List Int) (sk : Nat) (want : Bool) : BRes :=
  let one : Int := 2 ^ 48
  let w0 := if sAt st 0 = 0 then one else sAt st 1
  let wd0 := if sAt st 0 = 0 then one else sAt st 2
  let th0 := sAt st 3
  let mode := xU x 2 % 16
  let preset := xC x 6 && xBit x 6 (pU p 9)
  let wLo := pS p 4 * 2 ^ 24
  let wHi := pS p 5 * 2 ^ 24
  if preset && decide (mode ≤ 2) then
    let thp := xU x 7
    let wp := if xC x 8 then xS x 8 else 0x01000000
    let w := wp * 2 ^ 24
    ⟨[oU thp, oS (wp, false)] ++ oFlg want 4 sk, [1, w, w, (thp : Int) * 2 ^ 32], 0⟩
  else
    let s0 := if preset then 2 ^ 9 else 0
    let hold := xC x 5 && xBit x 5 (pU p 8)
    let wr : Int := if xC x 3 then xS x 3 else 0x01000000
    let ww := roundDiv w0 (2 ^ 24)
    let wdd := roundDiv wd0 (2 ^ 24)
    let e := (accPu [xS x 0 * 2 ^ 24, -(xS x 1 * 2 ^ 24), pS p 1 * (wr - ww), -(pS p 2 * (ww - wdd))]).1
    let w1 := w0 + roundDiv ((pU p 0 : Int) * e) (2 ^ 12)
    let w := if hold then w0 else clampI w1 wLo wHi
    let wd := if hold then wd0 else wd0 + roundDiv (pS p 3 * (w - wd0)) (2 ^ 24)
    let ws0 := w + xS x 4 * 2 ^ 24
    let ws := clampI ws0 wLo wHi
    let lim := (!hold && w != w1) || ws != ws0
    let dth0 : Int := (pU p 7 * 2 ^ 32 + pU p 6 : Nat)
    let th := (th0 + roundDiv (ws * dth0) (2 ^ 48)) % (2 ^ 64 : Int)
    let s1 := if lim then s0 ||| 2 ^ 8 else s0
    ⟨[oU (th / 2 ^ 32).toNat, oS (roundDiv ws (2 ^ 24), ws != ws0)] ++ oFlg want (b2n hold + 2 * b2n lim) (sk ||| s1),
      [1, w, wd, th], s1⟩

/-- QDROOP (R115): state mark, qf. -/
def execQDroop (p : List Word) (x : List BIn) (st : List Int) (sk : Nat) (want : Bool) : BRes :=
  let hold := xC x 3 && xBit x 3 (pU p 4)
  let qm := xS x 2
  let qf0 := if sAt st 0 = 0 then qm else sAt st 1
  let qf := if hold || sAt st 0 == 0 then qf0 else (accPu [qf0 * 2 ^ 24, pS p 1 * (qm - qf0)]).1
  let v := accPu [xS x 0 * 2 ^ 24, -(pS p 0 * (qf - xS x 1))]
  let e := clampI v.1 (pS p 2) (pS p 3)
  ⟨oS (e, e != v.1) :: oFlg want (b2n (e != v.1) + 2 * b2n hold) sk, [1, qf], 0⟩

/-- VIMP (R116): the admittance follows RV and XV. -/
def execVimp (p : List Word) (x : List BIn) : BRes :=
  let rv := pS p 0
  let xv := pS p 1
  let n := (rv * rv + xv * xv).toNat
  let g := roundDiv (rv * 2 ^ 48) n
  let b := roundDiv (xv * 2 ^ 48) n
  let dd := sat32 (xS x 0 - xS x 1)
  let dq := sat32 (0 - xS x 2)
  resOf [oS (accPu [g * dd, b * dq]), oS (accPu [g * dq, -(b * dd)])]

/-- CLIM (R118): state limited, cnt. DESIGN CHOICE: LIMIT_SEEN is set in executions with CLAMPING, not in those with LIMITED alone. -/
def execClim (p : List Word) (x : List BIn) (st : List Int) (sk : Nat) (want : Bool) : BRes :=
  let imax := if xC x 2 then min (pS p 0) (max (xS x 2) 0) else pS p 0
  let d := xS x 0
  let q := xS x 1
  let m := (magPu d q).1
  let clamping := decide (imax < m)
  let r (c : Int) : Int := isqrt (imax * imax - c * c).toNat
  let dq : Int × Int :=
    if !clamping then (d, q)
    else if pU p 1 = 0 then (roundDivI (d * imax) m, roundDivI (q * imax) m)
    else if pU p 1 = 1 then
      let qo := clampI q (-imax) imax
      (clampI d (-(r qo)) (r qo), qo)
    else
      let dO := clampI d (-imax) imax
      (dO, clampI q (-(r dO)) (r dO))
  let cnt := if decide (m ≤ (toPu (pS p 2 * imax)).1) then sAt st 1 + 1 else 0
  let ls : Int × Int :=
    if clamping then (1, 0)
    else if sAt st 0 = 0 then (0, sAt st 1)
    else if (pU p 3 : Int) ≤ cnt then (0, 0) else (1, cnt)
  let s1 := if clamping then 2 ^ 8 else 0
  ⟨[oS (dq.1, clamping), oS (dq.2, clamping)] ++ oFlg want (ls.1.toNat + 2 * b2n clamping) (sk ||| s1), [ls.1, ls.2], s1⟩

/-- FEST (R120): state mark, θ_prev, y. -/
def execFest (p : List Word) (x : List BIn) (st : List Int) : BRes :=
  let th : Int := xU x 0
  if sAt st 0 = 0 then ⟨[oS (0x01000000, false)], [1, th, 0x01000000], 0⟩
  else
    let d := signed 32 (unsigned 32 (th - sAt st 1))
    let wr := sat32 (roundDiv (d * 2 ^ 24) (pU p 0))
    let y := sAt st 2
    let w := accPu [y * 2 ^ 24, pS p 1 * (wr - y)]
    ⟨[oS w], [1, th, w.1], 0⟩

/-- BSEQ (R122): state stage, e, t. -/
def execBseq (p : List Word) (x : List BIn) (st : List Int) (sk : Nat) (want : Bool) : BRes :=
  let run := xBit x 0 (pU p 0)
  let vm := xS x 1
  let e0 := pS p 1
  let rate := pS p 2
  let vt := pS p 3
  let band := pS p 4
  let lag := pS p 7
  let stage := sAt st 0
  let e := sAt st 1
  let t := sAt st 2
  -- stage codes: 0 IDLE, 1 RAMP, 2 SETTLE, 3 DONE, 4 STALLED
  let n : Int × Int × Int × Nat :=
    if !run then (0, e0, 0, 0)
    else if stage = 0 then (1, e0, 0, 0)
    else if stage = 1 then
      (if lag < e - vm then
        (if (pU p 6 : Int) ≤ t + 1 then (4, e, t + 1, 2 ^ 8) else (1, e, t + 1, 0))
      else
        let e' := e + min rate (vt - e)
        (if e' = vt then 2 else 1, e', 0, 0))
    else if stage = 2 then
      let t' := if (Int.natAbs (vm - vt) : Int) ≤ band then t + 1 else 0
      (if (pU p 5 : Int) ≤ t' then (3, e, 0, 0) else (2, e, t', 0))
    else if stage = 4 then (if e - vm ≤ lag then (1, e, 0, 0) else (4, e, t, 0))
    else (3, e + clampI (vt - e) (-rate) rate, t, 0)
  let s1 := n.2.2.2
  ⟨[oS (satS n.2.1), oU n.1.toNat] ++ oFlg want (b2n (n.1 == 3) + 2 * b2n (n.1 == 4)) (sk ||| s1), [n.1, n.2.1, n.2.2.1], s1⟩

/-- SYNC (R124): state wofs in Q14.48, cnt. -/
def execSync (env : BEnv) (p : List Word) (x : List BIn) (st : List Int) (sk : Nat) (want : Bool) : BRes :=
  let en := xBit x 0 (pU p 0)
  let bad := !((x.drop 1).take 6).all fun b => qGood b.quality
  let winAng : Int := if pU p 2 = 0 then 0x038E38E4 else pU p 2
  let winF : Int := if pS p 3 = 0 then roundDiv (2 ^ 24 * 100) (max env.fBase 1) else pS p 3
  let winV : Int := if pS p 4 = 0 then 0x000CCCCD else pS p 4
  let dth := signed 32 (unsigned 32 ((xU x 1 : Int) - xU x 2 - pU p 1))
  let df := sat32 (xS x 3 - xS x 4)
  let dv := sat32 (xS x 5 - xS x 6)
  let inside := !bad && decide ((dth.natAbs : Int) ≤ winAng) && decide ((df.natAbs : Int) ≤ winF) && decide ((dv.natAbs : Int) ≤ winV)
  let dfdt : Int := pU p 7
  let w0 := sAt st 0
  let tc : Int := pU p 9
  let n : Int × Int × Bool × Bool :=
    if !en then (w0 - clampI w0 (-dfdt) dfdt, 0, false, false)
    else if bad then (w0, 0, true, false)
    else
      let des := clampI (roundDiv (-(pS p 5) * dth) (2 ^ 32)) (-pS p 6) (pS p 6)
      let w1 := w0 + clampI ((des - df) * 2 ^ 24) (-dfdt) dfdt
      let w2 := clampI w1 (-(pS p 8) * 2 ^ 24) (pS p 8 * 2 ^ 24)
      (w2, if inside then min (sAt st 1 + 1) tc else 0, false, w2 != w1)
  let s1 := if n.2.2.2 then 2 ^ 8 else 0
  ⟨[oS (roundDiv n.1 (2 ^ 24), n.2.2.2), oU (b2n (decide (tc ≤ n.2.1)))]
      ++ oFlg want (b2n inside + 2 * b2n (n.1 != w0) + 4 * b2n n.2.2.1) (sk ||| s1), [n.1, n.2.1], s1⟩

/-- One execution of a grid-forming block (R112–R124). -/
def gfExec (code : Nat) (env : BEnv) (p : List Word) (x : List BIn) (st : List Int) (sk : Nat) (want : Bool) : BRes :=
  match code with
  | 0x0801 => execVsm p x st sk want
  | 0x0802 => execQDroop p x st sk want
  | 0x0803 => execVimp p x
  | 0x0804 => execClim p x st sk want
  | 0x0805 => execFest p x st
  | 0x0806 => execBseq p x st sk want
  | 0x0807 => execSync env p x st sk want
  | _ => resOf []

end Sys2Proof.Machine
end

