-- ==== Sys2Proof/Machine/ArmBlocks.lean ====
section
/-! DEFINITION. Machine/ArmBlocks.lean: the arm block types, and the block library as one catalogue (R72, R141–R145). -/
set_option Elab.async false
namespace Sys2Proof.Machine

/-- Table of R141; ports and validity depend on the topology. -/
def armType (code : Nat) (env : BEnv) : Option BType :=
  let a := env.armCount
  match code with
  | 0x0901 => some ⟨[inP, inP, inP, inPo, inPo, inPo, inPo], List.replicate a .pu, false, 0, 6, 0⟩
  | 0x0902 => some ⟨nP a, List.replicate (if env.topology = 1 then 6 else 3) .pu, false, 0, 6, 0⟩
  | 0x0903 => if env.topology = 1 then some ⟨nP 6 ++ [inPo], List.replicate 6 .pu, false, 0, 5, 0⟩ else none
  | 0x0904 => some ⟨nP 4, [.pu], true, 2, 14, 0⟩
  | _ => none

/-- Codes of the arm blocks (R141). -/
def armCode (code : Nat) : Bool := inRangeN code 0x0901 0x0904

/-- Ranges of the words of an arm block (R145). -/
def armParamsOk (code : Nat) (p : List Word) : Bool :=
  match code with
  | 0x0904 => inRangeI (pS p 0) 1 0x01000000 && inRangeI (pS p 1) 0 0x02000000
  | _ => true

/-- to_pu of half an accumulator, with the one rounding (R143). -/
def toPuHalf (acc : Int) : Sv := satS (roundDiv acc (2 ^ 25))

/-- ALPHA, BETA and ZERO of CLARKE as accumulators (R85). -/
def clarkeAcc (a b c : Int) : Int × Int × Int :=
  (11184811 * a - 5592405 * b - 5592405 * c, 9686330 * b - 9686330 * c, 5592405 * a + 5592405 * b + 5592405 * c)

/-- ARMREF (R142). -/
def execArmRef (env : BEnv) (x : List BIn) : BRes :=
  let v (j : Nat) := xS x j
  let vdc : Int := if xC x 3 then xS x 3 else 0x01000000
  let xx (j : Nat) := xS x (4 + j)
  let h : Int := 8388608
  if env.topology = 1 then
    resOf ((List.range 6).map fun a =>
      let j := a / 2
      oS (accPu [h * vdc, if a % 2 = 0 then -(env.kph * v j) else env.kph * v j, -(2 ^ 24 * xx j)]))
  else if env.topology = 2 then
    resOf ((List.range 3).map fun j => oS (accPu [env.kph * v j, 2 ^ 24 * xx j]))
  else
    resOf ((List.range 3).map fun j => oS (accPu [env.kph * (v j - v ((j + 1) % 3)), 2 ^ 24 * xx j]))

/-- ARMENERGY (R143). -/
def execArmEnergy (env : BEnv) (x : List BIn) : BRes :=
  if env.topology = 1 then
    let s (j : Nat) := xS x (2 * j) + xS x (2 * j + 1)
    let d (j : Nat) := xS x (2 * j) - xS x (2 * j + 1)
    let cs := clarkeAcc (s 0) (s 1) (s 2)
    let cd := clarkeAcc (d 0) (d 1) (d 2)
    resOf [oS (toPuHalf cs.2.2), oS (toPuHalf cs.1), oS (toPuHalf cs.2.1), oS (toPuHalf cd.1), oS (toPuHalf cd.2.1), oS (toPuHalf cd.2.2)]
  else
    let c := clarkeAcc (xS x 0) (xS x 1) (xS x 2)
    resOf [oS (toPu c.2.2), oS (toPu c.1), oS (toPu c.2.1)]

/-- CIRC (R144). -/
def execCirc (env : BEnv) (x : List BIn) : BRes :=
  let h : Int := 8388608
  let i (j : Nat) := xS x j
  resOf ((List.range 3).map (fun j => oS (accPu [h * i (2 * j), h * i (2 * j + 1), -(5592405 * xS x 6)]))
    ++ (List.range 3).map (fun j => oS (toPu (env.kib * (i (2 * j) - i (2 * j + 1))))))

/-- ZSEQ (R145). -/
def execZseq (p : List Word) (x : List BIn) (sk : Nat) (want : Bool) : BRes :=
  let pa := xS x 0
  let pb := xS x 1
  let ca := xS x 2
  let cb := xS x 3
  let m2 := ca * ca + cb * cb
  if m2 < pS p 0 * pS p 0 then
    ⟨oS (0, false) :: oFlg want 1 (sk ||| 2 ^ 8), [], 2 ^ 8⟩
  else
    let v := roundDiv (2 * (pa * ca + pb * cb) * 2 ^ 24) m2.toNat
    let y := clampS v (-pS p 1) (pS p 1)
    ⟨oS y :: oFlg want (2 * b2n y.2) sk, [], 0⟩

/-- One execution of an arm block (R142–R145). -/
def armExec (code : Nat) (env : BEnv) (p : List Word) (x : List BIn) (sk : Nat) (want : Bool) : BRes :=
  match code with
  | 0x0901 => execArmRef env x
  | 0x0902 => execArmEnergy env x
  | 0x0903 => execCirc env x
  | 0x0904 => execZseq p x sk want
  | _ => resOf []

/-! ### The library as a whole (R72) -/

/-- TYPE is one of the listed codes (R72, R108, R141). -/
def typeKnown (code nIn w0 : Nat) : Bool :=
  (genType code nIn w0).isSome || (gfType code).isSome || armCode code
    || [0x0002, 0x0005, 0x0501, 0x0502, 0x0503, 0x0601].contains code

/-- The resolved type of a block; `none` where the type is unknown, its port count is out of range or the topology does not permit it. -/
def blockType (code nIn w0 : Nat) (env : BEnv) : Option BType :=
  match genType code nIn w0 with
  | some t => some t
  | none => match gfType code with
    | some t => some t
    | none => armType code env

/-- Ranges and cross-word conditions of a parameter set (R79). -/
def paramsOk (code nIn : Nat) (env : BEnv) (p : List Word) : Bool :=
  genParamsOk code nIn p && gfParamsOk code env p && armParamsOk code p

/-- Block state at commit (R78, R103): zero, but for the selector's input in service. -/
def blockInit (code : Nat) (p : List Word) : List Int :=
  if code = 0x0601 then [(pU p 1 : Int), 0, 0, 0] else []

/-- One execution of a block (R75). -/
def blockExec (code : Nat) (env : BEnv) (p : List Word) (x : List BIn) (st : List Int) (sk : Nat) (want : Bool) : BRes :=
  if (gfType code).isSome then gfExec code env p x st sk want
  else if armCode code then armExec code env p x sk want
  else genExec code p x st sk want

end Sys2Proof.Machine
end

