-- ==== Sys2Proof/Machine/HostMem.lean ====
section
/-! DEFINITION. Machine/HostMem.lean: host memory as the device writes it, and the posting of completions, events and records (R240–R244, R256–R258, R265–R272). -/
set_option Elab.async false
namespace Sys2Proof.Machine

/-! ### Host memory (R240, R243)

Only bytes the device wrote are kept; a byte it has not written reads as zero (DESIGN CHOICE). -/

/-- What an unlisted byte of host memory reads as. -/
def hostUnwritten (_ : Nat) : Byte := 0#8

/-- One byte read. -/
def Memory.get (l : List Host.Cell) (a : Nat) : Byte := sget hostUnwritten l a

/-- One byte written, canonical form kept. -/
def Memory.put (l : List Host.Cell) (a : Nat) (b : Byte) : List Host.Cell := sput hostUnwritten a b l

/-- The canonical form: addresses strictly rising, no entry equal to what an unlisted byte reads as. -/
def Memory.wf (l : List Host.Cell) : Bool := swf hostUnwritten l

/-- Consecutive bytes written from an address. -/
def Memory.write (l : List Host.Cell) (a : Nat) : List Byte → List Host.Cell
  | [] => l
  | b :: bs => Memory.write (Memory.put l a b) (a + 1) bs

/-- `n` consecutive bytes read. -/
def Memory.read (l : List Host.Cell) (a n : Nat) : List Byte := (List.range n).map fun i => Memory.get l (a + i)

/-- Bytes the device writes to host memory. -/
def Mach.hostWrite (m : Mach) (a : Nat) (bs : List Byte) : Mach := { m with hostMem := Memory.write m.hostMem a bs }

/-- Bytes given by the host for addresses the device reads back (R244, R273). -/
def hostStores (l : List Host.Cell) (cells : List Host.Cell) : List Host.Cell := cells.foldl (fun a c => Memory.put a c.1 c.2) l

/-! ### Service (R244, R270) -/

/-- PHASE of index `i` in a ring of `e` entries (R244). -/
def phaseOf (i e : Nat) : Bool := (i / max e 1) % 2 == 0

/-- A qualifying posting owes an attention pulse, unless none can be given now (R270). -/
def Mach.oweAttention (m : Mach) (c : Bool) : Mach :=
  if c && m.flag F.hostCtrlAttnEn && m.inState [.ready, .run] then { m with host := { m.host with attnOwed := true } } else m

def Mach.ring (m : Mach) (r : Nat) : Ring := m.host.rings.getD r ringInit

def Mach.setRing (m : Mach) (r : Nat) (x : Ring) : Mach := { m with host := { m.host with rings := setAt m.host.rings r x } }

/-! ### Completions (R256–R258) -/

/-- The 32 bytes of a completion entry (R256). -/
def cplBytes (c : Cpl) (phase : Bool) : List Byte :=
  leBytes 8 c.seq ++ leBytes 2 c.op ++ leBytes 1 c.status ++ leBytes 1 c.flags ++ leBytes 4 c.detail ++ leBytes 8 c.period
    ++ leBytes 4 c.result ++ leBytes 3 0 ++ leBytes 1 (128 * b2n phase)

/-- FLAGS of a completion (R256). -/
def cfFIRST : Nat := 1
def cfCLAMP : Nat := 2
def cfTSLOST : Nat := 4
def cfLATE : Nat := 8
def cfREPLAYED : Nat := 16
def cfRESULT : Nat := 32
def cfATTN : Nat := 64

/-- Status codes (R256). -/
def stACCEPTED : Nat := 0x00
def stDONE : Nat := 0x01
def stDONEEMPTY : Nat := 0x02
def stMALFORMED : Nat := 0x10
def stLIMIT : Nat := 0x11
def stSTATE : Nat := 0x12
def stAUTH : Nat := 0x13
def stSUPERSEDED : Nat := 0x20
def stEXPIRED : Nat := 0x21
def stABORTED : Nat := 0x30

/-- Free entries of completion ring r (R258). -/
def cplFree (x : Ring) : Nat := x.cplE - (x.cplPi - x.cplCi)

/-- TERM_LOW advanced past the terminal run. -/
def advanceTerm : Nat → Ring → Ring
  | 0, x => x
  | n + 1, x => if x.termMap.contains x.termLow then advanceTerm n { x with termMap := x.termMap.filter (· ≠ x.termLow), termLow := x.termLow + 1 } else x

/-- A SEQ marked terminal or rejected. -/
def markTerm (seq : Nat) (x : Ring) : Ring :=
  if x.termLow ≤ seq then let y := { x with termMap := insertNat seq x.termMap }; advanceTerm y.termMap.length y else x

/-- The ring counts a SEQ as terminal or rejected. -/
def isTerm (seq : Nat) (x : Ring) : Bool := decide (seq < x.termLow) || x.termMap.contains seq

/-- What a completion in memory adds to its ring's counts: those that the rebuild would take from it (R272, R273). A descriptor refused for its SEQ leaves the expected one. -/
def countCpl (c : Cpl) (x : Ring) : Ring :=
  let first := bitOf c.flags 0
  let y := { x with blkCi := x.blkCi + b2n first, blkSeq := x.blkSeq + b2n (first && c.seq == x.blkSeq) }
  if c.status = stACCEPTED || (first && c.seq != x.blkSeq) then y else markTerm c.seq y

/-- The bytes of a command's host buffer that still wait, written (R240). -/
def writeBufs (c : Cpl) (m : Mach) : Mach :=
  let mine := fun (w : BufWrite) => w.ring == c.ring && w.seq == c.seq && c.status != stACCEPTED
  (m.host.bufHeld.filter mine).foldl (fun m w => m.hostWrite w.addr w.bytes) { m with host := { m.host with bufHeld := m.host.bufHeld.filter fun w => !mine w } }

/-- The result slot, then the entry of a completion written to its ring. -/
def writeCpl (c : Cpl) (m0 : Mach) : Mach :=
  let m := writeBufs c m0
  let x := m.ring c.ring
  let i := x.cplPi % max x.cplE 1
  let m1 := if c.slot.isEmpty then m else m.hostWrite (x.resAddr + 64 * i) ((c.slot ++ List.replicate 64 0#8).take 64)
  let m2 := m1.hostWrite (x.cplAddr + 32 * i) (cplBytes c (phaseOf x.cplPi x.cplE))
  let m3 := m2.setRing c.ring { countCpl c x with cplPi := x.cplPi + 1 }
  m3.oweAttention (c.status != stACCEPTED && bitOf c.flags 6 && m.flag F.hostAttnMaskCpl)

/-- POSTED to the partner for a completion this unit has written (R279, R292). -/
def sendPosted (ring seq status f : Nat) (m : Mach) : Mach :=
  if m.pair.exchanging && m.pair.server && m.pair.role != .shadow then
    m.pairSend 0x08 (leBytes 1 ring ++ leBytes 7 0 ++ leBytes 8 seq ++ leBytes 1 status ++ leBytes 7 0 ++ leBytes 8 f)
  else m

/-- POSTED of a terminal completion, as it is written; that of ACCEPTED carries F and is its acceptance's (R279, R292). -/
def postedOf (c : Cpl) (m : Mach) : Mach := if c.status = stACCEPTED then m else sendPosted c.ring c.seq c.status 0 m

/-- The completions of a list that find room are written, in order; the rest stay held, with CPL_STALL (R258). -/
def drainCpls (r : Nat) : List Cpl → Mach → Mach
  | [], m => m.setRing r { m.ring r with held := [] }
  | c :: cs, m =>
    if cplFree (m.ring r) = 0 then (m.raise F.hostStatusCplStall).setRing r { m.ring r with held := c :: cs }
    else drainCpls r cs (postedOf c (writeCpl c m))

/-- Held completions of ring r are posted as far as there is room (R258). -/
def postHeld (r : Nat) (m : Mach) : Mach :=
  if m.service && decide (0 < (m.ring r).cplE) then drainCpls r (m.ring r).held m else m

/-- A completion is determined: it is posted, or held in order (R258). -/
def postCpl (c : Cpl) (m : Mach) : Mach :=
  let x := m.ring c.ring
  postHeld c.ring ((m.send (.completion c)).setRing c.ring { x with held := x.held ++ [c] })

/-! ### Records (R269) -/

/-- Data units after the header unit. -/
def recUnits (len : Nat) : Nat := (len - 44 + 63) / 64

/-- The units of a record from ring index `i` in a ring of `e` units. -/
def recBytes (r : Rec) (i e : Nat) : List Byte :=
  leBytes 2 r.kind ++ leBytes 1 (b2n r.more + 128 * b2n (phaseOf i e)) ++ leBytes 1 0 ++ leBytes 4 r.data.length ++ leBytes 8 r.period
    ++ leBytes 4 r.tag ++ (r.data.take 44 ++ List.replicate (44 - r.data.length) 0#8)
    ++ (let d := r.data.drop 44; d ++ List.replicate (64 * recUnits r.data.length - d.length) 0#8)

/-- A pad record of `n` units (R269). -/
def padBytes (n i e k : Nat) : List Byte :=
  leBytes 2 0 ++ leBytes 1 (128 * b2n (phaseOf i e)) ++ leBytes 1 0 ++ leBytes 4 (64 * n - 20) ++ leBytes 8 k ++ List.replicate (64 * n - 16) 0#8

def Mach.recRing (m : Mach) (n : Nat) : RecRing := m.host.recs.getD n recRingInit

def Mach.setRecRing (m : Mach) (n : Nat) (x : RecRing) : Mach := { m with host := { m.host with recs := setAt m.host.recs n x } }

/-- Free units of a record ring. -/
def recFree (x : RecRing) : Nat := x.e - (x.pi - x.ci)

/-- Units of a record. -/
def Rec.units (r : Rec) : Nat := 1 + recUnits r.data.length

/-- A pad record to the end of the ring where the record would wrap, as soon as there is room for the pad. -/
def writePad (n : Nat) (r : Rec) (m : Mach) : Mach :=
  let x := m.recRing n
  let slot := x.pi % max x.e 1
  let pad := x.e - slot
  if x.e < slot + r.units && decide (pad ≤ recFree x) then (m.hostWrite (x.addr + 64 * slot) (padBytes pad x.pi x.e m.tb.k)).setRecRing n { x with pi := x.pi + pad }
  else m

/-- A waiting record is written when it fits; `none` while space lacks. -/
def writeRec (n : Nat) (r : Rec) (m : Mach) : Option Mach :=
  let x := m.recRing n
  let slot := x.pi % max x.e 1
  if x.e < slot + r.units || decide (recFree x < r.units) then none
  else some (((m.hostWrite (x.addr + 64 * slot) (recBytes r x.pi x.e)).setRecRing n { x with pi := x.pi + r.units }).oweAttention (m.flag F.hostAttnMaskRec))

/-- The waiting records of a ring, in order, as far as there is room. -/
def drainRecs (n : Nat) : List Rec → Mach → Mach
  | [], m => m.setRecRing n { m.recRing n with queue := [] }
  | r :: rs, m0 =>
    let m := writePad n r m0
    match writeRec n r m with
    | some m1 => drainRecs n rs m1
    | none => m.setRecRing n { m.recRing n with queue := r :: rs }

/-- The Siphon channel that carries a record ring (R329, R366); none is named for ring 3. -/
def ringChannel (n : Nat) : Option Nat := [some 6, some 20, some 21, none].getD n none

/-- The records that wait for a ring are written as far as there is room, while the rings are served and the ring's Siphon channel works. -/
def postRecs (n : Nat) (m : Mach) : Mach :=
  if m.service && !((ringChannel n).any (siphonLost m)) && decide (0 < (m.recRing n).e) then drainRecs n (m.recRing n).queue m else m

/-- Records of at most 65,536 data bytes, MORE on all but the last (R269). -/
def splitRec : Nat → Rec → List Rec
  | 0, r => [r]
  | f + 1, r => if r.data.length ≤ 65536 then [r] else { r with more := true, data := r.data.take 65536 } :: splitRec f { r with data := r.data.drop 65536 }

/-- A record handed to its ring: it is written, or waits in order (R269). -/
def postRec (n kind tag : Nat) (data : List Byte) (m : Mach) : Mach :=
  let x := m.recRing n
  postRecs n (m.setRecRing n { x with queue := x.queue ++ splitRec (data.length / 65536) ⟨kind, false, m.tb.k, tag, data⟩ })

/-! ### The Sump (R265–R268) -/

/-- Fold bitmap slot of a code (R268). -/
def foldSlot (code cls : Nat) : Option Nat :=
  if code = 0x0401 then some 0 else if code = 0x0402 then some 1 else if code = 0x0B07 then some (2 + cls) else none

/-- The 32 bytes of an event entry (R265). -/
def evBytes (code flags slot count period : Nat) (args : List Nat) : List Byte :=
  leBytes 2 code ++ leBytes 1 flags ++ leBytes 1 slot ++ leBytes 4 count ++ leBytes 8 period
    ++ ((args ++ [0, 0, 0, 0]).take 4).flatMap fun a => leBytes 4 (min a 0xFFFFFFFF)

/-- Free entries of the event ring. -/
def evFree (h : HostSt) : Nat := h.evE - (h.evPi - h.evCi)

/-- One event entry written to the event ring. -/
def writeEv (code cls flags slot count period : Nat) (args : List Nat) (m : Mach) : Mach :=
  let h := m.host
  let fl := flags + 64 * (m.pair.unit % 2) + 128 * b2n (phaseOf h.evPi h.evE)
  let _ := cls
  let m1 := m.hostWrite (h.evAddr + 32 * (h.evPi % max h.evE 1)) (evBytes code fl slot count period args)
  let m2 := { m1 with host := { m1.host with evPi := h.evPi + 1 } }
  m2.oweAttention (bitOf (m.fld F.hostAttnMaskClass) (code / 256))

/-- Order of pending codes: ascending code, SM_ALARM by class (R267). -/
def foldBefore (c1 k1 c2 k2 : Nat) : Bool := decide (c1 < c2) || (c1 == c2 && decide (k1 < k2))

/-- An event folded into the pending codes (R267). -/
def foldIn (e : Ev) : List Fold → List Fold
  | [] => [⟨e.code, e.cls, 1, e.period, e.args, e.sm.toList⟩]
  | f :: fs =>
    if f.code = e.code ∧ f.cls = e.cls then
      { f with count := min (f.count + 1) 0xFFFFFFFF, sms := match e.sm with | some g => insertNat g f.sms | none => f.sms } :: fs
    else if foldBefore e.code e.cls f.code f.cls then ⟨e.code, e.cls, 1, e.period, e.args, e.sm.toList⟩ :: f :: fs
    else f :: foldIn e fs

/-- The 3,072 bytes of a fold bitmap (R268). -/
def bitmapBytes (sms : List Nat) : List Byte :=
  (List.range 3072).map fun b => BitVec.ofNat 8 ((sms.filter fun g => g / 8 == b).foldl (fun a g => a + 2 ^ (g % 8)) 0)

/-- A pending code posted as one COALESCED entry, its bitmap first; `none` where its slot awaits consumption. -/
def postFold (f : Fold) (m : Mach) : Option Mach :=
  match foldSlot f.code f.cls with
  | none => some (writeEv f.code f.cls 1 0xFF f.count f.period f.args m)
  | some s =>
    if (m.host.foldBusy.map FoldSlot.slot).contains s then none
    else
      let m1 := m.hostWrite (m.host.foldAddr + 3072 * s) (bitmapBytes f.sms)
      let m2 := writeEv f.code f.cls 3 s f.count f.period f.args m1
      some { m2 with host := { m2.host with foldBusy := m2.host.foldBusy ++ [⟨s, m2.host.evPi⟩] } }

/-- The pending codes within a budget: what is left of them, of the budget, and the device. -/
def postFolds : List Fold → Nat → Mach → List Fold × Nat × Mach
  | [], n, m => ([], n, m)
  | f :: fs, 0, m => (f :: fs, 0, m)
  | f :: fs, n + 1, m =>
    match postFold f m with
    | some m1 => postFolds fs n m1
    | none => let r := postFolds fs (n + 1) m; (f :: r.1, r.2)

/-- New events in order: folded while their code is pending or the budget is spent, else posted; with what is left of the budget. -/
def postNew : List Ev → Nat → List Fold → Mach → List Fold × Nat × Mach
  | [], n, fs, m => (fs, n, m)
  | e :: es, n, fs, m =>
    if fs.any fun f => f.code == e.code && f.cls == e.cls then postNew es n (foldIn e fs) m
    else match n with
      | 0 => postNew es 0 (foldIn e fs) m
      | n + 1 => postNew es n fs (writeEv e.code e.cls 0 0xFF 1 e.period e.args m)

/-- A posting budget within the free space of a ring that is served. -/
def evRoom (n : Nat) (m : Mach) : Nat := if m.service && decide (0 < m.host.evE) then min n (evFree m.host) else 0

/-- SUMP_POST (R267): what the ended period still had of its budget serves its own events, and those that do not fit are folded; then, within the new EV_BUDGET and the free space, the pending codes and the events of this boundary. -/
def sumpPost (m : Mach) : Mach :=
  let ended := m.host.evNew.filter fun e => decide (e.period < m.tb.k)
  let fresh := m.host.evNew.filter fun e => !decide (e.period < m.tb.k)
  let a := postNew ended (evRoom m.host.evLeft m) m.host.folds m
  let room := evRoom (m.fld F.hostCtrlEvBudget) a.2.2
  let r := postFolds a.1 room a.2.2
  let p := postNew fresh r.2.1 r.1 r.2.2
  { p.2.2 with host := { p.2.2.host with folds := p.1, evNew := [], evLeft := m.fld F.hostCtrlEvBudget - (room - p.2.1) } }

/-! ### The ring-state block (R271, R272) -/

/-- Accepted commands of ring r that are not terminal, as the completions in memory say: one whose completion is held counts as before it (R258, R272). -/
def pendingOf (h : HostSt) (r : Nat) : Nat :=
  let held := (h.rings.getD r ringInit).held
  (h.accepted.filter fun p => p.cmd.ring == r).length + (held.filter fun c => !bitOf c.flags 0).length
    - (held.filter fun c => bitOf c.flags 0 && c.status == stACCEPTED).length

/-- FOLD_BUSY. -/
def foldBusyMask (h : HostSt) : Nat := maskOf 8 fun s => (h.foldBusy.map FoldSlot.slot).contains s

/-- The part of the block for one ring. -/
def rsRing (h : HostSt) (r : Nat) : List Byte :=
  let x := h.rings.getD r ringInit
  leBytes 4 x.blkCi ++ leBytes 4 x.cplPi ++ leBytes 8 x.blkSeq ++ leBytes 8 x.termLow ++ leBytes 4 (pendingOf h r) ++ leBytes 4 0
    ++ leBytes 128 (x.termMap.foldl (fun a s => if x.termLow ≤ s ∧ s < x.termLow + 1024 then a + 2 ^ (s - x.termLow) else a) 0)
    ++ List.replicate 96 0#8

/-- The block from 0x0000 to 0x10FF, with the PERIOD given. -/
def rsBlock (m : Mach) (period : Nat) : List Byte :=
  let h := m.host
  leBytes 4 1 ++ leBytes 4 h.generation ++ leBytes 8 period ++ leBytes 1 m.dev.state.code ++ leBytes 1 m.pair.role.code
    ++ leBytes 1 (m.pair.unit % 2) ++ leBytes 1 0 ++ leBytes 4 (((List.range 16).map (pendingOf h)).foldl (· + ·) 0) ++ leBytes 4 h.evPi ++ leBytes 4 0
    ++ ((h.recs.map fun x => leBytes 4 x.pi).flatten) ++ leBytes 1 (foldBusyMask h) ++ List.replicate (0x100 - 0x31) 0#8
    ++ ((List.range 16).map (rsRing h)).flatten

/-- RING_STATE_UPDATE: the block is written where anything but PERIOD has changed (R272). -/
def rsUpdate (m : Mach) : Mach :=
  if m.service then
    let old := Memory.read m.hostMem m.host.rsAddr 0x1100
    let new := rsBlock m (leNat ((old.drop 8).take 8))
    if old = new then m else m.hostWrite m.host.rsAddr (rsBlock m m.tb.k)
  else m

end Sys2Proof.Machine
end

