-- ==== Sys2Proof/Machine/HostCmd.lean ====
section
/-! DEFINITION. Machine/HostCmd.lean: a command from its descriptor to its terminal completion: the checks of R251, acceptance, expiry, and the completion (R247–R260, R292). -/
set_option Elab.async false
namespace Sys2Proof.Machine

/-! ### What a command is (R247, R264) -/

/-- How a command takes its payload: inline, a host buffer whose LENGTH satisfies a condition, or either. -/
inductive PayKind where
  | inline
  | buffer
  | either
  deriving DecidableEq, Repr

/-- What the owning chapter says of an opcode: its payload, whether a launch time is permitted, the states of its row, and the checks the owning chapter makes before acceptance (step 5 of R251). -/
structure CmdInfo where
  op : Nat
  kind : PayKind
  launch : Bool
  lenOk : Nat → Bool
  states : List DevState
  /-- `some status` where the payload fails. -/
  check : Cmd → Mach → Option Nat

/-- Outcome of a terminal completion: status, DETAIL, RESULT, further flags, bytes of the result slot. -/
structure Fin where
  status : Nat
  detail : Nat
  result : Nat
  flags : Nat
  slot : List Byte
  deriving DecidableEq, Repr

/-- What a command does at its boundary of effect: it completes, it has taken effect and completes later, or it does not take effect yet. -/
inductive Eff where
  | done (f : Fin)
  | hold
  | wait
  deriving DecidableEq, Repr

/-- A completion that carries a status alone. -/
def fin (status : Nat) : Fin := ⟨status, 0, 0, 0, []⟩

/-- A completion with DONE that carries one value. -/
def finR (result : Nat) : Fin := ⟨stDONE, 0, result, 0, []⟩

def okDone (m : Mach) : Mach × Eff := (m, .done (fin stDONE))
def okEmpty (m : Mach) : Mach × Eff := (m, .done (fin stDONEEMPTY))
def reject (status : Nat) (m : Mach) : Mach × Eff := (m, .done (fin status))
def rejectR (status result : Nat) (m : Mach) : Mach × Eff := (m, .done ⟨status, 0, result, 0, []⟩)

/-! ### Payload access -/

/-- PTR of FLAGS. -/
def Cmd.ptr (c : Cmd) : Bool := bitOf c.flags 0

/-- ADDRESS and LENGTH of a pointer payload (R247). -/
def Cmd.addr (c : Cmd) : Nat := fieldLE c.pay 0 8
def Cmd.len (c : Cmd) : Nat := fieldLE c.pay 8 4

/-- A little-endian field of the inline payload. -/
def Cmd.f (c : Cmd) (o n : Nat) : Nat := fieldLE c.pay o n

/-- A little-endian field of the host buffer that was read. -/
def Cmd.b (c : Cmd) (o n : Nat) : Nat := fieldLE c.buf o n

/-- Bytes [o, o + n) of the payload are zero. -/
def Cmd.zeroFrom (c : Cmd) (o : Nat) : Bool := allZero (c.pay.drop o)

/-- A launch time that is not all zero. -/
def Cmd.timed (c : Cmd) : Bool := c.secs != 0 || c.nanos != 0

/-- The launch time in ns of device time. -/
def Cmd.launchNs (c : Cmd) : Nat := c.secs * 1000000000 + c.nanos

/-! ### Checks before acceptance (R251) -/

/-- Address ranges of the structures in force (R243). -/
def hostStructures (h : HostSt) : List (Nat × Nat) :=
  if h.enabled then
    [(h.dbAddr, 4096), (h.rsAddr, 8192), (h.foldAddr, 24576)] ++ (if h.evE = 0 then [] else [(h.evAddr, 32 * h.evE)])
      ++ (h.recs.filterMap fun x => if x.e = 0 then none else some (x.addr, 64 * x.e))
      ++ (h.rings.flatMap fun x => (if x.cmdE = 0 then [] else [(x.cmdAddr, 64 * x.cmdE)])
          ++ (if x.cplE = 0 then [] else [(x.cplAddr, 32 * x.cplE), (x.resAddr, 64 * x.cplE)]))
  else []

/-- Two address ranges overlap. -/
def overlap (a n b k : Nat) : Bool := decide (a < b + k) && decide (b < a + n)

/-- Steps 1 to 5 of R251: the first failing check gives the status and RESULT. -/
def checkCmd (info : CmdInfo) (resv : Nat) (c : Cmd) (m : Mach) : Option (Nat × Nat) :=
  let x := m.ring c.ring
  if c.seq ≠ x.nextSeq then some (stMALFORMED, x.nextSeq % 2 ^ 32)
  else if 8 ≤ c.flags ∨ resv ≠ 0 then some (stMALFORMED, 0)
  else if (if c.ptr then c.plen ≠ 16 else 32 < c.plen) then some (stMALFORMED, 0)
  else if (match info.kind with | .inline => c.ptr | .buffer => !c.ptr | .either => false) then some (stMALFORMED, 0)
  else if c.ptr && !info.lenOk c.len then some (stLIMIT, 0)
  else if 1000000000 ≤ c.nanos then some (stMALFORMED, 0)
  else if c.timed && !info.launch then some (stMALFORMED, 0)
  else if c.timed && !m.tb.timeValid then some (stSTATE, 0)
  else if c.timed && decide (m.now + 86400 * 1000000000 < c.launchNs) then some (stLIMIT, 0)
  else if c.ptr && (c.addr % 4 ≠ 0 || (hostStructures m.host).any fun r => overlap c.addr c.len r.1 r.2) then some (stMALFORMED, 0)
  else if c.ptr && c.f 12 4 ≠ 0 then some (stMALFORMED, 0)
  else (info.check c m).map fun s => (s, 0)

/-! ### The terminal completion (R256, R259) -/

/-- The completions of a command are the other unit's to post: this unit does not serve the rings of the pair, or follows them as a shadow under verification (R289, R291). PAIR_JOIN is the shadow's own. -/
def mirrored (c : Cmd) (m : Mach) : Bool :=
  (m.pair.inTwin && !m.pair.server) || (m.pair.role == .shadow && m.pair.exchanging && c.op != 0x0802)

/-- Bytes written into the host buffer of a command, from `at_` bytes into it (R249): by the unit that serves; while the host cannot be reached they wait, before the
terminal completion (R240, R242). -/
def writeBufAt (c : Cmd) (at_ : Nat) (bs : List Byte) (m : Mach) : Mach :=
  let b := bs.take (c.len - at_)
  if mirrored c m then m
  else if m.service then m.hostWrite (c.addr + at_) b
  else { m with host := { m.host with bufHeld := m.host.bufHeld ++ [⟨c.ring, c.seq, c.addr + at_, b⟩] } }

/-- The host buffer with the bytes a command writes (R249). -/
def writeBuf (c : Cmd) (bs : List Byte) (m : Mach) : Mach := writeBufAt c 0 bs m

/-- The rings of the pair as this unit knows them: a shadow holds them beside its own until it forms TWIN (R291). -/
def Mach.pairRings (m : Mach) : List Ring :=
  match m.pair.role, m.pair.hostCfg with
  | .shadow, some h => h.rings
  | _, _ => m.host.rings

/-- A ring of the pair changed. -/
def Mach.modPairRing (r : Nat) (f : Ring → Ring) (m : Mach) : Mach :=
  match m.pair.role, m.pair.hostCfg with
  | .shadow, some h => { m with pair := { m.pair with hostCfg := some { h with rings := modAt h.rings r f } } }
  | _, _ => m.setRing r (f (m.ring r))

/-- The ring of a command, its own or the pair's, changed. -/
def Mach.modRingOf (c : Cmd) (f : Ring → Ring) (m : Mach) : Mach := if mirrored c m then m.modPairRing c.ring f else m.setRing c.ring (f (m.ring c.ring))

/-- A completion determined by the unit that does not serve: it is counted, and a terminal one kept until the partner's POSTED confirms it (R261, R292). -/
def mirrorCpl (x : Cpl) (m : Mach) : Mach :=
  let m1 := m.modPairRing x.ring (countCpl x)
  if bitOf x.flags 0 then m1 else { m1 with host := { m1.host with mirror := m1.host.mirror ++ [x] } }

/-- The terminal completion of a command that the ring already counts as terminal is in memory: the other unit of the pair wrote it (R259, R292). -/
def inMemory (x : Cpl) (ring : Ring) : Bool := !bitOf x.flags 0 && isTerm x.seq ring

/-- A completion of a command: posted by the unit that serves; the other unit of a pair only keeps count (R292). -/
def postFor (c : Cmd) (f : Fin) (extra : Nat) (m : Mach) : Mach :=
  let fl := f.flags + extra + (if c.late then cfLATE else 0) + (if f.slot.isEmpty then 0 else cfRESULT) + (if bitOf c.flags 2 then cfATTN else 0)
  let x : Cpl := ⟨c.ring, c.seq, c.op, f.status, fl, f.detail, m.tb.k, f.result, f.slot⟩
  if mirrored c m then (if inMemory x (m.pairRings.getD c.ring ringInit) then m else mirrorCpl x m)
  else if inMemory x (m.ring c.ring) then m
  else postCpl x m

/-- EXPIRED, or LATE with its own boundary moved to F, for a command whose own boundary precedes F (R254). -/
def expired (c : Cmd) : Bool :=
  match c.own with
  | some b => decide (b < c.first)
  | none => false

/-- With LATE_OK, a command whose own boundary precedes F takes F as its own, and its completion carries LATE (R254). -/
def lateCmd (c : Cmd) : Cmd := if expired c && bitOf c.flags 1 then { c with own := some c.first, late := true } else c

/-- The terminal completion of an accepted command. -/
def complete (c : Cmd) (f : Fin) (m : Mach) : Mach :=
  postFor (lateCmd c) f 0 { m with host := { m.host with accepted := m.host.accepted.filter fun p => !(p.cmd.ring == c.ring && p.cmd.seq == c.seq) } }

/-- The accepted command of a ring and SEQ. -/
def Mach.findCmd (m : Mach) (ring seq : Nat) : Option Pending := m.host.accepted.find? fun p => p.cmd.ring == ring && p.cmd.seq == seq

/-- The completion of a command that took effect earlier, if it is still not terminal. -/
def completeLater (ring seq : Nat) (f : Fin) (m : Mach) : Mach :=
  match m.findCmd ring seq with
  | some p => complete p.cmd f m
  | none => m

/-- The outcome of a command at its boundary of effect carried out on the accepted list. -/
def settleEff (c : Cmd) (r : Mach × Eff) : Mach :=
  let m := r.1.modRingOf c fun x => { x with applied := c.seq }
  match r.2 with
  | .done f => complete c f m
  | .hold => { m with host := { m.host with accepted := m.host.accepted.map fun p => if p.cmd.ring == c.ring && p.cmd.seq == c.seq then { cmd := { c with due := some (r.1.tb.k, r.1.now) }, inEffect := true } else p } }
  | .wait => r.1

/-- A command issued in a state its row does not list completes with REJECT_STATE. -/
def inStates (info : CmdInfo) (eff : Cmd → Mach → Mach × Eff) (c : Cmd) (m : Mach) : Mach × Eff :=
  if m.inState info.states then eff c m else reject stSTATE m

/-! ### Rejection and acceptance -/

/-- A rejection: the descriptor is consumed, the single completion carries FIRST, and the SEQ counts as rejected; a bad SEQ leaves the expected value (R248, R251). -/
def rejectCmd (c : Cmd) (status result : Nat) (m : Mach) : Mach :=
  let x := m.ring c.ring
  postFor c ⟨status, 0, result, 0, []⟩ cfFIRST (m.setRing c.ring { x with cmdCi := x.cmdCi + 1, nextSeq := x.nextSeq + b2n (c.seq == x.nextSeq) })

/-- A command's own boundary as it stands at acceptance, of its launch time or F (R217, R253). -/
def ownOf (c : Cmd) (f : Nat) (m : Mach) : Option Nat := if c.timed then m.tb.mapped c.launchNs else some f

/-- Acceptance: the command enters the order of acceptance with its F, ACCEPTED is posted with FIRST, and then POSTED goes to the partner (R252, R253, R292). -/
def acceptCmd (c : Cmd) (f : Nat) (m : Mach) : Mach :=
  let c1 := { c with first := f, own := ownOf c f m, order := m.host.acceptCount }
  let m1 := { m with host := { m.host with accepted := m.host.accepted ++ [⟨c1, false⟩], acceptCount := m.host.acceptCount + 1 } }
  sendPosted c.ring c.seq stACCEPTED f (postFor c1 ⟨stACCEPTED, 0, 0, 0, []⟩ cfFIRST m1)

/-- The descriptor counted as consumed with the SEQ its ring expected. -/
def Ring.consumed (x : Ring) : Ring := { x with cmdCi := x.cmdCi + 1, nextSeq := x.nextSeq + 1 }

def consume (r : Nat) (m : Mach) : Mach := m.setRing r (m.ring r).consumed

/-- An accepted command took effect at the present boundary and completes later. -/
def actedNow (p : Pending) (m : Mach) : Bool := p.inEffect && (p.cmd.due.map Prod.fst) == some m.tb.k

/-- An earlier command of the ring is not terminal and does not take effect at this boundary (R253); CANCEL is exempt (R263). -/
def ringBlocked (c : Cmd) (m : Mach) : Bool :=
  c.op != 0x0F03 && m.host.accepted.any fun p => p.cmd.ring == c.ring && decide (p.cmd.seq < c.seq) && !actedNow p m

/-- A command of groups 0x02 and 0x03 waits for the intake of the next evaluated period (R468). -/
def haltWaits (c : Cmd) (m : Mach) : Bool :=
  (c.op / 256 == 2 || c.op / 256 == 3) && m.dbg.engine != .running && !(m.dbg.engine == .halted && m.dbg.stepDue)

/-- The command as `acceptCmd` holds it. -/
def Mach.accCmd (m : Mach) (c : Cmd) : Cmd := match m.findCmd c.ring c.seq with | some p => p.cmd | none => c

/-- The opcodes served by the ROM in BOOT and RECOVERY, on ring 0 alone (R450). -/
def romServes (c : Cmd) : Bool := c.ring == 0 && (c.op == 0x0A01 || c.op == 0x0A04 || c.op == 0x0A05)

/-- In BOOT and RECOVERY every command the ROM does not serve completes with REJECT_STATE (R450). -/
def romRefuses (c : Cmd) (m : Mach) : Bool := m.inState [.boot, .recovery] && !romServes c

/-- The ROM serves ring 0 alone, and only once it serves rings at all (R450). -/
def romSilent (ring : Nat) (m : Mach) : Bool := m.inState [.boot, .recovery] && (!m.sec.romRing || ring != 0)

/-! ### The command of a descriptor, and its turn -/

/-- The command of a descriptor operand. -/
def Desc.cmd (op : Nat) (d : Desc) : Cmd :=
  { op := op, ring := d.ring, seq := d.seq, flags := d.flags, plen := d.plen, secs := d.secs, nanos := d.nanos
    pay := let p := if bitOf d.flags 0 then d.pay else d.pay.take d.plen; p ++ List.replicate (32 - p.length) 0#8
    buf := d.buf, first := 0, own := none, order := 0, late := false, due := none }

/-- The effect of an accepted command whose turn it is, with expiry before it (R254). -/
def takeEffect (info : CmdInfo) (eff : Cmd → Mach → Mach × Eff) (c : Cmd) (m : Mach) : Mach :=
  if expired c && !bitOf c.flags 1 then complete c (fin stEXPIRED) m
  else
    settleEff (lateCmd c) (inStates info eff (lateCmd c) m)

end Sys2Proof.Machine
end

