-- ==== Sys2Proof/Machine/Sha256.lean ====
section
/-! DEFINITION. Machine/Sha256.lean: SHA-256 of FIPS 180-4, which R22, R70, R448 and R456 name. -/
set_option Elab.async false
namespace Sys2Proof.Machine

/-- Round constants: fractional parts of the cube roots of the first 64 primes. -/
def shaK : List Nat :=
  [0x428A2F98, 0x71374491, 0xB5C0FBCF, 0xE9B5DBA5, 0x3956C25B, 0x59F111F1, 0x923F82A4, 0xAB1C5ED5,
   0xD807AA98, 0x12835B01, 0x243185BE, 0x550C7DC3, 0x72BE5D74, 0x80DEB1FE, 0x9BDC06A7, 0xC19BF174,
   0xE49B69C1, 0xEFBE4786, 0x0FC19DC6, 0x240CA1CC, 0x2DE92C6F, 0x4A7484AA, 0x5CB0A9DC, 0x76F988DA,
   0x983E5152, 0xA831C66D, 0xB00327C8, 0xBF597FC7, 0xC6E00BF3, 0xD5A79147, 0x06CA6351, 0x14292967] ++
  [0x27B70A85, 0x2E1B2138, 0x4D2C6DFC, 0x53380D13, 0x650A7354, 0x766A0ABB, 0x81C2C92E, 0x92722C85,
   0xA2BFE8A1, 0xA81A664B, 0xC24B8B70, 0xC76C51A3, 0xD192E819, 0xD6990624, 0xF40E3585, 0x106AA070,
   0x19A4C116, 0x1E376C08, 0x2748774C, 0x34B0BCB5, 0x391C0CB3, 0x4ED8AA4A, 0x5B9CCA4F, 0x682E6FF3,
   0x748F82EE, 0x78A5636F, 0x84C87814, 0x8CC70208, 0x90BEFFFA, 0xA4506CEB, 0xBEF9A3F7, 0xC67178F2]

/-- Initial hash value: fractional parts of the square roots of the first 8 primes. -/
def shaInit : List Nat :=
  [0x6A09E667, 0xBB67AE85, 0x3C6EF372, 0xA54FF53A, 0x510E527F, 0x9B05688C, 0x1F83D9AB, 0x5BE0CD19]

/-- Right rotation of a 32-bit word. -/
def rotr (n x : Nat) : Nat := (x >>> n) ||| ((x <<< (32 - n)) % 2 ^ 32)

def shaS0 (x : Nat) : Nat := rotr 7 x ^^^ rotr 18 x ^^^ (x >>> 3)
def shaS1 (x : Nat) : Nat := rotr 17 x ^^^ rotr 19 x ^^^ (x >>> 10)

/-- The message schedule, newest word first, with `n` words still to be made. -/
def shaSchedule : Nat → List Nat → List Nat
  | 0, w => w
  | n + 1, w => shaSchedule n (((shaS1 (w.getD 1 0) + w.getD 6 0 + shaS0 (w.getD 14 0) + w.getD 15 0) % 2 ^ 32) :: w)

/-- One round on the eight working words. -/
def shaRound (v : List Nat) (kw : Nat × Nat) : List Nat :=
  let x := fun i => v.getD i 0
  let t1 := x 7 + (rotr 6 (x 4) ^^^ rotr 11 (x 4) ^^^ rotr 25 (x 4)) + ((x 4 &&& x 5) ^^^ ((0xFFFFFFFF - x 4) &&& x 6)) + kw.1 + kw.2
  let t2 := (rotr 2 (x 0) ^^^ rotr 13 (x 0) ^^^ rotr 22 (x 0)) + ((x 0 &&& x 1) ^^^ (x 0 &&& x 2) ^^^ (x 1 &&& x 2))
  [(t1 + t2) % 2 ^ 32, x 0, x 1, x 2, (x 3 + t1) % 2 ^ 32, x 4, x 5, x 6]

/-- One 64-byte block. -/
def shaBlock (h : List Nat) (b : List Byte) : List Nat :=
  let w := shaSchedule 48 ((List.range 16).map fun i => fieldBE b (4 * i) 4).reverse
  let v := (shaK.zip w.reverse).foldl shaRound h
  (h.zip v).map fun p => (p.1 + p.2) % 2 ^ 32

/-- The blocks of a padded message in turn. -/
def shaBlocks : Nat → List Nat → List Byte → List Nat
  | 0, h, _ => h
  | n + 1, h, b => shaBlocks n (shaBlock h (b.take 64)) (b.drop 64)

/-- Padding of a message of `n` bytes. -/
def shaPad (n : Nat) : List Byte := 0x80#8 :: (List.replicate ((119 - n % 64) % 64) 0#8 ++ beBytes 8 (8 * n))

/-- SHA-256 of a byte list: 32 bytes. -/
def sha256 (m : List Byte) : List Byte :=
  (shaBlocks ((m.length + 72) / 64) shaInit (m ++ shaPad m.length)).flatMap (beBytes 4)

end Sys2Proof.Machine
end

