-- ==== Sys2Proof/Machine/Converter.lean ====
section
/-! DEFINITION. Machine/Converter.lean: the converter description record as bytes, its checks, the coverage of submodules, and forced entries (R12–R24, R30, R34–R36). -/
set_option Elab.async false
namespace Sys2Proof.Machine

/-! ### The record as bytes (R15–R18) -/

/-- A segment word (R18). -/
def parseSeg (w : Nat) : Segment := ⟨bitsOf w 0 13, bitsOf w 13 12, bitsOf w 25 3⟩

/-- The word of a segment. -/
def segWord (s : Segment) : Nat := s.count + s.firstPos * 2 ^ 13 + s.arm * 2 ^ 25

/-- A hub entry of 32 bytes (R17). -/
def parseHub (b : List Byte) : HubRec :=
  let n := min (fieldLE b 8 1) 4
  ⟨fieldLE b 0 8, n, fieldLE b 9 1, (List.range n).map fun i => parseSeg (fieldLE b (0x10 + 4 * i) 4)⟩

/-- The unused form of a hub entry (R17). -/
def hubUnused : HubRec := ⟨0, 0, 0, []⟩

/-- A hub entry is in use. -/
def HubRec.used (h : HubRec) : Bool := h.uid != 0

/-- The bytes of hub entry `i` (R17). -/
def hubBytes (i : Nat) (h : HubRec) : List Byte :=
  leBytes 8 h.uid ++ leBytes 1 h.segCount ++ leBytes 1 h.prefLane ++ leBytes 1 i ++ leBytes 5 0
    ++ sliceBytes (h.segs.flatMap fun s => leBytes 4 (segWord s)) 0 16

/-- An arm entry of 16 bytes (R16). -/
def parseArm (b : List Byte) : ArmRec :=
  ⟨fieldLE b 0 2, fieldLE b 2 1, fieldLE b 4 2, fieldLE b 6 2, fieldLE b 8 4, fieldLE b 0xC 2⟩

def armBytes (a : ArmRec) : List Byte :=
  leBytes 2 a.smCount ++ leBytes 1 a.smType ++ leBytes 1 0 ++ leBytes 2 a.required ++ leBytes 2 a.vNom ++ leBytes 4 a.cSm
    ++ leBytes 2 a.vBatt ++ leBytes 2 0

def cdrArmAt (b : List Byte) (a : Nat) : List Byte := sliceBytes b (0x40 + 16 * a) 16
def cdrHubAt (b : List Byte) (h : Nat) : List Byte := sliceBytes b (0xA0 + 32 * h) 32

/-- The record of 672 bytes (R15). -/
def parseCdr (b : List Byte) : Cdr :=
  { topology := fieldLE b 4 1, armCount := fieldLE b 5 1, hubCount := fieldLE b 6 1, flags := fieldLE b 7 1, sBase := fieldLE b 8 4
    vBaseAc := fieldLE b 0xC 4, vBaseDc := fieldLE b 0x10 4, fBase := fieldLE b 0x14 4, lArm := fieldLE b 0x18 4, rArm := fieldLE b 0x1C 4
    configId := fieldLE b 0x20 4, ageFast := fieldLE b 0x24 1, ageSlow := fieldLE b 0x25 1
    arms := (List.range (min (fieldLE b 5 1) 6)).map fun a => parseArm (cdrArmAt b a)
    hubs := (List.range (min (fieldLE b 6 1) 16)).map fun h => parseHub (cdrHubAt b h) }

/-- The active record as bytes (R36, CDR_READ). -/
def cdrBytes (c : Cdr) : List Byte :=
  leBytes 2 1 ++ leBytes 2 672 ++ leBytes 1 c.topology ++ leBytes 1 c.armCount ++ leBytes 1 c.hubCount ++ leBytes 1 c.flags
    ++ leBytes 4 c.sBase ++ leBytes 4 c.vBaseAc ++ leBytes 4 c.vBaseDc ++ leBytes 4 c.fBase ++ leBytes 4 c.lArm ++ leBytes 4 c.rArm
    ++ leBytes 4 c.configId ++ leBytes 1 c.ageFast ++ leBytes 1 c.ageSlow ++ List.replicate 26 0#8
    ++ sliceBytes (c.arms.flatMap armBytes) 0 96
    ++ sliceBytes ((c.hubs.zipIdx).flatMap fun p => hubBytes p.2 p.1) 0 512

/-! ### Checks (R12, R15–R21) -/

/-- ARM_COUNT of a topology (R12). -/
def armsOf (topology : Nat) : Option Nat := if topology = 1 then some 6 else if topology = 2 ∨ topology = 3 then some 3 else none

/-- Codes, reserved fields and ENTRY of a hub entry in use (R17, R18). -/
def hubFormOk (b : List Byte) (entry : Nat) : Bool :=
  let n := fieldLE b 8 1
  fieldLE b 0xA 1 == entry && allZero (sliceBytes b 0xB 5) && fieldLE b 0 8 != 0
    && (List.range 4).all fun i =>
      let w := fieldLE b (0x10 + 4 * i) 4
      if i < n then bitsOf w 28 4 == 0 else w == 0

/-- Ranges of a hub entry in use, ARM below the number of arms among them (R17, R18). -/
def hubRangeOk (b : List Byte) (armCount : Nat) : Bool :=
  let n := fieldLE b 8 1
  inRangeN n 1 4 && (decide (fieldLE b 9 1 ≤ 15) || fieldLE b 9 1 == 0xFF)
    && (List.range (min n 4)).all fun i =>
      let w := fieldLE b (0x10 + 4 * i) 4
      inRangeN (bitsOf w 0 13) 1 4096 && decide (bitsOf w 25 3 < armCount)

/-- Every field other than ENTRY is zero (R17). -/
def hubBlank (b : List Byte) : Bool := allZero (b.take 0xA) && allZero (b.drop 0xB)

/-- The second row of R20. -/
def cdrFormOk (b : List Byte) : Bool :=
  let top := fieldLE b 4 1
  let ac := fieldLE b 5 1
  let fl := fieldLE b 7 1
  let hc := min (fieldLE b 6 1) 16
  fieldLE b 0 2 == 1 && fieldLE b 2 2 == 672 && armsOf top == some ac && decide (fl < 2) && (fl == 0 || top == 2) && allZero (sliceBytes b 0x26 26)
    && ((List.range 6).all fun a =>
      let e := cdrArmAt b a
      if a < ac then
        let t := fieldLE e 2 1
        inRangeN t (if top = 1 then 1 else 2) 3 && t == fieldLE (cdrArmAt b 0) 2 1 && fieldLE e 3 1 == 0 && fieldLE e 0xE 2 == 0
      else allZero e)
    && ((List.range 16).all fun h =>
      let e := cdrHubAt b h
      if h < hc then (if hubBlank e then fieldLE e 0xA 1 == h else hubFormOk e h) else allZero e)

/-- The third row of R20. -/
def cdrRangeOk (b : List Byte) : Bool :=
  inRangeN (fieldLE b 6 1) 0 16 && inRangeN (fieldLE b 8 4) 100 4000000 && inRangeN (fieldLE b 0xC 4) 100 1500000
    && inRangeN (fieldLE b 0x10 4) 100 1500000 && inRangeN (fieldLE b 0x14 4) 15000 65000 && inRangeN (fieldLE b 0x18 4) 100 1000000
    && decide (fieldLE b 0x1C 4 ≤ 100000) && decide (1 ≤ fieldLE b 0x24 1) && decide (8 ≤ fieldLE b 0x25 1)
    && ((List.range (fieldLE b 5 1)).all fun a =>
      let r := parseArm (cdrArmAt b a)
      inRangeN r.smCount 1 4096 && inRangeN r.required 1 r.smCount && inRangeN r.vNom 100 6500 && inRangeN r.cSm 100 100000
        && (if r.smType = 3 then inRangeN r.vBatt 100 6500 else r.vBatt == 0))
    && ((List.range (min (fieldLE b 6 1) 16)).all fun h => hubBlank (cdrHubAt b h) || hubRangeOk (cdrHubAt b h) (fieldLE b 5 1))

/-- Submodule number of a segment's first submodule. -/
def Segment.first (s : Segment) : Nat := 4096 * s.arm + s.firstPos

/-- Two segments share a submodule. -/
def segOverlap (s t : Segment) : Bool := decide (s.first < t.first + t.count) && decide (t.first < s.first + s.count)

/-- A segment lies within SM_COUNT of its arm. -/
def segFits (arms : List ArmRec) (s : Segment) : Bool :=
  decide (s.firstPos + s.count ≤ (arms.getD s.arm ⟨0, 0, 0, 0, 0, 0⟩).smCount)

/-- No two elements of a list are related. -/
def pairFree {α : Type} (r : α → α → Bool) : List α → Bool
  | [] => true
  | a :: t => (t.all fun x => !r a x) && pairFree r t

/-- Total COUNT of a hub entry. -/
def HubRec.total (h : HubRec) : Nat := (h.segs.map Segment.count).sum

/-- Lane capacity at a period (R23). -/
def laneCapacity (p : Nat) : Nat := if p < 5000 then 1536 else 2048

/-- The content checks of R20 in the order of its table; the status of the first failing row. -/
def cdrCheck (b : List Byte) (p : Nat) : Option Nat :=
  let c := parseCdr b
  let hubs := c.hubs.filter HubRec.used
  let segs := hubs.flatMap HubRec.segs
  if !cdrFormOk b then some stMALFORMED
  else if !cdrRangeOk b then some stLIMIT
  else if !(pairFree (fun (x y : HubRec) => x.uid == y.uid) hubs && segs.all (segFits c.arms) && pairFree segOverlap segs) then some stMALFORMED
  else if 24576 < (c.arms.map ArmRec.smCount).sum then some stLIMIT
  else if !(hubs.all fun h => decide (h.total ≤ laneCapacity p)) then some stLIMIT
  else if !(c.arms.all fun a => capable c.topology c.vBaseAc c.vBaseDc a.required a.vNom) then some stLIMIT
  else none

/-! ### Coverage (R14, R18) -/

/-- Submodule numbers of a hub's local positions, in order (R18). -/
def HubRec.sms (h : HubRec) : List Nat := h.segs.flatMap fun s => (List.range s.count).map (s.first + ·)

/-- Submodule number of local position `j` (R18). -/
def segPos : List Segment → Nat → Option Nat
  | [], _ => none
  | s :: t, j => if j < s.count then some (s.first + j) else segPos t (j - s.count)

/-- The hub entry that covers submodule `g`. -/
def Cdr.covering (c : Cdr) (g : Nat) : Option Nat :=
  c.hubs.findIdx? fun h => h.used && h.segs.any fun s => decide (s.first ≤ g) && decide (g < s.first + s.count)

/-- Hub entry `h` of the record. -/
def Cdr.hub (c : Cdr) (h : Nat) : HubRec := c.hubs.getD h hubUnused

/-- Arm entry `a` of the record. -/
def Cdr.armRec (c : Cdr) (a : Nat) : ArmRec := c.arms.getD a ⟨0, 0, 0, 0, 0, 0⟩

/-- Half-bridge submodules (R12). -/
def Cdr.half (c : Cdr) : Bool := (c.armRec 0).smType == 1

/-- K_ARM of arm `a` (R24, R151). -/
def Cdr.kArm (c : Cdr) (a : Nat) : Nat := Machine.kArm c.topology c.vBaseAc c.vBaseDc (c.armRec a).vNom

/-- No hub entry covers more than 1,536 submodules (R23). -/
def Cdr.smallHubs (c : Cdr) : Bool := c.hubs.all fun h => decide (h.total ≤ 1536)

/-- The lane a hub entry is bound to. -/
def Mach.laneOf (m : Mach) (h : Nat) : Option Nat := (m.conv.bind.getD h none)

/-- Submodule numbers covered by the used entries of the record. -/
def Cdr.covered (c : Cdr) : List Nat := c.hubs.flatMap fun h => if h.used then h.sms else []

/-! ### Forced entries (R30, R466) -/

/-- Number of forced entries. -/
def forcedCount (m : Mach) : Nat := m.conv.forcedHost.length + m.conv.forcedDebug.length

/-- An entry is forced, by host or debug. -/
def isForced (m : Mach) (i : Nat) : Bool := m.conv.forcedHost.contains i || m.conv.forcedDebug.contains i

/-- R30 refuses to force an index: SM_CMD slots and the device and converter area. -/
def forceBarred (i : Nat) : Bool := (decide (i < 0xC0000) && i % 32 == 0) || (decide (0xC0000 ≤ i) && decide (i < 0xC1000))

/-- An entry forced to a value: FORCED and VALID set, AGE 0, so not STALE; its other flags stay. -/
def forceEntry (i : Nat) (v : Word) (debug : Bool) (m : Mach) : Mach :=
  let q := qPut (qPut (qPut (m.g i).quality qFORCED true) qVALID true) qSTALE false
  let m1 := m.gput i ⟨v, 0#16, q, if debug then 6#8 else 5#8, false⟩
  let c := m1.conv
  let host := c.forcedHost.filter (· ≠ i)
  let dbg := c.forcedDebug.filter (· ≠ i)
  { m1 with conv := { c with forcedHost := if debug then host else insertNat i host, forcedDebug := if debug then insertNat i dbg else dbg } }

/-- The entry is a hub-produced slot of a submodule whose hub entry is LOST or bound to no lane (R32). -/
def lostSlot (m : Mach) (i : Nat) : Bool :=
  decide (i < 0xC0000) && decide (1 ≤ i % 32) && decide (i % 32 ≤ 15)
    && (match m.conv.active.bind fun c => c.covering (i / 32) with
        | some h => (m.laneOf h).isNone
        | none => false)

/-- A forced entry released: FORCED cleared, HELD set (R30); a slot of a lost hub loses VALID (R32). -/
def releaseEntry (i : Nat) (m : Mach) : Mach :=
  let e := m.g i
  let q := qPut (qPut e.quality qFORCED false) qHELD true
  let m1 := m.gput i { e with quality := if lostSlot m i then qPut q qVALID false else q }
  { m1 with conv := { m1.conv with forcedHost := m1.conv.forcedHost.filter (· ≠ i), forcedDebug := m1.conv.forcedDebug.filter (· ≠ i) } }

end Sys2Proof.Machine
end

