-- ==== Sys2Proof/Machine/Graph.lean ====
section
/-! DEFINITION. Machine/Graph.lean: the graph descriptor, its checks, and the placement on the lanes (R40–R52, R63, R74, R79, R110, R141, R165–R167). -/
set_option Elab.async false
namespace Sys2Proof.Machine

/-! ### The descriptor as bytes (R40–R43) -/

/-- Header of a graph descriptor (R40). -/
structure GHead where
  total : Nat
  graphId : Nat
  configId : Nat
  blockCount : Nat
  flags : Nat
  blockOff : Nat
  blockLen : Nat
  paramOff : Nat
  paramWords : Nat
  sigOff : Nat
  sigCount : Nat
  deriving DecidableEq, Repr

def parseHead (b : List Byte) : GHead :=
  let f := fun o => fieldLE b o 4
  ⟨f 4, f 8, f 0xC, fieldLE b 0x10 2, fieldLE b 0x12 2, f 0x14, f 0x18, f 0x1C, f 0x20, f 0x24, f 0x28⟩

/-- A region starts on a 4-byte boundary and lies within the descriptor. -/
def regionOk (total off len : Nat) : Bool := off % 4 == 0 && decide (off + len ≤ total)

/-- Two regions overlap; an empty one overlaps nothing. -/
def regionsMeet (a n b k : Nat) : Bool := n != 0 && k != 0 && overlap a n b k

/-- The header's part of the second row of R47. -/
def headOk (b : List Byte) : Bool :=
  let h := parseHead b
  let pl := 4 * h.paramWords
  let sl := 16 * h.sigCount
  fieldLE b 0 2 == 1 && fieldLE b 2 2 == 64 && h.total == b.length && decide (h.flags < 2) && allZero (sliceBytes b 0x2C 20)
    && regionOk h.total h.blockOff h.blockLen && regionOk h.total h.paramOff pl && regionOk h.total h.sigOff sl
    && pairFree (fun (x y : Nat × Nat) => regionsMeet x.1 x.2 y.1 y.2) [(0, 64), (h.blockOff, h.blockLen), (h.paramOff, pl), (h.sigOff, sl)]

/-- A port word (R42). -/
def parsePort (w : Nat) : Port := ⟨bitsOf w 0 20, bitOf w 30, bitOf w 31⟩

/-- `n` words from the front of a byte list. -/
def wordsLE : Nat → List Byte → List Nat
  | 0, _ => []
  | n + 1, b => leNat (b.take 4) :: wordsLE n (b.drop 4)

/-- The block record at the front of a byte list (R41). -/
def parseBlock (b : List Byte) : Block :=
  let nIn := fieldLE b 6 1
  let nOut := fieldLE b 7 1
  { typ := fieldLE b 0 2, paramIdx := fieldLE b 8 4, paramCount := fieldLE b 0xC 2, pinLane := fieldLE b 0xE 1
    rateDiv := fieldLE b 0xF 1, ratePhase := fieldLE b 0x10 1
    ins := (wordsLE nIn (b.drop 32)).map parsePort, outs := (wordsLE nOut (b.drop (32 + 4 * nIn))).map parsePort }

/-- Environment of a block type for a RATE_DIV (R75, R142, R144). -/
def Cdr.blockEnv (c : Cdr) (rateDiv p : Nat) : BEnv :=
  ⟨rateDiv * p, c.fBase, c.topology, c.armCount, kPh c.topology c.vBaseAc c.vBaseDc, kIb c.vBaseAc c.vBaseDc⟩

/-- Parameter words of a block. -/
def blockParams (params : List Word) (b : Block) : List Word := (params.drop b.paramIdx).take b.paramCount

/-- Type of a block as its ports and first parameter word give it (R73, R74). -/
def Block.type (b : Block) (params : List Word) (env : BEnv) : Option BType :=
  blockType b.typ b.ins.length ((params.getD b.paramIdx 0#32).toNat) env

/-- Only optional inputs are declared NONE (R42, R74). -/
def noneOk (b : Block) (t : BType) : Bool :=
  (b.ins.zip t.ins).all fun p => !p.1.none || p.2.opt

/-- VDC of ARMREF is NONE where the topology demands it (R141). -/
def vdcOk (b : Block) (env : BEnv) : Bool := b.typ != 0x0901 || env.topology == 1 || (match b.ins[3]? with | some p => p.none | none => true)

/-- Raw port words keep the reserved bits, PREV and NONE as R42 demands. -/
def portWordsOk (nIn nOut : Nat) (b : List Byte) : Bool :=
  ((wordsLE nIn (b.drop 32)).all fun w => bitsOf w 20 10 == 0 && (!bitOf w 31 || w == 2 ^ 31))
    && (wordsLE nOut (b.drop (32 + 4 * nIn))).all fun w => decide (w < 2 ^ 20)

/-- The block checks of the second row of R47 on the record at the front of `b`, of which `left` bytes belong to the table. -/
def blockFormOk (inst left : Nat) (b : List Byte) (params : List Word) (env : Nat → BEnv) : Bool :=
  let nIn := fieldLE b 6 1
  let nOut := fieldLE b 7 1
  let len := 32 + 4 * (nIn + nOut)
  let k := parseBlock b
  let e := env k.rateDiv
  decide (32 ≤ left) && fieldLE b 2 2 == len && decide (len ≤ left) && fieldLE b 4 2 == inst && allZero (sliceBytes b 0x11 15)
    && (match k.type params e with
        | none => false
        | some t => t.ins.length == nIn && (nOut == t.outs.length || (t.flg && nOut == t.outs.length + 1))
            && k.paramCount == t.params && decide (k.paramIdx + k.paramCount ≤ params.length) && noneOk k t)
    && portWordsOk nIn nOut b

/-- The block table: the records, or the INST of the first that fails; 0xFFFF where BLOCK_LEN is not their sum. -/
def parseBlocks (params : List Word) (env : Nat → BEnv) : Nat → Nat → Nat → List Byte → Except Nat (List Block)
  | 0, _, left, _ => if left = 0 then .ok [] else .error 0xFFFF
  | n + 1, inst, left, b =>
    if blockFormOk inst left b params env then
      let k := parseBlock b
      let len := 32 + 4 * (k.ins.length + k.outs.length)
      match parseBlocks params env n (inst + 1) (left - len) (b.drop len) with
      | .ok l => .ok (k :: l)
      | .error e => .error e
    else .error inst

/-- A signal declaration (R43). -/
def parseDecl (b : List Byte) : SigDecl :=
  ⟨bitsOf (fieldLE b 0 4) 0 20, fieldLE b 4 1, fieldLE b 5 1, bitOf (fieldLE b 6 2) 0, BitVec.ofNat 32 (fieldLE b 8 4)⟩

/-- Format code and reserved fields of a declaration. -/
def declFormOk (b : List Byte) : Bool :=
  decide (fieldLE b 0 4 < 2 ^ 20) && (fmtOfCode (fieldLE b 4 1)).isSome && decide (fieldLE b 6 2 < 2) && fieldLE b 0xC 4 == 0

/-- The declarations as 16-byte pieces. -/
def declPieces : Nat → List Byte → List (List Byte)
  | 0, _ => []
  | n + 1, b => b.take 16 :: declPieces n (b.drop 16)

/-! ### Ports against entries (R28, R43–R45, R110) -/

/-- Format of a slot of a far channel from its FAR_CONFIG (R43, R352, R368). -/
def farFormat (f : Option FarCfg) (slot : Nat) : Option Fmt :=
  match f with
  | some c => if c.rxEn && decide (slot < c.count) then fmtOfCode (c.formats.getD slot 0) else none
  | none => none

/-- What a port check needs of the device. -/
structure PortEnv where
  decls : List SigDecl
  far : List (Option FarCfg)
  /-- entries that another mechanism produces already (R28). -/
  taken : List Nat
  armCount : Nat
  deriving DecidableEq, Repr

/-- Format of an entry for a port; `user` carries the formats SM_USER slots have taken so far. -/
def entryFmt (e : PortEnv) (user : List (Nat × Fmt)) (f : Fmt) (i : Nat) : Option Fmt :=
  match sigFmt i with
  | .reserved => none
  | .fixed g => some g
  | .user => some ((user.find? fun p => p.1 == i).map Prod.snd |>.getD f)
  | .far ch slot => farFormat (e.far.getD ch none) slot
  | .loopArea => match e.decls.find? fun d => d.index == i with
    | some d => fmtOfCode d.fmt
    | none => none

/-- An entry a block output may write (R44), which nothing else produces (R28). -/
def targetOk (e : PortEnv) (i : Nat) : Bool :=
  match sigFmt i with
  | .user => true
  | .loopArea => (e.decls.map SigDecl.index).contains i && !e.taken.contains i
  | _ => (decide (0xC0010 ≤ i) && decide (i ≤ 0xC0019)) || (decide (0xC1000 ≤ i) && decide (i < 0xC1000 + 0x100 * e.armCount) && decide (i % 0x100 ≤ 1))

/-- Connected ports of a block with the format of each: inputs, then outputs. -/
def portFmts (b : Block) (t : BType) : List (Nat × Fmt) :=
  ((b.ins.zip t.ins).filterMap fun p => if p.1.none then none else some (p.1.index, p.2.fmt))
    ++ (b.outs.map Port.index).zip (t.outs ++ [.bits])

/-- SM_USER formats taken by a list of ports. -/
def takeUser (user : List (Nat × Fmt)) (l : List (Nat × Fmt)) : List (Nat × Fmt) :=
  l.foldl (fun u p => if sigFmt p.1 == .user && !(u.map Prod.fst).contains p.1 then (p.1, p.2) :: u else u) user

/-- The formats of the SM_USER slots among a list of ports agree with each other and with `user`. -/
def userAgree (user : List (Nat × Fmt)) (l : List (Nat × Fmt)) : Bool :=
  let u := takeUser user l
  l.all fun p => sigFmt p.1 != .user || (u.find? fun q => q.1 == p.1) == some p

/-- The block checks of the third row of R47 but for the cycle: INST of the first block that fails. -/
def checkPorts (e : PortEnv) (params : List Word) (env : Nat → BEnv) : Nat → List (Nat × Fmt) → List Nat → List Block → Option Nat
  | _, _, _, [] => none
  | inst, user, written, b :: bs =>
    let ev := env b.rateDiv
    match b.type params ev with
    | none => some inst
    | some t =>
      let l := portFmts b t
      let outs := b.outs.map Port.index
      if userAgree user l && (l.all fun p => entryFmt e user p.2 p.1 == some p.2) && (outs.all (targetOk e)) && vdcOk b ev
          && (b.typ != 0x0801 || (b.ins.getD 2 ⟨0, false, false⟩).index == sigCONVMODE)
          && (outs.all fun i => !written.contains i) && pairFree (fun (x y : Nat) => x == y) outs
      then checkPorts e params env (inst + 1) (takeUser user l) (outs ++ written) bs
      else some inst

/-- Entries written by blocks, with the producer's INST. -/
def writersOf (bs : List Block) : List (Nat × Nat) := (bs.zipIdx).flatMap fun p => p.1.outs.map fun o => (o.index, p.2)

/-- Predecessors of a block (R45). -/
def predsOf (ws : List (Nat × Nat)) (b : Block) : List Nat :=
  (b.ins.filterMap fun p => if p.prev || p.none then none else (ws.find? fun w => w.1 == p.index).map Prod.snd).eraseDups

/-! ### Topological order (R45, R51) -/

/-- The best of the blocks without predecessors left. -/
def pickReady (better : Nat → Nat → Bool) : List (Nat × List Nat) → Option Nat
  | [] => none
  | (b, ps) :: t =>
    match pickReady better t with
    | none => if ps.isEmpty then some b else none
    | some c => if ps.isEmpty && better b c then some b else some c

/-- Blocks in topological order, ties by `better`; those on or behind a cycle are left out. -/
def topoOrder (better : Nat → Nat → Bool) : Nat → List (Nat × List Nat) → List Nat
  | 0, _ => []
  | f + 1, l =>
    match pickReady better l with
    | none => []
    | some b => b :: topoOrder better f ((l.filter fun p => p.1 != b).map fun p => (p.1, p.2.erase b))

/-- Blocks reached from a set along successors. -/
def reach (preds : List (Nat × List Nat)) : Nat → List Nat → List Nat
  | 0, s => s
  | f + 1, s => let n := (preds.filter fun p => p.2.any s.contains).map Prod.fst
    let s' := (s ++ n).eraseDups
    if s'.length = s.length then s else reach preds f s'

/-- The lowest INST on any cycle. -/
def cycleAt (preds : List (Nat × List Nat)) : Option Nat :=
  (preds.map Prod.fst).find? fun b =>
    let succ := (preds.filter fun p => p.2.contains b).map Prod.fst
    (reach preds preds.length succ).contains b

/-- Remaining path of every block, from a topological order read backwards (R51). -/
def remaining (steps : Nat → Nat) (preds : List (Nat × List Nat)) : List Nat → List (Nat × Nat)
  | [] => []
  | b :: t =>
    let r := remaining steps preds t
    let s := (r.filter fun p => ((preds.find? fun q => q.1 == p.1).map fun q => q.2.contains b).getD false).map Prod.snd
    (b, steps b + s.foldl max 0) :: r

/-- The order of R51. -/
def graphOrder (steps : Nat → Nat) (preds : List (Nat × List Nat)) : List Nat :=
  let o := topoOrder (fun a b => decide (a < b)) preds.length preds
  let rem := remaining steps preds o
  let r := fun b => ((rem.find? fun p => p.1 == b).map Prod.snd).getD 0
  topoOrder (fun a b => decide (r b < r a) || (r a == r b && decide (a < b))) preds.length preds

/-! ### Homes and placement (R50, R51, R165–R167) -/

/-- Fixed home of an index (R165). -/
def fixedHome (c : Cdr) (i : Nat) : Nat :=
  if i < 0xC0000 then (match c.covering (i / 32) with | some h => h % 8 | none => 0)
  else if 0xC1000 ≤ i ∧ i < 0xC1600 then (i - 0xC1000) / 0x100
  else i / 256 % 8

/-- Home of an index: where the graph moved it, else fixed. -/
def homeOf (c : Cdr) (homes : List (Nat × Nat)) (i : Nat) : Nat := ((homes.find? fun p => p.1 == i).map Prod.snd).getD (fixedHome c i)

/-- Runs of submodule numbers, as start and end, that a hub entry of a cluster covers. -/
def coveredRuns (c : Cdr) (cl : Nat) : List (Nat × Nat) :=
  (c.hubs.zipIdx).flatMap fun p => if p.1.used && p.2 % 8 == cl then p.1.segs.map fun s => (s.first, s.first + s.count) else []

/-- A run put into a list of runs in order of their starts. -/
def runInsert (r : Nat × Nat) : List (Nat × Nat) → List (Nat × Nat)
  | [] => [r]
  | q :: t => if r.1 ≤ q.1 then r :: q :: t else q :: runInsert r t

/-- The gaps that runs in order leave in [lo, hi). -/
def gapsOf (hi : Nat) : Nat → List (Nat × Nat) → List (Nat × Nat)
  | lo, [] => [(lo, hi)]
  | lo, r :: t => (lo, r.1) :: gapsOf hi (max lo r.2) t

/-- The ranges of indices that R165 homes in a cluster, rising. -/
def homeRanges (c : Cdr) (cl : Nat) : List (Nat × Nat) :=
  let covered := (coveredRuns c cl).foldr runInsert []
  let free := if cl = 0 then gapsOf 24576 0 (((List.range 8).flatMap (coveredRuns c)).foldr runInsert []) else []
  ((covered ++ free).foldr runInsert []).map (fun r => (32 * r.1, 32 * r.2))
    ++ (List.range 1024).filterMap fun b =>
      let lo := 0xC0000 + 256 * b
      if fixedHome c lo = cl then some (lo, lo + 256) else none

/-- The first index of [lo, hi) outside a list. -/
def firstFree (skip : List Nat) (hi : Nat) : Nat → Nat → Option Nat
  | 0, _ => none
  | f + 1, lo => if hi ≤ lo then none else if skip.contains lo then firstFree skip hi f (lo + 1) else some lo

/-- The cold entry of a cluster with the lowest index: homed there, and neither read nor written by a block (R167). -/
def coldOf (c : Cdr) (touched : List Nat) (homes : List (Nat × Nat)) (cl : Nat) : Option Nat :=
  let skip := touched ++ homes.map Prod.fst
  let fixed := (homeRanges c cl).findSome? fun r => firstFree skip r.2 (skip.length + 1) r.1
  let moved := (homes.filter fun p => p.2 == cl && !touched.contains p.1).map Prod.fst
  moved.foldl (fun b i => match b with | some j => some (min i j) | none => some i) fixed

/-- Connected entries of a block. -/
def blockEntries (b : Block) : List Nat := (b.ins.filterMap fun p => if p.none then none else some p.index) ++ b.outs.map Port.index

/-- Entry `i` moved to cluster `cl` in exchange with its lowest cold entry, which takes the home that `i` leaves; refused where there is none (R167). -/
def moveHome (c : Cdr) (touched : List Nat) (i cl : Nat) (homes : List (Nat × Nat)) : List (Nat × Nat) × Bool :=
  let old := homeOf c homes i
  if old = cl then (homes, false)
  else match coldOf c touched homes cl with
    | some j => ((i, cl) :: (j, old) :: homes.filter (fun p => p.1 != i && p.1 != j), false)
    | none => (homes, true)

/-- Every written entry homed beside its producer (R166, R167). -/
def homeAll (c : Cdr) (bs : List Block) (laneOf : Nat → Nat) (homes : List (Nat × Nat)) : List (Nat × Nat) × Bool :=
  let touched := (bs.flatMap blockEntries).eraseDups
  (writersOf bs).foldl (fun s w => let r := moveHome c touched w.1 (laneOf w.2 / 8) s.1; (r.1, s.2 || r.2)) (homes, false)

/-- One usable lane tried for a block: finish, lane and start of the best so far, ties to the lowest lane (R51). -/
def tryLane (cost : Nat → Nat) (unit : Nat → Nat) (free : List Nat) (preds : List Place) (best : Option Place) (l : Nat) : Option Place :=
  let ready := preds.foldl (fun r q => max r (q.finish + if q.lane = l then 0 else 3 * unit l)) (16 * unit l)
  let start := max ready (free.getD l 0)
  let e := start + cost l * unit l
  match best with
  | none => some ⟨l, start, e⟩
  | some p => if e < p.finish then some ⟨l, start, e⟩ else some p

/-- The procedure of R51. `remote` counts a block's remote ports at a cluster; `unit l` is the time of one step on lane l. The INST of the block that finds no usable lane, or the places by INST. -/
def placeBlocks (bs : List Block) (steps : Nat → Nat) (preds : List (Nat × List Nat)) (lanes : Nat) (unit : Nat → Nat)
    (remote : Block → Nat → Nat) : List Nat → List Nat → List (Nat × Place) → Except Nat (List (Nat × Place))
  | [], _, done => .ok done
  | i :: rest, free, done =>
    let b := bs.getD i ⟨0, 0, 0, 0xFF, 1, 0, [], []⟩
    let cand := (List.range 64).filter fun l => bitOf lanes l && (b.pinLane == 0xFF || b.pinLane == l)
    let ps := (((preds.find? fun p => p.1 == i).map Prod.snd).getD []).filterMap fun q => (done.find? fun p => p.1 == q).map Prod.snd
    match cand.foldl (tryLane (fun l => steps i + remote b (l / 8)) unit free ps) none with
    | none => .error i
    | some p => placeBlocks bs steps preds lanes unit remote rest (setAt free p.lane p.finish) ((i, p) :: done)

/-- Critical path with the output commit (R51). -/
def pathLength (unit : Nat → Nat) (l : List (Nat × Place)) : Nat := (l.map fun p => p.2.finish + 8 * unit p.2.lane).foldl max 0

/-- Places in INST order. -/
def placeList (n : Nat) (l : List (Nat × Place)) : List Place :=
  (List.range n).map fun i => ((l.find? fun p => p.1 == i).map Prod.snd).getD ⟨0, 0, 0⟩

/-- S_b of every block. -/
def stepsOf (bs : List Block) (params : List Word) (env : Nat → BEnv) (i : Nat) : Nat :=
  match bs[i]? with
  | some b => ((b.type params (env b.rateDiv)).map BType.steps).getD 0
  | none => 0

/-- A placement: order, places, homes, L, and BANK_FULL. -/
structure Placed where
  order : List Nat
  places : List Place
  homes : List (Nat × Nat)
  steps : Nat
  full : Bool
  deriving DecidableEq, Repr

/-- One run of R51 from lanes all free after intake. -/
def runPlacement (bs : List Block) (steps : Nat → Nat) (preds : List (Nat × List Nat)) (order : List Nat) (lanes : Nat) (unit : Nat → Nat)
    (remote : Block → Nat → Nat) : Except Nat (List (Nat × Place)) :=
  placeBlocks bs steps preds lanes unit remote order ((List.range 64).map fun l => 16 * unit l) []

/-- Ports of a block whose entries live outside a cluster. -/
def remotePorts (home : Nat → Nat) (b : Block) (cl : Nat) : Nat := ((blockEntries b).filter fun i => home i != cl).length

/-- Placement at GRAPH_COMMIT in its two passes (R166). -/
def placeGraph (c : Cdr) (bs : List Block) (params : List Word) (p lanes : Nat) : Except Nat Placed :=
  let steps := stepsOf bs params fun r => c.blockEnv r p
  let ws := writersOf bs
  let preds := (bs.zipIdx).map fun x => (x.2, predsOf ws x.1)
  let order := graphOrder steps preds
  let one := fun _ : Nat => 1
  match runPlacement bs steps preds order lanes one fun _ _ => 0 with
  | .error i => .error i
  | .ok l1 =>
    let p1 := placeList bs.length l1
    let h := homeAll c bs (fun i => (p1.getD i ⟨0, 0, 0⟩).lane) []
    match runPlacement bs steps preds order lanes one (remotePorts (homeOf c h.1)) with
    | .error i => .error i
    | .ok l2 => .ok ⟨order, placeList bs.length l2, h.1, pathLength one l2, h.2⟩

/-- Graph budget B at a period (R49). -/
def graphBudget (p : Nat) : Nat := p - 2500

/-- T_WC in ns (R49). -/
def twc (l : Nat) : Nat := 6 * l

/-- Smallest admissible period (R49). -/
def pMin (l : Nat) : Nat := 2500 + twc l

/-! ### The checks of R47 after its first row -/

/-- What the checks give: status and INST of the failure, or the graph and whether a home was refused (BANK_FULL). -/
abbrev GraphCheck := Except (Nat × Nat) (Graph × Bool)

/-- Rows 4 and 5 of R47. -/
def checkLimits (h : GHead) (bs : List Block) (ds : List SigDecl) (params : List Word) (env : Nat → BEnv) : Option (Nat × Nat) :=
  if !(inRangeN h.blockCount 1 8192 && decide (h.paramWords ≤ 1048576) && decide (h.sigCount ≤ 131072)) then some (stLIMIT, 0xFFFF)
  else
    match bs.findIdx? fun b =>
        !(inRangeN b.rateDiv 1 16 && decide (b.ratePhase < b.rateDiv) && paramsOk b.typ b.ins.length (env b.rateDiv) (blockParams params b)) with
    | some i => some (stLIMIT, i)
    | none =>
      if !(ds.all fun d => decide (1 ≤ d.ageLimit)) then some (stLIMIT, 0xFFFF)
      else if 2097152 < h.paramWords + (bs.map fun b => ((b.type params (env b.rateDiv)).map BType.words).getD 0).sum then some (stLIMIT, 0xFFFF)
      else none

/-- The entries that live GOOSE subscriptions produce, which outlast a graph (R28, R344). -/
def gooseEntries (m : Mach) : List Nat :=
  m.net.subs.flatMap fun s => match s.cfg with
    | some g => g.members.map fun x => x.ref % 2 ^ 20
    | none => []

/-- A staged descriptor checked, placed and made a graph that is to be evaluated from period `startAt` (R47).
DESIGN CHOICE: within one row the blocks are tested before the declarations (R47 orders the blocks among themselves only), but the cycle,
a fault of the third row that names a block, after them, and LAST_NS is 0 and
MIN_SLACK_NS 0x7FFFFFFF until the first evaluated period (R70 gives no value there). -/
def checkGraph (d : List Byte) (c : Cdr) (far : List (Option FarCfg)) (taken : List Nat) (p lanes startAt : Nat) : GraphCheck :=
  let h := parseHead d
  let env := fun r => c.blockEnv r p
  if !headOk d then .error (stMALFORMED, 0xFFFF)
  else
    let params := (wordsLE h.paramWords (d.drop h.paramOff)).map (BitVec.ofNat 32)
    match parseBlocks params env h.blockCount 0 h.blockLen (d.drop h.blockOff) with
    | .error i => .error (stMALFORMED, i)
    | .ok bs =>
      let pieces := declPieces h.sigCount (d.drop h.sigOff)
      let ds := pieces.map parseDecl
      if !pieces.all declFormOk then .error (stMALFORMED, 0xFFFF)
      else
        match checkPorts ⟨ds, far, taken, c.armCount⟩ params env 0 [] [] bs with
        | some i => .error (stMALFORMED, i)
        | none =>
          if !(ds.all fun x => sigFmt x.index == .loopArea) || !pairFree (fun (x y : SigDecl) => x.index == y.index) ds then .error (stMALFORMED, 0xFFFF)
          else
            let ws := writersOf bs
            match cycleAt ((bs.zipIdx).map fun x => (x.2, predsOf ws x.1)) with
            | some i => .error (stMALFORMED, i)
            | none =>
              match checkLimits h bs ds params env with
              | some e => .error e
              | none =>
                match placeGraph c bs params p lanes with
                | .error i => .error (stLIMIT, i)
                | .ok pl =>
                  if graphBudget p < twc pl.steps then .error (stLIMIT, 0xFFFF)
                  else
                    let g : Graph :=
                      { digest := sha256 d, graphId := h.graphId, configId := h.configId, replaceEn := bitOf h.flags 0
                        blocks := bs, params := params, decls := ds, order := pl.order, places := pl.places
                        homes := pl.homes, steps := pl.steps, lanesAt := lanes, startAt := startAt, lastNs := 0
                        minSlack := 0x7FFFFFFF, overruns := 0, replacements := 0 }
                    .ok (g, pl.full)

end Sys2Proof.Machine
end

