-- ==== Sys2Proof/Machine/Mode.lean ====
section
/-! DEFINITION. Machine/Mode.lean: the mode manager and the set-point mechanism (R126–R138). -/
set_option Elab.async false
namespace Sys2Proof.Machine

/-! ### Mode table (R131) -/

/-- The mode of a code (R126). -/
def modeOfCode : Nat → Option Mode
  | 0 => some .blocked | 1 => some .precharge | 2 => some .deblocked | 3 => some .gridForming | 4 => some .island
  | 5 => some .blackStart | 6 => some .synchronizing | 7 => some .manual | _ => none

/-- Good values of the bound bits: `none` where there has been none. -/
structure ModeIn where
  brk : Option Bool
  gridok : Option Bool
  limit : Option Bool
  prech : Option Bool
  done : Option Bool
  deriving DecidableEq, Repr

/-- Outcome of a MODE_REQUEST by the table of R131. -/
inductive ReqRes where
  | same
  | refuse
  | to (m : Mode)
  deriving DecidableEq, Repr

/-- A request by the table of R131. -/
def modeRequestTo (cur target : Mode) (i : ModeIn) : ReqRes :=
  if cur = target then .same
  else
    let when_ := fun c : Bool => if c then ReqRes.to target else ReqRes.refuse
    match cur, target with
    | _, .blocked => .to .blocked
    | .blocked, .precharge => .to .precharge
    | .precharge, .deblocked => when_ (i.prech == some true)
    | .deblocked, .gridForming => when_ (i.brk == some true && i.gridok == some true)
    | .deblocked, .island => when_ (i.brk == some false)
    | .deblocked, .blackStart => when_ (i.brk == some true && i.gridok == some false)
    | .deblocked, .manual => .to .manual
    | .manual, .deblocked => when_ (i.brk == some false)
    | .island, .deblocked => when_ (i.brk == some false)
    | .island, .synchronizing => when_ (i.gridok == some true)
    | .synchronizing, .island => .to .island
    | _, _ => .refuse

/-- An edge of BRK: the new mode and the event of its row, if any. -/
def brkEdge (cur : Mode) (rise : Bool) : Option (Mode × Option Nat) :=
  match cur, rise with
  | .gridForming, false => some (.island, none)
  | .island, true => some (.gridForming, some 0x0303)
  | .synchronizing, true => some (.gridForming, none)
  | .blackStart, false => some (.island, none)
  | _, _ => none

/-- An edge of GRIDOK. -/
def gridEdge (cur : Mode) (rise : Bool) : Option (Mode × Option Nat) :=
  match cur, rise with
  | .synchronizing, false => some (.island, some 0x0304)
  | _, _ => none

/-- An edge of BS_DONE. -/
def doneEdge (cur : Mode) (rise : Bool) : Option (Mode × Option Nat) :=
  match cur, rise with
  | .blackStart, true => some (.gridForming, none)
  | _, _ => none

/-! ### Bound bits (R129, R136) -/

/-- A bound bit read from the Gallery: `none` where its entry is not good. -/
def readBit (m : Mach) (b : ModeBit) : Option Bool :=
  match b.ref with
  | none => some false
  | some (i, n) => if (m.g i).good then some (bitOf (m.gv i).toNat n) else none

/-- A bit after an intake, and its edge: `some true` a rise, `some false` a fall. -/
def stepBit (m : Mach) (b : ModeBit) : ModeBit × Option Bool :=
  match readBit m b with
  | none => ({ b with lost := true }, none)
  | some v =>
    let edge := match b.ref, b.good with
      | some _, some old => if old = v then none else some v
      | _, _ => none
    ({ b with good := some v, lost := false }, edge)

/-- MODE_INPUT_BAD for a bit newly lost (R129). DESIGN CHOICE: a bound bit that is not good at its first intake counts as lost there. -/
def postLost (old : ModeBit) (new : ModeBit) (m : Mach) : Mach :=
  match old.lost, new.lost, new.ref with
  | false, true, some (i, _) => m.post 0x0302 [i]
  | _, _, _ => m

/-- The values the table reads: an input without configuration reads as a good clear bit. -/
def modeIn (bits : List ModeBit) : ModeIn :=
  let v := fun i => match bits[i]? with
    | some b => b.good
    | none => some false
  ⟨v 0, v 1, v 2, v 3, v 4⟩

/-- The mode set to a new one, with its events. -/
def modeMove (new : Mode) (cause arg : Nat) (ev : Option Nat) (m : Mach) : Mach :=
  let m1 := postMode m.mode.mode new cause arg m
  let m2 := match ev with
    | some c => m1.post c []
    | none => m1
  { m2 with mode := { m2.mode with mode := new } }

/-- An edge applied by its rows. -/
def applyEdge (rows : Mode → Bool → Option (Mode × Option Nat)) (cause : Nat) (edge : Option Bool) (m : Mach) : Mach :=
  match edge with
  | none => m
  | some r =>
    match rows m.mode.mode r with
    | some (new, ev) => modeMove new cause (b2n r) ev m
    | none => m

/-- Modes in which CURRENT_LIMITED can be set (R132). -/
def limitMode (c : Mode) : Bool :=
  match c with
  | .blocked => false
  | .precharge => false
  | _ => true

/-- Step 3 of R130: CURRENT_LIMITED follows LIMIT (R132).
DESIGN CHOICE: the periods counted for GF_LIMIT_EXIT are those in which the mode manager runs; halted ones (R468) are not among them. -/
def limitStep (lim : Bool) (m : Mach) : Mach :=
  let want := lim && limitMode m.mode.mode
  if want && !m.mode.limited then { m.post 0x0305 [] with mode := { m.mode with limited := true, limitedPeriods := 1 } }
  else if want then { m with mode := { m.mode with limitedPeriods := m.mode.limitedPeriods + 1 } }
  else if m.mode.limited then { m.post 0x0306 [m.mode.limitedPeriods] with mode := { m.mode with limited := false, limitedPeriods := 0 } }
  else m

/-- Step 4 of R130: SIG_CONV_MODE written (R126, R127). -/
def writeMode (m : Mach) : Mach := m.produce false sigCONVMODE (BitVec.ofNat 32 (m.mode.mode.code + 16 * b2n m.mode.limited)) 1#8 3

/-- The bound bits read from the snapshot of the intake: the new bits, and their edges (R129). -/
def readBits (m : Mach) : List (ModeBit × Option Bool) := m.mode.bits.map (stepBit m)

/-- The mode manager's bits replaced, losses posted. -/
def takeBits (r : List (ModeBit × Option Bool)) (m : Mach) : Mach :=
  let m1 := ((m.mode.bits.zip r).foldl (fun m p => postLost p.1 p.2.1 m) m)
  { m1 with mode := { m1.mode with bits := r.map Prod.fst } }

/-- Steps 2 to 4 of R130 with the edges read. -/
def modeSteps (r : List (ModeBit × Option Bool)) (m : Mach) : Mach :=
  let e := fun i => ((r.map Prod.snd).getD i none)
  let m1 := applyEdge doneEdge 3 (e 4) (applyEdge gridEdge 2 (e 1) (applyEdge brkEdge 1 (e 0) m))
  writeMode (limitStep ((modeIn m1.mode.bits).limit == some true) m1)

/-- The mode manager outside RUN: the mode stays BLOCKED in READY; in SAFE it is written once (R127). -/
def modeIdle (m : Mach) : Mach :=
  if m.inState [.ready] then writeMode m
  else if m.inState [.safe] && m.mode.safeWrite then { writeMode m with mode := { m.mode with safeWrite := false } }
  else m

/-! ### MODE_REQUEST (R130, R131, R136, R137) -/

/-- A request on the bits as last read. -/
def effModeRequest (c : Cmd) (m : Mach) : Mach × Eff :=
  match modeOfCode (c.f 0 1) with
  | none => reject stMALFORMED m
  | some t =>
    if !m.mode.configured && t != .blocked then reject stSTATE m
    else
      match modeRequestTo m.mode.mode t (modeIn m.mode.bits) with
      | .same => okEmpty m
      | .refuse => reject stSTATE m
      | .to n => okDone (modeMove n 0 (c.seq % 2 ^ 32) none m)

/-- MODE_REQUEST on its own: the bits are read from the Gallery first and SIG_CONV_MODE is written after it. -/
def effModeRequestNow (c : Cmd) (m : Mach) : Mach × Eff :=
  let r := readBits m
  let bits := r.map Prod.fst
  -- edges stay for the mode manager of the next intake
  let view := { m with mode := { m.mode with bits := bits } }
  let e := effModeRequest c view
  let m1 := { e.1 with mode := { e.1.mode with bits := m.mode.bits } }
  (if m1.inState [.ready, .run] then writeMode m1 else m1, e.2)

/-! ### MODE_CONFIG (R136) -/

/-- A reference word. -/
def parseRef (w : Nat) : ModeBit := ⟨if bitOf w 31 then none else some (bitsOf w 0 20, bitsOf w 20 5), none, false⟩

/-- A reference word has its reserved bits zero, and INDEX and BIT zero where NONE is set; its index is not reserved. -/
def refOk (w : Nat) : Bool :=
  bitsOf w 25 6 == 0 && (if bitOf w 31 then w == 2 ^ 31 else !galReserved (bitsOf w 0 20))

/-- An entry of the loop graph area is declared. -/
def declared (m : Mach) (i : Nat) : Bool :=
  match m.loop.graph with
  | some g => (g.decls.map SigDecl.index).contains i
  | none => false

/-- The agreed input set of a graph and a mode configuration (R285). -/
def agreedSet (m : Mach) : List Nat :=
  match m.loop.graph with
  | none => []
  | some g =>
    let reads := (g.blocks.flatMap fun b => b.ins.filterMap fun p => if p.none then none else some p.index)
      ++ m.mode.bits.filterMap fun b => b.ref.map Prod.fst
    let produced := (writersOf g.blocks).map Prod.fst ++ m.mode.slots.filterMap fun s => s.map SpSlot.index
    (reads.filter fun i => (decide (0xC4000 ≤ i) && decide (i < 0xE0000)) || (decide (0xE0000 ≤ i) && !produced.contains i)).foldl (fun a i => insertNat i a) []

/-- Step 5 of R251 for MODE_CONFIG. -/
def chkModeConfig (c : Cmd) : Option Nat :=
  if ((List.range 5).all fun i => refOk (c.f (4 * i) 4)) && c.zeroFrom 20 then none else some stMALFORMED

def effModeConfig (c : Cmd) (m : Mach) : Mach × Eff :=
  if m.loop.graph.isNone then reject stSTATE m
  else
    let bits := (List.range 5).map fun i => parseRef (c.f (4 * i) 4)
    if !(bits.all fun b => match b.ref with
        | none => true
        | some (i, _) => decide (i < 0xE0000) || declared m i) then reject stMALFORMED m
    else
      let m1 := { m with mode := { m.mode with configured := true, bits := bits } }
      if m.pair.inTwin && decide (2048 < (agreedSet m1).length) then reject stLIMIT m
      else okDone (if m.pair.inTwin then { m1 with pair := { m1.pair with agreed := agreedSet m1 } } else m1)

/-! ### Set-points (R133, R134, R138) -/

/-- Every bound slot produces its entry at the intake (R133). -/
def produceSlots (m : Mach) : Mach :=
  m.mode.slots.foldl (fun m s => match s with
    | some s => m.produce true s.index (wordOf s.value) (qOf (if s.sat then [qVALID, qSAT] else [qVALID])) 2
    | none => m) m

def Mach.slot (m : Mach) (i : Nat) : Option SpSlot := m.mode.slots.getD i none

def Mach.setSlot (m : Mach) (i : Nat) (s : Option SpSlot) : Mach := { m with mode := { m.mode with slots := setAt m.mode.slots i s } }

/-- A slot's entry written with the slot's value. -/
def writeSlot (s : SpSlot) (m : Mach) : Mach :=
  m.produce true s.index (wordOf s.value) (qOf (if s.sat then [qVALID, qSAT] else [qVALID])) 2

/-- One entry of SETPOINT: slot, CLEAR_SAT and VALUE; whether it was clamped (R134). -/
def setpointOne (c : Cmd) (j : Nat) (r : Mach × Nat) : Mach × Nat :=
  match r.1.slot (c.f (8 * j) 1) with
  | none => r
  | some s =>
    let v := signed 32 (c.f (8 * j + 4) 4)
    let x := clampI v s.lo s.hi
    let clamped := x != v
    let s1 := { s with value := x, sat := (s.sat && !bitOf (c.f (8 * j + 1) 1) 0) || clamped }
    (writeSlot s1 (r.1.setSlot (c.f (8 * j) 1) (some s1)), r.2 + if clamped then 2 ^ j else 0)

/-- Step 5 of R251 for SETPOINT. -/
def chkSetpoint (c : Cmd) : Option Nat :=
  if c.plen % 8 = 0 ∧ c.plen ≤ 32 ∧ (List.range (c.plen / 8)).all fun j =>
      decide (c.f (8 * j) 1 ≤ 31) && decide (c.f (8 * j + 1) 1 < 2) && c.f (8 * j + 2) 2 == 0
  then none else some stMALFORMED

def effSetpoint (c : Cmd) (m : Mach) : Mach × Eff :=
  let n := c.plen / 8
  if n = 0 then okEmpty m
  else if (List.range n).any fun j => (m.slot (c.f (8 * j) 1)).isNone then reject stSTATE m
  else
    let r := (List.range n).foldl (fun r j => setpointOne c j r) (m, 0)
    (r.1, .done ⟨stDONE, r.2, 0, if r.2 = 0 then 0 else cfCLAMP, []⟩)

/-- An entry keeps its value with HELD set and VALID cleared, and loses its producer (R138). -/
def freeSlot (i : Nat) (m : Mach) : Mach :=
  match m.slot i with
  | some s => (m.invalidate s.index true).setSlot i none
  | none => m

/-- Step 5 of R251 for SP_BIND. -/
def chkSpBind (c : Cmd) : Option Nat :=
  if !(decide (c.f 0 1 ≤ 31) && decide (c.f 1 1 < 2) && c.f 2 2 == 0 && decide (c.f 4 4 < 2 ^ 20) && c.zeroFrom 16) then some stMALFORMED
  else if !bitOf (c.f 1 1) 0 && decide (signed 32 (c.f 12 4) < signed 32 (c.f 8 4)) then some stLIMIT
  else none

/-- INDEX is a declared PU32 entry that no block writes and no other slot holds (R138), and that no GOOSE subscription produces (R28). -/
def bindable (m : Mach) (slot i : Nat) : Bool :=
  match m.loop.graph with
  | none => false
  | some g => (g.decls.any fun d => d.index == i && d.fmt == 1) && !((writersOf g.blocks).map Prod.fst).contains i
      && !(gooseEntries m).contains i
      && (m.mode.slots.zipIdx).all fun p => p.2 == slot || (match p.1 with | some s => s.index != i | none => true)

def effSpBind (c : Cmd) (m : Mach) : Mach × Eff :=
  let n := c.f 0 1
  let i := c.f 4 4
  let lo := signed 32 (c.f 8 4)
  let hi := signed 32 (c.f 12 4)
  if m.loop.graph.isNone then reject stSTATE m
  else if bitOf (c.f 1 1) 0 then (if (m.slot n).isNone then okEmpty m else okDone (freeSlot n m))
  else if !bindable m n i then reject stMALFORMED m
  else
    let m1 := match m.slot n with
      | some s => if s.index = i then m else freeSlot n m
      | none => m
    let v := (m1.gv i).toInt
    let x := clampI v lo hi
    let s : SpSlot := ⟨i, lo, hi, x, qBit (m1.g i).quality qSAT || x != v⟩
    (writeSlot s (m1.setSlot n (some s)), .done { fin stDONE with flags := if x != v then cfCLAMP else 0 })

/-- GRAPH_WITHDRAW discards the mode configuration and the bindings (R136). -/
def dropModeConfig (m : Mach) : Mach :=
  { m with mode := { m.mode with configured := false, bits := [], slots := List.replicate 32 none } }

end Sys2Proof.Machine
end

