-- ==== Sys2Proof/Machine/Loop.lean ====
section
/-! DEFINITION. Machine/Loop.lean: evaluation of the graph, output commit, overruns, re-placement, the core-voltage servo, and the graph and parameter commands (R38–R71). -/
set_option Elab.async false
namespace Sys2Proof.Machine

/-! ### Evaluation (R54, R55, R57, R75) -/

/-- Usable lanes. -/
def Mach.lanesOk (m : Mach) : Nat := m.fld2 F.loopLanesLaneOkLo F.loopLanesLaneOkHi

/-- One input of a block, from what its predecessors computed in the period or from the snapshot (R54). -/
def readPort (m : Mach) (prior : List OutVal) (p : Port) : BIn :=
  if p.none then ⟨0#32, 0#8, false, false⟩
  else
    let e := m.g p.index
    let own := if p.prev || qBit e.quality qFORCED then none else prior.find? fun o => o.index == p.index
    match own with
    | some o => ⟨o.value, o.quality, true, false⟩
    | none => ⟨e.value, e.quality, true, p.prev⟩

/-- QUALITY of an output (R55, R57). -/
def outQuality (ins : List BIn) (src : Option (List Nat)) (sat : Bool) : Byte :=
  let used := match src with
    | none => ins
    | some l => l.filterMap fun i => ins[i]?
  let c := used.filter BIn.conn
  qOf ((if c.all fun b => b.prev || qGood b.quality then [qVALID] else [])
    ++ (if c.any fun b => qBit b.quality qSUBST then [qSUBST] else [])
    ++ (if c.any fun b => qBit b.quality qOVR then [qOVR] else [])
    ++ (if sat then [qSAT] else []))

/-- One block of an evaluation run. -/
def evalBlock (m : Mach) (c : Cdr) (g : Graph) (ev : Eval) (i : Nat) : Eval :=
  match g.blocks[i]? with
  | none => ev
  | some b =>
    let env := c.blockEnv b.rateDiv m.tb.p
    match b.type g.params env with
    | none => ev
    | some t =>
      let x := b.ins.map (readPort m ev.outs)
      let sk := (m.loop.sticky.getD i 0#32).toNat
      let r := blockExec b.typ env (blockParams g.params b) x (ev.states.getD i []) sk (t.outs.length < b.outs.length)
      let outs := (b.outs.zip r.outs).map fun o => (⟨o.1.index, o.2.value, outQuality x o.2.src o.2.sat, o.2.sat⟩ : OutVal)
      { ev with outs := ev.outs ++ outs, states := setAt ev.states i r.state, sticky := setAt ev.sticky i (BitVec.ofNat 32 r.sticky)
                ran := ev.ran ++ [i] }

/-- A block is due in period k (R41, R75). -/
def due (k : Nat) (b : Block) : Bool := k % max b.rateDiv 1 == b.ratePhase

/-- Blocks due in period k, in the order of R51. -/
def dueBlocks (g : Graph) (k : Nat) : List Nat := g.order.filter fun i => match g.blocks[i]? with | some b => due k b | none => false

/-- The evaluation of a period on the snapshot the Gallery holds. -/
def evalGraph (m : Mach) (c : Cdr) (g : Graph) : Eval :=
  (dueBlocks g m.tb.k).foldl (evalBlock m c g) ⟨m.tb.k, [], m.loop.states, List.replicate g.blocks.length 0#32, []⟩

/-- A committed graph is evaluated in the period (R38, R48). -/
def evaluates (m : Mach) : Bool :=
  m.inState [.ready, .run] && (match m.loop.graph, m.conv.active with | some g, some _ => decide (g.startAt ≤ m.tb.k) | _, _ => false)

/-- Intake's start of the evaluation. -/
def startEval (m : Mach) : Mach :=
  match m.loop.graph, m.conv.active with
  | some g, some c => { m with loop := { m.loop with eval := some (evalGraph m c g) } }
  | _, _ => m

/-- SAT of an output is kept if already set (R55, R57). -/
def keepSat (old new : Byte) : Byte := if qBit old qSAT then qPut new qSAT true else new

/-- Output commit: outputs and block states become visible at once (R55); sticky flags add to those that stand (R57, R80). -/
def commitEval (m : Mach) : Mach :=
  match m.loop.eval with
  | none => m
  | some ev =>
    let m1 := ev.outs.foldl (fun m o => m.produce true o.index o.value (keepSat (m.g o.index).quality o.quality) 3) m
    let m2 := holdOutputs (fun i => !ev.ran.contains i) m1
    let sticky := (m2.loop.sticky.zip ev.sticky).map fun p => p.1 ||| p.2
    { m2 with loop := { m2.loop with eval := none, states := ev.states, sticky := sticky, overrunLast := false, evaluated := true } }

/-- The slack is below SLACK_LOW. -/
def slackLow (s : Int) (m : Mach) : Bool := decide (s * 100 < m.fld F.loopVservoSlackLow * (graphBudget m.tb.p : Int))

/-- VCEIL of a period whose slack is low at VCODE 120, and VCORE_CEILING at most once in 4,096 periods (R65). -/
def vcoreCeiling (s : Int) (m : Mach) : Mach :=
  if !slackLow s m || m.fld F.loopVcoreVcode != 120 then m
  else
    let m1 := m.raise F.loopStatusVceil
    if m.loop.ceilSince = 4096 then { m1.post 0x0204 [unsigned 32 s] with loop := { m1.loop with ceilSince := 0 } } else m1

/-- Slack of the period in ns, recorded (R63, R64, R65, R71). -/
def recordSlack (s : Int) (m0 : Mach) : Mach :=
  let m := vcoreCeiling s m0
  let mn := signed 32 (m.reg.raw F.loopSlackMinSlackNs)
  let m1 := (m.setF F.loopSlackLastSlackNs (unsigned 32 s)).setF F.loopSlackMinSlackNs (unsigned 32 (min mn s))
  { m1 with loop := { m1.loop with slack := some s, graph := m1.loop.graph.map fun g => { g with minSlack := min g.minSlack s } } }

/-- Commit `ns` after the intake. -/
def commitAt (ns : Nat) (m : Mach) : Mach :=
  let m1 := recordSlack ((graphBudget m.tb.p : Int) - ns) (commitEval m)
  { m1 with loop := { m1.loop with graph := m1.loop.graph.map fun g => { g with lastNs := ns } } }

/-- Period k is abandoned (R58, R60): outputs and states stay, HELD is set, the count and flags; a second one in a row enters SAFE. -/
def abandon (count : Bool) (m : Mach) : Mach :=
  let m1 := holdOutputs (fun _ => true) m
  let m2 := { m1 with loop := { m1.loop with eval := none, overrunLast := true, evaluated := true } }
  let m3 := if count then
      recordSlack (-(1 + (Config.overrunLate m2.tb.k : Int))) (((m2.raise F.loopStatusOvr).bump F.loopOverrunCountCount 1).post 0x0201 (w64 m2.tb.k))
    else m2
  let m4 := { m3 with loop := { m3.loop with graph := m3.loop.graph.map fun g => { g with overruns := incSat 32 g.overruns (b2n count) } } }
  if m.loop.overrunLast then enterSafe 4 0 m4 else m4

/-! ### States and withdrawal (R38, R48, R69, R78) -/

/-- Block states and sticky flags as at commit. -/
def resetStates (m : Mach) : Mach :=
  match m.loop.graph with
  | none => m
  | some g => { m with loop := { m.loop with states := g.blocks.map fun b => blockInit b.typ (blockParams g.params b)
                                             sticky := List.replicate g.blocks.length 0#32, eval := none } }

/-- GRAPH_WITHDRAW (R69, R136, R167). -/
def withdrawGraph (m : Mach) : Mach :=
  match m.loop.graph with
  | none => m
  | some g =>
    let m1 := (g.blocks.flatMap fun b => b.outs.map Port.index).foldl (fun m i => if i < 0xE0000 then m.invalidate i true else m) m
    let m2 := dropModeConfig (m1.galReset 0xE0000 0x100000)
    { m2 with loop := { m2.loop with graph := none, states := [], sticky := [], eval := none }, pair := { m2.pair with agreed := [] } }

/-! ### Re-placement (R62, R63, R166, R167) -/

/-- Places of a graph when every block is bound to the lane given. -/
def placeOn (c : Cdr) (g : Graph) (p lanes : Nat) (unit : Nat → Nat) (homes : List (Nat × Nat)) (lane : Nat → Nat) : List (Nat × Place) :=
  let bs := (g.blocks.zipIdx).map fun x => { x.1 with pinLane := lane x.2 }
  let preds := (g.blocks.zipIdx).map fun x => (x.2, predsOf (writersOf g.blocks) x.1)
  match runPlacement bs (stepsOf g.blocks g.params fun r => c.blockEnv r p) preds g.order lanes unit (remotePorts (homeOf c homes)) with
  | .ok l => l
  | .error _ => []

/-- REPLACEMENT_EVAL with the measured step time of every lane (R63). -/
def replaceGraph (times : List Nat) (m : Mach) : Mach :=
  match m.loop.graph, m.conv.active with
  | some g, some c =>
    if !g.replaceEn || !m.inState [.ready, .run] then m
    else
      let unit := fun l => times.getD l 1
      let one := fun _ : Nat => 1
      let cur := placeOn c g m.tb.p m.lanesOk unit g.homes fun i => (g.places.getD i ⟨0, 0, 0⟩).lane
      let preds := (g.blocks.zipIdx).map fun x => (x.2, predsOf (writersOf g.blocks) x.1)
      match runPlacement g.blocks (stepsOf g.blocks g.params fun r => c.blockEnv r m.tb.p) preds g.order m.lanesOk unit (remotePorts (homeOf c g.homes)) with
      | .error _ => m
      | .ok new =>
        let lanes := (placeList g.blocks.length new).map Place.lane
        let h := homeAll c g.blocks (fun i => lanes.getD i 0) g.homes
        let costed := placeOn c g m.tb.p m.lanesOk one h.1 fun i => lanes.getD i 0
        let l := pathLength one costed
        if pathLength unit new * 10 ≤ pathLength unit cur * 9 ∧ twc l ≤ graphBudget m.tb.p then
          let g1 := { g with places := placeList g.blocks.length costed, homes := h.1, steps := l, replacements := incSat 32 g.replacements 1 }
          let m1 := ({ m with loop := { m.loop with graph := some g1 } }.raise F.loopStatusReplaced).post 0x0203 []
          if h.2 then m1.raise F.flowStatusBankFull else m1
        else m
  | _, _ => m

/-- The committed graph on a return from SAFE to READY (R38, R62). -/
def replaceAfterSafe (m : Mach) : Mach :=
  match m.loop.graph, m.conv.active with
  | some g, some c =>
    if g.lanesAt = m.lanesOk then resetStates m
    else
      match placeGraph c g.blocks g.params m.tb.p m.lanesOk with
      | .error i => (withdrawGraph m).post 0x0205 [g.graphId, if (g.blocks.getD i ⟨0, 0, 0, 0xFF, 1, 0, [], []⟩).pinLane = 0xFF then 2 else 1]
      | .ok pl =>
        if graphBudget m.tb.p < twc pl.steps then (withdrawGraph m).post 0x0205 [g.graphId, 2]
        else
          let g1 := { g with order := pl.order, places := pl.places, homes := pl.homes, steps := pl.steps, lanesAt := m.lanesOk }
          let m1 := { m with loop := { m.loop with graph := some g1 } }
          resetStates ((if pl.full then m1.raise F.flowStatusBankFull else m1).post 0x0203 [])
  | _, _ => m

/-! ### The core-voltage servo (R64, R65) -/

/-- The servo at a boundary, on the slack of the period just ended. DESIGN CHOICE: a VFLOOR written above the VCODE in force does not lift it; VCODE is held, or raised by 4, from where it stands (R64). -/
def vcoreServo (m : Mach) : Mach :=
  let v := m.fld F.loopVcoreVcode
  let floor := m.fld F.loopVservoVfloor
  let low := m.fld F.loopVservoSlackLow
  let high := max (m.fld F.loopVservoSlackHigh) (low + 10)
  let b : Int := graphBudget m.tb.p
  let since := min (m.loop.ceilSince + 1) 4096
  let servo := m.flag F.loopVservoServoEn
  let put := fun (n cnt since : Nat) (m : Mach) =>
    let w := if !m.loop.evaluated then 120 else if servo then n else floor
    { m.setF F.loopVcoreVcode w with loop := { m.loop with slack := none, highCount := cnt, ceilSince := since } }
  match m.loop.slack with
  | none => put v 0 since m
  | some s =>
    if s * 100 < low * b then put (min 120 (v + 4)) 0 since m
    else if high * b < s * 100 then
      (if m.loop.highCount + 1 = 1024 then put (if floor < v then v - 1 else v) 0 since m else put v (m.loop.highCount + 1) since m)
    else put v 0 since m

/-! ### Graph commands (R46–R48, R69, R70) -/

def effGraphLoad (c : Cmd) (m : Mach) : Mach × Eff := okDone { m with loop := { m.loop with staged := some (c.buf.take c.len) } }

/-- A failed GRAPH_COMMIT carries the INST of the offending block (R47, R257). -/
def commitFail (status inst : Nat) (m : Mach) : Mach × Eff := rejectR status inst m

/-- Gallery of the loop graph area at commit (R48). -/
def commitGallery (g : Graph) (m : Mach) : Mach :=
  g.decls.foldl (fun m d => m.gput d.index ⟨d.init, 0#16, if d.initValid then 1#8 else 0#8, 3#8, true⟩) (m.galReset 0xE0000 0x100000)

/-- The agreed input set taken anew in TWIN (R285). -/
def retakeAgreed (m : Mach) : Mach := if m.pair.inTwin then { m with pair := { m.pair with agreed := agreedSet m } } else m

/-- GRAPH_COMMIT (R47, R48). DESIGN CHOICE: evaluation starts at the boundary after the effect also where R258 holds the completion back for want of room,
and R49 admits the graph against the P in force at the intake, also where TB_PERIOD has set another P for the next boundary. -/
def effGraphCommit (_ : Cmd) (m : Mach) : Mach × Eff :=
  match m.loop.staged, m.loop.graph, m.conv.active with
  | some d, none, some c =>
    if !m.inState [.ready] || (parseHead d).configId != c.configId then commitFail stSTATE 0xFFFF m
    else
      match checkGraph d c (m.net.far.map FarCh.cfg) (gooseEntries m) m.tb.p m.lanesOk (m.tb.k + 1) with
      | .error e => commitFail e.1 e.2 m
      | .ok (g, full) =>
        let m1 := { m with loop := { m.loop with graph := some g, staged := none } }
        if m.pair.inTwin && decide (2048 < (agreedSet m1).length) then commitFail stLIMIT 0xFFFF m
        else
          let m2 := retakeAgreed (resetStates (commitGallery g m1))
          (if full then m2.raise F.flowStatusBankFull else m2, .done ⟨stDONE, twc g.steps, g.graphId, 0, []⟩)
  | _, _, _ => commitFail stSTATE 0xFFFF m

def effGraphWithdraw (_ : Cmd) (m : Mach) : Mach × Eff :=
  if m.loop.graph.isNone then okEmpty m else okDone (withdrawGraph m)

/-- The report of the committed graph (R70). -/
def graphReport (g : Graph) (p : Nat) : List Byte :=
  leBytes 4 g.graphId ++ leBytes 2 g.blocks.length ++ leBytes 1 ((g.places.map Place.lane).eraseDups.length) ++ leBytes 1 0
    ++ leBytes 4 (graphBudget p) ++ leBytes 4 (twc g.steps) ++ leBytes 4 g.steps ++ leBytes 4 (pMin g.steps) ++ leBytes 4 g.lastNs
    ++ leBytes 4 (unsigned 32 g.minSlack) ++ leBytes 4 g.overruns ++ leBytes 4 g.replacements ++ List.replicate 24 0#8 ++ g.digest
    ++ (g.blocks.zip g.places).flatMap fun x => leBytes 4 (x.2.lane + 128 * b2n (x.1.pinLane != 0xFF) + 256 * x.2.start)

def effGraphReport (c : Cmd) (m : Mach) : Mach × Eff :=
  match m.loop.graph with
  | none => okEmpty m
  | some g =>
    let r := graphReport g m.tb.p
    if c.len < r.length then reject stMALFORMED m else okDone (writeBuf c r m)

/-! ### Parameters and flags (R67, R68) -/

/-- A field of the payload, inline or in the host buffer. -/
def Cmd.pf (c : Cmd) (o n : Nat) : Nat := if c.ptr then c.b o n else c.f o n

def chkParamWrite (c : Cmd) : Option Nat :=
  let n := c.pf 4 2
  if c.ptr && decide (c.len < 8) then some stMALFORMED
  else if n > (if c.ptr then 1024 else 6) then some stLIMIT
  else if c.ptr && c.len != 8 + 4 * n then some stMALFORMED
  else if c.pf 6 2 ≠ 0 || (!c.ptr && !c.zeroFrom (8 + 4 * n)) then some stMALFORMED
  else none

/-- Words [w, w + n) of a block's set replaced. -/
def putParams (params : List Word) (at_ : Nat) (ws : List Word) : List Word := params.take at_ ++ ws ++ params.drop (at_ + ws.length)

/-- PARAM_WRITE (R67). DESIGN CHOICE: blocks whose PARAM_IDX ranges overlap share the words of the parameter area; a write is checked for the block it names alone. -/
def effParamWrite (c : Cmd) (m : Mach) : Mach × Eff :=
  match m.loop.graph, m.conv.active with
  | some g, some cd =>
    let n := c.pf 4 2
    let w := c.pf 2 2
    if n = 0 then okEmpty m
    else
      match g.blocks[c.pf 0 2]? with
      | none => reject stMALFORMED m
      | some b =>
        if b.paramCount < w + n then reject stMALFORMED m
        else
          let ws := (List.range n).map fun i => BitVec.ofNat 32 (c.pf (8 + 4 * i) 4)
          let old := blockParams g.params b
          let new := putParams old w ws
          if !paramsOk b.typ b.ins.length (cd.blockEnv b.rateDiv m.tb.p) new then reject stLIMIT m
          else if (List.range b.paramCount).any fun i => structuralWord b.typ i && old[i]? != new[i]? then reject stSTATE m
          else okDone { m with loop := { m.loop with graph := some { g with params := putParams g.params (b.paramIdx + w) ws } } }
  | _, _ => reject stSTATE m

def chkParamRead (c : Cmd) : Option Nat :=
  let n := c.b 4 2
  if c.len < 8 then some stMALFORMED
  else if 1024 < n then some stLIMIT
  else if c.len < 8 + 4 * n ∨ c.b 6 2 ≠ 0 then some stMALFORMED
  else none

def effParamRead (c : Cmd) (m : Mach) : Mach × Eff :=
  match m.loop.graph with
  | none => reject stSTATE m
  | some g =>
    let n := c.b 4 2
    let w := c.b 2 2
    if n = 0 then okEmpty m
    else
      match g.blocks[c.b 0 2]? with
      | none => reject stMALFORMED m
      | some b =>
        if b.paramCount < w + n then reject stMALFORMED m
        else okDone (writeBufAt c 8 ((((blockParams g.params b).drop w).take n).flatMap fun x => leBytes 4 x.toNat) m)

def chkFlagClear (c : Cmd) : Option Nat := if c.f 4 4 < 4 ∧ c.zeroFrom 8 then none else some stMALFORMED

/-- SAT cleared in an entry. -/
def clearSat (i : Nat) (m : Mach) : Mach :=
  let e := m.g i
  m.gput i { e with quality := qPut e.quality qSAT false }

def effFlagClear (c : Cmd) (m : Mach) : Mach × Eff :=
  match m.loop.graph with
  | none => reject stSTATE m
  | some g =>
    let a := c.f 0 2
    let n := c.f 2 2
    let mask := c.f 4 4
    if n = 0 ∨ mask = 0 then okEmpty m
    else if g.blocks.length < a + n then reject stMALFORMED m
    else
      let m1 := if bitOf mask 0 then (((g.blocks.drop a).take n).flatMap fun b => b.outs.map Port.index).foldl (fun m i => clearSat i m) m else m
      let m2 := if bitOf mask 1 then
          { m1 with loop := { m1.loop with sticky := (m1.loop.sticky.zipIdx).map fun p => if a ≤ p.2 ∧ p.2 < a + n then 0#32 else p.1 } } else m1
      okDone m2

/-! ### Lane faults (R62) -/

/-- A lane retired with an internal error. -/
def laneFault (l : Nat) (m : Mach) : Mach :=
  let ok := m.lanesOk
  let n := putBits ok l 1 0
  let m1 := (m.setF F.loopLanesLaneOkLo n).setF F.loopLanesLaneOkHi (n / 2 ^ 32)
  ((enterSafe 5 l m1).raise F.loopStatusLaneFault).post 0x0202 [l]

end Sys2Proof.Machine
end

