-- ==== Sys2Proof/Machine/Flow.lean ====
section
/-! DEFINITION. Machine/Flow.lean: the submodule pool, the arm entries, ranking and cut of a period, and the pool commands (R128, R139, R146–R174). -/
set_option Elab.async false
namespace Sys2Proof.Machine

/-! ### Submodules -/

/-- A submodule's entry changed. -/
def Mach.modSm (m : Mach) (g : Nat) (f : Sm → Sm) : Mach := m.setSm g (f (m.sm g))

/-- Arm of a submodule number (R13). -/
def armOf (g : Nat) : Nat := g / 4096

/-- Pool state codes (R146). -/
def Pool.code : Pool → Nat
  | .uncovered => 0 | .absent => 1 | .joining => 2 | .available => 3 | .suspect => 4 | .retired => 5 | .excluded => 6

/-- The pool states a lost hub ends, and in which a failed submodule is retired (R149). -/
def Pool.live : Pool → Bool
  | .joining => true | .available => true | .suspect => true | _ => false

/-- The runs of R147 and R149 started afresh. -/
def Sm.fresh (s : Sm) : Sm := { s with suspectFor := 0, cleanFor := 0, mismatch := 0 }

/-- Submodule numbers of an arm of the record: positions below SM_COUNT. -/
def Cdr.armSms (c : Cdr) (a : Nat) : List Nat := (List.range (c.armRec a).smCount).map (4096 * a + ·)

/-- Submodule numbers of every arm of the record. -/
def Cdr.allSms (c : Cdr) : List Nat := (List.range c.armCount).flatMap c.armSms

/-- A submodule number lies within SM_COUNT of its arm. -/
def Cdr.exists_ (c : Cdr) (g : Nat) : Bool := decide (armOf g < c.armCount) && decide (g % 4096 < (c.armRec (armOf g)).smCount)

/-- AVAILABLE submodules of an arm, rising. -/
def availOf (m : Mach) (c : Cdr) (a : Nat) : List Nat := (c.armSms a).filter fun g => (m.sm g).pool == .available

/-! ### Link and record events (R146, R149, R158) -/

/-- SM_POOL of a submodule (R146). -/
def smPoolWord (s : Sm) : Nat := s.pool.code + 16 * s.final + 256 * s.cause

/-- Slots 16 to 18 written (R146, R161). -/
def writePoolSlots (fresh : Bool) (m : Mach) (g : Nat) : Mach :=
  let s := m.sm g
  let w := fun (m : Mach) (slot v : Nat) => m.produce fresh (slotIdx g slot) (BitVec.ofNat 32 v) 1#8 4
  w (w (w m 16 (smPoolWord s)) 17 (s.count / 1024)) 18 (s.favg / 65536)

/-- An arm as CDR_COMMIT leaves it (R149, R154, R155, R162, R173). -/
def armCommitted (m : Mach) : Arm :=
  let hMin := m.fld F.flowBandHMin
  { armInit with h := clampI (m.fld F.flowHinitHInit) hMin (max hMin (m.fld F.flowBandHMax)), cPos := 1, cNeg := 1
                 fsw := m.fld F.flowFswFswTgt, belowWarn := true, belowZero := true, warnPosted := false, lostPosted := false }

/-- Flowstone after CDR_COMMIT: covered submodules ABSENT, the others UNCOVERED, counts and finals cleared, slots 16 to 18 written (R146, R149). -/
def flowCommit (c : Cdr) (m : Mach) : Mach :=
  let sms := c.covered.foldl (fun t g => sput (fun _ => smReset) g { smReset with pool := .absent } t) []
  let m1 := { m with flow := { m.flow with sms := sms, arms := List.replicate c.armCount (armCommitted m) } }
  c.allSms.foldl (writePoolSlots true) m1

/-- A hub entry becomes BOUND: its ABSENT submodules are JOINING (R149). -/
def flowBound (h : HubRec) (m : Mach) : Mach :=
  h.sms.foldl (fun m g => m.modSm g fun s => if s.pool = .absent then { s.fresh with pool := .joining, stranded := false } else s) m

/-- A hub entry is LOST: its submodules are ABSENT, stranded in RUN, and its hub blocks them (R149, R158). -/
def flowLost (h : HubRec) (m : Mach) : Mach :=
  let run := m.inState [.run]
  h.sms.foldl (fun m g => m.modSm g fun s =>
    let s := { s with final := stBlock, expect := stBlock }
    if s.pool.live then { s.fresh with pool := .absent, stranded := run } else s) m

/-- HUB_FORGET: its submodules are UNCOVERED (R149). -/
def flowForget (h : HubRec) (m : Mach) : Mach :=
  h.sms.foldl (fun m g => m.modSm g fun s => { s.fresh with pool := .uncovered, stranded := false }) m

/-- HUB_ADD: UNCOVERED submodules it covers are ABSENT (R149). -/
def flowAdd (h : HubRec) (m : Mach) : Mach :=
  h.sms.foldl (fun m g => m.modSm g fun s => if s.pool = .uncovered then { s with pool := .absent } else s) m

/-- No submodule is stranded any more (R158, STATE_REQUEST READY). -/
def flowUnstrand (m : Mach) : Mach :=
  { m with flow := { m.flow with sms := smap (fun _ => smReset) (fun _ s => { s with stranded := false }) m.flow.sms } }

/-! ### Pool evaluation (R147–R149, R196) -/

/-- Cause codes of R146. -/
def causeFAULT : Nat := 1
def causeOVERVOLT : Nat := 2
def causeUNDERVOLT : Nat := 3
def causeMISSING : Nat := 4
def causeSTATE : Nat := 5
def causePERSISTED : Nat := 6

/-- What one period shows of a submodule: the cause for which it failed, for which it is suspect (0 for none), whether its fast slots are VALID and not STALE, and its run of differing states. -/
structure Verdict where
  fail : Nat
  sus : Nat
  fast : Bool
  mismatch : Nat
  deriving DecidableEq, Repr

/-- The mode is one in which Flowstone blocks (R128). -/
def modeBlocks (m : Mach) : Bool := m.mode.mode == .blocked || m.mode.mode == .precharge

/-- The verdict of a period on submodule `g` with its report, if one was used, and the alarm classes that mark it (R147, R196).
`limit` is AGE_FAST: a fast slot counts as STALE where the intake's ageing makes it so.
DESIGN CHOICE: SM_VCAP is tested against VRET_LO and VRET_HI only while its slot is VALID and not STALE. -/
def judge (m : Mach) (limit g : Nat) (s : Sm) (rep : Option SmReport) (marks : List Nat) : Verdict :=
  let e := fun n => ageEntry (some limit) (m.g (slotIdx g n))
  let stale := [1, 2, 3].any fun n => qBit (e n).quality qSTALE
  let fast := [1, 2, 3].all fun n => (e n).good
  let u := (e 2).value.toInt
  let vok := (e 2).good
  let mis := match rep with
    | some r => if !bitOf r.f 22 && bitsOf r.f 17 4 != 15 && bitsOf r.f 17 4 != s.expect then s.mismatch + 1 else 0
    | none => 0
  let fail := if (match rep with | some r => bitOf r.f 21 | none => false) || marks.contains 0 then causeFAULT
    else if marks.contains 1 || (vok && decide (signed 32 (m.reg.raw F.flowVretVretHi) < u)) then causeOVERVOLT else 0
  let sus := if stale || marks.contains 2 then causeMISSING
    else if 2 ≤ mis ∨ marks.contains 3 then causeSTATE
    else if vok && !modeBlocks m && decide (u < signed 32 (m.reg.raw F.flowVretVretLo)) then causeUNDERVOLT else 0
  ⟨fail, sus, fast, mis⟩

/-- The rows of R149 that an intake applies to one submodule. -/
def poolStep (rejoinN suspectN : Nat) (mass : Bool) (v : Verdict) (s : Sm) : Sm :=
  let ok := v.fail == 0 && v.sus == 0 && (v.fast || s.pool != .joining)
  let s1 := { s with mismatch := v.mismatch, cleanFor := if ok then s.cleanFor + 1 else 0 }
  let retire := fun cause => { s.fresh with pool := .retired, cause := cause }
  if v.fail ≠ 0 && !mass then retire v.fail
  else
    match s.pool with
    | .joining => if rejoinN ≤ s1.cleanFor && !mass then { s1.fresh with pool := .available, mismatch := v.mismatch } else s1
    | .available => if v.sus ≠ 0 && !mass then { s1 with pool := .suspect, cause := v.sus, suspectFor := 1 } else s1
    | .suspect =>
      if v.sus ≠ 0 ∨ v.fail ≠ 0 then
        (if mass then s1 else if suspectN ≤ s.suspectFor + 1 then retire causePERSISTED else { s1 with suspectFor := s.suspectFor + 1 })
      else if rejoinN ≤ s1.cleanFor && !mass then { s1.fresh with pool := .available, mismatch := v.mismatch } else { s1 with suspectFor := 0 }
    | _ => s

/-- The live submodules of BOUND entries, each with its hub entry, its report and the classes that mark it. -/
def observed (m : Mach) (c : Cdr) : List (Nat × Nat × Option SmReport × List Nat) :=
  (List.range c.hubs.length).flatMap fun h =>
    match m.laneOf h with
    | none => []
    | some l =>
      let u := (m.zl.lanes.getD l laneInit).used
      ((c.hub h).sms.zipIdx).filterMap fun p =>
        if (m.sm p.1).pool.live then
          some (h, p.1, u.bind fun r => r.reports[p.2]?,
            match u with | some r => (r.marks.filter fun x => x.1 == p.2).map Prod.snd | none => [])
        else none

/-- The arm-level condition of each arm (R148). -/
def massOf (m : Mach) (c : Cdr) (vs : List (Nat × Nat × Verdict)) (a : Nat) : Bool :=
  let bad := (vs.filter fun x => armOf x.2.1 == a && (m.sm x.2.1).pool == .available && (x.2.2.fail != 0 || x.2.2.sus != 0)).length
  decide (m.fld F.flowLimitsMassPct * (availOf m c a).length < 100 * bad)

/-- MASS_ALARM of an arm: the status bit, and the event at the entry into the condition (R148). -/
def noteMass (mass : Nat → Bool) (m : Mach) (a : Nat) : Mach :=
  let x := m.arm a
  let m1 := m.setArm a { x with mass := mass a }
  if mass a then (let m2 := m1.raise F.flowStatusMass; if x.mass then m2 else m2.post 0x0404 [a]) else m1

/-- The events of a submodule's change of pool state (R149). -/
def poolEvents (old new : Pool) (g cause : Nat) (m : Mach) : Mach :=
  if old = new then m
  else match new with
    | .suspect => m.postSm 0x0401 0 [g, cause] g
    | .retired => (m.raise F.flowStatusRetire).postSm 0x0402 0 [g, cause] g
    | _ => m

/-- One submodule taken through R149. -/
def poolOne (mass : Nat → Bool) (m : Mach) (x : Nat × Nat × Verdict) : Mach :=
  let s := m.sm x.2.1
  let t := poolStep (m.fld F.flowPoolRejoinN) (m.fld F.flowPoolSuspectN) (mass (armOf x.2.1)) x.2.2 s
  poolEvents s.pool t.pool x.2.1 t.cause (m.setSm x.2.1 t)

/-- HUB_JOINED for an entry whose last JOINING submodule has become AVAILABLE (R149). -/
def hubJoined (before : Mach) (c : Cdr) (m : Mach) (h : Nat) : Mach :=
  let sms := (c.hub h).sms
  if (sms.any fun g => (before.sm g).pool == .joining && (m.sm g).pool == .available) && !(sms.any fun g => (m.sm g).pool == .joining) then
    m.post 0x0403 [h]
  else m

/-- Pool evaluation at an intake (R149, R168 step 2). -/
def poolEvaluate (c : Cdr) (m : Mach) : Mach :=
  let vs := (observed m c).map fun x => (x.1, x.2.1, judge m c.ageFast x.2.1 (m.sm x.2.1) x.2.2.1 x.2.2.2)
  let masses := (List.range c.armCount).map (massOf m c vs)
  let mass := fun a => masses.getD a false
  let m1 := (List.range c.armCount).foldl (noteMass mass) m
  let m2 := vs.foldl (poolOne mass) m1
  let m3 := (List.range c.hubs.length).foldl (hubJoined m1 c) m2
  { m3 with flow := { m3.flow with sms := smap (fun _ => smReset) (fun _ s => { s with expect := s.final }) m3.flow.sms } }

/-! ### Band servo and intake entries (R139, R151, R152, R162) -/

/-- Limits of the band (R175). -/
def bandLimits (m : Mach) : Int × Int := let lo := m.fld F.flowBandHMin; (lo, max lo (m.fld F.flowBandHMax))

/-- The servo of one arm at an intake (R162). -/
def servoArm (m : Mach) (a : Nat) : Mach :=
  let x := m.arm a
  let lim := bandLimits m
  let v := fun o => (m.gv (armIdx a o)).toInt
  let spread := decide ((m.fld F.flowSpreadSpreadMax : Int) < v 5 - v 4)
  if !m.flag F.flowServoServoEn then m.setArm a { x with h := clampI (m.fld F.flowHinitHInit) lim.1 lim.2, spread := false }
  else if spread then m.setArm a { x with h := max lim.1 (x.h / 2), spread := true }
  else if m.tb.k % 1024 = 0 then
    m.setArm a { x with h := bandServo x.h lim.1 lim.2 (m.gv (armIdx a 15)).toNat x.fsw (m.fld F.flowServoDb), spread := false }
  else m.setArm a { x with spread := false }

/-- An arm entry written by Flowstone. -/
def putArm (fresh : Bool) (a o : Nat) (v : Int) (q : Byte) (m : Mach) : Mach := m.produce fresh (armIdx a o) (wordOf v) q 4

/-- REDUND_LOW and CAPABILITY_LOST as ARM_REDUND falls below a threshold, each again only after it has risen above the same one (R152). -/
def noteRedund (a n req : Nat) (m : Mach) : Mach :=
  let x := m.arm a
  let r : Int := n - req
  let low := decide (r < m.fld F.flowLimitsRedundWarn)
  let lost := decide (r < 0)
  let warns := low && !x.belowWarn && !x.warnPosted
  let loses := lost && !x.belowZero && !x.lostPosted
  let m1 := if warns then (m.raise F.flowStatusRedundLow).post 0x0405 [a, n, req] else m
  let m2 := if loses then (m1.raise F.flowStatusCapLost).post 0x0406 [a, n, req] else m1
  m2.setArm a { x with
    belowWarn := low, belowZero := lost
    warnPosted := (warns || x.warnPosted) && decide (r ≤ m.fld F.flowLimitsRedundWarn), lostPosted := (loses || x.lostPosted) && decide (r ≤ 0) }

/-- The intake entries of an arm (R139, R151). -/
def armEntries (c : Cdr) (m : Mach) (a : Nat) : Mach :=
  let av := availOf m c a
  let n := av.length
  let req := (c.armRec a).required
  let us := av.map fun g => (m.gv (slotIdx g 2)).toInt
  let d := max n 1
  let q : Byte := if n = 0 then 0#8 else 1#8
  let z := fun v : Int => if n = 0 then 0 else sat32 v
  let fsw : Int := roundDiv ((av.map fun g => (m.gv (slotIdx g 18)).toNat).sum : Nat) d
  let m1 := putArm false a 2 (z (roundDiv (us.sum * 2 ^ 32) (max (c.kArm a) 1))) q m
  let m2 := putArm false a 3 (z (roundDiv us.sum d)) q m1
  let m3 := putArm false a 4 (z (us.foldl min (us.headD 0))) q m2
  let m4 := putArm false a 5 (z (us.foldl max (us.headD 0))) q m3
  let m5 := putArm false a 6 (z (roundDiv ((us.map fun u => u * u).sum) (2 ^ 24 * d))) q m4
  let m6 := putArm false a 7 n 1#8 m5
  let m7 := putArm false a 8 ((n : Int) - req) 1#8 m6
  let m8 := putArm false a 9 (roundDiv ((min n req : Nat) * 2 ^ 24) (max req 1)) 1#8 m7
  let m9 := putArm false a 14 (if n = 0 then 0 else (m.arm a).h) q m8
  noteRedund a n req (putArm false a 15 (if n = 0 then 0 else fsw) q m9)

/-! ### Ranking (R153, R154) -/

/-- θ of a submodule as a fraction (R153). -/
def theta (m : Mach) (g : Nat) : Nat × Nat :=
  let e := m.g (slotIdx g 4)
  (if e.good then (e.value.toInt - signed 32 (m.reg.raw F.flowTrefTRef)).toNat else 0, 1000 * m.fld F.flowWeightTSpan)

/-- ω of a submodule as a fraction, with the sum and number of the arm's counts (R153). -/
def omega (m : Mach) (g sum n : Nat) : Nat × Nat :=
  let e := m.g (slotIdx g 17)
  (if e.good then e.value.toNat * n - sum else 0, max 1 (m.fld F.flowWearWearSpan) * max n 1)

/-- What the ranking reads of an arm. -/
def rankIns (m : Mach) (c : Cdr) (a : Nat) : List RankIn :=
  let av := availOf m c a
  let sum := (av.map fun g => (m.gv (slotIdx g 17)).toNat).sum
  av.map fun g =>
    let t := theta m g
    let w := omega m g sum av.length
    let u := (m.gv (slotIdx g 2)).toInt
    let vb := m.g (slotIdx g 6)
    ⟨g, u, if (c.armRec a).smType == 3 && qBit vb.quality qVALID then vb.value.toInt else u,
      bandOf (m.arm a).h (m.fld F.flowWeightKt) (m.fld F.flowWeightKw) t.1 t.2 w.1 w.2, (m.sm g).final⟩

/-- Ranking of an arm (R154). -/
def rankOne (c : Cdr) (m : Mach) (a : Nat) : Mach :=
  let x := m.arm a
  let e := m.g (armIdx a 1)
  let i := e.value.toInt
  let dir := fun (pol old : Int) => if e.good && decide (0 < pol * i) then 1 else if e.good && decide (pol * i < 0) then -1 else old
  let ins := rankIns m c a
  let cp := dir 1 x.cPos
  let cn := dir (-1) x.cNeg
  m.setArm a { x with cPos := cp, cNeg := if c.half then x.cNeg else cn, idirBad := !e.good, idir := if e.good then i.sign else 0
                      rankPos := rankArm ins 1 cp, rankNeg := if c.half then [] else rankArm ins (-1) cn }

/-- Flowstone's steps 4 to 6 at an intake (R168). -/
def flowRank (m : Mach) : Mach :=
  match m.conv.active with
  | none => m
  | some c =>
    let l := List.range c.armCount
    l.foldl (rankOne c) (l.foldl (armEntries c) (l.foldl servoArm m))

/-! ### The cut (R128, R150, R155–R161) -/

/-- A command of a cut before the change budget: submodule, new state and offset, whether it is the fractional submodule, and its place in the rank. -/
structure CutCmd where
  g : Nat
  state : Nat
  offset : Nat
  frac : Bool
  place : Nat
  avail : Bool
  deriving DecidableEq, Repr

/-- The lane that carries commands to hub entry `h` for the next boundary: bound, and in step 8 of R180, or held through the partner (R286). -/
def carried (m : Mach) (h : Nat) : Option Nat :=
  match m.laneOf h with
  | some l => let x := m.zl.lanes.getD l laneInit; if 8 ≤ x.step || x.remote then some l else none
  | none => none

/-- The submodules that lanes carry commands to. -/
def carriedSms (m : Mach) (c : Cdr) : List Nat := (List.range c.hubs.length).flatMap fun h => if (carried m h).isSome then (c.hub h).sms else []

/-- Contribution of an arm's stranded submodules, Q32.32 (R158). -/
def strandedZ (m : Mach) (c : Cdr) (a : Nat) : Int :=
  let s := (((c.armSms a).filter fun g => (m.sm g).stranded).map fun g => (m.gv (slotIdx g 2)).toInt).sum * 2 ^ 8
  let d := (m.arm a).idir
  if c.half then (if 0 < d then s else 0) else d * s

/-- T_MIN in units of 0.25 ns, limited to a quarter of P (R175). -/
def tMinQ (m : Mach) : Nat := 4 * min (m.fld F.flowTminTMin) (m.tb.p / 4)

/-- P in units of 0.25 ns (R155). -/
def Mach.pq (m : Mach) : Nat := 4 * m.tb.p

/-- A ranking taken anew with every band 2^30 (R157). -/
def rekey (m : Mach) (pol : Int) (r : List RankE) : List RankE :=
  r.foldr (fun e t =>
    let k := if (m.sm e.g).final = insertOf pol then e.key + e.band - 2 ^ 30 else e.key - e.band + 2 ^ 30
    rankInsert { e with key := k } t) []

/-- How an arm is cut in a period. -/
inductive CutKind where
  | blocked | refBad | normal
  deriving DecidableEq, Repr

/-- The cut of an arm with given rankings: its level and the commands of its AVAILABLE submodules (R155, R156, R159). -/
def cutArm (m : Mach) (c : Cdr) (a : Nat) (kind : CutKind) (rp rn : List RankE) : Option Cut × List CutCmd :=
  let bypass := fun g => let s := m.sm g; bypassFor c.half s.final s.altNext
  match kind with
  | .blocked => (none, (rp.zipIdx).map fun p => ⟨p.1.g, stBlock, 0, false, p.2, true⟩)
  | .refBad => (none, (rp.zipIdx).map fun p => ⟨p.1.g, (m.sm p.1.g).final, 0, false, p.2, true⟩)
  | .normal =>
    let t := roundDiv ((m.gv (armIdx a 0)).toInt * c.kArm a) (2 ^ 24) - strandedZ m c a + (m.arm a).rho
    let k := cutLevel t c.half rp rn m.pq (tMinQ m)
    let r := if k.pol = 1 then rp else rn
    (some k, (r.zipIdx).map fun p =>
      let w := cutCommand k m.pq p.2 (m.sm p.1.g).final (bypass p.1.g)
      ⟨p.1.g, w.1, w.2, k.frac && p.2 == k.n, p.2, true⟩)

/-- The commands of the other submodules that a lane carries commands to (R128, R150). -/
def otherCmds (m : Mach) (c : Cdr) (blocked : Bool) : List CutCmd :=
  (carriedSms m c).filterMap fun g =>
    let s := m.sm g
    match s.pool with
    | .uncovered => none
    | .absent => none
    | .available => none
    | _ => some ⟨g, if blocked then stBlock else bypassFor c.half s.final s.altNext, 0, false, 0, false⟩

/-- A command word differs from the final state of its submodule (R157). -/
def isChange (m : Mach) (x : CutCmd) : Bool := x.state != (m.sm x.g).final

/-- C_h of a hub entry, for entries sent DELTA frames (R157). -/
def changeBudget (n : Nat) : Nat := (520 - mapLen n) / 4

/-- Hub entries whose changes exceed their budget. -/
def overBudget (m : Mach) (c : Cdr) (cmds : List CutCmd) : List Nat :=
  (List.range c.hubs.length).filter fun h =>
    let n := (c.hub h).total
    decide (130 < n) && (carried m h).isSome
      && decide (changeBudget n < ((cmds.filter (isChange m)).filter fun x => c.covering x.g == some h).length)

/-- Insertion of a change by the order of R157: fractional, then AVAILABLE by place, then rising g. -/
def heldInsert (x : CutCmd) : List CutCmd → List CutCmd
  | [] => [x]
  | y :: t =>
    let rank := fun z : CutCmd => if z.frac then 0 else if z.avail then 1 else 2
    let key := fun z : CutCmd => if rank z = 2 then 0 else z.place
    if rank x < rank y ∨ (rank x = rank y ∧ (key x < key y ∨ (key x = key y ∧ x.g < y.g))) then x :: y :: t else y :: heldInsert x t

/-- Submodules whose change is held in a hub entry beyond its budget (R157). -/
def heldIn (m : Mach) (c : Cdr) (cmds : List CutCmd) (h : Nat) : List Nat :=
  let ch := ((cmds.filter (isChange m)).filter fun x => c.covering x.g == some h).foldr heldInsert []
  (ch.drop (changeBudget (c.hub h).total)).map CutCmd.g

/-- The outcome of a cut: kind and level of each arm, commands kept, submodules held, arms cut again. -/
structure CutRes where
  kinds : List CutKind
  levels : List (Option Cut)
  /-- ranking used, per arm. -/
  ranks : List (List RankE)
  cmds : List CutCmd
  held : List Nat
  redone : List Nat
  deriving DecidableEq, Repr

/-- How arm `a` is cut (R128, R159, R379, R402, R470); `asBlocked` is the condition of R189. -/
def cutKind (m : Mach) (asBlocked : Bool) (a : Nat) : CutKind :=
  if asBlocked then .blocked
  else if m.loop.graph.isNone || !(m.g (armIdx a 0)).good then .refBad
  else .normal

/-- The cut of every arm within the change budget (R155–R157).
DESIGN CHOICE: in a cut without a polarity (blocked, or ARM_VREF not good) SM_SCORE shows the key of polarity +1. -/
def cutAll (asBlocked : Bool) (m : Mach) (c : Cdr) : CutRes :=
  let arms := List.range c.armCount
  let kinds := arms.map (cutKind m asBlocked)
  let kind := fun a => kinds.getD a .blocked
  let first := arms.map fun a => cutArm m c a (kind a) (m.arm a).rankPos (m.arm a).rankNeg
  let others := otherCmds m c asBlocked
  let tooMany := if asBlocked then [] else overBudget m c (first.flatMap Prod.snd ++ others)
  let redone := arms.filter fun a => tooMany.any fun h => (c.hub h).segs.any fun s => s.arm == a
  let again := arms.map fun a =>
    if redone.contains a then cutArm m c a (kind a) (rekey m 1 (m.arm a).rankPos) (rekey m (-1) (m.arm a).rankNeg)
    else first.getD a (none, [])
  let cmds := again.flatMap Prod.snd ++ others
  let held := (if asBlocked then [] else overBudget m c cmds).flatMap (heldIn m c cmds)
  let ranks := arms.map fun a =>
    let pos := match (again.getD a (none, [])).1 with | some k => k.pol == 1 | none => true
    let r := if pos then (m.arm a).rankPos else (m.arm a).rankNeg
    if redone.contains a then rekey m (if pos then 1 else -1) r else r
  { kinds := kinds, levels := again.map Prod.fst, ranks := ranks, cmds := cmds, held := held, redone := redone }

/-- A submodule inserted for the whole of the next period. -/
def wholePeriod (old new off : Nat) : Bool := (new == stInsert || new == stInsertNeg) && (off == 0 || old == new)

/-- ARM_FLAGS of an arm at a cut: the live bits (R160). -/
def liveFlags (m : Mach) (c : Cdr) (a : Nat) (kind : CutKind) (vlim : Bool) : Nat :=
  let x := m.arm a
  let lim := bandLimits m
  bitsToNat [vlim, x.idirBad, kind == .refBad, (c.armSms a).any fun g => (m.sm g).stranded, x.spread, x.mass, x.h == lim.1, x.h == lim.2]

/-- The cut entries of an arm (R139, R157, R160), from the state before the cut.
DESIGN CHOICE: they are written afresh at each cut, so that SAT of ARM_VPLACED, set with VLIM (R160), goes with the next cut without it. -/
def cutEntries (c : Cdr) (r : CutRes) (before m : Mach) (a : Nat) : Mach :=
  let x := m.arm a
  let lv := r.levels.getD a none
  let kind := r.kinds.getD a .blocked
  let vlim := match lv with | some k => k.vlim | none => false
  let mine := r.cmds.filter fun y => armOf y.g == a
  let eff := mine.map fun y =>
    let old := (before.sm y.g).final
    ((before.gv (slotIdx y.g 2)).toInt, old, if r.held.contains y.g then old else y.state, if r.held.contains y.g then 0 else y.offset)
  let ins := (eff.filter fun y => wholePeriod y.2.1 y.2.2.1 y.2.2.2).length
  let frac : Int := match lv with
    | some k => if k.frac then roundDiv (k.tOn * 2 ^ 24) (max m.pq 1) else 0
    | none => 0
  let vp := sat32 (vPlaced c.half x.idir (c.kArm a) m.pq (strandedZ before c a) eff)
  let changes := (mine.filter fun y => isChange before y && !r.held.contains y.g).length
  let min_ := r.redone.contains a
  let hld := mine.any fun y => r.held.contains y.g
  let live := liveFlags before c a kind vlim
  let sticky := x.sticky ||| (b2n vlim + 2 * b2n x.mass + 4 * b2n (bitOf live 3) + 8 * b2n (min_ || hld))
  let m1 := m.setArm a { x with live := live, sticky := sticky, rho := match lv with | some k => k.rho | none => x.rho }
  let m2 := putArm true a 10 ins 1#8 m1
  let m3 := putArm true a 11 frac 1#8 m2
  let m4 := putArm true a 12 vp (qOf (if vlim then [qVALID, qSAT] else [qVALID])) m3
  let m5 := putArm true a 13 (live + 256 * sticky : Nat) 1#8 m4
  let m6 := putArm true a 16 (min changes 65535 + 65536 * b2n min_ + 131072 * b2n hld : Nat) 1#8 m5
  if min_ || hld then m6.raise F.flowStatusChgLim else m6

/-- A command's effect on what Flowstone keeps (R156, R161). -/
def applyCmd (half : Bool) (held : List Nat) (m : Mach) (y : CutCmd) : Mach :=
  if held.contains y.g then m
  else m.modSm y.g fun s =>
    let leaves := !half && (s.final == stInsert || s.final == stInsertNeg) && isBypass y.state
    { s with final := y.state, count := min (s.count + switchings s.final y.state) (2 ^ 42 - 1)
             altNext := if leaves then !s.altNext else s.altNext }

/-- F_i of every submodule after a period (R161); `sw` gives its switchings. -/
def averageFsw (sw : Nat → Nat) (m : Mach) : Mach :=
  { m with flow := { m.flow with averaged := true
                                 sms := smap (fun _ => smReset) (fun g s => { s with favg := fswAvg s.favg (sw g) m.tb.p (m.fld F.flowServoAvgShift) }) m.flow.sms } }

/-- SM_BAND and SM_SCORE (R146): written for ranked submodules, held for the others. -/
def writeScores (c : Cdr) (r : CutRes) (m : Mach) : Mach :=
  let m1 := r.ranks.flatten.foldl (fun m e =>
    let band := ((m.arm (armOf e.g)).rankPos.find? fun x => x.g == e.g).map RankE.band
    (m.produce true (slotIdx e.g 19) (wordOf (sat32 (band.getD e.band))) 1#8 4).produce true (slotIdx e.g 20) (wordOf (sat32 e.key)) 1#8 4) m
  (c.allSms.filter fun g => (m1.sm g).pool != .available).foldl (fun m g =>
    [19, 20].foldl (fun m s => let e := m.g (slotIdx g s)
      if qBit e.quality qFORCED then m else m.gput (slotIdx g s) { e with quality := qPut e.quality qHELD true }) m) m1

/-- SM_CMD of every submodule that a lane carries commands to: the word sent, or the final state at offset 0 (R185). -/
def writeSmCmds (words : List (Nat × Nat × Nat)) (m : Mach) (g : Nat) : Mach :=
  let w := match words.find? fun x => x.1 == g with
    | some x => cmdWord x.2.1 x.2.2
    | none => cmdWord (m.sm g).final 0
  m.produce true (slotIdx g 0) (BitVec.ofNat 32 w) 1#8 4

/-- The command words that the lanes send: of hub entries of at most 130 every word, of others the changes kept (R157, R189). -/
def wordsOf (m : Mach) (c : Cdr) (r : CutRes) : List (Nat × Nat × Nat) :=
  r.cmds.filterMap fun y =>
    if r.held.contains y.g then none
    else match c.covering y.g with
      | some h => if (c.hub h).total ≤ 130 || isChange m y then some (y.g, y.state, y.offset) else none
      | none => none

/-- FLOWSTONE_CUT: the device after the cut, and the words for the lanes. -/
def flowCut (asBlocked : Bool) (m : Mach) : Mach × List (Nat × Nat × Nat) :=
  match m.conv.active with
  | none => (m, [])
  | some c =>
    let r0 := cutAll asBlocked m c
    -- a submodule that no lane carries commands to keeps its state
    let cs := carriedSms m c
    let r := { r0 with cmds := r0.cmds.filter fun y => cs.contains y.g }
    let words := wordsOf m c r
    let sw := fun g => match r.cmds.find? fun y => y.g == g with
      | some y => if r.held.contains g then 0 else switchings (m.sm g).final y.state
      | none => 0
    let m1 := averageFsw sw (r.cmds.foldl (applyCmd c.half r.held) m)
    let m2 := (List.range c.armCount).foldl (cutEntries c r m) m1
    let m3 := writeScores c r (c.allSms.foldl (writePoolSlots true) m2)
    (cs.foldl (writeSmCmds words) m3, words)

/-- An abandoned period (R139, R161, R164): no cut; the cut entries are held, every final state stays. -/
def flowAbandon (m : Mach) : Mach :=
  match m.conv.active with
  | none => m
  | some c =>
    let m1 := (List.range c.armCount).foldl (fun m a => [10, 11, 12, 13, 16].foldl (fun m o =>
      let e := m.g (armIdx a o)
      if qBit e.quality qFORCED then m else m.gput (armIdx a o) { e with quality := qPut e.quality qHELD true }) m) m
    (carriedSms m1 c).foldl (writeSmCmds []) (averageFsw (fun _ => 0) m1)

/-- The end of a period: one without a cut, as in SAFE, counts no switching, and F_i follows it too (R161). -/
def flowPeriodEnds (m : Mach) : Mach :=
  let m1 := match m.flow.averaged, m.conv.active with
    | false, some c => c.allSms.foldl (fun (m : Mach) g => m.produce true (slotIdx g 18) (BitVec.ofNat 32 ((m.sm g).favg / 65536)) 1#8 4) (averageFsw (fun _ => 0) m)
    | _, _ => m
  { m1 with flow := { m1.flow with averaged := false } }

/-- The BLOCK_ALL of an entry into SAFE: every submodule that a lane carries commands to is commanded to BLOCK (R189, R206). -/
def flowBlockAll (m : Mach) : Mach :=
  match m.conv.active with
  | none => m
  | some c =>
    let cs := carriedSms m c
    cs.foldl (writeSmCmds []) (cs.foldl (fun m g => m.modSm g fun s => { s with final := stBlock }) m)

/-! ### Pool commands (R169–R174) -/

/-- G of a command (R169). -/
def chkG (c : Cmd) : Bool := decide (c.f 0 4 < 24576)

def chkSmExclude (c : Cmd) : Option Nat :=
  if chkG c && decide (0x80 ≤ c.f 4 1) && decide (c.f 5 1 < 2) && c.zeroFrom 6 then none else some stMALFORMED

def chkSmRestore (c : Cmd) : Option Nat := if chkG c && c.zeroFrom 4 then none else some stMALFORMED

/-- A hub entry covering `g` is bound to a lane. -/
def coveredBound (m : Mach) (c : Cdr) (g : Nat) : Bool :=
  match c.covering g with
  | some h => (m.laneOf h).isSome
  | none => false

/-- SM_EXCLUDE (R170). DESIGN CHOICE: SM_EXCLUDE, SM_RESTORE and the loss or binding of a hub move submodules in an arm-level period too (R148). -/
def effSmExclude (c : Cmd) (m : Mach) : Mach × Eff :=
  match m.conv.active with
  | none => reject stSTATE m
  | some cd =>
    let g := c.f 0 4
    let s := m.sm g
    if !cd.exists_ g then reject stMALFORMED m
    else if s.pool = .uncovered then reject stSTATE m
    else if s.pool = .retired ∨ s.pool = .excluded then okEmpty m
    else if s.pool = .available ∧ (availOf m cd (armOf g)).length < (cd.armRec (armOf g)).required + 1 ∧ bitOf (c.f 5 1) 0 = false then reject stLIMIT m
    else okDone (m.setSm g { s.fresh with pool := .excluded, cause := c.f 4 1, stranded := false })

def effSmRestore (c : Cmd) (m : Mach) : Mach × Eff :=
  match m.conv.active with
  | none => reject stSTATE m
  | some cd =>
    let g := c.f 0 4
    let s := m.sm g
    if !cd.exists_ g then reject stMALFORMED m
    else if s.pool ≠ .retired ∧ s.pool ≠ .excluded then okEmpty m
    else if s.pool = .retired ∧ !m.inState [.ready] then reject stSTATE m
    else okDone (m.setSm g { s.fresh with pool := if coveredBound m cd g then .joining else .absent })

/-- Arm summary of POOL_REPORT (R172). -/
def armSummary (m : Mach) (c : Cdr) (a : Nat) : List Byte :=
  let n := fun p : Sm → Bool => ((c.armSms a).filter fun g => p (m.sm g)).length
  let st := fun q => n fun s => s.pool == q
  leBytes 2 (st .available) ++ leBytes 2 (c.armRec a).required ++ leBytes 2 (st .retired) ++ leBytes 2 (st .excluded) ++ leBytes 2 (st .suspect)
    ++ leBytes 2 (st .joining) ++ leBytes 2 (st .absent) ++ leBytes 2 (n Sm.stranded) ++ leBytes 4 (unsigned 32 (m.arm a).h)
    ++ leBytes 4 (m.arm a).fsw ++ leBytes 4 (m.gv (armIdx a 13)).toNat ++ leBytes 4 0

/-- The report of POOL_REPORT (R172). -/
def poolReport (m : Mach) : List Byte :=
  ((List.range 6).flatMap fun a =>
      match m.conv.active with
      | some c => if a < c.armCount then armSummary m c a else List.replicate 32 0#8
      | none => List.replicate 32 0#8)
    ++ (List.range 24576).map fun g => let s := m.sm g; BitVec.ofNat 8 (s.pool.code + 16 * s.final)

def effPoolReport (c : Cmd) (m : Mach) : Mach × Eff := okDone (writeBuf c (poolReport m) m)

/-- G_FIRST and COUNT of WEAR_READ and WEAR_WRITE fit the numbers and the buffer (R169, R171).
DESIGN CHOICE: G_FIRST above 24,576 is MALFORMED also with COUNT 0. -/
def chkWear (c : Cmd) : Option Nat :=
  if c.b 0 4 + c.b 4 4 ≤ 24576 ∧ 8 + 4 * c.b 4 4 ≤ c.len then none else some stMALFORMED

/-- SM_SWCOUNT of a submodule number, 0 beyond SM_COUNT. -/
def swCount (m : Mach) (g : Nat) : Nat :=
  match m.conv.active with
  | some c => if c.exists_ g then (m.sm g).count / 1024 else 0
  | none => 0

def effWearRead (c : Cmd) (m : Mach) : Mach × Eff :=
  if c.b 4 4 = 0 then okEmpty m
  else okDone (writeBufAt c 8 ((List.range (c.b 4 4)).flatMap fun i => leBytes 4 (swCount m (c.b 0 4 + i))) m)

def effWearWrite (c : Cmd) (m : Mach) : Mach × Eff :=
  match m.conv.active with
  | none => reject stSTATE m
  | some cd =>
    let l := (List.range (c.b 4 4)).map fun i => (c.b 0 4 + i, c.b (8 + 4 * i) 4)
    if l.isEmpty then okEmpty m
    else if l.any fun x => !cd.exists_ x.1 && x.2 != 0 then reject stMALFORMED m
    else okDone (l.foldl (fun m x => if cd.exists_ x.1 then m.modSm x.1 fun s => { s with count := 1024 * x.2 } else m) m)

def chkFswTarget (c : Cmd) : Option Nat :=
  if !((decide (c.f 0 1 ≤ 5) || c.f 0 1 == 0xFF) && c.f 1 3 == 0 && c.zeroFrom 8) then some stMALFORMED
  else if c.f 4 4 < 1000 ∨ 10000000 < c.f 4 4 then some stLIMIT
  else none

/-- FSW_TARGET (R161, R173). DESIGN CHOICE: an arm at or above ARM_COUNT, here and in ARM_FLAG_CLEAR, completes DONE and changes nothing. -/
def effFswTarget (c : Cmd) (m : Mach) : Mach × Eff :=
  match m.conv.active with
  | none => reject stSTATE m
  | some _ =>
    let set := fun p : Arm × Nat => if c.f 0 1 = 0xFF ∨ c.f 0 1 = p.2 then { p.1 with fsw := c.f 4 4 } else p.1
    okDone { m with flow := { m.flow with arms := (m.flow.arms.zipIdx).map set } }

/-- The sticky bits cleared in ARM_FLAGS of an arm; a forced entry keeps its value (R30, R173). -/
def clearSticky (m : Mach) (a : Nat) : Mach :=
  let e := m.g (armIdx a 13)
  if qBit e.quality qFORCED then m else m.gput (armIdx a 13) { e with value := BitVec.ofNat 32 (putBits e.value.toNat 8 8 0) }

def chkArmFlagClear (c : Cmd) : Option Nat := if c.f 0 1 < 64 ∧ c.zeroFrom 1 then none else some stMALFORMED

def effArmFlagClear (c : Cmd) (m : Mach) : Mach × Eff :=
  match m.conv.active with
  | none => reject stSTATE m
  | some _ =>
    let clear := fun p : Arm × Nat => if bitOf (c.f 0 1) p.2 then { p.1 with sticky := 0 } else p.1
    if c.f 0 1 = 0 then okEmpty m
    else
      let m1 := { m with flow := { m.flow with arms := (m.flow.arms.zipIdx).map clear } }
      okDone (((List.range m.flow.arms.length).filter fun a => bitOf (c.f 0 1) a).foldl clearSticky m1)

/-- Attachment codes (R174, R209). -/
def Attach.code : Attach → Nat
  | .unbound => 0 | .waiting => 1 | .refused => 2 | .bound => 3

/-- Record of a lane (R174). -/
def laneRecord (l : Lane) : List Byte :=
  let id := l.ident.getD ⟨0, 0, 0, 0, 0, 0, 0, 0⟩
  leBytes 1 l.attach.code ++ leBytes 1 (if l.attach = .bound then l.entry.getD 0xFF else 0xFF) ++ leBytes 2 id.smCount ++ leBytes 4 0 ++ leBytes 8 id.uid

def effLaneMapRead (c : Cmd) (m : Mach) : Mach × Eff := okDone (writeBuf c (m.zl.lanes.flatMap laneRecord) m)

end Sys2Proof.Machine
end

