-- ==== Sys2Proof/Machine/Zl.lean ====
section
/-! DEFINITION. Machine/Zl.lean: the ZeldLink lanes: training, identity and attachment, calibration and tracking, downlink frames, and the report frames (R31, R32, R176–R209). -/
set_option Elab.async false
namespace Sys2Proof.Machine

/-! ### Lanes -/

def Mach.modLane (m : Mach) (l : Nat) (f : Lane → Lane) : Mach := m.setLane l (f (m.lane l))

/-- Lanes in step 8 of R180. -/
def Lane.up (x : Lane) : Bool := decide (8 ≤ x.step)

/-- ASYM of a lane (R209). -/
def asymOf (m : Mach) (l : Nat) : Int := m.sfld (F.zlAsymAsym l) (-400) 400

/-- LANE_EN of a lane. -/
def laneEnabled (m : Mach) (l : Nat) : Bool := bitOf (m.fld F.zlEnableLaneEn) l

/-- A signal of a hub entry written by the Steward (R208). -/
def putHub (h o v : Nat) (m : Mach) : Mach := m.produce true (hubIdx h o) (BitVec.ofNat 32 v) 1#8 2

/-- A signal of a hub entry written from its hub (R208). -/
def putHubRep (h o v : Nat) (m : Mach) : Mach := m.produce true (hubIdx h o) (BitVec.ofNat 32 v) 1#8 (0x10 + h)

/-! ### Downlink frames (R184–R189, R203) -/

/-- P in force from the launch at the next boundary (R184, R216). -/
def nextPeriodNs (m : Mach) : Nat := m.tb.pNext.getD m.tb.p

/-- FLAGS of a downlink frame: UNIT and TWIN. -/
def dlFlags (m : Mach) : Nat := m.pair.unit % 2 + 2 * b2n (m.pair.role == .twin)

/-- A frame of command type for the next boundary (R184, R189). -/
def commandFrame (m : Mach) (l typ departQ : Nat) (body : List Byte) : Out :=
  let lead := ((m.pq : Int) - departQ - (m.lane l).d).toNat
  .downlink l (dlFrame ⟨typ, dlFlags m, body.length / 4, m.pair.claim, m.tb.k + 1, lead, nextPeriodNs m, 0⟩ body) departQ

/-- A frame of another type: no SEQ and no LEAD (R184). -/
def plainFrame (m : Mach) (typ flags param : Nat) : List Byte := dlFrame ⟨typ, dlFlags m + flags, 0, m.pair.claim, 0, 0, nextPeriodNs m, param⟩ []

/-- CONFIG with HUB_TO sent on a lane (R203). -/
def sendConfig (l : Nat) (m : Mach) : Mach :=
  let hubTo := m.fld F.zlTimingHubTo
  (m.send (.downlink l (plainFrame m 0x05 0 hubTo) 0)).modLane l fun x => { x with hubToSent := hubTo }

/-- The lanes BOUND at this unit, bit l for lane l. -/
def boundMask (m : Mach) : Nat := maskOf 16 fun l => (m.lane l).attach == .bound

/-- The lanes BOUND at the partner, as its last heartbeat says. -/
def theirBound (m : Mach) : Nat := match m.pair.partner with | some q => q.bound | none => 0

/-- The lowest lane BOUND at one unit only (R286). -/
def lowestOneSided (m : Mach) : Option Nat := (List.range 16).find? fun l => bitOf (boundMask m) l != bitOf (theirBound m) l

/-- What the device sends on its BOUND lanes for the next boundary (R189). -/
inductive Dl where
  | hold
  | blockAll
  | cut (words : List (Nat × Nat × Nat))
  deriving DecidableEq, Repr

/-- Body of the frame of a hub entry with Flowstone's commands: CMD up to 130 submodules, DELTA beyond (R185, R186, R189). -/
def cutBody (m : Mach) (h : HubRec) (words : List (Nat × Nat × Nat)) : Nat × List Byte :=
  let word := fun g => (words.find? fun x => x.1 == g).map fun x => cmdWord x.2.1 x.2.2
  if h.total ≤ 130 then (0x01, h.sms.flatMap fun g => leBytes 4 ((word g).getD (cmdWord (m.sm g).final 0)))
  else (0x07, deltaBody h.total fun j => (segPos h.segs j).bind word)

/-- The command-type frame of one lane. -/
def laneFrame (m : Mach) (departQ : Nat) (d : Dl) (l : Nat) : Option Out :=
  match (m.lane l).entry, m.conv.active with
  | some h, some c =>
    if (m.lane l).attach = .bound && (m.lane l).up then
      some (match d with
        | .hold => commandFrame m l 0x02 departQ []
        | .blockAll => commandFrame m l 0x03 departQ []
        | .cut w => let b := cutBody m (c.hub h) w; commandFrame m l b.1 departQ b.2)
    else none
  | _, _ => none

/-- DOWNLINK_FRAME_SEND on every lane in step 8. -/
def sendFrames (departQ : Nat) (d : Dl) (m : Mach) : Mach :=
  { m with zl := { m.zl with sent := true } }.sendAll ((List.range 16).filterMap (laneFrame m departQ d))

/-- The condition of R189 under which a cut is made as in BLOCKED. -/
def cutBlocked (m : Mach) : Bool := modeBlocks m || m.flow.blockDue

/-- The BLOCK_ALL of an entry into SAFE, once (R206). -/
def sendBlockAll (departQ : Nat) (m : Mach) : Mach :=
  if m.zl.blockAllDue then
    let m1 := sendFrames departQ .blockAll (flowBlockAll m)
    { m1 with zl := { m1.zl with blockAllDue := false } }
  else m

/-- The cut of the period and its frames (R155, R189); in SAFE only the BLOCK_ALL of the entry. -/
def sendCut (departQ : Nat) (m : Mach) : Mach :=
  if m.inState [.safe] then sendBlockAll departQ m
  else
    let b := cutBlocked m
    let r := flowCut b m
    sendFrames departQ (if b then .blockAll else .cut r.2) r.1

/-- An abandoned period and its HOLD frames (R58, R164); in SAFE only the BLOCK_ALL of the entry. -/
def sendHold (departQ : Nat) (m : Mach) : Mach :=
  if m.inState [.safe] then sendBlockAll departQ m else sendFrames departQ .hold (flowAbandon m)

/-- A frame of 36 bytes that starts at `departQ` has left by the downlink deadline of the next boundary: 12.8 ns of frame time, 1.0 µs before it (R177, R189). -/
def meetsDeadline (m : Mach) (departQ : Nat) : Bool := decide (5 * departQ + 256 + 20000 ≤ 5 * m.pq)

/-- The BLOCK_ALL of an entry into SAFE after the frames of the period had gone, or in a period whose frames nothing else sends: for the next boundary while its
downlink deadline has not passed (R206).
DESIGN CHOICE: no command carries the instant of the entry, so that instant is free, and the frames are shown with the next boundary's. -/
def lateBlockAll (m : Mach) : Mach :=
  if m.inState [.safe] && meetsDeadline m (Config.safeDepartQ m.tb.k) then sendBlockAll (Config.safeDepartQ m.tb.k) m else m

/-- Keep-alives: on lanes past step 5 that are not BOUND, and in SAFE on the BOUND lanes after the BLOCK_ALL (R31, R189). -/
def sendKeepAlives (m : Mach) : Mach :=
  m.sendAll ((List.range 16).filterMap fun l =>
    let x := m.lane l
    if (x.attach != .bound && decide (5 ≤ x.step)) || (m.inState [.safe] && !m.zl.blockAllDue && x.attach == .bound && x.up) then some (commandFrame m l 0x01 0 [])
    else none)

/-! ### Loss and attachment (R31, R32, R204) -/

/-- Hub-produced slots of an entry's submodules, and its signals, lose VALID (R32, R208). -/
def invalidateHub (h : Nat) (hub : HubRec) (slots : Bool) (m : Mach) : Mach :=
  let m1 := if slots then hub.sms.foldl (fun m g => (List.range 15).foldl (fun m s => m.invalidate (slotIdx g (s + 1)) true) m) m else m
  (List.range 7).foldl (fun m o => m.invalidate (hubIdx h o) false) m1

/-- A lane back at the start of training: what it keeps is its lock, its margin, the last identity received (R174), the times of its last events,
and an entry held through the partner (R286). -/
def laneRestart (x : Lane) : Lane :=
  let y := { laneInit with lock := x.lock, step := b2n x.lock, ident := x.ident, margin := x.margin, trainFailAt := x.trainFailAt, marginAt := x.marginAt
                           claimSeen := x.claimSeen }
  if x.remote then { y with remote := true, entry := x.entry, used := x.used, slow := x.slow } else y

/-- Link loss of a lane, or its training restarts: the entry it holds is LOST (R31). -/
def loseLane (l : Nat) (m : Mach) : Mach :=
  let x := m.lane l
  let m0 := m.modLane l laneRestart
  match x.attach, x.entry, m.conv.active with
  | .bound, some h, some c =>
    if m.pair.inTwin && bitOf (theirBound m) l then m0.modLane l fun y => { y with entry := some h, remote := true }
    else
    let m1 := { m0 with conv := { m0.conv with bind := setAt m0.conv.bind h none } }
    (invalidateHub h (c.hub h) true (flowLost (c.hub h) m1)).post 0x0105 []
  | _, _, _ => m0

/-- An entry held through the partner is LOST once the partner holds it no longer (R31, R286). -/
def remoteStep (m : Mach) (l : Nat) : Mach :=
  let x := m.lane l
  match x.remote, x.entry, m.conv.active with
  | true, some h, some c =>
    if m.pair.inTwin && bitOf (theirBound m) l then m
    else
      let m1 := m.setLane l { x with remote := false, entry := none, used := none }
      let m2 := { m1 with conv := { m1.conv with bind := setAt m1.conv.bind h none } }
      (invalidateHub h (c.hub h) true (flowLost (c.hub h) m2)).post 0x0105 []
  | _, _, _ => m

/-- An entry the partner alone holds, taken up through its lane (R286). -/
def remoteBind (l h : Nat) (c : Cdr) (m : Mach) : Mach :=
  let m1 := putHub h 0 l (m.modLane l fun x => { x with entry := some h, remote := true })
  flowBound (c.hub h) { m1 with conv := { m1.conv with bind := setAt m1.conv.bind h (some l) } }

/-- A lane's attachment. -/
def setAttach (l : Nat) (a : Attach) (m : Mach) : Mach := m.modLane l fun x => { x with attach := a, identNew := false }

/-- A lane BOUND to an entry: its delay is calibrated anew (R31, R149). -/
def bindLane (l h : Nat) (c : Cdr) (m : Mach) : Mach :=
  let m1 := m.modLane l fun x => { x with attach := .bound, entry := some h, identNew := false, step := 5, samples := [], lost := 0, calOpen := false,
                                          calFailed := false, silent := 0, slow := [], remote := false }
  let m2 := { m1 with conv := { m1.conv with bind := setAt m1.conv.bind h (some l) } }
  (putHub h 6 (m.lane l).margin (putHub h 0 l (if (m.lane l).remote then m2 else flowBound (c.hub h) m2))).post 0x0104 []

/-- The checks of R31 on an identity: mask of the failing ones. -/
def mismatchMask (c : Cdr) (h : HubRec) (id : Ident) (p : Nat) : Nat :=
  b2n (id.smCount != h.total) + 2 * b2n (h.segs.any fun s => (c.armRec s.arm).smType != id.smType) + 4 * b2n (decide (laneCapacity p < h.total))

/-- The rows of R31 for an identity taken at a boundary. -/
def attachLane (m : Mach) (l : Nat) : Mach :=
  let x := m.lane l
  match x.attach, x.identNew, x.ident with
  | .unbound, true, some id =>
    match m.conv.active with
    | none => setAttach l .waiting m
    | some c =>
      match c.hubs.findIdx? fun h => h.used && h.uid == id.uid with
      | none => (setAttach l .refused m).post 0x0101 (w64 id.uid ++ [l])
      | some h =>
        let k := mismatchMask c (c.hub h) id m.tb.p
        let other := (m.laneOf h).getD l
        if other ≠ l then (setAttach l .refused m).post 0x0102 (w64 id.uid ++ [l, other])
        else if k ≠ 0 then (setAttach l .refused m).post 0x0103 (w64 id.uid ++ [l, k])
        else bindLane l h c m
  | _, _, _ => m

/-- Every lane past step 5 that is not BOUND is evaluated again at the next boundary, by the last identity received (R22, R31). -/
def reattachAll (m : Mach) : Mach :=
  { m with zl := { m.zl with lanes := m.zl.lanes.map fun x =>
      if x.attach != .bound && decide (5 ≤ x.step) && x.ident.isSome then { x with attach := .unbound, identNew := true } else x } }

/-- Every lane unbound without an event, as at CDR_COMMIT (R22) or for one entry at HUB_FORGET (R35); the signals of its entry lose VALID (R208). -/
def unbindLanes (sel : Nat → Bool) (m : Mach) : Mach :=
  (List.range 16).foldl (fun m l =>
    let x := m.lane l
    match x.attach == .bound || x.remote, x.entry with
    | true, some h =>
      if sel h then
        let m1 := m.setLane l { x with attach := if x.remote then x.attach else .unbound, remote := false, entry := none, step := min x.step 5, used := none, pend := none, slow := [], calOpen := false, calFailed := false }
        invalidateHub h hubUnused false { m1 with conv := { m1.conv with bind := setAt m1.conv.bind h none } }
      else m
    | _, _ => m) m

/-- Entries of the record that are bound to no lane at the first boundary after CDR_COMMIT or HUB_ADD: their slots are HELD (R32). -/
def holdUnbound (m : Mach) : Mach :=
  match m.conv.heldDue, m.conv.active with
  | true, some c =>
    (c.hubs.zipIdx).foldl (fun m p => if p.1.used && (m.laneOf p.2).isNone then invalidateHub p.2 p.1 true m else m)
      { m with conv := { m.conv with heldDue := false } }
  | _, _ => m

/-! ### Training and identity (R180, R181) -/

/-- Block lock acquired on a lane: step 1 is done. -/
def laneLock (l : Nat) (m : Mach) : Mach :=
  m.modLane l fun x => if x.lock then x else { x with lock := true, step := max x.step 1, trainCount := 0, farReady := false, identReq := false }

/-- This side's RX_READY (R180 step 3). -/
def rxReady (n : Nat) : Bool := decide (4096 ≤ n)

/-- REPORT_COUNT and ALARM_LEN of an uplink header without reports and alarms (R177, R190). -/
def bareHead (b : List Byte) : Bool := fieldLE b 2 2 == 0 && fieldLE b 0x10 2 == 0

/-- A TRAIN frame received on a lane; one that is discarded ends the run of valid frames. -/
def trainRx (l : Nat) (b : List Byte) (m : Mach) : Mach :=
  let x := m.lane l
  if !x.lock || !laneEnabled m l || decide (4 < x.step) then m
  else if !(frameOk b && b.length == 36 && bareHead b && fieldLE b 0 1 == 0x90) then m.setLane l { x with trainCount := 0 }
  else
    let n := min (x.trainCount + 1) 4096
    let far := bitOf (fieldLE b 1 1) 4
    let own := rxReady n
    m.setLane l { x with trainCount := n, farReady := far, step := if own then (if far then 4 else max x.step 3) else max x.step 2, identReq := x.identReq || (own && far) }

/-- The TRAIN frame of a lane (R180, R184). -/
def trainTx (l : Nat) (m : Mach) : Mach :=
  let x := m.lane l
  if x.lock && laneEnabled m l && decide (x.step ≤ 4) then
    m.send (.zlTrain l (plainFrame m 0x06 (4 * b2n x.identReq + 8 * b2n (rxReady x.trainCount)) (m.fld F.zlTxeqPre + 256 * m.fld F.zlTxeqPost)))
  else m

/-- An event at most once per second of device uptime. -/
def oncePerSecond (m : Mach) (last : Option Nat) : Bool := match last with | some t => decide (t + 1000000000 ≤ m.tb.uptime) | none => true

/-- Steps 1 to 4 not complete within 20 ms (R180). -/
def trainTimeout (l : Nat) (m : Mach) : Mach :=
  let x := m.lane l
  if 5 ≤ x.step || !laneEnabled m l then m
  else
    let m1 := m.setLane l { laneRestart x with trainFailAt := if oncePerSecond m x.trainFailAt then some m.tb.uptime else x.trainFailAt }
    if oncePerSecond m x.trainFailAt then m1.post 0x0B01 [l] else m1

/-- An IDENT frame is well formed (R177, R181). -/
def identOk (b : List Byte) : Bool :=
  frameOk b && b.length == 68 && fieldLE b 0 1 == 0x83 && allZero (sliceBytes b 2 2) && allZero (sliceBytes b 8 24)

/-- An IDENT frame received (R180 steps 4 and 5, R181). -/
def identRx (l : Nat) (b : List Byte) (m : Mach) : Mach :=
  let x := m.lane l
  if !x.lock || decide (x.step < 4) || x.attach == .bound || !identOk b then m
  else
    let id := parseIdent b
    if id.proto ≠ 1 || decide (id.cap < id.smCount) || !(decide (1 ≤ id.smType) && decide (id.smType ≤ 3)) then
      (if 5 ≤ x.step then m else m.post 0x0B02 [l])
    else m.setLane l { x with ident := some id, identNew := x.identNew || x.attach == .unbound, step := 5 }

/-! ### Calibration and tracking (R182, R183) -/

/-- Insertion into a rising list. -/
def insertInt (v : Int) : List Int → List Int
  | [] => [v]
  | a :: t => if v ≤ a then v :: a :: t else a :: insertInt v t

/-- Median: of an even number the mean of the two middle samples, rounded (DEDUCED). -/
def medianOf (l : List Int) : Int :=
  let s := l.foldr insertInt []
  let n := s.length
  if n % 2 = 1 then s.getD (n / 2) 0 else roundDiv (s.getD (n / 2 - 1) 0 + s.getD (n / 2) 0) 2

/-- Spread of a set of samples. -/
def spreadOf (l : List Int) : Int := l.foldl max (l.headD 0) - l.foldl min (l.headD 0)

/-- The failing test of a calibration with a limit of delay: 1 exchanges lost, 2 spread, 3 delay (R182). -/
def calTest (samples : List Int) (lost : Nat) (limit : Int) : Option Nat :=
  if 4 < lost then some 1 else if 8 < spreadOf samples then some 2 else if limit < medianOf samples then some 3 else none

/-- The end of a calibration after 64 exchanges: CONFIG on success (R180 steps 6 and 7). -/
def finishCal (l : Nat) (m : Mach) : Mach :=
  let x := m.lane l
  match calTest x.samples x.lost 1000 with
  | some t => ((m.setLane l { x with calFailed := true, calOpen := false, spread := (spreadOf x.samples).toNat }).raise F.zlStatusCalFail).post 0x0B03 [l, Config.unstatedArg 0x0B03 t]
  | none =>
    let d := medianOf x.samples
    let m1 := m.setLane l { x with d := d, dCal := d, spread := (spreadOf x.samples).toNat, drifted := false, trackSum := 0, trackCount := 0, calOpen := false, step := 7 }
    let m2 := match x.entry with | some h => putHub h 1 d.toNat m1 | none => m1
    sendConfig l m2

/-- A calibration with all its exchanges made comes to its end. -/
def calStep (l : Nat) (m : Mach) : Mach := if (m.lane l).samples.length + (m.lane l).lost = 64 then finishCal l m else m

/-- The lane is in step 6. -/
def Lane.calibrating (x : Lane) : Bool := x.attach == .bound && x.step == 5 && !x.calFailed

/-- A CAL_RSP received `dtQ` after the CAL_REQ departed (R182). -/
def calRsp (l : Nat) (b : List Byte) (dtQ : Nat) (m : Mach) : Mach :=
  let x := m.lane l
  if x.calibrating && x.calOpen && frameOk b && bareHead b && fieldLE b 0 1 == 0x82 && b.length == 44 then
    let s := roundDiv ((dtQ : Int) - fieldLE b 32 4 + 2 * asymOf m l) 2
    calStep l (m.setLane l { x with samples := x.samples ++ [s], calOpen := false })
  else m

/-- The CAL_REQ of a period, an unanswered one counting as lost (R182). -/
def calBoundary (m : Mach) (l : Nat) : Mach :=
  if !(m.lane l).calibrating then m
  else
    let m1 := m.modLane l fun x => if x.calOpen then { x with calOpen := false, lost := x.lost + 1 } else x
    let m2 := calStep l m1
    if (m2.lane l).calibrating then (m2.send (.zlCalReq l (plainFrame m2 0x04 0 0))).modLane l fun x => { x with calOpen := true } else m2

/-- The measured report delay of a used frame, times 100, in units of 0.25 ns (R183): arrival of the start block less its nominal departure. -/
def reportDelay100 (id : Ident) (n : Nat) (startQ : Int) : Int := 100 * startQ - 100 * id.ulOfs + 1024 * reportBlock (n - 1)

/-- The tracking of D over 1,024 periods (R183). -/
def delayTrack (l : Nat) (m : Mach) : Mach :=
  let x := m.lane l
  if !x.up || x.trackCount = 0 then m
  else
    let n : Int := x.trackCount
    let diff := x.trackSum - 100 * n * x.d
    let d := if 200 * n < diff then x.d + 1 else if diff < -(200 * n) then x.d - 1 else x.d
    let far := decide (16 < (d - x.dCal).natAbs)
    let m1 := m.setLane l { x with d := d, trackSum := 0, trackCount := 0, drifted := far }
    let m2 := match x.entry with | some h => if d = x.d then m1 else putHub h 1 d.toNat m1 | none => m1
    if far && !x.drifted then (m2.raise F.zlStatusDrift).post 0x0B04 [l, unsigned 32 x.dCal, unsigned 32 d] else m2

/-! ### Report frames (R190–R198) -/

/-- Why a report frame is discarded. -/
inductive RepRes where
  | used | malformed | late | badSeq
  deriving DecidableEq, Repr

/-- R194 on a report frame for hub entry `h`, its last block `lastQ` after the boundary. -/
def reportRes (m : Mach) (h : HubRec) (b : List Byte) (lastQ : Int) : RepRes :=
  let u := ulHead b
  if !reportOk b || u.count != h.total then .malformed
  else if u.seq ≠ m.tb.k then .badSeq
  else if 4600 < lastQ then .late
  else .used

/-- The fast slots of one submodule from its report (R194). -/
def fastSlots (c : Cdr) (h g : Nat) (r : SmReport) (m : Mach) : Mach :=
  let put := fun (m : Mach) (s : Nat) (v : Int) (q : Byte) => m.produce true (slotIdx g s) (wordOf v) q (0x10 + h)
  let m1 := put m 1 (r.f % 2 ^ 24 : Nat) 1#8
  if bitOf r.f 22 then m1
  else
    let v := bitsOf r.f 0 17
    let m2 := put m1 2 (sat32 (roundDiv ((v * 2 ^ 24 : Nat) : Int) (max 1 (10 * (c.armRec (armOf g)).vNom)))) (if v = 131071 then qOf [qVALID, qOVR] else 1#8)
    put m2 3 (bitsOf r.f 17 6 : Nat) 1#8

/-- A field of 12 bits in 0.125 °C: m°C, or `none` where it is not available. -/
def tempOf (v : Nat) : Option Int := if v % 4096 = 0x800 then none else some (signed 12 v * 125)

/-- The multiplexed slots of one submodule from its slow record (R193, R194). -/
def slowSlots (c : Cdr) (h g rec_ : Nat) (m : Mach) : Mach :=
  let put := fun (s : Nat) (v : Int) (m : Mach) => m.produce true (slotIdx g s) (wordOf v) 1#8 (0x10 + h)
  let f := fun lo w => bitsOf rec_ lo w
  let temp := fun (s v : Nat) (m : Mach) => match tempOf v with | some t => put s t m | none => m
  let a := c.armRec (armOf g)
  let batt := a.smType == 3
  let vb : Int := if batt then sat32 (roundDiv ((f 24 16 * 2 ^ 24 : Nat) : Int) (max 1 (5 * a.vBatt))) else 0
  let ib : Int := if batt then sat32 (roundDiv (signed 16 (f 40 16) * 2 ^ 24 * c.vBaseDc) (max 1 (10000 * c.sBase))) else 0
  let m1 := put 7 ib (put 6 vb (temp 5 (f 12 12) (temp 4 (f 0 12) m)))
  let m2 := put 11 (f 96 32 : Nat) (put 10 (f 80 16 : Nat) (put 9 (f 72 8 : Nat) (put 8 (f 56 16 : Nat) m1)))
  put 15 (f 176 16 : Nat) (put 14 (f 160 16 : Nat) (put 13 (f 144 16 : Nat) (put 12 (f 128 16 : Nat) m2)))

/-- The alarm section of a used report: its events, and the marks it gives the pool (R196–R198). -/
def takeAlarms (h : Nat) (hub : HubRec) (b : List Byte) (m : Mach) : Mach × List (Nat × Nat) :=
  let u := ulHead b
  if bitOf u.flags 0 then
    let marks := parseMarks b u.count
    let n := fun cls => (marks.filter fun x => x.2 == cls).length
    let word := (List.range 4).foldl (fun a cls => a + min (n cls) 255 * 256 ^ cls) 0
    ((putHubRep h 5 word m).post 0x0B08 ((List.range 4).map n), marks)
  else
    let recs := (parseAlarms b u.count u.alarmLen).filter fun a => decide (a.1 < u.count) && decide (a.2.1 < 4)
    (recs.foldl (fun m a => match segPos hub.segs a.1 with
      | some g => m.postSm 0x0B07 a.2.1 [g, a.2.1, a.2.2] g
      | none => m) m, recs.map fun a => (a.1, a.2.1))

/-- A claim above the device's own in a used report (R201, R282). -/
def claimSeen (l acc : Nat) (m : Mach) : Mach :=
  let x := m.lane l
  let m1 := m.setLane l { x with claimSeen := acc }
  if acc ≤ m.pair.claim then m1
  else
    let m2 := m1.raise F.zlStatusForeignClaim
    if acc = x.claimSeen then m2
    else
      let m3 := m2.post 0x0B06 [l, acc, m.pair.claim]
      if m.inState [.run] && (m.pair.role == .solo || m.pair.role == .senior || m.pair.role == .twin) then m3.roleAt .deposed else m3

/-- The effect of a report frame used for the period (R194, R196, R198, R201, R208); in SAFE no submodule slot is written from it (R206). -/
def useReport (l h : Nat) (c : Cdr) (b : List Byte) (m : Mach) : Mach :=
  let u := ulHead b
  let hub := c.hub h
  let reps := parseReports b u.count
  let m1 := if m.inState [.safe] then m else (hub.sms.zip reps).foldl (fun m p => fastSlots c h p.1 p.2 m) m
  let a := takeAlarms h hub b m1
  let share := reps.map fun r => if bitOf r.f 22 then none else some r.s
  let m2 := a.1.modLane l fun x =>
    { x with used := some ⟨reps, a.2⟩
             slow := if m.tb.k % 8 = 0 then [share] else if x.slow.length = m.tb.k % 8 then x.slow ++ [share] else [] }
  let m3 := putHubRep h 2 u.accClaim m2
  let m4 := putHubRep h 3 (u.miss + 256 * u.tmo + 65536 * u.flags) m3
  let m5 := putHubRep h 4 ((u.disc.zipIdx).foldl (fun a d => a + d.1 * 256 ^ d.2) 0) m4
  claimSeen l u.accClaim m5

/-- RECEIPT of a report frame that passes R194 (R279, R286). -/
def sendReceipt (l h : Nat) (b : List Byte) (m : Mach) : Mach :=
  let crc := leNat (b.drop (b.length - 4))
  let m1 := { m with pair := { m.pair with receiptsOwn := m.pair.receiptsOwn ++ [Receipt.mk l h crc] } }
  m1.pairSend 0x04 (leBytes 1 l ++ leBytes 1 h ++ leBytes 2 0 ++ leBytes 4 crc)

/-- Tracking sample of a used frame, in operation (R183). -/
def trackSample (l n : Nat) (startQ : Int) (m : Mach) : Mach :=
  m.modLane l fun x => match x.up, x.ident with
    | true, some id => { x with trackSum := x.trackSum + reportDelay100 id n startQ + 100 * asymOf m l, trackCount := x.trackCount + 1 }
    | _, _ => x

/-- FORWARD of a report frame of the lowest one-sided lane, as it arrives and whatever R194 says of it here (R279, R286).
DEDUCED: a frame whose CRC proves bad at its end makes no valid copy. -/
def forwardReport (l : Nat) (b : List Byte) (m : Mach) : Mach :=
  if m.pair.inTwin && lowestOneSided m == some l then m.pairSend 0x05 (leBytes 1 l ++ leBytes 3 0 ++ b.take (b.length - 4)) else m

/-- REPORT_FRAME on a lane. -/
def reportRx (l : Nat) (b : List Byte) (startQ lastQ : Int) (m : Mach) : Mach :=
  let x := m.lane l
  match x.attach, x.entry, m.conv.active with
  | .bound, some h, some c =>
    let m0 := if frameOk b && fieldLE b 0 1 == 0x81 then forwardReport l b (m.modLane l fun x => { x with heard := true }) else m
    match reportRes m (c.hub h) b lastQ with
    | .malformed => m0.bump (F.zlLaneCrcErr l) 1
    | .badSeq => m0.bump (F.zlLaneLateCnt l) 1
    | .late => (m0.bump (F.zlLaneLateCnt l) 1).raise F.zlStatusLate
    | .used =>
      let m1 := trackSample l (c.hub h).total startQ m0
      if m.pair.inTwin then (sendReceipt l h b m1).modLane l fun x => { x with pend := some b }
      else useReport l h c b m1
  | _, _, _ => m

/-- SLOW_RECORD_WRITE at the intake of a period with k mod 8 = 7 (R195). -/
def slowRecordWrite (m : Mach) : Mach :=
  match m.conv.active with
  | none => m
  | some c =>
    if m.tb.k % 8 ≠ 7 || m.inState [.safe] then m
    else (List.range 16).foldl (fun m l =>
      let x := m.lane l
      match x.attach == .bound || x.remote, x.entry with
      | true, some h =>
        if x.slow.length ≠ 8 then m
        else (((c.hub h).sms).zipIdx).foldl (fun m p =>
          let shares := x.slow.map fun f => f.getD p.2 none
          if shares.all Option.isSome then slowSlots c h p.1 (slowRecord (shares.map fun s => s.getD 0)) m else m) m
      | _, _ => m) m

/-! ### The boundary (R31, R33, R180, R203, R204) -/

/-- Whether a lane is lost at the boundary: declared before, LOSS_N silent periods, or disabled (R204, R209). -/
def laneLossDue (m : Mach) (l : Nat) : Bool :=
  let x := m.lane l
  x.lossDue || (x.up && decide (m.fld F.zlTimingLossN ≤ x.silent)) || (!laneEnabled m l && decide (1 < x.step))

/-- The silence of a lane counted at the end of a period. -/
def countSilence (x : Lane) : Lane := if x.up then { x with silent := if x.heard then 0 else x.silent + 1, heard := false } else { x with heard := false }

/-- Link events of a boundary (R33): losses, then identities in lane order. -/
def linkEvents (m : Mach) : Mach :=
  let m1 := { m with zl := { m.zl with lanes := m.zl.lanes.map countSilence } }
  let m2 := (List.range 16).foldl (fun m l => if laneLossDue m l then loseLane l m else m) m1
  holdUnbound ((List.range 16).foldl attachLane ((List.range 16).foldl remoteStep m2))

/-- The lanes at a boundary after its link events: step 8, calibration, CONFIG, keep-alives, and what a period gathers started afresh. -/
def laneBoundary (m : Mach) : Mach :=
  let m1 := { m with zl := { m.zl with sent := false, lanes := m.zl.lanes.map fun x =>
      { x with used := none, pend := none, step := if x.step = 7 then 8 else x.step, slow := if m.tb.k % 8 = 0 then [] else x.slow } } }
  let m2 := (List.range 16).foldl calBoundary m1
  let m3 := (List.range 16).foldl (fun m l => if (m.lane l).up && (m.lane l).hubToSent != m.fld F.zlTimingHubTo then sendConfig l m else m) m2
  sendBlockAll 0 (sendKeepAlives m3)

/-- ZL_MARGIN_LOW (R205). -/
def marginLow (l margin : Nat) (m : Mach) : Mach :=
  let x := m.lane l
  let m1 := m.setLane l { x with margin := min margin 255 }
  let m2 := match x.attach, x.entry with | .bound, some h => putHub h 6 (min margin 255) m1 | _, _ => m1
  if m.fld F.zlAdaptMarginMin ≤ margin then m2
  else
    let m3 := m2.raise F.zlStatusMarginLow
    if oncePerSecond m x.marginAt then (m3.modLane l fun x => { x with marginAt := some m.tb.uptime }).post 0x0B05 [l] else m3

/-! ### The rows -/

/-- A row that acts while the lanes are powered and the Stewards run. -/
def whenAlive (f : Mach → Mach) (m : Mach) : Mach := if m.alive && !m.pwr.held then f m else m

/-- A row of a lane 0 to 15. -/
def onLane (l : Nat) (f : Mach → Mach) (m : Mach) : Mach := if l < 16 then whenAlive f m else m

/-- A link loss declared for the next boundary. -/
def declareLoss (l : Nat) (m : Mach) : Mach := m.modLane l fun x => { x with lock := false, lossDue := true }

def execHubIdent (lane : Nat) (bytes : List Byte) (s : State) : Host.Outcome State Fault Refusal := .next (s.run (onLane lane (identRx lane bytes)))

def execZlBlockLockLost (lane : Nat) (s : State) : Host.Outcome State Fault Refusal := .next (s.run (onLane lane (declareLoss lane)))

def execZlTrainFrame (lane : Nat) (bytes : List Byte) (s : State) : Host.Outcome State Fault Refusal := .next (s.run (onLane lane (trainRx lane bytes)))

def execZlTrainTimeout (lane : Nat) (s : State) : Host.Outcome State Fault Refusal := .next (s.run (onLane lane (trainTimeout lane)))

def execZlCalRsp (lane : Nat) (bytes : List Byte) (dtQ : Nat) (s : State) : Host.Outcome State Fault Refusal :=
  .next (s.run (onLane lane (calRsp lane bytes dtQ)))

def execZlCalRetry (lane : Nat) (s : State) : Host.Outcome State Fault Refusal :=
  .next (s.run (onLane lane fun m => if (m.lane lane).calFailed then m.modLane lane fun x => { x with lossDue := true } else m))

/-- LOSS_N silent periods, the present one included, declare the loss at this boundary (R204). -/
def execZlLinkLoss (lane : Nat) (s : State) : Host.Outcome State Fault Refusal :=
  .next (s.run (onLane lane fun m =>
    let x := countSilence (m.lane lane)
    if x.up && decide (m.fld F.zlTimingLossN ≤ x.silent) then loseLane lane m else m))

def execZlDelayTrack (lane : Nat) (s : State) : Host.Outcome State Fault Refusal := .next (s.run (onLane lane (delayTrack lane)))

def execZlMarginLow (lane margin : Nat) (s : State) : Host.Outcome State Fault Refusal := .next (s.run (onLane lane (marginLow lane margin)))

/-- The lanes lose the rate of the timebase: every lane retrains (R178). -/
def execZlLockLost (s : State) : Host.Outcome State Fault Refusal :=
  .next (s.run (whenAlive fun m =>
    { m.raise F.zlStatusLockLost with zl := { m.zl with lanes := m.zl.lanes.map fun x => { x with lossDue := x.lossDue || decide (1 ≤ x.step) } } }))

/-- A report frame while the Stewards are held: it counts for link supervision alone (R206, R443). -/
def reportHeld (l : Nat) (b : List Byte) (lastQ : Int) (m : Mach) : Mach :=
  let x := m.lane l
  match x.attach, x.entry, m.conv.active with
  | .bound, some h, some c =>
    let m0 := if frameOk b && fieldLE b 0 1 == 0x81 then m.modLane l fun x => { x with heard := true } else m
    match reportRes m (c.hub h) b lastQ with
    | .malformed => m0.bump (F.zlLaneCrcErr l) 1
    | .badSeq => m0.bump (F.zlLaneLateCnt l) 1
    | .late => (m0.bump (F.zlLaneLateCnt l) 1).raise F.zlStatusLate
    | .used => m0
  | _, _, _ => m

/-- REPORT_FRAME with the Stewards held or running. -/
def reportRow (l : Nat) (b : List Byte) (startQ lastQ : Int) (m : Mach) : Mach :=
  if l < 16 && m.alive then (if m.pwr.held then reportHeld l b lastQ m else reportRx l b startQ lastQ m) else m

def execReportFrame (lane : Nat) (bytes : List Byte) (startQ lastQ : Int) (s : State) : Host.Outcome State Fault Refusal :=
  .next (s.run (reportRow lane bytes startQ lastQ))

end Sys2Proof.Machine
end

