-- ==== Sys2Proof/Machine/Tb.lean ====
section
/-! DEFINITION. Machine/Tb.lean: device time and the boundary grid, the servo, the PTP engine, the pulse ports and the timebase commands (R210–R238). -/
set_option Elab.async false
namespace Sys2Proof.Machine

/-! ### Time and boundaries (R211–R216) -/

/-- The counter set in its three copies. -/
def TbSt.setTime (t : TbSt) (ns : Nat) : TbSt := { t with timeA := ns, timeB := ns, timeC := ns }

/-- First instant at or after `t` on the grid of an anchor and a period (R213). -/
def gridNext (anchor p t : Nat) : Nat := t + (((anchor : Int) - t) % (max p 1 : Nat)).toNat

/-- The boundary after the last one: its instant lies at least P after it (R213, R215). -/
def TbSt.nextInstant (t : TbSt) : Nat := gridNext t.anchor t.p (t.now + t.p)

/-- TIME_VALID cleared: PPSO low, and SAFE from RUN (R212, R234). -/
def clearTimeValid (m : Mach) : Mach :=
  if !m.tb.timeValid then m
  else
    let m1 := { m with tb := { m.tb with timeValid := false, ppso := false } }
    let m2 := if m.tb.ppso then m1.send (.ppso false) else m1
    if m2.inState [.run] then enterSafe 9 0 m2 else m2

/-- The commands of an opcode that have taken effect and wait for their completion, completed. -/
def completeOp (op : Nat) (f : Fin) (m : Mach) : Mach :=
  (m.host.accepted.filter fun p => p.inEffect && p.cmd.op == op).foldl (fun m p => complete p.cmd f m) m

/-- A change of time at a boundary: a step, or the time of TB_SET, with the grid anchored at 0 (R213, R215, R233). -/
def applySteps (m : Mach) : Mach :=
  let t := m.tb
  let t1 := match t.stepDue with
    | some d => { t.setTime ((t.now : Int) + d).toNat with anchor := 0, stepDue := none, timeValid := t.timeValid || t.acquireDue, acquireDue := false }
    | none => t
  let t2 := match t1.setDue with
    | some v => { t1.setTime v with anchor := 0, setDue := none, timeValid := t1.timeValid || t1.src == .none, secondsKnown := true }
    | none => t1
  let m1 := { m with tb := t2 }
  if t.stepDue.isSome && t.converge == some .step then completeOp 0x0503 (fin stDONE) { m1 with tb := { m1.tb with converge := none } } else m1

/-- NFRAC moved towards its shadow over `ns` (R220). -/
def rampTo (shadow active step : Int) (ns : Nat) : Int :=
  let d := step * (ns / 40 : Nat)
  clampI shadow (active - d) (active + d)

/-- The counter and the period number at a boundary (R213–R216). The first boundary after reset is number 0. -/
def timeBoundary (m : Mach) : Mach :=
  let t := m.tb
  if !t.begun then applySteps { m with tb := { t with begun := true } }
  else
    let at_ := t.nextInstant
    let t1 := { t.setTime at_ with hist := ((t.k, t.now) :: t.hist).take 1024, uptime := t.uptime + (at_ - t.now), k := t.k + 1
                                   nfrac := rampTo t.nfracShadow t.nfrac (m.fld F.tbRampRampStep) (at_ - t.now) }
    let t2 := match t1.pNext with
      | some p => { t1 with p := p, anchor := at_, pNext := none }
      | none => t1
    applySteps { m with tb := t2 }

/-! ### The servo (R224–R227) -/

/-- Codes of the source and of SYNC (R237). -/
def Src.code : Src → Nat
  | .none => 0 | .ptp => 1 | .ppsi => 2 | .pair => 3
def Sync.code : Sync → Nat
  | .free => 0 | .acquiring => 1 | .locked => 2 | .coasting => 3

/-- FMAX of the band entry in force, as it was at the lock, as the largest y, in 2^−16 ppb (R221, R222, R224). -/
def yMax (m : Mach) : Int := ((m.tb.fmax : Int) - 40000) * 25000 * 65536

/-- ±200 ppm in 2^−16 ppb. -/
def yLim : Int := 200000 * 65536

/-- Gain × θ / Ts in 2^−16 ppb: θ in 2^−16 ns, Ts in ns, gain in units of 1/65,536. -/
def gainTerm (gain : Nat) (theta : Int) (ts : Nat) : Int := roundDiv (gain * theta * 1000000000) (65536 * max ts 1)

/-- y put in force with its shadow divider (R224). -/
def TbSt.putY (t : TbSt) (y : Int) : TbSt := { t with y := y, nfracShadow := roundDiv (160 * y * 65536) 1000000000 }

/-- R224 for an accepted sample. -/
def servoLaw (theta : Int) (m : Mach) : Mach :=
  let t := m.tb
  let i := clampI (t.i - gainTerm (m.fld F.tbServoKi) theta t.ts) (-yLim) yLim
  let y := clampI (i - gainTerm (m.fld F.tbServoKp) theta t.ts) (-yLim) yLim
  { m with tb := { t with i := i }.putY (min y (yMax m)) }

/-- The law of a SLEW authorisation with limit S, within ±200 ppm as at all times (R224, R227). -/
def slewLaw (theta : Int) (s : Nat) (m : Mach) : Mach :=
  let t := m.tb
  let lim : Int := s * 65536
  let y := clampI (clampI (t.i - gainTerm (m.fld F.tbServoKp) theta t.ts) (t.i - lim) (t.i + lim)) (-yLim) yLim
  { m with tb := t.putY (min y (yMax m)) }

/-- θ in ns, rounded. -/
def thetaNs (theta : Int) : Int := roundDiv theta 65536

/-- LOCK_TH, 1 to JUMP_TH (R238). -/
def lockTh (m : Mach) : Nat := min (m.fld F.tbThreshLockTh) (m.fld F.tbThreshJumpTh)

/-- The states and events of an accepted sample (R225). -/
def acceptedRows (theta : Int) (m : Mach) : Mach :=
  let t := m.tb
  let within := decide (theta.natAbs ≤ lockTh m * 65536)
  let inRun := if within then t.inRun + 1 else 0
  let outRun := if within then 0 else t.outRun + 1
  let put := fun (s : Sync) (i o : Nat) => { m with tb := { t with sync := s, inRun := i, outRun := o, refusedRun := false, sampleAt := t.uptime } }
  match t.sync with
  | .acquiring => if 8 ≤ inRun ∧ t.timeValid then (put .locked 0 0).post 0x0501 [] else put .acquiring (min inRun 8) 0
  | .locked => if 8 ≤ outRun then (put .acquiring 0 0).post 0x0502 [] else put .locked 0 outRun
  | .coasting => (put .acquiring inRun 0).post 0x0504 []
  | .free => m

/-- A sample refused (R225, R226). -/
def refuseSample (theta : Int) (m : Mach) : Mach :=
  let t := m.tb
  let m1 := { m.raise F.tbStatusTimeJump with tb := { t with sync := .coasting, refusedRun := true, refused := incSat 32 t.refused 1, inRun := 0, outRun := 0 } }
  if t.refusedRun then m1 else m1.post 0x0505 [unsigned 32 (sat32 (thetaNs theta))]

/-- TB_SERVO_SAMPLE: a sample θ, in 2^−16 ns, of a source that gives seconds or does not (R225–R227, R233). -/
def servoSample (theta : Int) (ts : Nat) (seconds : Bool) (m0 : Mach) : Mach :=
  if m0.tb.sync = .free then m0
  else
    let m := { m0 with tb := { m0.tb with theta := theta, ts := ts } }
    let t := m.tb
    let jump := decide (m.fld F.tbThreshJumpTh * 65536 < theta.natAbs)
    let step : Option Int := some (-(thetaNs theta))
    if t.stepDue.isSome then m
    else if !t.timeValid then
      (if seconds then { m with tb := { t with stepDue := step, acquireDue := true, sync := .acquiring, inRun := 0, outRun := 0, refusedRun := false, sampleAt := t.uptime } }
       else
        let m1 := acceptedRows theta (servoLaw theta m)
        let m2 := { m1 with tb := { m1.tb with needPosted := true } }
        if t.needPosted then m2 else m2.post 0x0508 [])
    else match t.converge with
      | some .step =>
        let m1 := { m with tb := { t with stepDue := step, sync := .acquiring, inRun := 0, outRun := 0, refusedRun := false, sampleAt := t.uptime } }
        if t.sync = .coasting then m1.post 0x0504 [] else m1
      | some (.slew s) =>
        if jump then acceptedRows theta (slewLaw theta s m)
        else completeOp 0x0503 (fin stDONE) (acceptedRows theta (servoLaw theta { m with tb := { t with converge := none } }))
      | none => if jump then refuseSample theta m else acceptedRows theta (servoLaw theta m)

/-- No accepted sample for 3 × Ts: COASTING at the coast rate (R225). -/
def coastTimeout (m : Mach) : Mach :=
  if m.tb.sync = .acquiring ∨ m.tb.sync = .locked then
    { m with tb := { m.tb with sync := .coasting, inRun := 0, outRun := 0 }.putY m.tb.i }.post 0x0503 []
  else m

/-- The source set (R225). -/
def setSource (src : Src) (ports : Nat) (m : Mach) : Mach :=
  let t := m.tb
  let ts := match src with
    | .pair => t.p
    | _ => 1000000000
  let t1 := { t with src := src, ports := ports, srcDue := none, needPosted := false, ts := ts }
  match src with
  | .none => { m with tb := { t1 with sync := .free, inRun := 0, outRun := 0, refusedRun := false }.putY t1.i }
  | _ => { m with tb := if t.sync = .free then { t1 with sync := .acquiring, inRun := 0, outRun := 0, sampleAt := t.uptime } else t1 }

/-- A change of source due at a boundary (R236). -/
def sourceBoundary (m : Mach) : Mach :=
  match m.tb.srcDue with
  | some (s, p) => setSource s p m
  | none => m

/-- Source of a code of SRC_BOOT and TB_SOURCE. -/
def srcOfCode : Nat → Src
  | 1 => .ptp | 2 => .ppsi | _ => .none

/-- SRC_BOOT and PORTS at the first entry into READY (R238). -/
def bootSource (m : Mach) : Mach := setSource (srcOfCode (m.fld F.tbCtrlSrcBoot)) (m.fld F.tbCtrlPorts) m

/-! ### The PTP engine (R228, R229) -/

/-- The default data set comparison of IEEE 1588-2019, as the order of its fields (PRESUMED). -/
def announceKey (a : Announce) : List Nat :=
  [a.prio1, a.clockClass, a.accuracy, a.variance, a.prio2, a.gmIdentity, a.stepsRemoved, a.srcIdentity, a.srcPort]

/-- Lexicographic order. -/
def lexLt : List Nat → List Nat → Bool
  | [], _ => false
  | _ :: _, [] => false
  | a :: s, b :: t => decide (a < b) || (a == b && lexLt s t)

/-- One master is better than another. -/
def better (a b : Announce) : Bool := lexLt (announceKey a) (announceKey b)

/-- clockIdentity of the device: the EUI-64 of the MAC address of port A (PRESUMED). -/
def ownIdentity (m : Mach) : Nat :=
  let mac := m.reg.raw (F.ethMacAddrLo 0) + m.reg.raw (F.ethMacAddrHi 0) * 2 ^ 32
  bitsOf mac 24 24 * 2 ^ 40 + 0xFFFE * 2 ^ 24 + bitsOf mac 0 24

/-- The device's own data set (R228). -/
def ownAnnounce (m : Mach) (port : Nat) : Announce :=
  { gmIdentity := ownIdentity m, prio1 := m.fld F.tbCtrlPrio1, clockClass := Config.ptpClock 0, accuracy := Config.ptpClock 1
    variance := Config.ptpClock 2, prio2 := m.fld F.tbCtrlPrio2, stepsRemoved := 0, srcIdentity := ownIdentity m, srcPort := port + 1
    utcOffset := Config.ptpClock 3, logInterval := 0 }

def PtpSt.port (t : PtpSt) (p : Nat) : PtpPort := t.ports.getD p ptpPortInit

/-- Ports with a master, in port order, limited to those in use. -/
def mastersOf (t : TbSt) : List (Nat × Announce) :=
  (List.range 2).filterMap fun p => if bitOf t.ports p then ((t.ptp.port p).master).map fun a => (p, a) else none

/-- The selected master: the best, the port in use kept where both ports hold the same (R229). -/
def selectMaster (t : TbSt) : Option Nat :=
  match mastersOf t with
  | [] => none
  | [(p, _)] => some p
  | (p, a) :: (q, b) :: _ =>
    if a.gmIdentity = b.gmIdentity then (if t.ptp.sel = some q then some q else some p)
    else if better b a then some q else some p

/-- Selection after a change: the master's port, and whether the device is itself master. -/
def reselect (m : Mach) : Mach :=
  let sel := selectMaster m.tb
  let own := match sel with
    | none => true
    | some p => (match (m.tb.ptp.port p).master with | some a => better (ownAnnounce m p) a | none => true)
  let isM := m.flag F.tbCtrlMasterEn && own
  { m with tb := { m.tb with ptp := { m.tb.ptp with sel := if isM then none else sel, isMaster := isM } } }

def Mach.modPtp (m : Mach) (p : Nat) (f : PtpPort → PtpPort) : Mach :=
  { m with tb := { m.tb with ptp := { m.tb.ptp with ports := modAt m.tb.ptp.ports p f } } }

/-- An offset of the selected master: a servo sample where the source is PTP (R229). -/
def ptpSample (port : Nat) (theta logI : Int) (m : Mach) : Mach :=
  let ts := if 0 ≤ logI then 1000000000 * 2 ^ (min logI 4).toNat else 1000000000 / 2 ^ (min (-logI) 4).toNat
  if m.tb.src = .ptp ∧ m.tb.ptp.sel = some port then servoSample (theta - (m.tb.ptp.port port).linkDelay) ts true m else m

/-- The master whose Sync messages the port follows. -/
def followed (m : Mach) (port src : Nat) : Bool :=
  match (m.tb.ptp.port port).master with
  | some a => a.srcIdentity == src
  | none => false

/-- Destinations of Announce, Sync and Follow_Up, and of the peer delay messages, and the Ethertype of both (R228). -/
def ptpDest : Nat := 0x011B19000000
def pdelayDest : Nat := 0x0180C200000E
def ptpEtherType : Nat := 0x88F7

/-- Destination of a message the device sends (R228). -/
def PtpTx.dest : PtpTx → Nat
  | .pdelayReq | .pdelayResp | .pdelayRespFollowUp => pdelayDest
  | .announce | .sync | .followUp => ptpDest

/-- Destination of a message received (R228). -/
def PtpMsg.dest : PtpMsg → Nat
  | .pdelayReq .. => pdelayDest
  | .pdelayResp .. => pdelayDest
  | .pdelayRespFollowUp .. => pdelayDest
  | .announce .. => ptpDest
  | .sync .. => ptpDest
  | .followUp .. => ptpDest
  | .other => ptpDest

/-- A port takes a PTP message at a destination: the port takes the frame, and its destination is the message's (R228, R337). -/
def ptpTakes (m : Mach) (p dest : Nat) (msg : PtpMsg) : Bool := portTakes m p dest && dest == msg.dest

/-- Domain of a message; messages the engine discards have none. -/
def PtpMsg.domain : PtpMsg → Option Nat
  | .announce d _ => some d
  | .sync d _ _ _ _ _ _ _ => some d
  | .followUp d _ _ _ _ => some d
  | .pdelayReq d _ _ => some d
  | .pdelayResp d _ _ _ _ _ => some d
  | .pdelayRespFollowUp d _ _ _ => some d
  | .other => none

/-- A PTP message ready to leave a port at an instant in ns (R339). -/
def ptpQueue (port at_ : Nat) (o : PtpOut) (m : Mach) : Mach :=
  queueFrame (2 ^ port) false (fun _ _ => ⟨.ptp, at_, m.net.txOrder, none, false, 0, 0, .ptp o⟩) m

/-- A PTP message received (R228, R229). -/
def ptpRx (port dest : Nat) (msg : PtpMsg) (m : Mach) : Mach :=
  let x := m.tb.ptp.port port
  if !ptpTakes m port dest msg || msg.domain ≠ some (m.fld F.tbCtrlDomain) || !bitOf m.tb.ports port then m
  else
    match msg with
    | .announce _ a =>
      let keep := match x.master with
        | some b => a.srcIdentity != b.srcIdentity && better b a
        | none => false
      reselect (if keep then m else m.modPtp port fun x => { x with master := some a })
    | .sync _ src seq two origin corr rx li =>
      if !followed m port src then m
      else if two then m.modPtp port fun x => { x with sync := some ⟨src, seq, rx, corr, li⟩ }
      else ptpSample port ((rx : Int) - origin - corr) li m
    | .followUp _ src seq origin corr =>
      match x.sync with
      | some y =>
        if y.src = src ∧ y.seq = seq then
          ptpSample port ((y.rx : Int) - origin - corr - y.corr) y.logInterval (m.modPtp port fun x => { x with sync := none })
        else m
      | none => m
    | .pdelayReq d seq rx => ptpQueue port (rx / 65536) ⟨.pdelayResp, d, seq, none, rx, 0⟩ m
    | .pdelayResp _ seq two t2 corr rx =>
      match x.pdelay with
      | some y =>
        if y.seq ≠ seq then m
        else if two then m.modPtp port fun x => { x with pdelay := some { y with resp := some (rx, t2, corr) } }
        else m.modPtp port fun x => { x with pdelay := none, linkDelay := roundDiv ((rx : Int) - y.t1 - corr) 2 }
      | none => m
    | .pdelayRespFollowUp _ seq t3 corr =>
      match x.pdelay with
      | some y =>
        (match y.resp with
         | some (t4, t2, c1) =>
           if y.seq ≠ seq then m
           else m.modPtp port fun x => { x with pdelay := none, linkDelay := roundDiv ((t4 : Int) - y.t1 - ((t3 : Int) - t2) - c1 - corr) 2 }
         | none => m)
      | none => m
    | .other => m

/-- Loss of the master on its port (R229). -/
def ptpFailover (m : Mach) : Mach :=
  match m.tb.ptp.sel with
  | some p => reselect (m.modPtp p fun x => { x with master := none, sync := none })
  | none => m

/-- A message of a port with its next sequence number, ready at an instant in ns. -/
def ptpOut (port : Nat) (kind : PtpTx) (a : Option Announce) (at_ : Nat) (m : Mach) : Mach :=
  (ptpQueue port at_ ⟨kind, m.fld F.tbCtrlDomain, (m.tb.ptp.port port).txSeq, a, 0, 0⟩ m).modPtp port fun x => { x with txSeq := (x.txSeq + 1) % 65536 }

/-- A PTP message falls due at an instant in ns (R228): Pdelay_Req on every port in use, Announce and the two-step Sync while master; the follow-ups come with departures.
DESIGN CHOICE: with no master heard the clock is master from its next message on; the standard's wait before that is left out. -/
def ptpTx (port : Nat) (kind : PtpTx) (at_ : Nat) (m0 : Mach) : Mach :=
  if !bitOf m0.tb.ports port then m0
  else
    let m := reselect m0
    match kind with
    | .pdelayReq => ptpOut port .pdelayReq none at_ m
    | .announce => if m.tb.ptp.isMaster then ptpOut port .announce (some (ownAnnounce m port)) at_ m else m
    | .sync => if m.tb.ptp.isMaster then ptpOut port .sync none at_ m else m
    | .pdelayResp | .pdelayRespFollowUp | .followUp => m

/-- A PTP message has left a port at an instant in 2^−16 ns: t1 of a Pdelay_Req, and the follow-up that carries the departure of a Sync or of a Pdelay_Resp (R228). -/
def ptpLeft (port : Nat) (o : PtpOut) (stamp : Nat) (m : Mach) : Mach :=
  match o.kind with
  | .pdelayReq => m.modPtp port fun y => { y with pdelay := some ⟨o.seq, stamp, none⟩ }
  | .sync => ptpQueue port (stamp / 65536) { o with kind := .followUp, stamp := stamp } m
  | .pdelayResp => ptpQueue port (stamp / 65536) { o with kind := .pdelayRespFollowUp, stamp := stamp } m
  | .announce | .followUp | .pdelayRespFollowUp => m

/-! ### Pulses and the counter -/

/-- A rising edge on PPSI captured at `at16` (2^−16 ns of device time) and high for `widthNs` (R232). -/
def ppsiEdge (at16 widthNs : Nat) (m : Mach) : Mach :=
  let up := ((m.tb.uptime : Int) + (at16 / 65536 : Nat) - m.now).toNat
  if widthNs < 100 ∨ m.tb.src ≠ .ppsi then m
  else if (match m.tb.ppsiAt with | some a => decide (up < a + 900000000) | none => false) then m.bump F.tbCountPpsGlitch 1
  else
    let sec : Int := 1000000000 * 65536
    let r := ((at16 : Int) - m.sfld F.tbPpsPpsiDelay (-10000) 10000 * 65536) % sec
    let theta := if sec < 2 * r then r - sec else r
    servoSample theta 1000000000 m.tb.secondsKnown { m with tb := { m.tb with ppsiAt := some up } }

/-- Copies of the counter found to differ (R211). -/
def counterDisagree (a b c : Nat) (m : Mach) : Mach :=
  if a = b ∧ b = c then m
  else if a = b ∨ a = c ∨ b = c then
    ({ m with tb := m.tb.setTime (vote a b c) }.raise F.tbStatusVoteFix).bump F.tbCountVoteFixCnt 1
  else clearTimeValid { m with tb := { m.tb with timeA := a, timeB := b, timeC := c } }

/-- Level of PPSO at a device time in ns: high for PPSO_WIDTH from every whole second plus PPSO_OFS, low while TIME_VALID is clear (R234, R238). -/
def ppsoAt (m : Mach) (t : Nat) : Bool :=
  m.tb.timeValid && decide (((t : Int) - m.sfld F.tbPpsPpsoOfs (-10000) 10000) % 1000000000 < (1000 * m.fld F.tbPpsPpsoWidth : Nat))

/-- PPSO brought to its level `ns` after the last boundary, at its rise and at its fall (R218, R234). -/
def ppsoPulse (ns : Nat) (m : Mach) : Mach :=
  let v := ppsoAt m (m.now + ns)
  if v = m.tb.ppso then m else { m.send (.ppso v) with tb := { m.tb with ppso := v } }

/-! ### The synthesizer (R221–R223) -/

/-- A band entry is usable (R221). -/
def usable (m : Mach) (n : Nat) : Bool :=
  decide (n < 32) && m.reg.raw (F.tbBandValid n) == 1 && decide (m.reg.raw (F.tbBandFmin n) ≤ 39992) && decide (40008 ≤ m.reg.raw (F.tbBandFmax n))

/-- The band entry that boot locks on (R221). -/
def bootBand (m : Mach) : Option Nat := (List.range 32).find? (usable m)

/-- The synthesizer locked at boot on the lowest usable entry. -/
def bootLock (m : Mach) : Mach :=
  match bootBand m with
  | some n => { m with tb := { m.tb with band := n, fmax := m.reg.raw (F.tbBandFmax n), pllLock := true } }
  | none => m

/-- Lock detected: the end of a relock (R223 steps 3 and 4). -/
def pllLocked (m : Mach) : Mach :=
  match m.tb.relock with
  | some n => { m with tb := { m.tb with band := n, relock := none, pllLock := true } }
  | none => { m with tb := { m.tb with pllLock := true } }

/-- Completion of a TB_BAND whose relock is over, at a boundary (R223). -/
def bandBoundary (m : Mach) : Mach := if m.tb.relock.isNone then completeOp 0x0505 (fin stDONE) m else m

/-! ### Timebase commands (R216, R235–R237) -/

def chkTbPeriod (c : Cmd) (_ : Mach) : Option Nat :=
  if !c.zeroFrom 4 then some stMALFORMED else if c.f 0 4 < 4000 ∨ 200000 < c.f 0 4 then some stLIMIT else none

/-- The checks of R23 and R52 on a new period. -/
def periodOk (m : Mach) (p : Nat) : Bool :=
  (decide (5000 ≤ p) || (match m.conv.active with | some c => c.smallHubs | none => true))
    && (match m.loop.graph with | some g => decide (twc g.steps ≤ graphBudget p) | none => true)

/-- Checks of TB_PERIOD at acceptance (R216). -/
def accTbPeriod (c : Cmd) (m : Mach) : Option Nat :=
  match chkTbPeriod c m with
  | some s => some s
  | none => if periodOk m (c.f 0 4) then none else some stLIMIT

def effTbPeriod (c : Cmd) (m : Mach) : Mach × Eff :=
  let p := c.f 0 4
  if p = m.tb.p ∧ m.tb.pNext.isNone then okEmpty m
  else if !periodOk m p then reject stLIMIT m
  else ({ m with tb := { m.tb with pNext := some p } }, .hold)

/-- TB_PERIOD completes at the intake of the boundary at which its P came into force (R216). -/
def periodDone (m : Mach) : Mach := if m.tb.pNext.isNone then completeOp 0x0501 (fin stDONE) m else m

def chkTbSource (c : Cmd) : Option Nat :=
  if 2 < c.f 0 1 ∨ 3 < c.f 1 1 ∨ (c.f 0 1 = 1 ∧ c.f 1 1 = 0) ∨ c.zeroFrom 2 = false then some stMALFORMED else none

/-- A pending TB_CONVERGE is superseded (R227). -/
def endConverge (m : Mach) : Mach := completeOp 0x0503 (fin stSUPERSEDED) { m with tb := { m.tb with converge := none } }

def effTbSource (c : Cmd) (m : Mach) : Mach × Eff :=
  let ports := c.f 1 1
  let ptp := c.f 0 1 == 1
  if m.tb.src = .pair then reject stSTATE m
  else if ptp && ((bitOf ports 0 && !m.flag F.ethCtrlEnA) || (bitOf ports 1 && !m.flag F.ethCtrlEnB)) then reject stMALFORMED m
  else
    let m1 := endConverge m
    let p := if ptp then ports else m1.tb.ports
    okDone { m1 with tb := { m1.tb with srcDue := some (srcOfCode (c.f 0 1), p) }, pair := { m1.pair with lastSrc := some (c.f 0 1, p) } }

def chkTbConverge (c : Cmd) : Option Nat :=
  if (c.f 0 1 ≠ 1 ∧ c.f 0 1 ≠ 2) ∨ c.f 1 3 ≠ 0 ∨ c.zeroFrom 8 = false then some stMALFORMED
  else if c.f 0 1 = 1 then (if c.f 4 4 = 0 ∨ 50000 < c.f 4 4 then some stLIMIT else none)
  else if c.f 4 4 ≠ 0 then some stMALFORMED
  else none

def effTbConverge (c : Cmd) (m : Mach) : Mach × Eff :=
  if c.f 0 1 = 2 ∧ m.inState [.run] then reject stSTATE m
  else if !m.flag F.tbStatusTimeJump && !m.tb.refusedRun then okEmpty m
  else
    let m1 := endConverge m
    ({ m1 with tb := { m1.tb with converge := some (if c.f 0 1 = 1 then .slew (c.f 4 4) else .step) } }, .hold)

def chkTbSet (c : Cmd) : Option Nat := if c.f 8 4 < 1000000000 ∧ c.zeroFrom 12 then none else some stMALFORMED

def effTbSet (c : Cmd) (m : Mach) : Mach × Eff :=
  if m.tb.src = .ptp ∨ m.tb.src = .pair then reject stSTATE m
  else okDone { m with tb := { m.tb with setDue := some (c.f 0 8 * 1000000000 + c.f 8 4) } }

def chkTbBand (c : Cmd) : Option Nat := if c.zeroFrom 1 then none else some stMALFORMED

def effTbBand (c : Cmd) (m : Mach) : Mach × Eff :=
  let n := c.f 0 1
  if !usable m n then reject stLIMIT m
  else if n = m.tb.band then okEmpty m
  else
    let m1 := clearTimeValid m
    let lanes := m1.zl.lanes.map fun x => { x with lossDue := x.lossDue || decide (1 ≤ x.step) }
    ({ m1.raise F.zlStatusLockLost with
        tb := { m1.tb with relock := some n, fmax := m.reg.raw (F.tbBandFmax n), pllLock := false, nfrac := 0, nfracShadow := 0 }, zl := { m1.zl with lanes := lanes } }, .hold)

/-- The report of TB_REPORT (R237). -/
def tbReport (m : Mach) : List Byte :=
  let t := m.tb
  let master := t.ptp.sel.bind fun p => (t.ptp.port p).master
  ts128ns t.now ++ leBytes 8 t.k ++ leBytes 4 t.p ++ leBytes 1 t.sync.code ++ leBytes 1 t.src.code ++ leBytes 1 t.band
    ++ leBytes 1 (b2n t.timeValid + 2 * m.reg.raw F.tbStatusTimeJump + 4 * b2n (match t.converge with | some (.slew _) => true | _ => false))
    ++ leBytes 4 (unsigned 32 (sat32 (thetaNs t.theta))) ++ leBytes 4 (unsigned 32 (roundDiv t.y 65536)) ++ leBytes 4 (unsigned 32 (roundDiv t.i 65536))
    ++ leBytes 2 (match master with | some a => a.utcOffset | none => 0) ++ leBytes 2 0
    ++ leBytes 8 (match master with | some a => a.srcIdentity | none => 0) ++ leBytes 4 t.refused ++ leBytes 4 0

def effTbReport (c : Cmd) (m : Mach) : Mach × Eff := okDone (writeBuf c (tbReport m) m)

/-! ### The rows -/

/-- A row of port A or B. -/
def onPort (p : Nat) (f : Mach → Mach) (m : Mach) : Mach := if p < 2 then whenAlive f m else m

def execPtpMessage (rx : RxPort) (msg : PtpMsg) (s : State) : Host.Outcome State Fault Refusal := .next (s.run (onPort rx.port (ptpRx rx.port rx.dest msg)))

def execTbCoastTimeout (s : State) : Host.Outcome State Fault Refusal := .next (s.run (whenAlive coastTimeout))

def execPpsiEdge (at16 widthNs : Nat) (s : State) : Host.Outcome State Fault Refusal := .next (s.run (whenAlive (ppsiEdge at16 widthNs)))

def execPtpPortFailover (s : State) : Host.Outcome State Fault Refusal := .next (s.run (whenAlive ptpFailover))

def execPllLockDetected (s : State) : Host.Outcome State Fault Refusal := .next (s.run (whenAlive pllLocked))

/-- The loss of lock detector finds the loop unlocked: a fault that clears TIME_VALID (R223). -/
def execPllLockLost (s : State) : Host.Outcome State Fault Refusal :=
  .next (s.run (whenAlive fun m => clearTimeValid { m with tb := { m.tb with pllLock := false } }))

def execTimeCounterDisagree (a b c : Nat) (s : State) : Host.Outcome State Fault Refusal := .next (s.run (whenAlive (counterDisagree a b c)))

/-- The tuning voltage comes within 10 % of an end of its range (R222). -/
def execTbBandEdge (s : State) : Host.Outcome State Fault Refusal := .next (s.run (whenAlive fun m => (m.raise F.tbStatusBandEdge).post 0x0506 []))

/-- PPSO keeps running while the Stewards are held (R429). -/
def execPpsoPulse (ns : Nat) (s : State) : Host.Outcome State Fault Refusal := .next (s.run fun m => if m.alive then ppsoPulse ns m else m)

def execPtpMessageTx (port : Nat) (kind : PtpTx) (at_ : Nat) (s : State) : Host.Outcome State Fault Refusal :=
  .next (s.run (onPort port (ptpTx port kind at_)))

/-- SNAP copies the counter, `ns` after the last boundary, into TB_TIME (R238). -/
def snapTime (ns : Nat) (m : Mach) : Mach :=
  let t := m.now + ns
  ((m.setF F.tbTimeSecondsLo (secsOf t)).setF F.tbTimeSecondsHi (secsOf t / 2 ^ 32)).setF F.tbTimeNanoseconds (nanosOf t)

end Sys2Proof.Machine
end

