-- ==== Sys2Proof/Machine/Pair.lean ====
section
/-! DEFINITION. Machine/Pair.lean: Morkai pairing: the paths, heartbeats, roles and claims, the exchanges of a period in TWIN, joining, the journal, and the pairing commands (R276–R301). -/
set_option Elab.async false
namespace Sys2Proof.Machine

/-! ### Frames (R277–R279) -/

/-- A pair-link frame is CRC-valid, of its stated length and of a known type. -/
def pairOk (b : List Byte) : Bool :=
  frameOk b && decide (fieldLE b 2 2 ≤ 4096) && b.length == 20 + 4 * fieldLE b 2 2
    && ((decide (1 ≤ fieldLE b 0 1) && decide (fieldLE b 0 1 ≤ 0x0B)) || (decide (0x0E ≤ fieldLE b 0 1) && decide (fieldLE b 0 1 ≤ 0x10)))

/-- Its body. -/
def pairBody (b : List Byte) : List Byte := (b.drop 16).take (4 * fieldLE b 2 2)

/-- CONTROL with its CODE, CAUSE and ARG; the two digests follow in JOIN_REQ and JOIN_ACK (R279, R282). -/
def sendControl (code cause arg : Nat) (more : List Byte) (m : Mach) : Mach :=
  m.pairSend 0x0A (leBytes 1 code ++ leBytes 1 cause ++ leBytes 2 0 ++ leBytes 4 arg ++ more)

/-- Digests of the record and the graph, 32 bytes each. -/
def joinDigests (m : Mach) : List Byte :=
  sliceBytes m.conv.digest 0 32 ++ sliceBytes (match m.loop.graph with | some g => g.digest | none => []) 0 32

/-- COMPAT of the running image. -/
def ownCompat (m : Mach) : Nat := match m.sec.image with | some i => i.compat | none => 0

/-- CDR_TAG and GRAPH_TAG. -/
def ownTags (m : Mach) : Nat × Nat := (leNat ((joinDigests m).take 4), leNat (((joinDigests m).drop 32).take 4))

/-- The record of the present period with END marks its path, whichever copy of it is taken (R285, R301). -/
def streamEnds (p : Nat) (b : List Byte) (m : Mach) : Mach :=
  if fieldLE b 0 1 = 3 ∧ fieldLE b 8 8 = m.tb.k ∧ bitOf (fieldLE (pairBody b) 2 1) 0 ∧ !m.dev.intakeDone then m.setPath p { m.path p with stream := true } else m

/-- A message received on a path in service: a bad frame is counted, a second copy is dropped (R278). -/
def pairMsg (p typ : Nat) (b : List Byte) (f : (seq : Nat) → List Byte → Mach → Mach) (m : Mach) : Mach :=
  if 2 ≤ p || !m.alive || m.pwr.held || !(m.path p).inService then m
  else if !pairOk b then m.bump (F.pairPathCrcErr p) 1
  else if fieldLE b 0 1 ≠ typ then m
  else
    let key := (typ, fieldLE b 8 8, leNat (pairBody b))
    let m1 := streamEnds p b m
    if m.pair.taken.contains key || m.pair.takenPrev.contains key then m1
    else f (fieldLE b 8 8) (pairBody b) { m1 with pair := { m1.pair with taken := m.pair.taken ++ [key] } }

/-! ### Epoch, claim and role (R280–R283) -/

/-- The claim of a role, by R280. -/
def claimFor (r : Role) (m : Mach) : Nat :=
  let own := 2 * m.pair.epoch + m.pair.unit % 2
  match r with
  | .solo => if m.inState [.run] then own else 0
  | .senior => own
  | .twin => 2 * m.pair.epoch + (m.pair.unit + 1) % 2
  | .shadow => 0
  | .deposed => 0

/-- The epoch raised for the frames of the next downlink; beyond 31 bits the unit enters SAFE (R280). -/
def raiseEpoch (m : Mach) : Mach :=
  if 0x7FFFFFFF ≤ m.pair.epoch then enterSafe 7 0 m
  else
    let m1 := { m with pair := { m.pair with epoch := m.pair.epoch + 1 } }
    let m2 := { m1 with pair := { m1.pair with claim := claimFor .solo m1 } }
    m2.post 0x0804 [m2.pair.epoch, m2.pair.claim]

/-- The device returns to READY from RUN: converter mode BLOCKED (R131, R444). -/
def leaveRun (m : Mach) : Mach :=
  let m1 := modeLeave .ready m
  if m.inState [.run] then { m1 with dev := { m1.dev with state := .ready } } else m

/-- ENABLE cleared, and no ring served until host software sets it again (R291): the commands of the pair are the other unit's to complete (R259). -/
def stopServing (m : Mach) : Mach :=
  { m.setF F.hostCtrlEnable 0 with
      host := { m.host with enabled := false, accepted := [], jackWait := [], jacked := [], bufHeld := [], mirror := [], rings := m.host.rings.map fun x => { x with held := [] } }
      pair := { m.pair with server := false, pairRings := false } }

/-- A hub this unit is BOUND to is being commanded by another unit (R283). -/
def hubsElsewhere (m : Mach) : Bool :=
  (List.range 16).any fun l =>
    match (m.lane l).attach, (m.lane l).entry with
    | .bound, some h =>
      let st := (m.gv (hubIdx h 3)).toNat
      decide (0 < (m.gv (hubIdx h 2)).toNat) && decide (bitsOf st 0 8 < bitsOf st 8 8)
    | _, _ => false

/-- STATE_REQUEST RUN is refused by R283. -/
def runBarred (m : Mach) : Bool := !m.pair.inTwin && hubsElsewhere m

/-- Entry into RUN: the epoch and claim of R280 and R283. -/
def runEpoch (m : Mach) : Mach :=
  let a := (List.range 16).foldl (fun a l =>
    match (m.lane l).attach, (m.lane l).entry with
    | .bound, some h => max a (m.gv (hubIdx h 2)).toNat
    | _, _ => a) 0
  let m1 := if m.pair.inTwin then m else { m with pair := { m.pair with epoch := max m.pair.epoch (a / 2) + 1 } }
  if !m.pair.inTwin && decide (0x7FFFFFFF < m1.pair.epoch) then enterSafe 7 0 m
  else
    let m2 := { m1 with pair := { m1.pair with claim := claimFor m1.pair.role m1 } }
    if m.pair.inTwin then m2 else m2.post 0x0804 [m2.pair.epoch, m2.pair.claim]

/-! ### Paths (R276, R278) -/

def Mach.modPath (m : Mach) (p : Nat) (f : PathSt → PathSt) : Mach := m.setPath p (f (m.path p))

/-- ASYM of a path. -/
def pathAsym (m : Mach) (p : Nat) : Int := m.sfld (if p = 0 then F.pairAsymAsymP else F.pairAsymAsymQ) (-200) 200

/-- The TRAIN frame of a path: the ZeldLink TRAIN frame as the body of a pair-link frame (DEDUCED). -/
def pathTrainTx (p : Nat) (m : Mach) : Mach :=
  let x := m.path p
  if x.lock && !x.inService && decide (x.step < 4) then
    let f := plainFrame m 0x06 (8 * b2n (rxReady x.trainCount)) 0
    m.send (.pairFrame p (pairFrame m 0x10 (f.take (f.length - 4))))
  else m

/-- A TRAIN frame received on a path. -/
def pathTrainRx (p : Nat) (b : List Byte) (m : Mach) : Mach :=
  let x := m.path p
  if !x.lock || x.inService then m
  else if !pairOk b then (m.setPath p { x with trainCount := 0 }).bump (F.pairPathCrcErr p) 1
  else if fieldLE b 0 1 ≠ 0x10 then m.setPath p { x with trainCount := 0 }
  else
    let n := min (x.trainCount + 1) 4096
    m.setPath p { x with trainCount := n, farReady := bitOf (fieldLE (pairBody b) 1 1) 3, step := if rxReady n then 3 else max x.step 2 }

/-- Block lock acquired on a path. -/
def pathLock (p : Nat) (m : Mach) : Mach :=
  m.modPath p fun x => if x.lock then x else { x with lock := true, step := max x.step 1, trainCount := 0, farReady := false }

/-- The 64 exchanges of a path, as the differences of time and turn-round that were answered (R276, R182): it enters service, or calibration fails. -/
def pathCal (p : Nat) (diffs : List Int) (m : Mach) : Mach :=
  let x := m.path p
  if x.inService || x.step != 3 || !x.farReady || x.calFailed then m
  else
    let s := diffs.map fun d => roundDiv (d + 2 * pathAsym m p) 2
    match calTest s (64 - s.length) 400 with
    | some _ => m.setPath p { x with calFailed := true }
    | none =>
      let m1 := m.setPath p { x with step := 4, inService := true, delay := (medianOf s).toNat, missed := 0, heard := false, wasUp := true }
      if x.wasUp then m1.post 0x0802 [] else m1

/-- The CAL_REQ of a period on a path in calibration (R182, R276). -/
def pathCalTx (m : Mach) (p : Nat) : Mach :=
  let x := m.path p
  if x.lock && !x.inService && x.step == 3 && x.farReady && !x.calFailed then
    let f := plainFrame m 0x04 0 0
    m.send (.pairFrame p (pairFrame m 0x0E (f.take (f.length - 4))))
  else m

/-- The answer to a CAL_REQ of the partner (R182, R276): CAL_RSP as the ZeldLink frame of the name, carrying TURN. -/
def pathCalReq (p : Nat) (b : List Byte) (turn : Nat) (m : Mach) : Mach :=
  if !(m.path p).lock then m
  else if !pairOk b then m.bump (F.pairPathCrcErr p) 1
  else if fieldLE b 0 1 ≠ 0x0E then m
  else m.send (.pairFrame p (pairFrame m 0x0F (leBytes 1 0x82 ++ List.replicate 31 0#8 ++ leBytes 4 turn ++ leBytes 4 0)))

/-- A path leaves service and retrains. -/
def pathDown (p : Nat) (lockLost : Bool) (m : Mach) : Mach :=
  let x := m.path p
  let y := { pathInit with lock := x.lock && !lockLost, step := b2n (x.lock && !lockLost), wasUp := x.wasUp }
  let m1 := m.setPath p y
  if x.inService then (m1.raise F.pairStatusPathDown).post 0x0801 [] else m1

/-! ### Joining and its failure (R282, R289) -/

/-- JOIN_REQ with the digests. -/
def sendJoinReq (m : Mach) : Mach := sendControl 1 0 0 (joinDigests m) m

/-- The conditions a unit can read in the partner's heartbeats: straps differ, COMPAT and tags equal, a path in service (R282). -/
def joinable (m : Mach) : Bool :=
  match m.pair.partner with
  | some q => q.compat == ownCompat m && q.cdrTag == (ownTags m).1 && q.graphTag == (ownTags m).2 && m.pair.paths.any PathSt.inService
  | none => false

/-- The Gallery with the entries that a copy replaces taken from `new` (R287): all but SIG_PAIR_ROLE and the areas of hubs and stations. -/
def mergeGallery (new old : List (Nat × GEntry)) : List (Nat × GEntry) :=
  let keep := fun (j : Nat) => j == sigPAIRROLE || (decide (0xC2000 ≤ j) && decide (j < 0xE0000))
  (new.filter fun e => !keep e.1).foldl (fun t e => galPut t e.1 e.2) (old.filter fun e => keep e.1)

/-- The networks with what both units keep taken from `new`: the links of the ports and the node table stay the unit's own (R354). -/
def mergeNet (new old : NetSt) : NetSt :=
  { new with ports := (new.ports.zip old.ports).map fun p => { p.1 with link := p.2.link }, nodes := old.nodes, prpFullRun := old.prpFullRun }

/-- A shadow's own state as it was before the copied one took its place (R290). -/
def restoreOwn (m : Mach) : Mach :=
  match m.pair.ownState with
  | none => m
  | some s =>
    { m with gal := mergeGallery s.gal m.gal, conv := { s.conv with bind := m.conv.bind }, mode := { s.mode with mode := m.mode.mode }, flow := s.flow, net := mergeNet s.net m.net
             loop := { s.loop with eval := none, slack := m.loop.slack }
             pair := { m.pair with epoch := s.epoch, digest := s.digest, base := s.base, ownState := none } }

/-- What a shadow gives up: the copied state, and RUN if it was entered (R282, R290). DESIGN CHOICE: what stands again is the unit's own state from before the copy, with its block states reset. -/
def dropCopied (m : Mach) : Mach :=
  let m1 := restoreOwn (leaveRun m)
  resetStates { m1 with host := { m1.host with accepted := m1.host.accepted.filter fun p => p.cmd.op == 0x0802 }
                        pair := { m1.pair with copy := none, journal := [], own := [], ownLate := [], agreed := [], hostCfg := none } }

/-- PAIR_JOIN fails: the shadow is SOLO in READY again (R282, R289). -/
def copyAbort (cause : Nat) (m : Mach) : Mach :=
  let m1 := dropCopied m
  (completeOp 0x0802 ⟨stSTATE, 0, cause, 0, []⟩ ((m1.raise F.pairStatusCopyFail).post 0x0808 [cause])).roleAt .solo

/-- A copy fails: it is restarted up to COPY_RETRY times (R289). -/
def copyFail (cause : Nat) (m : Mach) : Mach :=
  match m.pair.copy with
  | none => m
  | some c =>
    if m.fld F.pairCtrlCopyRetry ≤ c.attempts then copyAbort cause m
    else
      let m1 := leaveRun (m.raise F.pairStatusCopyFail)
      sendJoinReq { m1 with pair := { m1.pair with copy := some ⟨[], 0, none, c.attempts + 1, m1.tb.uptime, none, none, false⟩ } }

/-- A path leaves service; one that does so in step 1 of a copy restarts the copy (R278, R289). -/
def pathLeaves (p : Nat) (lockLost : Bool) (m : Mach) : Mach :=
  let m1 := pathDown p lockLost m
  match m.pair.role, m.pair.copy with
  | .shadow, some c => if c.verified.isNone && (m.path p).inService then copyFail 2 m1 else m1
  | _, _ => m1

/-- The chunks of the image, each with its number. -/
def chunksOf : Nat → Nat → List Byte → List (Nat × List Byte)
  | 0, _, _ => []
  | f + 1, n, l => if l.isEmpty then [] else (n, l.take 4096) :: chunksOf f (n + 1) (l.drop 4096)

/-- The chunks with the digest as the final 32 bytes of the last one: of the image's last chunk where it has room, else of one more (R279). -/
def sealChunks (d : List Byte) (cs : List (Nat × List Byte)) : List (Nat × List Byte) :=
  match cs.getLast? with
  | some (n, b) => if b.length + 32 ≤ 4096 then cs.dropLast ++ [(n, b ++ d)] else cs ++ [(n + 1, d)]
  | none => [(0, d)]

/-- COPY of the senior's image, sealed by its SHA-256 (R279, R289). -/
def sendCopy (m : Mach) : Mach :=
  let img := Config.imageBytes (m.tb.k - 1) m.pair.epoch
  let cs := sealChunks (sha256 img) (chunksOf (img.length / 4096 + 1) 0 img)
  cs.foldl (fun m c => m.pairSend 0x09 (leBytes 4 c.1 ++ leBytes 4 cs.length ++ c.2)) m

/-- The blocks whose LOCK the device sets at an entry into RUN. -/
def lockBlocks (m : Mach) : Mach :=
  (List.range 18).foldl (fun m b => match lockOff b with | some o => m.setF ⟨o, 0, 1, false, 0, 0, 1⟩ 1 | none => m) m

/-- The image taken over by the shadow at the boundary it reaches lockstep (R289): the period of the image, its state, and RUN if the senior is in RUN. -/
def applyImage (i : Image) (m : Mach) : Mach :=
  let own := m.pair.ownState.getD ⟨m.gal, m.conv, m.loop, m.mode, m.flow, m.net, m.pair.epoch, m.pair.digest, m.pair.base⟩
  let m1 := { m with gal := mergeGallery i.gallery m.gal
                     conv := { i.conv with bind := m.conv.bind }, mode := i.mode, flow := i.flow, net := mergeNet i.net m.net
                     loop := { i.loop with eval := none, slack := m.loop.slack }
                     tb := { m.tb with k := i.k - 1 }
                     host := { m.host with accepted := m.host.accepted ++ i.host.accepted }
                     pair := { m.pair with epoch := i.epoch, digest := i.digest, base := i.base, agreed := i.agreed, hostCfg := some i.host, ownState := some own } }
  if i.inRun then lockBlocks { m1 with dev := { m1.dev with state := .run } } else m1

/-! ### The partner (R282, R293) -/

/-- Commands whose JACK can no longer come are accepted alone: F is the present boundary until its intake is done (R252). -/
def acceptWaiting (m : Mach) : Mach :=
  let l := m.host.jacked ++ m.host.jackWait
  l.foldl (fun m c => acceptCmd c (if m.dev.intakeDone then m.tb.k + 1 else m.tb.k) m) { m with host := { m.host with jackWait := [], jacked := [] } }

/-- Service to be taken over, where this unit does not serve, once one of the conditions of R293 holds; `n` boundaries have passed without a heartbeat. What was seen of an
earlier loss does not count. -/
def awaitService (n : Nat) (m : Mach) : Mach :=
  { m with pair := { m.pair with takeover := if m.pair.server then none else some n, safeSeen := false } }

/-- What the loss of the partner in TWIN does (R282, R293). DESIGN CHOICE: a PAIR_FW_UPDATE that waits for the partner to leave completes, since it has left the pair. -/
def lostInTwin (missed : Nat) (m : Mach) : Mach :=
  let m1 := completeOp 0x0806 (fin stDONE) (acceptWaiting (raiseEpoch (m.raise F.pairStatusLost)))
  ((awaitService missed m1).post 0x0803 []).roleAt .solo

/-- The partner is lost, by its row of R282. -/
def partnerLost (m : Mach) : Mach :=
  let gone := fun (m : Mach) => { m with pair := { m.pair with partner := none, missed := 0 } }
  match m.pair.role with
  | .solo => gone m
  | .deposed => gone m
  | .shadow => if m.pair.copy.isSome || m.pair.partner.isSome then gone (copyAbort 3 (m.raise F.pairStatusLost)) else m
  | .senior =>
    if m.pair.inTwin then
      lostInTwin m.pair.missed (gone m)
    else if m.pair.partner.isSome then (gone { m.raise F.pairStatusLost with pair := { m.pair with copy := none } }).roleAt .solo else m
  | .twin =>
    if m.pair.inTwin then
      lostInTwin m.pair.missed (gone m)
    else m

/-- SAFE_NOTE of the partner, or its heartbeat in SAFE. -/
def safeNoteRx (m : Mach) : Mach :=
  let m1 := partnerLost m
  { m1 with pair := { m1.pair with safeSeen := true } }

/-- What a heartbeat says (R279). -/
def parsePartner (b : List Byte) : Partner :=
  let y := pairBody b
  ⟨bitsOf (fieldLE b 1 1) 1 3, fieldLE b 4 4, bitOf (fieldLE b 1 1) 4, fieldLE y 0x16 1, fieldLE y 0x17 1, fieldLE y 0x14 2, fieldLE y 0x10 4,
    fieldLE y 0x18 4, fieldLE y 0x1C 4⟩

/-- The path whose samples the servo takes: P, or Q while P is out of service (R288). -/
def samplePath (m : Mach) : Nat := if (m.path 0).inService then 0 else 1

/-- The sample of a heartbeat (R288), in 2^−16 ns: t2 is its arrival, t3 this unit's departure at the previous boundary. -/
def pairSample (p : Nat) (y : List Byte) (t2 : Nat) (m : Mach) : Mach :=
  if m.tb.src != .pair || samplePath m != p then m
  else
    let d := fun (a b : Nat) => signed 64 (a + 2 ^ 64 - b % 2 ^ 64)
    let x := d t2 (fieldLE y 0 8) - d (fieldLE y 8 8) (m.path p).txPrev
    servoSample (8192 * x - 16384 * pathAsym m p) m.tb.p true m

/-- The unit sees its own strap in a heartbeat (R282). -/
def claimConflict (m : Mach) : Mach :=
  let m1 := (enterSafe 6 0 (m.raise F.pairStatusConflict)).post 0x080C []
  if m1.pair.role == .solo then m1 else m1.roleAt .solo

/-- A heartbeat received `rxQ` after the boundary (R282, R288). A TWIN that PAIR_FW_UPDATE named and that is still TWIN at a later boundary had no image staged (R298). -/
def heartbeatRx (p : Nat) (b : List Byte) (rxQ : Nat) (m : Mach) : Mach :=
  if 2 ≤ p || !m.alive || m.pwr.held || !(m.path p).inService then m
  else if !pairOk b then m.bump (F.pairPathCrcErr p) 1
  else if fieldLE b 0 1 ≠ 1 then m
  else if fieldLE b 1 1 % 2 = m.pair.unit % 2 then claimConflict m
  else
    let t2 := 4 * m.now + rxQ
    let m1 := pairSample p (pairBody b) t2 (m.modPath p fun x => { x with heard := true, missed := 0, rxT := t2 })
    let q := parsePartner b
    let was := m.pair.partner.map Partner.role
    let m2 := { m1 with pair := { m1.pair with heard := m1.pair.heard || !m1.dev.intakeDone, takeover := m1.pair.takeover.map fun _ => 0, yielded := m1.pair.yielded && !q.server } }
    if q.devState = DevState.safe.code then safeNoteRx m2
    else
      let m3 := { m2 with pair := { m2.pair with partner := some q } }
      if m3.pair.role == .senior && was == some 3 && q.role != 3 && q.role != 2 then
        { m3 with pair := { m3.pair with partner := none, missed := 0, copy := none } }.roleAt .solo
      else if m3.pair.inTwin && m3.pair.role == .senior then completeOp 0x0806 (fin stSTATE) m3
      else m3

/-- The heartbeats of a boundary, counted at its intake: the partner's presence, and the presence on each path (R278, R280, R282). -/
def countHeartbeats (m : Mach) : Mach :=
  let other := fun p => (m.path (1 - p)).heard
  let m1 := (List.range 2).foldl (fun m p =>
    let x := m.path p
    if !x.inService then m
    else if x.heard then m
    else
      let m1 := (m.setPath p { x with missed := if other p then x.missed + 1 else 0 }).bump (F.pairPathLost p) 1
      if other p && decide (4 ≤ x.missed + 1) then pathLeaves p false m1 else m1) m
  let n := if m.pair.heard then 0 else m.pair.missed + 1
  let m2 := { m1 with pair := { m1.pair with missed := n } }
  if m2.fld F.pairCtrlHbMiss ≤ n then partnerLost m2 else m2

/-! ### The period in TWIN (R284–R287) -/

/-- Entries of the state set (R287). -/
def inStateSet (i : Nat) : Bool := (decide (i < 0xC2000) || (decide (0xE0000 ≤ i) && decide (i < 0x100000))) && i != sigPAIRROLE

/-- Values with their places from a base on. -/
def wordsAt (base : Nat) (l : List Nat) : List (Nat × Nat) := l.zipIdx.map fun x => (base + x.2, x.1)

/-- The state set as it stands, AGE and PAIRED left out: places in rising order, numbered by the model, with their values (R287). -/
def stateSet (m : Mach) : List (Nat × Nat) :=
  ((m.gal.filter fun e => inStateSet e.1).map fun e => (e.1, e.2.value.toNat + 2 ^ 32 * (qPut e.2.quality qPAIRED false).toNat + 2 ^ 40 * e.2.source.toNat))
    ++ wordsAt (2 ^ 20) (m.loop.states.flatMap fun l => l.map (unsigned 64))
    ++ wordsAt (2 ^ 24) (match m.loop.graph with | some g => g.params.map BitVec.toNat | none => [])
    ++ wordsAt (2 ^ 25) ([m.mode.mode.code, b2n m.mode.limited, m.mode.limitedPeriods]
        ++ (m.mode.bits.flatMap fun b => [match b.good with | none => 2 | some v => b2n v, b2n b.lost])
        ++ m.mode.slots.flatMap fun s => match s with
          | some s => [s.index, unsigned 32 s.lo, unsigned 32 s.hi, unsigned 32 s.value, b2n s.sat]
          | none => [2 ^ 32, 0, 0, 0, 0])
    ++ (m.flow.sms.flatMap fun s => wordsAt (2 ^ 26 + 6 * s.1) [s.2.pool.code, s.2.final, s.2.cause, s.2.count, s.2.favg, b2n s.2.stranded])
    ++ wordsAt (2 ^ 27) (m.flow.arms.flatMap fun a => [unsigned 64 a.h, unsigned 64 a.rho, a.sticky, unsigned 64 a.cPos, unsigned 64 a.cNeg])
    ++ wordsAt (2 ^ 28) (m.pairRings.map Ring.applied)

/-- The places of a set that differ from an older set, with their new values; a place that is gone has 0. -/
def changesOf : Nat → List (Nat × Nat) → List (Nat × Nat) → List (Nat × Nat)
  | 0, _, _ => []
  | _ + 1, [], new => new
  | _ + 1, old, [] => old.map fun o => (o.1, 0)
  | f + 1, o :: os, n :: ns =>
    if o.1 < n.1 then (o.1, 0) :: changesOf f os (n :: ns)
    else if n.1 < o.1 then n :: changesOf f (o :: os) ns
    else if o.2 = n.2 then changesOf f os ns
    else n :: changesOf f os ns

/-- One bit of the CRC of R287: ECMA-182, without reflection. -/
def crc64Bit (c : BitVec 64) : BitVec 64 := if c.msb then (c <<< 1) ^^^ 0x42F0E1EBA9EA3693#64 else c <<< 1

/-- One byte of it. -/
def crc64Byte (c : BitVec 64) (b : Byte) : BitVec 64 :=
  (List.range 8).foldl (fun c _ => crc64Bit c) (c ^^^ ((b.zeroExtend 64) <<< 56))

/-- The CRC from a start value on, without final inversion (R287). -/
def crc64 (start : BitVec 64) (l : List Byte) : BitVec 64 := l.foldl crc64Byte start

/-- D of a committed period: from D of the period before, over the changes since in rising order (R287).
DESIGN CHOICE: what changes between two output commits counts to the later period. -/
def stepDigest (m : Mach) : Mach :=
  let s := stateSet m
  let ch := changesOf (m.pair.base.length + s.length) m.pair.base s
  { m with pair := { m.pair with digest := crc64 m.pair.digest (ch.flatMap fun c => Config.changeBytes c.1 c.2), base := s } }

/-- An abandoned period contributes no change (R287). -/
def skipDigest (m : Mach) : Mach := { m with pair := { m.pair with base := stateSet m } }

/-- CUT with this unit's digest and status (R279). -/
def sendCutMsg (abandoned : Bool) (m : Mach) : Mach :=
  let m1 := m.pairSend 0x02 (leBytes 8 m.pair.digest.toNat ++ leBytes 1 (b2n abandoned) ++ leBytes 7 0)
  { m1 with pair := { m1.pair with cutOwn := some ⟨m.pair.digest, abandoned⟩ } }

/-- A committed period taken back, because the partner abandoned it (R61): its outputs, states and digest; a VCORE_CEILING posted stays posted (R65). -/
def rollback (m : Mach) : Mach :=
  match m.pair.undo, m.loop.graph with
  | some u, some g =>
    let m1 := ((writersOf g.blocks).map Prod.fst).foldl (fun m i => m.gput i (galGet u.gal i)) m
    { m1 with loop := { u.loop with ceilSince := m.loop.ceilSince }, pair := { m1.pair with digest := u.digest, base := u.base } }
  | _, _ => m

/-- Digests differ in TWIN (R282, R284): the senior sends by `close` under the raised claim, the TWIN sends nothing. -/
def digestMismatch (close : Mach → Mach) (own theirs : BitVec 64) (m : Mach) : Mach :=
  let m1 := (m.raise F.pairStatusMismatch).post 0x0806 (w64 own.toNat ++ w64 theirs.toNat)
  match m1.pair.role with
  | .senior => close ((awaitService 0 (raiseEpoch { m1 with pair := { m1.pair with partner := none } })).roleAt .solo)
  | _ => { m1.roleAt .deposed with zl := { m1.zl with sent := true } }

/-- The end of a period in TWIN by its digests: equal, its frames go; different, R282. -/
def closeDigests (close : Mach → Mach) (own theirs : BitVec 64) (m : Mach) : Mach :=
  if own = theirs then close m else digestMismatch close own theirs m

/-- Step 7 of R284 once both CUTs are in: an abandoned period leaves D as it was, so the digests are compared wherever both stand for the same periods. -/
def resolveCuts (departQ : Nat) (m : Mach) : Mach :=
  match m.pair.cutOwn, m.pair.cutTheirs with
  | some a, some b =>
    let done := fun (m : Mach) => { m with pair := { m.pair with held := false, undo := none } }
    match a.abandoned, b.abandoned with
    | true, true => closeDigests (sendHold departQ) a.digest b.digest (done m)
    | true, false => sendHold departQ (done m)
    | false, true =>
      let m1 := done (abandon true (rollback m))
      closeDigests (sendHold departQ) m1.pair.digest b.digest m1
    | false, false => closeDigests (sendCut departQ) a.digest b.digest (done m)
  | _, _ => m

/-- A digest of the verification compared at the shadow: 64 matching ones in a row form TWIN at the next boundary (R289). -/
def verifyDigest (m : Mach) : Mach :=
  match m.pair.role, m.pair.copy, m.pair.cutOwn, m.pair.cutTheirs with
  | .shadow, some c, some a, some b =>
    match c.verified with
    | none => m
    | some n =>
      if a.digest ≠ b.digest then copyFail 1 (m.raise F.pairStatusMismatch)
      else
        let m1 := { m with pair := { m.pair with copy := some { c with verified := some (n + 1) } } }
        if 64 ≤ n + 1 then (completeOp 0x0802 (fin stDONE) m1).roleAt .twin else m1
  | _, _, _, _ => m

/-- The period's outcome at this unit is exchanged: in TWIN the downlink waits for the partner's CUT; otherwise it is sent (R284, R289). -/
def closePeriod (departQ : Nat) (abandoned : Bool) (m : Mach) : Mach :=
  if !m.pair.exchanging then (if abandoned then sendHold departQ m else sendCut departQ m)
  else
    let m1 := sendCutMsg abandoned m
    if m1.pair.inTwin then (if m1.pair.cutTheirs.isSome then resolveCuts departQ m1 else { m1 with pair := { m1.pair with held := true } })
    else if abandoned then sendHold departQ (verifyDigest m1) else sendCut departQ (verifyDigest m1)

/-- The partner's CUT (R284). -/
def cutRx (departQ seq : Nat) (y : List Byte) (m : Mach) : Mach :=
  if seq ≠ m.tb.k then m
  else
    let m1 := { m with pair := { m.pair with cutTheirs := some ⟨BitVec.ofNat 64 (fieldLE y 0 8), fieldLE y 8 1 == 1⟩
                                             copy := m.pair.copy.map fun c => { c with lockstep := true } } }
    if m1.pair.held then resolveCuts departQ m1 else if m1.pair.inTwin then m1 else verifyDigest m1

/-- No CUT within step 6: the unit sends its own frames (R284). -/
def cutTimeout (departQ : Nat) (m : Mach) : Mach :=
  if !m.pair.held then m
  else
    let m1 := { m with pair := { m.pair with held := false, undo := none } }.bump F.pairCountCutMiss 1
    if (match m.pair.cutOwn with | some a => a.abandoned | none => false) then sendHold departQ m1 else sendCut departQ m1

/-- Records of an AGREE body (R279). -/
def parseAgree (y : List Byte) : List (Nat × GEntry) :=
  (List.range (fieldLE y 0 2)).map fun i => (fieldLE y (4 + 12 * i) 4 % 2 ^ 20, gOfBits (fieldLE y (8 + 12 * i) 8))

/-- The partner's stream (R285). -/
def agreeRx (seq : Nat) (y : List Byte) (m : Mach) : Mach :=
  if seq ≠ m.tb.k || m.dev.intakeDone then m
  else { m with pair := { m.pair with theirs := (parseAgree y).foldl (fun a r => streamPut r.1 r.2 a) m.pair.theirs
                                      theirsEnd := m.pair.theirsEnd || bitOf (fieldLE y 2 1) 0 } }

/-- AGREE_CUT: the records have gone as they were produced; the one sent now carries END, and later writes are deferred (R279, R284, R285). -/
def agreeCut (m : Mach) : Mach :=
  if !m.pair.exchanging || m.pair.cutAgree then m
  else
    let m1 := m.sendAgree [] true
    { m1 with pair := { m1.pair with cutAgree := true } }

/-- A record of a stream. -/
def streamGet (l : List (Nat × GEntry)) (i : Nat) : Option GEntry := (l.find? fun r => r.1 == i).map Prod.snd

/-- One agreed entry written at the intake: the senior's record, or the junior's with SUBST (R285). -/
def agreeOne (senior junior : List (Nat × GEntry)) (paired : Bool) (m : Mach) (i : Nat) : Mach :=
  let put := fun (e : GEntry) (q : Byte) (m : Mach) => { m with gal := galProduce m.gal true i e.value q e.source.toNat }
  let own := fun (e : GEntry) (m : Mach) => put e (if paired then qPut e.quality qPAIRED true else e.quality) m
  let subst := fun (e : GEntry) (m : Mach) => (put e (qPut e.quality qSUBST true) m).bump F.pairCountSubstCnt 1
  match streamGet senior i, streamGet junior i with
  | some s, some j => if !qBit s.quality qVALID && qBit j.quality qVALID then subst j m else own s m
  | some s, none => own s m
  | none, some j => subst j m
  | none, none => m

/-- The streams of a period missing, path by path, where the partner sends one: a path that lacked the heartbeat too has been counted for the period (R285, R301). -/
def countStreams (m : Mach) : Mach :=
  let due := m.pair.inTwin || m.pair.role == .shadow || (match m.pair.copy with | some c => c.lockstep | none => false)
  if due then (List.range 2).foldl (fun m q => if (m.path q).inService && (m.path q).heard && !(m.path q).stream then m.bump (F.pairPathLost q) 1 else m) m else m

/-- The agreed inputs at the intake (R285). -/
def applyAgreed (m : Mach) : Mach :=
  if !m.pair.exchanging then m
  else
    let p := m.pair
    let keys := (p.own ++ p.theirs).foldl (fun a r => insertNat r.1 a) []
    let m1 := countStreams m
    if !p.theirsEnd then keys.foldl (agreeOne p.own [] false) m1
    else if p.role == .senior then keys.foldl (agreeOne p.own p.theirs false) m1
    else keys.foldl (agreeOne p.theirs p.own true) m1

/-- RECEIPT and FORWARD of the partner (R286). -/
def receiptRx (seq : Nat) (y : List Byte) (m : Mach) : Mach :=
  if seq ≠ m.tb.k then m
  else { m with pair := { m.pair with receiptsTheirs := m.pair.receiptsTheirs ++ [Receipt.mk (fieldLE y 0 1) (fieldLE y 1 1) (fieldLE y 4 4)] } }

def forwardRx (startQ lastQ : Int) (seq : Nat) (y : List Byte) (m : Mach) : Mach :=
  if seq ≠ m.tb.k then m else { m with pair := { m.pair with fwd := some ⟨fieldLE y 0 1, withCrc (y.drop 4), startQ, lastQ⟩ } }

/-- The report a unit holds for the agreement used by itself, where the partner is found lost at the intake (R286). -/
def usePending (c : Cdr) (m : Mach) (l : Nat) : Mach :=
  match (m.lane l).entry, (m.lane l).pend with
  | some h, some b => useReport l h c b m
  | _, _ => m

/-- The reports of one lane at the intake in TWIN (R286). -/
def agreeLane (c : Cdr) (m : Mach) (l : Nat) : Mach :=
  let x := m.lane l
  let own := m.pair.receiptsOwn.find? fun r => r.lane == l
  let theirs := m.pair.receiptsTheirs.find? fun r => r.lane == l
  let absent := m.pair.receiptsTheirs.isEmpty
  let useOwn := fun (m : Mach) => usePending c m l
  let here := x.attach == .bound
  let there := bitOf (theirBound m) l
  if here && there then
    (if absent then useOwn m
     else match own, theirs with
      | some a, some b => if a.crc = b.crc then useOwn m else (m.bump F.pairCountRcptMismatch 1).post 0x080D [l]
      | _, _ => m)
  else if here then (if absent || lowestOneSided m == some l then useOwn m else m)
  else if there && lowestOneSided m == some l then
    match m.pair.fwd, x.entry <|> theirs.map Receipt.entry with
    | some f, some h =>
      if f.lane = l ∧ h < c.hubs.length ∧ reportRes m (c.hub h) f.bytes f.lastQ = .used then
        let m1 := if (m.laneOf h).isNone then remoteBind l h c m else m
        useReport l h c f.bytes m1
      else m
    | _, _ => m
  else m

/-- The reports of the period at the intake in TWIN (R286). -/
def agreeReports (m : Mach) : Mach :=
  match m.conv.active with
  | some c => (List.range 16).foldl (if m.pair.inTwin then agreeLane c else usePending c) m
  | none => m

/-! ### The boundary (R279, R282, R284) -/

/-- The source a unit returns to when it leaves SHADOW or TWIN (R288). -/
def returnSource (m : Mach) : Mach :=
  let s := match m.pair.lastSrc with
    | some (a, b) => (srcOfCode a, b)
    | none => (srcOfCode (m.fld F.tbCtrlSrcBoot), m.fld F.tbCtrlPorts)
  { m with tb := { m.tb with srcDue := some s } }

/-- A unit takes PAIR as its source while SHADOW or TWIN. -/
def Role.follows (r : Role) : Bool := r == .shadow || r == .twin

/-- The ring service of the senior taken over in readiness: its structures and counts, this unit's own link, events and commands (R291). -/
def takeService (cfg : Option HostSt) (h : HostSt) : HostSt :=
  match cfg with
  | none => h
  | some x => { x with linkUp := h.linkUp, busMaster := h.busMaster, d3 := h.d3, reach := h.reach, starting := none, enabled := true
                       accepted := h.accepted, jackWait := [], jacked := [], mirror := h.mirror, fetched := [], readStuck := [], bufHeld := [], evNew := h.evNew, evLeft := h.evLeft, folds := h.folds }

/-- What the change from one role to another does at its boundary (R282, R289, R291). -/
def roleChange (old new : Role) (m : Mach) : Mach :=
  let m1 : Mach := match new with
    | .deposed => stopServing ((leaveRun (m.raise F.pairStatusDeposed)).post 0x0805 [])
    | .solo =>
      let theirs := match m.pair.partner with | some q => q.server | none => false
      if !m.pair.server && m.pair.takeover.isNone && (old == Role.twin || (old == Role.senior && theirs)) then stopServing m else m
    | .twin =>
      let other := m.pair.partner.map fun q => { q with role := 1 }
      (sendControl 6 0 0 [] { m with host := takeService m.pair.hostCfg m.host, pair := { m.pair with copy := none, ownState := none, twinAt := m.tb.k, server := false, pairRings := false, yielded := false, partner := other } }).post 0x0809 []
    | .senior =>
      let m0 := if m.inState [.ready] && m.pair.epoch = 0 then { m with pair := { m.pair with epoch := 1 } } else m
      { m0 with pair := { m0.pair with agreed := agreedSet m0, copy := some ⟨[], 0, none, 0, m0.tb.uptime, some 0, none, false⟩ } }
    | .shadow => m
  let m2 := { m1 with pair := { m1.pair with claim := if m1.inState [.safe] then m1.pair.claim else claimFor new m1 } }
  let m3 := if new == .senior && old == .solo then sendCopy (sendControl 2 0 0 (joinDigests m2) m2) else m2
  if new.follows && !old.follows then setSource .pair m3.tb.ports m3
  else if old.follows && !new.follows then returnSource m3
  else m3

/-- The change of role of a boundary, before its link events (R282). -/
def roleBoundary (m : Mach) : Mach :=
  match m.pair.roleDue with
  | none => m
  | some r =>
    let m1 := { m with pair := { m.pair with roleDue := none, role := r } }
    if m.pair.role == r then m1 else roleChange m.pair.role r m1

/-- The boundary the image of a copy takes effect at: the shadow is in lockstep from it (R289). It comes before the count of the period. -/
def imageBoundary (m : Mach) : Mach :=
  match m.pair.role, m.pair.copy with
  | .shadow, some c =>
    match c.image with
    | some i => applyImage (c.changed.getD i) { m with pair := { m.pair with copy := some { c with image := none, verified := some 0 } } }
    | none => m
  | _, _ => m

/-- HEARTBEAT_TX: the heartbeat of a path (R279). -/
def heartbeatTx (m : Mach) (p : Nat) : Mach :=
  let x := m.path p
  if !x.inService then m
  else
    let t := 4 * m.now % 2 ^ 64
    let body := leBytes 8 t ++ leBytes 8 (x.rxT % 2 ^ 64) ++ leBytes 4 m.pair.epoch ++ leBytes 2 (boundMask m) ++ leBytes 1 m.dev.state.code
      ++ leBytes 1 (ownCompat m) ++ leBytes 4 (ownTags m).1 ++ leBytes 4 (ownTags m).2
    (m.setPath p { x with txPrev := x.txT, txT := t, heard := false }).send (.pairFrame p (pairFrame m 0x01 body))

/-- A change record, while the shadow is not in lockstep (R289). -/
def changesTx (m : Mach) : Mach :=
  match m.pair.role, m.pair.copy with
  | .senior, some c => if c.lockstep then m else m.pairSend 0x06 (Config.changeRecord m.tb.k m.pair.epoch)
  | _, _ => m

/-- Deferred records beyond the 256 of a period's stream are deferred once more (R285). -/
def deferAgain (m : Mach) : Mach :=
  if m.pair.ownLate.isEmpty then m else (m.raise F.pairStatusDefer).bump F.pairCountAgreeDeferCnt m.pair.ownLate.length

/-- The pair at a boundary: what a period gathers starts afresh, local outputs pass, heartbeats go out, and with them deferred records, change records and CAL_REQ.
A unit that may not drive its local outputs has their logic as in SAFE (R294). -/
def pairBoundary (drove : Bool) (m : Mach) : Mach :=
  let p := m.pair
  let ends := p.role == .twin && p.takeover.isSome
  let server := p.server && !ends
  let m1 := { m with pair := { p with heardPrev := p.heard, heard := false, takenPrev := p.taken, taken := [], paths := p.paths.map fun x => { x with stream := false }, own := p.ownLate.take 256, ownLate := p.ownLate.drop 256, cutAgree := false
                                      deferRun := p.deferRun && !p.ownLate.isEmpty, theirs := [], theirsEnd := false, receiptsOwn := []
                                      receiptsTheirs := [], fwd := none, cutOwn := none, cutTheirs := none, held := false, undo := none
                                      server := server, yielded := p.yielded || ends, takeover := if ends then none else p.takeover.map (· + 1) } }
  let m2 := deferAgain (List.range 2 |>.foldl heartbeatTx m1)
  let m3 := (List.range 2).foldl pathCalTx (changesTx (if p.ownLate.isEmpty then m2 else m2.sendAgree m2.pair.own false))
  { m3 with pair := { m3.pair with outputsOn := drove && mayDrive m3 }, pwm := if mayDrive m3 then m3.pwm else endOverrides m3.pwm }

/-! ### The journal (R292) -/

/-- The payload bytes that a descriptor's command reads, or none. -/
def descPayload (desc : List Byte) : Nat := if bitOf (fieldLE desc 2 2) 0 then fieldLE desc 0x28 4 else 0

/-- A descriptor as 64 bytes (R247). -/
def descBytes (c : Cmd) : List Byte :=
  leBytes 2 c.op ++ leBytes 2 c.flags ++ leBytes 2 c.plen ++ leBytes 2 0 ++ leBytes 8 c.seq ++ leBytes 8 c.secs ++ leBytes 4 c.nanos ++ leBytes 4 0
    ++ sliceBytes c.pay 0 32

/-- A command of a descriptor and its payload (R247). -/
def parseDesc (ring : Nat) (b buf : List Byte) : Desc :=
  ⟨ring, fieldLE b 8 8, fieldLE b 2 2, fieldLE b 4 2, fieldLE b 6 2 + fieldLE b 0x1C 4, fieldLE b 0x10 8, fieldLE b 0x18 4, sliceBytes b 0x20 32, buf⟩

/-- JOURNAL segments of a command (R279). -/
def sendJournal (c : Cmd) (m : Mach) : Mach :=
  let seg := fun (o : Nat) (bs : List Byte) (m : Mach) => m.pairSend 0x06 (leBytes 1 c.ring ++ leBytes 3 0 ++ leBytes 4 o ++ descBytes c ++ bs)
  if c.buf.isEmpty then seg 0 [] m
  else (chunksOf (c.buf.length / 4096 + 1) 0 c.buf).foldl (fun m s => seg (4096 * s.1) s.2 m) m

/-- A change record at a shadow whose copy is under way: the senior's state after it (R289). -/
def changeRx (i : Image) (m : Mach) : Mach :=
  match m.pair.role, m.pair.copy with
  | .shadow, some c => if c.verified.isSome then m else { m with pair := { m.pair with copy := some { c with changed := some i } } }
  | _, _ => m

/-- A JOURNAL segment stored; JACK on the last of a command. -/
def journalRx (_ : Nat) (y : List Byte) (m : Mach) : Mach :=
  let ring := fieldLE y 0 1
  let desc := sliceBytes y 8 64
  let seq := fieldLE desc 8 8
  let same := fun (j : JournalCopy) => j.ring == ring && fieldLE j.desc 8 8 == seq
  let old := match m.pair.journal.find? same with | some j => if fieldLE y 4 4 = 0 then [] else j.payload | none => []
  let pay := old ++ y.drop 72
  let done := decide (descPayload desc ≤ pay.length) || (y.drop 72).isEmpty
  let m1 := { m with pair := { m.pair with journal := (m.pair.journal.filter fun j => !same j) ++ [⟨ring, desc, pay, done, none⟩] } }
  if done then m1.pairSend 0x07 (leBytes 1 ring ++ leBytes 7 0 ++ leBytes 8 seq) else m1

/-- F of a command whose POSTED is sent `ns` after the boundary: the first boundary whose intake lies at least 100 ns later (R292). -/
def jackFirst (ns : Nat) (m : Mach) : Nat := if !m.dev.intakeDone && decide (ns + 100 ≤ 1200) then m.tb.k else m.tb.k + 1

/-- ACCEPTED of ring r can be written at once (R242, R258). -/
def cplRoom (r : Nat) (m : Mach) : Bool := m.service && (m.ring r).held.isEmpty && decide (0 < cplFree (m.ring r))

/-- On JACK the serving unit writes ACCEPTED and sends POSTED with F. Where ACCEPTED cannot be written the command waits, accepted by neither unit, so that
no unit accepts what the other would not find in memory (R258, R261, R274). -/
def jackRx (ns _ : Nat) (y : List Byte) (m : Mach) : Mach :=
  let is_ := fun (c : Cmd) => c.ring == fieldLE y 0 1 && c.seq == fieldLE y 8 8
  match m.host.jackWait.find? is_ with
  | some c =>
    let m1 := { m with host := { m.host with jackWait := m.host.jackWait.filter fun c => !is_ c } }
    if cplRoom c.ring m then acceptCmd c (jackFirst ns m) m1 else { m1 with host := { m1.host with jacked := m1.host.jacked ++ [c] } }
  | none => m

/-- The commands whose ACCEPTED waited for room, accepted in order as far as there is room now. Their F is the next boundary (DEDUCED). -/
def acceptJacked (m : Mach) : Mach :=
  m.host.jacked.foldl (fun m c => if cplRoom c.ring m then acceptCmd c (m.tb.k + 1) m else { m with host := { m.host with jacked := m.host.jacked ++ [c] } })
    { m with host := { m.host with jacked := [] } }

/-- POSTED: an ACCEPTED command enters the order with its F; a terminal one is marked (R292). -/
def postedRx (_ : Nat) (y : List Byte) (m : Mach) : Mach :=
  let ring := fieldLE y 0 1
  let seq := fieldLE y 8 8
  let same := fun (j : JournalCopy) => j.ring == ring && fieldLE j.desc 8 8 == seq
  if fieldLE y 16 1 = stACCEPTED then
    match m.pair.journal.find? fun j => same j && j.complete with
    | some j =>
      let d := parseDesc ring j.desc j.payload
      let c := d.cmd (fieldLE j.desc 0 2)
      let m1 := acceptCmd c (fieldLE y 24 8) (m.modPairRing ring Ring.consumed)
      { m1 with pair := { m1.pair with journal := m1.pair.journal.map fun j => if same j then { j with f := some (fieldLE y 24 8) } else j } }
    | none => m
  else
    let m1 := if seq = (m.pairRings.getD ring ringInit).nextSeq then m.modPairRing ring Ring.consumed else m
    let m2 := { m1 with pair := { m1.pair with journal := m1.pair.journal.filter fun j => !same j }
                        host := { m1.host with mirror := m1.host.mirror.filter fun c => !(c.ring == ring && c.seq == seq) } }
    m2.modPairRing ring fun x => markTerm seq { x with held := x.held.filter fun c => c.seq != seq }

/-! ### Control messages (R282, R289, R296) -/

/-- The first join condition that fails against a request's digests, by its place in R282: 1 straps, 2 COMPAT, 3 the digests, 4 a path in service. -/
def joinFailing (y : List Byte) (m : Mach) : Option Nat :=
  match m.pair.partner with
  | none => some 1
  | some q =>
    if q.compat ≠ ownCompat m then some 2
    else if (y.drop 8).take 64 ≠ joinDigests m then some 3
    else if !m.pair.paths.any PathSt.inService then some 4
    else none

def joinReqRx (y : List Byte) (m : Mach) : Mach :=
  let again := m.pair.role == .senior && !m.pair.inTwin
  let nak := fun (n : Nat) => sendControl 3 (Config.unstatedArg 0x0808 n % 256) 0 [] m
  if !(m.pair.role == .solo || again) then nak 6
  else if !m.pair.acceptJoin && !again then nak 5
  else if !m.inState [.ready, .run] then nak 7
  else match joinFailing y m with
    | some n => nak n
    | none =>
      if again then
        let m1 := { m with pair := { m.pair with copy := some ⟨[], 0, none, 0, m.tb.uptime, some 0, none, false⟩ } }
        sendCopy (sendControl 2 0 0 (joinDigests m1) m1)
      else m.roleAt .senior

/-- JOIN_ACK at the shadow: the copy starts, or a condition fails. -/
def joinAckRx (y : List Byte) (m : Mach) : Mach :=
  if m.pair.role != .shadow && m.pair.roleDue != some .shadow then m
  else if (joinFailing y m).isSome then copyAbort 4 m
  else
    let n := match m.pair.copy with | some c => c.attempts | none => 0
    { m with pair := { m.pair with copy := some ⟨[], 0, none, n, m.tb.uptime, none, none, false⟩, copyAttempts := m.pair.copyAttempts + 1 } }.post 0x0807 []

/-- JOIN_NAK ends PAIR_JOIN (R298). -/
def joinNakRx (m : Mach) : Mach :=
  if m.pair.role == .shadow || m.pair.roleDue == some .shadow then copyAbort 4 m else m

/-- A chunk of the image (R289): on the last, the SHA-256 is checked and the image waits for the next boundary. -/
def copyRx (image : Option Image) (_ : Nat) (y : List Byte) (m : Mach) : Mach :=
  match m.pair.role, m.pair.copy with
  | .shadow, some c =>
    let n := fieldLE y 0 4
    let total := fieldLE y 4 4
    let cs := if c.chunks.any fun x => x.1 == n then c.chunks else c.chunks ++ [(n, y.drop 8)]
    let c1 := { c with chunks := cs, total := total }
    if cs.length < total || c.verified.isSome || c.image.isSome then { m with pair := { m.pair with copy := some c1 } }
    else
      let all := (List.range total).flatMap fun i => match cs.find? fun x => x.1 == i with | some x => x.2 | none => []
      let img := all.take (all.length - 32)
      if sha256 img = all.drop (all.length - 32) && image.isSome then { m with pair := { m.pair with copy := some { c1 with image := image } } }
      else copyFail 1 m
  | _, _ => m

/-- LEAVE (R282): the senior goes SOLO and keeps its epoch; a shadow gives up its copy. -/
def leaveRx (m : Mach) : Mach :=
  match m.pair.role with
  | .senior =>
    let m1 := completeOp 0x0806 (fin stDONE) (acceptWaiting m)
    { m1 with pair := { m1.pair with partner := none, copy := none, takeover := if m1.pair.server then none else some 0, safeSeen := true } }.roleAt .solo
  | .shadow => copyAbort (Config.unstatedArg 0x0808 5) m
  | _ => m

/-- A swap: the raised claim of the new senior, the roles exchanged, ring service passing with them (R296): the old server serves to the end of the period. -/
def doSwap (m : Mach) : Mach :=
  let new : Role := if m.pair.role == .senior then .twin else .senior
  if 0x7FFFFFFF ≤ m.pair.epoch then enterSafe 7 0 m
  else
    let other := m.pair.partner.map fun q => { q with role := m.pair.role.code }
    let m1 := { m with pair := { m.pair with epoch := m.pair.epoch + 1, role := new, partner := other, takeover := some 0, safeSeen := new == Role.senior } }
    let m2 := { m1 with pair := { m1.pair with claim := claimFor new m1 } }
    let m3 := (m2.post 0x080A []).post 0x0804 [m2.pair.epoch, m2.pair.claim]
    if new == Role.twin then setSource .pair m3.tb.ports m3
    else
      let m4 := returnSource m3
      { m4 with pair := { m4.pair with takeover := if m4.pair.server then none else some 0 } }

def swapRx (y : List Byte) (m : Mach) : Mach := if m.pair.inTwin && fieldLE y 4 4 == m.pair.epoch + 1 then doSwap m else m

/-- VERIFIED at the senior: the pair forms TWIN from this boundary (R289). -/
def verifiedRx (m : Mach) : Mach :=
  if m.pair.role == .senior && m.pair.copy.isSome then
    (let other := m.pair.partner.map fun q => { q with role := 2 }
     { m with pair := { m.pair with copy := none, twinAt := m.tb.k, partner := other, pairRings := m.pair.server } })
  else m

/-- A CONTROL message of a code. -/
def controlRx (p code : Nat) (b : List Byte) (f : List Byte → Mach → Mach) (m : Mach) : Mach :=
  pairMsg p 0x0A b (fun _ y m => if fieldLE y 0 1 = code then f y m else m) m

/-- The copy is not complete by 4 ms (R289). -/
def copyTimeout (m : Mach) : Mach :=
  match m.pair.role, m.pair.copy with
  | .shadow, some c => if c.verified.isNone then copyFail 2 m else m
  | _, _ => m

/-! ### Commands (R297–R299) -/

def chkPairConfig (c : Cmd) : Option Nat := if c.f 0 1 < 2 ∧ c.zeroFrom 1 then none else some stMALFORMED
def effPairConfig (c : Cmd) (m : Mach) : Mach × Eff := okDone { m with pair := { m.pair with acceptJoin := bitOf (c.f 0 1) 0 } }

def chkNone (c : Cmd) : Option Nat := if c.zeroFrom 0 then none else some stMALFORMED

def effPairJoin (c : Cmd) (m : Mach) : Mach × Eff :=
  if !(m.pair.role == .solo || m.pair.role == .deposed) || m.pair.roleDue.isSome then reject stSTATE m
  else if m.host.accepted.any fun p => !(p.cmd.ring == c.ring && p.cmd.seq == c.seq) then reject stSTATE m
  else if !joinable m then rejectR stSTATE 4 m
  else if 2048 < (agreedSet m).length then reject stLIMIT m
  else ((sendJoinReq m).roleAt .shadow, .hold)

/-- UNIT of PAIR_LEAVE and PAIR_FW_UPDATE. -/
def chkUnit (c : Cmd) : Option Nat := if c.f 0 1 < 2 ∧ c.zeroFrom 1 then none else some stMALFORMED

/-- The named TWIN leaves: SOLO in READY, claim 0, LEAVE to the partner (R282). -/
def leavePair (m : Mach) : Mach :=
  let m1 := leaveRun (sendControl 4 0 0 [] m)
  { m1 with pair := { m1.pair with claim := 0 } }.roleAt .solo

def effPairLeave (c : Cmd) (m : Mach) : Mach × Eff :=
  let own := c.f 0 1 == m.pair.unit % 2
  if m.pair.inTwin then
    (if own == (m.pair.role == .senior) then reject stSTATE m
     else if own then ((leavePair m), .done (fin stDONE))
     else okDone m)
  else match m.pair.role with
    | .shadow => okDone (copyAbort (Config.unstatedArg 0x0808 5) (sendControl 4 0 0 [] m))
    | .senior =>
      let m1 := sendControl 4 0 0 [] m
      okDone ({ m1 with pair := { m1.pair with copy := none, partner := none } }.roleAt .solo)
    | .deposed => if own then okDone (m.roleAt .solo) else okEmpty m
    | _ => okEmpty m

/-- The swap, with SWAP to the partner from the senior. -/
def swapNow (m : Mach) : Mach := doSwap (if m.pair.role == .senior then sendControl 5 0 (m.pair.epoch + 1) [] m else m)

def effPairSwap (_ : Cmd) (m : Mach) : Mach × Eff :=
  if !m.pair.inTwin then reject stSTATE m else okDone (swapNow m)

/-- The 64 bytes of PAIR_REPORT (R299). -/
def pairReport (m : Mach) : List Byte :=
  leBytes 1 m.pair.role.code ++ leBytes 1 (match m.pair.partner with | some q => q.role | none => 0xFF)
    ++ leBytes 1 (m.pair.unit % 2 + 2 * b2n m.pair.server + 4 * b2n (m.path 0).inService + 8 * b2n (m.path 1).inService)
    ++ leBytes 1 (ownCompat m) ++ leBytes 4 m.pair.epoch ++ leBytes 4 m.pair.claim ++ leBytes 2 (boundMask m) ++ leBytes 2 (theirBound m)
    ++ leBytes 8 m.pair.digest.toNat ++ leBytes 4 (m.path 0).delay ++ leBytes 4 (m.path 1).delay ++ leBytes 8 m.pair.twinAt
    ++ leBytes 4 m.pair.copyAttempts ++ leBytes 4 (m.fld F.pairCountRcptMismatch) ++ leBytes 4 (m.fld F.pairCountAgreeDeferCnt)
    ++ leBytes 4 (m.fld F.pairCountSubstCnt) ++ leBytes 4 (m.fld F.pairCountCutMiss) ++ leBytes 4 0

def effPairReport (c : Cmd) (m : Mach) : Mach × Eff := okDone (writeBuf c (pairReport m) m)

def effPairFwUpdate (c : Cmd) (m : Mach) : Mach × Eff :=
  let own := c.f 0 1 == m.pair.unit % 2
  if !m.pair.inTwin || own == (m.pair.role == .senior) then reject stSTATE m
  else if own then
    (if m.sec.staged.isNone then reject stSTATE m
     else
      (activateStaged (leavePair m), .done (fin stDONE)))
  else (m, .hold)

/-! ### The rows -/

def execHeartbeat (path : Nat) (bytes : List Byte) (rxQ : Nat) (s : State) : Host.Outcome State Fault Refusal := .next (s.run (heartbeatRx path bytes rxQ))

/-- HB_MISS boundaries, the present one included, without a heartbeat (R282). -/
def execPairPartnerLost (s : State) : Host.Outcome State Fault Refusal :=
  .next (s.run (whenAlive fun m =>
    let n := if m.pair.heard then 0 else if m.dev.intakeDone then m.pair.missed else m.pair.missed + 1
    if m.pair.partner.isSome && decide (m.fld F.pairCtrlHbMiss ≤ n) then partnerLost m else m))

def execCut (path : Nat) (bytes : List Byte) (departQ : Nat) (s : State) : Host.Outcome State Fault Refusal :=
  .next (s.run (pairMsg path 0x02 bytes (cutRx departQ)))

def execCutWaitTimeout (departQ : Nat) (s : State) : Host.Outcome State Fault Refusal := .next (s.run (whenAlive (cutTimeout departQ)))

def execAgree (path : Nat) (bytes : List Byte) (s : State) : Host.Outcome State Fault Refusal := .next (s.run (pairMsg path 0x03 bytes agreeRx))

def execReceipt (path : Nat) (bytes : List Byte) (s : State) : Host.Outcome State Fault Refusal := .next (s.run (pairMsg path 0x04 bytes receiptRx))

def execForward (path : Nat) (bytes : List Byte) (startQ lastQ : Int) (s : State) : Host.Outcome State Fault Refusal :=
  .next (s.run (pairMsg path 0x05 bytes (forwardRx startQ lastQ)))

/-- A JOURNAL segment, or a change record of a copy. -/
def execJournal (path : Nat) (frame : JournalRx) (s : State) : Host.Outcome State Fault Refusal :=
  .next (s.run (pairMsg path 0x06 frame.bytes fun q y => match frame.change with | some i => changeRx i | none => journalRx q y))

def execJack (path : Nat) (frame : JackRx) (s : State) : Host.Outcome State Fault Refusal := .next (s.run (pairMsg path 0x07 frame.bytes (jackRx frame.ns)))

def execPosted (path : Nat) (bytes : List Byte) (s : State) : Host.Outcome State Fault Refusal := .next (s.run (pairMsg path 0x08 bytes postedRx))

def execCopy (path : Nat) (bytes : List Byte) (image : Option Image) (s : State) : Host.Outcome State Fault Refusal :=
  .next (s.run (pairMsg path 0x09 bytes (copyRx image)))

def execJoinReq (path : Nat) (bytes : List Byte) (s : State) : Host.Outcome State Fault Refusal := .next (s.run (controlRx path 1 bytes joinReqRx))

def execJoinAck (path : Nat) (bytes : List Byte) (s : State) : Host.Outcome State Fault Refusal := .next (s.run (controlRx path 2 bytes joinAckRx))

def execJoinNak (path : Nat) (bytes : List Byte) (s : State) : Host.Outcome State Fault Refusal := .next (s.run (controlRx path 3 bytes fun _ => joinNakRx))

def execLeave (path : Nat) (bytes : List Byte) (s : State) : Host.Outcome State Fault Refusal := .next (s.run (controlRx path 4 bytes fun _ => leaveRx))

def execSwap (path : Nat) (bytes : List Byte) (s : State) : Host.Outcome State Fault Refusal := .next (s.run (controlRx path 5 bytes swapRx))

def execVerified (path : Nat) (bytes : List Byte) (s : State) : Host.Outcome State Fault Refusal := .next (s.run (controlRx path 6 bytes fun _ => verifiedRx))

def execSafeNote (path : Nat) (bytes : List Byte) (s : State) : Host.Outcome State Fault Refusal := .next (s.run (pairMsg path 0x0B bytes fun _ _ => safeNoteRx))

/-- A row of a path 0 or 1. -/
def onPath (p : Nat) (f : Mach → Mach) (m : Mach) : Mach := if p < 2 then whenAlive f m else m

def execPairPathCal (path : Nat) (samples : List Int) (s : State) : Host.Outcome State Fault Refusal := .next (s.run (onPath path (pathCal path samples)))

/-- Block lock lost, hi_ber, or four boundaries, the present one included, without a heartbeat on the path while the other carries them (R278). -/
def pathFails (p : Nat) (cause : PathCause) (m : Mach) : Mach :=
  let x := m.path p
  match cause with
  | .blockLock => pathLeaves p true m
  | .hiBer => pathLeaves p false m
  | .heartbeats => if x.inService && !x.heard && (m.path (1 - p)).heard && decide (3 ≤ x.missed) then pathLeaves p false m else m

def execPairPathDown (path : Nat) (cause : PathCause) (s : State) : Host.Outcome State Fault Refusal := .next (s.run (onPath path (pathFails path cause)))

def execCopyTimeout (s : State) : Host.Outcome State Fault Refusal := .next (s.run (whenAlive copyTimeout))

def execBlockLockAcquired (link : Link) (s : State) : Host.Outcome State Fault Refusal :=
  .next (s.run (match link with
    | .lane l => onLane l (laneLock l)
    | .path p => onPath p (pathLock p)))

def execTrainFrameTx (link : Link) (s : State) : Host.Outcome State Fault Refusal :=
  .next (s.run (match link with
    | .lane l => onLane l (trainTx l)
    | .path p => onPath p (pathTrainTx p)))

def execPairTrainFrame (path : Nat) (bytes : List Byte) (s : State) : Host.Outcome State Fault Refusal := .next (s.run (onPath path (pathTrainRx path bytes)))

def execPairCalReq (path : Nat) (bytes : List Byte) (turn : Nat) (s : State) : Host.Outcome State Fault Refusal :=
  .next (s.run (onPath path (pathCalReq path bytes turn)))

def execPairCalRetry (path : Nat) (s : State) : Host.Outcome State Fault Refusal :=
  .next (s.run (onPath path fun m => if (m.path path).calFailed then pathDown path false m else m))


end Sys2Proof.Machine
end

