-- ==== Sys2Proof/Machine/HostSvc.lean ====
section
/-! DEFINITION. Machine/HostSvc.lean: the ring service: its configuration, the doorbell read, fetching, the rebuild, attention, read faults, and the housekeeping commands (R239–R275, R293). -/
set_option Elab.async false
namespace Sys2Proof.Machine

/-! ### Configuration (R243, R275) -/

/-- Entries of a ring of a SIZE, 0 where the SIZE lies outside its range, with whether it does. -/
def ringEntries (lo hi size : Nat) : Nat × Bool := if size = 0 then (0, false) else if lo ≤ size ∧ size ≤ hi then (2 ^ size, false) else (0, true)

/-- An address of two fields: the low one begins at bit `sh`. -/
def addrOf (m : Mach) (sh : Nat) (lo hi : FieldRef) : Nat := m.reg.raw lo * 2 ^ sh + m.reg.raw hi * 2 ^ 32

/-- One command ring as its registers give it, with whether its setting is refused. -/
def sampleRing (m : Mach) (r : Nat) : Ring × Bool :=
  let c := ringEntries 1 12 (m.reg.raw (F.hostCmdRingSize r))
  let d := ringEntries 1 13 (m.reg.raw (F.hostCmdCplSize r))
  let alone := decide (0 < c.1) && d.1 = 0
  ({ ringInit with cmdE := if alone then 0 else c.1, prio := m.fld (F.hostCmdRingPrio r), cmdAddr := addrOf m 12 (F.hostCmdRingAddrLo r) (F.hostCmdRingAddrHi r)
                   cplE := d.1, cplAddr := addrOf m 12 (F.hostCmdCplAddrLo r) (F.hostCmdCplAddrHi r)
                   resAddr := addrOf m 12 (F.hostCmdResAddrLo r) (F.hostCmdResAddrHi r) },
    c.2 || d.2 || alone)

/-- No two of the structures overlap. -/
def structuresApart (h : HostSt) : Bool := pairFree (fun (a b : Nat × Nat) => overlap a.1 a.2 b.1 b.2) (hostStructures { h with enabled := true })

/-- The configuration sampled as ENABLE is set; service begins at the next boundary unless structures overlap. -/
def sampleHost (m : Mach) : Mach :=
  let rings := (List.range 16).map (sampleRing m)
  let ev := ringEntries 1 16 (m.reg.raw F.hostEvtSize)
  let recs := (List.range 4).map fun n => (ringEntries 11 16 (m.reg.raw (F.hostRecSize n)), addrOf m 12 (F.hostRecAddrLo n) (F.hostRecAddrHi n))
  let recRings := (recs.zip m.host.recs).map fun x => { x.2 with e := x.1.1.1, addr := x.1.2, pi := 0, ci := 0 }
  let h := { m.host with dbAddr := addrOf m 12 F.hostDbBaseAddrLo F.hostDbBaseAddrHi, rsAddr := addrOf m 13 F.hostRsBaseAddrLo F.hostRsBaseAddrHi
                         foldAddr := addrOf m 12 F.hostFoldBaseAddrLo F.hostFoldBaseAddrHi, rings := rings.map Prod.fst, evE := ev.1
                         evAddr := addrOf m 12 F.hostEvtAddrLo F.hostEvtAddrHi, evPi := 0, evCi := 0, recs := recRings }
  let ok := structuresApart h
  let bad := ev.2 || (rings.any Prod.snd) || (recs.any fun x => x.1.2) || !ok
  let m1 := { m with host := { h with enabled := false, starting := if ok then some (m.flag F.hostCtrlResume) else none }, pair := { m.pair with pairRings := false } }
  if bad then m1.raise F.hostStatusCfgBad else m1

/-- A command fetched is not terminal: it waits for its acceptance, is accepted, or its terminal completion is not posted yet (R258, R275). -/
def unfinishedAny (h : HostSt) : Bool :=
  !(h.accepted.isEmpty && h.jackWait.isEmpty && h.jacked.isEmpty) || h.rings.any fun x => x.held.any fun c => !bitOf c.flags 0

/-- A write of ENABLE (R275): set, it samples the configuration; cleared, service ends unless an accepted command is not terminal. -/
def writeEnable (was now : Bool) (m : Mach) : Mach :=
  if now && !was then sampleHost m
  else if was && !now then
    (if !unfinishedAny m.host then { m with host := { m.host with enabled := false, starting := none }, pair := { m.pair with server := false } }
     else (m.setF F.hostCtrlEnable 1).raise F.hostStatusCfgBad)
  else m

/-! ### Rebuilding (R273, R293) -/

/-- A completion entry as the scan reads it: SEQ, OPCODE, STATUS, FIRST and ATTN. -/
structure ScanCpl where
  seq : Nat
  op : Nat
  status : Nat
  first : Bool
  attn : Bool
  deriving DecidableEq, Repr

/-- Entry `i` of a completion ring, where it holds the PHASE of the index. -/
def scanCpl (m : Mach) (x : Ring) (i : Nat) : Option ScanCpl :=
  let b := Memory.read m.hostMem (x.cplAddr + 32 * (i % max x.cplE 1)) 32
  if bitOf (fieldLE b 31 1) 7 = phaseOf i x.cplE then some ⟨fieldLE b 0 8, fieldLE b 8 2, fieldLE b 10 1, bitOf (fieldLE b 11 1) 0, bitOf (fieldLE b 11 1) 6⟩ else none

/-- The scan of a completion ring from CPL_PI: the ring's counts, and SEQ, OPCODE and ATTN of the entries seen. -/
def scanRing (m : Mach) : Nat → Ring → List (Nat × Nat × Bool) → Ring × List (Nat × Nat × Bool)
  | 0, x, ops => (x, ops)
  | f + 1, x, ops =>
    match scanCpl m x x.cplPi with
    | none => (x, ops)
    | some c =>
      let y := { x with cplPi := x.cplPi + 1, cmdCi := x.cmdCi + b2n c.first, nextSeq := x.nextSeq + b2n (c.first && c.seq == x.nextSeq) }
      scanRing m f (if c.status = stACCEPTED then y else markTerm c.seq y) ((c.seq, c.op, c.attn) :: ops)

/-- Bits set in the 1,024-bit map of a ring, as SEQs from TERM_LOW. -/
def termBits (low map : Nat) : List Nat := (List.range 1024).filterMap fun i => if bitOf map i then some (low + i) else none

/-- Where the rebuild takes a word of the block for an index: 2^32 above it, a whole number of turns of any ring, so that earlier indices stay below it (R244). -/
def indexOf (w : Nat) : Nat := 2 ^ 32 + w

/-- A ring's counts of the block. -/
def blockRing (b : List Byte) (x : Ring) (r : Nat) : Ring :=
  let o := 0x100 + 0x100 * r
  let low := fieldLE b (o + 0x10) 8
  let ci := indexOf (fieldLE b o 4)
  let pi := indexOf (fieldLE b (o + 4) 4)
  { x with cmdPi := ci, cmdCi := ci, cplPi := pi, cplCi := pi - x.cplE, nextSeq := fieldLE b (o + 8) 8
           termLow := low, termMap := termBits low (fieldLE b (o + 0x20) 128), held := [] }

/-- SEQs of a ring accepted and not terminal. -/
def unfinished (x : Ring) : List Nat := ((List.range (x.nextSeq - x.termLow)).map (x.termLow + ·)).filter fun s => !x.termMap.contains s

/-- Number of entries from index `i` that hold the PHASE of their index, in a ring of `e` entries; `ph` reads the PHASE of a slot, `len` the entries it takes. -/
def scanPhase (e : Nat) (ph : Nat → Bool) (len : Nat → Nat) : Nat → Nat → Nat
  | 0, i => i
  | f + 1, i => if ph (i % max e 1) == phaseOf i e then scanPhase e ph len f (i + len (i % max e 1)) else i

/-- OPCODE and ATTN of the ACCEPTED entry of a SEQ among the last entries of the completion ring before CPL_PI. -/
def acceptedEntry (m : Mach) (x : Ring) (seq : Nat) : Option (Nat × Bool) :=
  (List.range x.cplE).findSome? fun n =>
    (scanCpl m x (x.cplPi - 1 - n)).bind fun c => if c.seq = seq ∧ c.status = stACCEPTED then some (c.op, c.attn) else none

/-- OPCODE and ATTN of the descriptor of a SEQ among those consumed: at its place, or before it where descriptors of a bad SEQ were consumed since. -/
def descEntry (m : Mach) (x : Ring) (seq : Nat) : Option (Nat × Bool) :=
  (List.range x.cmdE).findSome? fun n =>
    let b := Memory.read m.hostMem (x.cmdAddr + 64 * ((x.cmdCi - (x.nextSeq - seq) - n) % max x.cmdE 1)) 16
    if fieldLE b 8 8 = seq then some (fieldLE b 0 2, bitOf (fieldLE b 2 2) 2) else none

/-- OPCODE and ATTN of an unfinished command: of its ACCEPTED entry where the ring still holds it, else of its descriptor. The spec names no other place, so that of a
command whose entry and descriptor are both overwritten they are free values. -/
def opOf (m : Mach) (x : Ring) (ops : List (Nat × Nat × Bool)) (seq : Nat) : Nat × Bool :=
  match ops.find? fun o => o.1 == seq with
  | some o => o.2
  | none => ((acceptedEntry m x seq).orElse fun _ => descEntry m x seq).getD (Config.lostOp x.cmdAddr seq % 65536, Config.lostOp x.cmdAddr seq / 65536 % 2 == 1)

/-- An unfinished command at the rebuild: continued where this unit holds it, else ABORTED_SAFE with REPLAYED; the count of those. -/
def replayOne (takeover : Bool) (r : Nat) (ops : List (Nat × Nat × Bool)) (a : Mach × Nat) (seq : Nat) : Mach × Nat :=
  let m := a.1
  let j := m.pair.journal.find? fun j => j.ring == r && fieldLE j.desc 8 8 == seq && j.complete
  if takeover && (m.findCmd r seq).isSome then
    ({ m with host := { m.host with accepted := m.host.accepted.map fun p =>
        if p.cmd.ring == r && p.cmd.seq == seq && !p.inEffect then
          { p with cmd := { p.cmd with first := m.tb.k + 1, own := if p.cmd.timed then p.cmd.own else some (m.tb.k + 1) } }
        else p } }, a.2)
  else match takeover, m.host.mirror.find? fun c => c.ring == r && c.seq == seq with
  | true, some c => (postCpl c { m with host := { m.host with mirror := m.host.mirror.filter fun d => !(d.ring == r && d.seq == seq) } }, a.2)
  | _, _ =>
  match takeover, j with
    | true, some j =>
      let c := (parseDesc r j.desc j.payload).cmd (fieldLE j.desc 0 2)
      let c1 := { c with first := m.tb.k + 1, own := ownOf c (m.tb.k + 1) m, order := m.host.acceptCount }
      ({ m with host := { m.host with accepted := m.host.accepted ++ [⟨c1, false⟩], acceptCount := m.host.acceptCount + 1 } }, a.2)
    | _, _ =>
      let x := m.ring r
      let o := opOf m x ops seq
      (postCpl ⟨r, seq, o.1, stABORTED, cfREPLAYED + (if o.2 then cfATTN else 0), 0, m.tb.k, 0, []⟩ m, a.2 + 1)

/-- A producer index read as a word, against the device's consumer index. -/
def producerOf (w ci e : Nat) : Option Nat :=
  let d := (w + 2 ^ 32 - ci % 2 ^ 32) % 2 ^ 32
  if d ≤ e then some (ci + d) else none

/-- A consumer index read as a word, against the device's producer index (R246); one before the first entry counts as none consumed. -/
def consumerOf (w pi e : Nat) : Option Nat :=
  let d := (pi % 2 ^ 32 + 2 ^ 32 - w) % 2 ^ 32
  if d ≤ e then some (pi - d) else none

/-- The consumer index the doorbell page holds at an offset, for a producer index found by a scan; a bad word leaves the ring full. -/
def doorCi (m : Mach) (off pi e : Nat) : Nat := (consumerOf (leNat (Memory.read m.hostMem (m.host.dbAddr + off) 4)) pi e).getD (pi - e)

/-- What a unit that takes over still held of a ring: completions it has determined and not seen written, and none of the commands whose ACCEPTED is not in memory (R261, R274). -/
def takeoverRing (r : Nat) (nextSeq : Nat) (m : Mach) : Mach :=
  let unwritten := (m.ring r).held.filter fun c => !bitOf c.flags 0
  { m with host := { m.host with mirror := m.host.mirror ++ unwritten
                                 accepted := m.host.accepted.filter fun p => !(p.cmd.ring == r && decide (nextSeq ≤ p.cmd.seq)) } }

/-- One ring of the rebuild. -/
def rebuildRing (takeover : Bool) (blk : List Byte) (a : Mach × Nat) (r : Nat) : Mach × Nat :=
  let x := a.1.ring r
  if x.cmdE = 0 then a
  else
    let s := scanRing a.1 x.cplE (blockRing blk x r) []
    let m0 := if takeover then takeoverRing r s.1.nextSeq a.1 else a.1
    let m1 := m0.setRing r { s.1 with cplCi := doorCi a.1 (0x40 + 4 * r) s.1.cplPi s.1.cplE, blkCi := s.1.cmdCi, blkSeq := s.1.nextSeq }
    (unfinished s.1).foldl (replayOne takeover r s.2) (m1, a.2)

/-- HOST_REBUILD at a boundary (R273); `takeover` on a unit that takes over the service of a pair (R293). -/
def rebuild (takeover : Bool) (m : Mach) : Mach :=
  let blk := Memory.read m.hostMem m.host.rsAddr 0x1100
  if fieldLE blk 0 4 ≠ 1 then { m with host := { m.host with enabled := false } }.raise F.hostStatusCfgBad
  else
    let m0 := { m with host := { m.host with enabled := true, generation := fieldLE blk 4 4 } }
    let r := (List.range 16).foldl (rebuildRing takeover blk) (m0, 0)
    let m1 := r.1
    let h := m1.host
    let ev := scanPhase h.evE (fun s => bitOf (Memory.get m1.hostMem (h.evAddr + 32 * s + 2)).toNat 7) (fun _ => 1) h.evE (indexOf (fieldLE blk 0x18 4))
    let recs := (h.recs.zipIdx).map fun x =>
      let at_ := fun s => x.1.addr + 64 * s
      let pi := if x.1.e = 0 then 0 else scanPhase x.1.e (fun s => bitOf (Memory.get m1.hostMem (at_ s + 2)).toNat 7)
        (fun s => 1 + recUnits (fieldLE (Memory.read m1.hostMem (at_ s + 4) 4) 0 4)) x.1.e (indexOf (fieldLE blk (0x20 + 4 * x.2) 4))
      { x.1 with pi := pi, ci := doorCi m1 (0x84 + 4 * x.2) pi x.1.e }
    let busy := ((List.range 6).filter fun s => bitOf (fieldLE blk 0x30 1) s).map fun s => FoldSlot.mk s ev
    let m2 := { m1 with host := { h with evPi := ev, evCi := doorCi m1 0x80 ev h.evE, recs := recs, foldBusy := busy, generation := h.generation + 1, starting := none }
                        pair := { m1.pair with journal := [] } }
    ((m2.hostWrite m2.host.rsAddr (rsBlock m2 m2.tb.k)).raise F.hostStatusRebuilt).post 0x0F03 [r.2]

/-- A fresh start (R273). -/
def freshStart (m : Mach) : Mach :=
  let m1 := { m with host := { m.host with enabled := true, starting := none, generation := 1, foldBusy := [] } }
  m1.hostWrite m1.host.rsAddr (rsBlock m1 m1.tb.k)

/-- The host reachable from this boundary on, and the start of service that a setting of ENABLE asked for (R242, R273, R275); the ROM starts afresh (R450). -/
def serviceBoundary (m : Mach) : Mach :=
  let m1 := { m with host := { m.host with reach := m.host.linkUp && m.host.busMaster && !m.host.d3, fetched := [], readStuck := [] } }
  match m1.host.starting with
  | none => m1
  | some resume =>
    if !m1.hostReach then m1
    else
      let m2 := { m1 with pair := { m1.pair with server := m1.pair.server || !m1.pair.inTwin }, host := { m1.host with starting := none } }
      if resume && !m.inState [.boot, .recovery] then rebuild false m2 else freshStart m2

/-! ### The doorbell page (R245, R246) -/

/-- A doorbell word found bad: DB_BAD, and the event once for each run. -/
def badWord (off : Nat) (m : Mach) : Mach :=
  let m1 := m.raise F.hostStatusDbBad
  if m.host.dbBadRun.contains off then m1
  else
    let m2 := m1.post 0x0F02 [off]
    { m2 with host := { m2.host with dbBadRun := insertNat off m2.host.dbBadRun } }

def goodWord (off : Nat) (m : Mach) : Mach := { m with host := { m.host with dbBadRun := m.host.dbBadRun.filter (· ≠ off) } }

/-- The two words of a command ring. -/
def doorRing (ws : List Nat) (m : Mach) (r : Nat) : Mach :=
  let x := m.ring r
  let m1 := if x.cmdE = 0 then m else match producerOf (ws.getD r 0) x.cmdCi x.cmdE with
    | some p => goodWord (4 * r) (m.setRing r { x with cmdPi := p })
    | none => badWord (4 * r) m
  let y := m1.ring r
  if y.cplE = 0 then m1
  else match consumerOf (ws.getD (16 + r) 0) y.cplPi y.cplE with
    | some c => goodWord (0x40 + 4 * r) (m1.setRing r { y with cplCi := max y.cplCi c })
    | none => badWord (0x40 + 4 * r) m1

/-- The consumer index of a record ring. -/
def doorRec (ws : List Nat) (m : Mach) (n : Nat) : Mach :=
  let x := m.recRing n
  if x.e = 0 then m
  else match consumerOf (ws.getD (33 + n) 0) x.pi x.e with
    | some c => goodWord (0x84 + 4 * n) (m.setRecRing n { x with ci := max x.ci c })
    | none => badWord (0x84 + 4 * n) m

/-- The consumer index of the event ring; fold slots it has passed are free (R268). -/
def doorEvt (ws : List Nat) (m : Mach) : Mach :=
  let h := m.host
  if h.evE = 0 then m
  else match consumerOf (ws.getD 32 0) h.evPi h.evE with
    | some c => goodWord 0x80 { m with host := { h with evCi := max h.evCi c, foldBusy := h.foldBusy.filter fun f => decide (max h.evCi c < f.upTo) } }
    | none => badWord 0x80 m

/-- The doorbell page read (R246): indices taken, then what waited for space is posted (R258, R269). -/
def doorbellWords (ws : List Nat) (m : Mach) : Mach :=
  if !m.service then m
  else
    let m1 := (List.range 16).foldl (doorRing ws) m
    let m2 := (List.range 4).foldl (doorRec ws) (doorEvt ws m1)
    (List.range 4).foldl (fun m n => postRecs n m) (acceptJacked ((List.range 16).foldl (fun m r => postHeld r m) m2))

/-- The ring whose descriptor or payload a read was for. -/
def HostRead.ring? : HostRead → Option Nat
  | .doorbell => none
  | .descriptor r => some r
  | .payload r => some r

/-- A read fault (R241, R293): the ring of a descriptor or payload is not fetched from again before the next boundary. -/
def readFault (what : HostRead) (addr : Nat) (m : Mach) : Mach :=
  if !m.service then m
  else
    let m1 := { m with host := { m.host with readStuck := what.ring?.toList ++ m.host.readStuck } }.raise F.hostStatusReadFault
    let run := m.host.faultAt = some m.tb.k ∨ m.host.faultAt = some (m.tb.k - 1)
    let m2 := if run then m1 else m1.post 0x0F01 (w64 addr)
    let n := if m.host.faultAt = some m.tb.k then m.pair.readFaults else if m.host.faultAt = some (m.tb.k - 1) then m.pair.readFaults + 1 else 1
    let m3 := { m2 with host := { m2.host with faultAt := some m.tb.k }, pair := { m2.pair with readFaults := n } }
    if m3.pair.inTwin && decide (m3.fld F.pairCtrlServeTo ≤ n) then { m3 with pair := { m3.pair with server := false, yielded := true, readFaults := 0 } } else m3

/-! ### Fetching (R250–R252, R292) -/

/-- Fetching from a ring stops (R250): commands journalled and not yet accepted count with the accepted ones. -/
def fetchStops (r : Nat) (m : Mach) : Bool :=
  let x := m.ring r
  decide (1024 ≤ m.host.accepted.length + m.host.jackWait.length + m.host.jacked.length) || decide (1024 ≤ x.nextSeq - x.termLow) || decide (cplFree x < x.held.length + 2)
    || decide (128 ≤ m.host.fetched.length) || decide (32 ≤ (m.host.fetched.filter (· == r)).length)

/-- Ring r holds an unconsumed descriptor that can be fetched at this boundary (R241, R250). -/
def ringReady (r : Nat) (m : Mach) : Bool :=
  let x := m.ring r
  decide (0 < x.cmdE) && decide (x.cmdCi < x.cmdPi) && !m.host.readStuck.contains r && !romSilent r m && !fetchStops r m

/-- Ring q is served before ring r: by PRIO, then by number (R250). -/
def ringBefore (m : Mach) (q r : Nat) : Bool :=
  decide ((m.ring q).prio < (m.ring r).prio) || ((m.ring q).prio == (m.ring r).prio && decide (q < r))

/-- A descriptor of ring r is fetched next: the rings are served, it can be fetched, and no ring before it can. -/
def fetchable (r : Nat) (m : Mach) : Bool :=
  m.alive && m.service && ringReady r m && !(List.range 16).any fun q => ringBefore m q r && ringReady q m

/-- A descriptor taken from its ring: rejected by the checks of R251, journalled with the partner in a pair that exchanges (R292), or accepted by `acc`. -/
def takeDesc (info : Option CmdInfo) (resv : Nat) (c : Cmd) (acc : Mach → Mach) (m0 : Mach) : Mach :=
  let m := { m0 with host := { m0.host with fetched := c.ring :: m0.host.fetched } }
  let x := m.ring c.ring
  match info with
  | none => rejectCmd c stMALFORMED (if c.seq = x.nextSeq then 0 else x.nextSeq % 2 ^ 32) m
  | some info =>
    match checkCmd info resv c m with
    | some (s, v) => rejectCmd c s v m
    | none =>
      if romRefuses c m then rejectCmd c stSTATE 0 m
      else if m.pair.exchanging && m.pair.server && m.pair.role != .shadow then
        (let m2 := consume c.ring m
         sendJournal c { m2 with host := { m2.host with jackWait := m2.host.jackWait ++ [c] } })
      else acc m

/-- A descriptor fetched with its payload, where it is its ring's turn: accepted with F `slow` boundaries after the next. -/
def fetchDesc (infoOf : Nat → Option CmdInfo) (r : Nat) (b buf : List Byte) (slow : Nat) (m : Mach) : Mach :=
  if !fetchable r m then m
  else
    let d := parseDesc r b buf
    let c := d.cmd (fieldLE b 0 2)
    takeDesc (infoOf (fieldLE b 0 2)) d.resv c (fun m => acceptCmd c (m.tb.k + 1 + slow) (consume r m)) m

/-! ### A command row (R250–R255)

The row of a host command stands for its descriptor fetched at the boundary, where its ring's turn has come: it passes the checks of R251, it is accepted, and it takes effect at the intake of the present period unless its launch time or an earlier command of its ring makes it wait. -/

/-- Acceptance of a command row with F the present boundary. -/
def acceptNow (c : Cmd) (m : Mach) : Mach := acceptCmd c m.tb.k (consume c.ring m)

/-- What follows the acceptance of a command row: its effect, where it need not wait. -/
def actNow (info : CmdInfo) (eff : Cmd → Mach → Mach × Eff) (c : Cmd) (m : Mach) : Mach :=
  let m1 := acceptNow c m
  let c1 := m1.accCmd c
  if ringBlocked c1 m1 || c1.own.isNone || haltWaits c1 m1 then m1 else takeEffect info eff c1 m1

/-- A command row from descriptor to effect. -/
def hostCommand (info : CmdInfo) (eff : Cmd → Mach → Mach × Eff) (d : Desc) (m : Mach) : Mach :=
  let c := d.cmd info.op
  if !fetchable c.ring m then m else takeDesc (some info) d.resv c (actNow info eff c) m

/-! ### Attention (R270) -/

/-- ATTN_PULSE at a boundary. -/
def attnBoundary (m : Mach) : Mach :=
  let n := min (m.host.attnSince + 1) 255
  let m1 := { m with host := { m.host with attnPulse := false, attnSince := n } }
  if m1.host.attnOwed && m1.flag F.hostCtrlAttnEn && hrdyLevel m1 && decide (m1.fld F.hostCtrlAttnGap ≤ n) then
    { m1.send .attention with host := { m1.host with attnOwed := false, attnPulse := true, attnSince := 0 } }
  else m1

/-! ### Service in a pair (R293) -/

/-- The conditions under which a unit begins to serve after its partner. -/
def mayServe (m : Mach) : Bool :=
  match m.pair.takeover with
  | some n => m.pair.safeSeen || ((List.range 16).any fun l => (m.lane l).attach == .bound && (m.lane l).claimSeen == m.pair.claim)
      || (boundMask m == 0 && decide (64 ≤ n))
  | none => m.pair.inTwin && !m.pair.yielded && (match m.pair.partner with | some q => !q.server | none => false)

/-- SERVER_CHANGE: this unit becomes the server and rebuilds from the ring-state block. -/
def serverChange (cells : List Host.Cell) (m : Mach) : Mach :=
  if m.pair.server || !mayServe m || !m.hostReach then m
  else
    let m1 := { m with hostMem := hostStores m.hostMem cells, pair := { m.pair with server := true, pairRings := true, takeover := none } }
    rebuild true (m1.post 0x080B [])

/-! ### Housekeeping (R262, R263) -/

def effNop (_ : Cmd) (m : Mach) : Mach × Eff := (m, .done (finR (m.tb.k % 2 ^ 32)))

def chkFence (c : Cmd) : Option Nat := if c.f 0 1 < 2 ∧ c.zeroFrom 1 then none else some stMALFORMED

/-- FENCE waits for every command accepted before it, of its ring or of all (R263). -/
def effFence (c : Cmd) (m : Mach) : Mach × Eff :=
  if m.host.accepted.any fun p => decide (p.cmd.order < c.order) && (bitOf (c.f 0 1) 0 || p.cmd.ring == c.ring) then (m, .wait) else okDone m

def chkCancel (c : Cmd) : Option Nat := if c.f 0 1 ≤ 15 ∧ allZero (sliceBytes c.pay 1 7) ∧ c.zeroFrom 16 then none else some stMALFORMED

def effCancel (c : Cmd) (m : Mach) : Mach × Eff :=
  match m.findCmd (c.f 0 1) (c.f 8 8) with
  | some p => if p.inEffect || (p.cmd.ring == c.ring && p.cmd.seq == c.seq) then okEmpty m else okDone (complete p.cmd (fin stSUPERSEDED) m)
  | none => okEmpty m

/-! ### The rows -/

def execHostReadFault (what : HostRead) (addr : Nat) (s : State) : Host.Outcome State Fault Refusal := .next (s.run (whenAlive (readFault what addr)))

/-- The link and Bus Master Enable (R242): a loss acts at once, a return at the next boundary. -/
def execPcieLinkChange (up busMaster : Bool) (s : State) : Host.Outcome State Fault Refusal :=
  .next (s.run fun m => { m with host := { m.host with linkUp := up, busMaster := busMaster, reach := m.host.reach && up && busMaster } })

def execPciePowerState (d3 : Bool) (s : State) : Host.Outcome State Fault Refusal :=
  .next (s.run fun m => { m with host := { m.host with d3 := d3, reach := m.host.reach && !d3 } })

def execAttnPulseEnd (s : State) : Host.Outcome State Fault Refusal := .next (s.run fun m => { m with host := { m.host with attnPulse := false } })


end Sys2Proof.Machine
end

