-- ==== Sys2Proof/Machine/Meas.lean ====
section
/-! DEFINITION. Machine/Meas.lean: converter cores and urgent requests, filter chains, Rimstone comparators and sampled-value streams (R302–R321, R341, R342). -/
set_option Elab.async false
namespace Sys2Proof.Machine

/-! ### PRP duplicate discard (R341, R342) -/

/-- A frame with the sequence number of its PRP trailer: the device with the frame noted, and whether it is a second copy. -/
def prpTake (src port : Nat) (rct : Option Nat) (m : Mach) : Mach × Bool :=
  match m.flag F.ethCtrlPrpEn, rct with
  | true, some n =>
    match m.net.nodes.find? fun x => x.src == src with
    | some x =>
      if x.seen.contains n then (m.bump (F.ethCountDup port) 1, true)
      else
        let nodes := m.net.nodes.map fun y => if y.src == src then { y with seen := (n :: y.seen).take 64 } else y
        ({ m with net := { m.net with nodes := nodes, prpFullRun := false } }, false)
    | none =>
      if m.net.nodes.length < 512 then ({ m with net := { m.net with nodes := m.net.nodes ++ [⟨src, [n]⟩], prpFullRun := false } }, false)
      else
        let m1 := m.raise F.ethStatusPrpFull
        (if m.net.prpFullRun then m1 else (let m2 := m1.post 0x070A []; { m2 with net := { m2.net with prpFullRun := true } }), false)
  | _, _ => (m, false)

/-- The instant of the intake of the present period, in ns. -/
def intakeAt (m : Mach) : Nat := m.now + 1200

/-- What ends at an instant in 0.25 ns comes too late for the intake of the present period; at the deadline it is in time (R307, R496). -/
def tooLateQ (m : Mach) (atQ : Nat) : Bool := decide (4 * (m.now + 1000) < atQ)

/-- The same of an instant in ns (R319, R351, R496). -/
def tooLate (m : Mach) (at_ : Nat) : Bool := tooLateQ m (4 * at_)

/-- The periods of the last boundaries, newest first: number, start, and end as device time ran on; one that a step of time cut short ends a period later. -/
def periodsBefore (p : Nat) : Nat → List (Nat × Nat) → List (Nat × Int × Int)
  | _, [] => []
  | next, (k, b) :: t => (k, (b : Int), if b < next then (next : Int) else b + p) :: periodsBefore p b t

/-- Number of the last boundary at or before an instant in ns, as the boundaries came: through changes of P and steps of time (R327).
DESIGN CHOICE: an instant before the boundaries held is dated back from the oldest one at the P in force. -/
def boundaryOf (m : Mach) (t : Int) : Nat :=
  let ps := (m.tb.k, (m.now : Int), (m.now : Int) + m.tb.p) :: periodsBefore m.tb.p m.now m.tb.hist
  match (ps.find? fun x => decide (x.2.1 ≤ t) && decide (t < x.2.2)).or (ps.find? fun x => decide (x.2.1 ≤ t)) with
  | some x => x.1
  | none =>
    let o := ps.getLastD (m.tb.k, (m.now : Int), 0)
    o.1 - (((o.2.1 - t).toNat + m.tb.p - 1) / max m.tb.p 1)

/-- A level noted at an instant where it changes, newest first; what no sample of the last second can need is dropped. -/
def levelNote (at_ : Int) (b : Bool) (l : List (Int × Bool)) : List (Int × Bool) :=
  let l1 := if l.head?.map Prod.snd = some b then l else (at_, b) :: l
  let n := (l1.takeWhile fun x => decide (at_ - 1000000000 < x.1)).length
  l1.take (n + 1)

/-- A noted level as it stood at an instant; low before the first note. -/
def levelAt (l : List (Int × Bool)) (t : Int) : Bool := match l.find? fun x => decide (x.1 ≤ t) with | some x => x.2 | none => false

/-! ### Rimstone comparators (R316, R317) -/

def RimState.code : RimState → Nat
  | .inside => 0 | .above => 1 | .below => 2

/-- The state of a comparator after a value. -/
def rimNext (r : Rim) (v : Int) : RimState :=
  match r.state with
  | .inside => if r.hi < v then .above else if v < r.lo then .below else .inside
  | .above => if r.hi < v then .above else if v < r.lo then .below else if v ≤ r.hi - r.hys then .inside else .above
  | .below => if r.hi < v then .above else if v < r.lo then .below else if r.lo + r.hys ≤ v then .inside else .below

/-- A comparator given a value at an instant; the device, and whether it left INSIDE. -/
def rimValue (i : Nat) (v at_ : Int) (ok : Bool) (m : Mach) : Mach × Bool :=
  match m.meas.rims[i]? with
  | none => (m, false)
  | some r =>
    let put := fun (x : Rim) => { m with meas := { m.meas with rims := setAt m.meas.rims i x } }
    if !r.enable then (m, false)
    else if !ok then (put { r with bad := true }, false)
    else
      let st := rimNext r v
      let m1 := put { r with state := st, bad := false, past := levelNote at_ (st != .inside) r.past }
      if st = r.state then (m1, false)
      else if st = .inside then (m1.post 0x0605 [i, Config.unstatedArg 0x0605 st.code, unsigned 32 v], false)
      else if r.state = .inside then (m1.post 0x0604 [i, Config.unstatedArg 0x0604 st.code, unsigned 32 v], true)
      else (m1, false)

/-! ### Echo: triggers and samples (R322–R327) -/

/-- Bytes of one sample. -/
def echoWidth (n : Nat) : Nat := 4 * n + 4 * ((n + 31) / 32)

/-- Bytes a record takes of the Echo memory (R322). -/
def echoAlloc (c : EchoCfg) : Nat := ((c.pre + c.post) * echoWidth c.chans.length + 4095) / 4096 * 4096

/-- Free Echo memory. -/
def echoFree (m : Mach) : Nat := 2 ^ 24 - (m.meas.echo.map fun e => match e.cfg with | some c => echoAlloc c | none => 0).sum

def Mach.echo (m : Mach) (s : Nat) : EchoSlot := m.meas.echo.getD s echoInit

def Mach.setEcho (m : Mach) (s : Nat) (e : EchoSlot) : Mach := { m with meas := { m.meas with echo := setAt m.meas.echo s e } }

/-- Samples after the trigger instant. -/
def afterTrig (e : EchoSlot) (t : EchoTrig) : Nat := (e.samples.filter fun x => decide (t.at16 < x.t * 65536)).length

/-- The trigger sample and all the samples held after it. -/
def trigHeld (e : EchoSlot) (t : EchoTrig) : Nat :=
  let n := afterTrig e t
  if n < e.samples.length then n + 1 else n

/-- POST_N of a triggered record: the trigger sample and those after it, POST at most (R324). -/
def postCount (c : EchoCfg) (e : EchoSlot) (t : EchoTrig) : Nat := min c.post (trigHeld e t)

/-- The record's samples, oldest first: at most PRE before the trigger sample, and POST_N from it on. -/
def recordSamples (c : EchoCfg) (e : EchoSlot) (t : EchoTrig) : List EchoSample :=
  ((e.samples.drop (trigHeld e t - postCount c e t)).take (postCount c e t + c.pre)).reverse

/-- Value of a sample's channel where its mask bit is set. -/
def EchoSample.at (x : EchoSample) (c : Nat) : Option Int := if x.mask.getD c false then some (x.values.getD c 0) else none

/-- f of a crossing of a level between two values (R323). -/
def crossF (x0 x1 lev : Int) : Nat := (roundDivI (256 * (lev - x0)) (x1 - x0)).toNat

/-- A crossing in a direction: 1 rising, 2 falling, 3 either. -/
def crosses (dir : Nat) (x0 x1 lev : Int) : Bool :=
  (bitOf dir 0 && decide (x0 < lev) && decide (lev ≤ x1)) || (bitOf dir 1 && decide (lev < x0) && decide (x1 ≤ lev))

/-- The 24 bytes of measurements of a channel over the samples from the trigger sample on (R328). -/
def echoMeas (xs : List EchoSample) (c : Nat) : List Byte :=
  let vs : List (Int × Int) := xs.filterMap fun (x : EchoSample) => (x.at c).map fun v => (x.t, v)
  let n := vs.length
  if n = 0 then List.replicate 24 0#8
  else
    let ys : List Int := vs.map Prod.snd
    let mean : Int := roundDiv ys.sum n
    let sq : Nat := (ys.map fun (v : Int) => v * v).sum.toNat
    let rms : Int := (((isqrt (4 * sq / n) + 1) / 2 : Nat) : Int)
    let mx : Int := ys.foldl max (ys.headD 0)
    let mn : Int := ys.foldl min (ys.headD 0)
    let ts : List Int := (vs.zip (vs.drop 1)).filterMap fun (p : (Int × Int) × (Int × Int)) =>
      if crosses 1 p.1.2 p.2.2 mean then some (256 * p.1.1 + crossF p.1.2 p.2.2 mean * (p.2.1 - p.1.1)) else none
    let per : Int := if ts.length < 2 then 0 else roundDiv (ts.getLastD 0 - ts.headD 0) (256 * (ts.length - 1))
    ([per, roundDiv (mx - mn) 2, rms, mean, mn, mx] : List Int).flatMap fun v => leBytes 4 (unsigned 32 v)

/-- One sample as bytes: mask words, then values. -/
def echoSampleBytes (n : Nat) (x : EchoSample) : List Byte :=
  (List.range ((n + 31) / 32)).flatMap (fun w => leBytes 4 (bitsToNat ((x.mask.drop (32 * w)).take 32)))
    ++ (List.range n).flatMap fun c => leBytes 4 (unsigned 32 (x.values.getD c 0))

/-- Sample interval in ns of a record (R327). -/
def echoInterval (m : Mach) (c : EchoCfg) (tsIn : Nat → Nat) : Nat :=
  if c.clock = 0 then c.div * m.tb.p
  else match (m.meas.chains.getD c.div chainInit).cfg with
    | some h => if h.rsMode = 2 then 0 else if h.rsMode = 1 then h.tout else tsIn c.div
    | none => 0

/-- The data of a complete record (R327). -/
def echoData (m : Mach) (s : Nat) (c : EchoCfg) (e : EchoSlot) (t : EchoTrig) (tsIn : Nat → Nat) : List Byte :=
  let xs := recordSamples c e t
  let post := postCount c e t
  let pre := xs.length - post
  let n := c.chans.length
  let trigK := match (xs.drop pre).head? with | some x => if x.t * 65536 ≤ t.at16 then x.k else t.k | none => t.k
  leBytes 1 s ++ leBytes 1 n ++ leBytes 2 (b2n (decide (pre < c.pre)) + 2 * b2n e.trunc + 4 * b2n e.safeSeen) ++ leBytes 1 t.cond ++ leBytes 1 t.kind
    ++ leBytes 2 t.f ++ leBytes 4 pre ++ leBytes 4 post ++ ts128 t.at16.toNat
    ++ (match xs.head? with | some x => ts128 (x.t * 65536).toNat | none => List.replicate 16 0#8)
    ++ leBytes 4 (echoInterval m c tsIn) ++ leBytes 4 e.retrig ++ leBytes 8 c.seq ++ leBytes 8 trigK ++ leBytes 1 c.clock ++ leBytes 1 c.div
    ++ List.replicate 54 0#8
    ++ (c.chans.flatMap fun w => leBytes 4 w)
    ++ ((c.chans.zipIdx).flatMap fun w => if bitOf w.1 30 then echoMeas (xs.drop pre) w.2 else List.replicate 24 0#8)
    ++ xs.flatMap (echoSampleBytes n)

/-- A slot armed: it records afresh with its allocation kept. -/
def echoArmed (c : EchoCfg) (e : EchoSlot) : EchoSlot := { echoInit with cfg := some c, last := e.last }

/-- The slot once its record is out of it: armed again, or free (R322, R326). -/
def echoRelease (s : Nat) (m : Mach) : Mach :=
  let e := m.echo s
  match e.cfg with
  | none => m
  | some c => m.setEcho s (if c.autoRearm then echoArmed c e else { echoInit with last := e.last })

/-- This unit posts Echo records: it serves, or is not one of a pair in TWIN (R326). -/
def echoPosts (m : Mach) : Bool := !m.pair.inTwin || m.pair.server

/-- The newest records of a list, as far as the Echo memory holds their data. -/
def echoFits : Nat → List EchoRec → List EchoRec
  | _, [] => []
  | free, r :: t => if r.data.length ≤ free then r :: echoFits (free - r.data.length) t else []

/-- A record that this unit does not post is kept for a change of server, and its slot goes on (R326). -/
def echoKeep (r : EchoRec) (m : Mach) : Mach :=
  let m1 := if r.holds then echoRelease r.slot m else m
  { m1 with meas := { m1.meas with echoKept := echoFits (2 ^ 24) ({ r with holds := false } :: m1.meas.echoKept) } }

/-- The records that wait, in order of completion: handed to record ring 0 one at a time, each slot then released and ECHO_COMPLETE posted (R326). -/
def echoPost : Nat → Mach → Mach
  | 0, m => m
  | f + 1, m =>
    match m.meas.echoOrder with
    | [] => m
    | r :: rest =>
      if !echoPosts m then echoPost f (echoKeep r { m with meas := { m.meas with echoOrder := rest, echoHanded := false } })
      else if siphonLost m 6 then m
      else
      let m1 := if m.meas.echoHanded then m else
        (let x := postRec 0 0x0601 r.tag r.data m
         { x with meas := { x.meas with echoHanded := true } })
      if (m1.recRing 0).queue.isEmpty then
        let m2 := { m1 with meas := { m1.meas with echoOrder := rest, echoHanded := false, echoWaitRun := false } }
        echoPost f ((if r.holds then echoRelease r.slot m2 else m2).post 0x060B [r.slot, r.tag])
      else
        let m2 := m1.raise F.echoStatusWaitRing
        if m1.meas.echoWaitRun then m2 else (let m3 := m2.post 0x060C []; { m3 with meas := { m3.meas with echoWaitRun := true } })

/-- A record complete: it waits to be posted, or in the unit of a TWIN that does not serve is only kept (R326). -/
def echoComplete (tsIn : Nat → Nat) (s : Nat) (m : Mach) : Mach :=
  let e := m.echo s
  match e.cfg, e.trig with
  | some c, some t =>
    let d := echoData m s c e t tsIn
    let m1 := m.setEcho s { e with waiting := some d, last := some d }
    echoPost (m1.meas.echoOrder.length + 1) { m1 with meas := { m1.meas with echoOrder := m1.meas.echoOrder ++ [⟨s, t.at16, c.seq % 2 ^ 32, d, true⟩] } }
  | _, _ => m

/-- No sample that is still to come has its instant at or before the trigger instant: the trigger sample is known (R323). -/
def trigKnown (m : Mach) (c : EchoCfg) (e : EchoSlot) (t : EchoTrig) : Bool :=
  (match e.samples.head? with | some x => decide (t.at16 ≤ x.t * 65536) | none => false)
    || (c.clock == 0 && (m.dev.intakeDone || e.divCount != 0 || decide (t.at16 < (m.now : Int) * 65536)))

/-- The slot is full (R324). -/
def echoCheck (tsIn : Nat → Nat) (s : Nat) (m : Mach) : Mach :=
  let e := m.echo s
  match e.cfg, e.trig with
  | some c, some t => if e.waiting.isNone && trigKnown m c e t && decide (c.post ≤ trigHeld e t) then echoComplete tsIn s m else m
  | _, _ => m

/-- A trigger taken by an armed slot; later ones are counted, and a slot whose record waits takes none (R323, R324, R326). -/
def echoFire (s : Nat) (m : Mach) (t : EchoTrig) : Mach :=
  let e := m.echo s
  match e.cfg with
  | none => m
  | some c =>
    if e.waiting.isSome then m
    else if e.trig.isSome then (m.setEcho s { e with retrig := incSat 32 e.retrig 1 }).raise F.echoStatusRetrig
    else
      let m1 := (m.setEcho s { e with trig := some t }).post 0x060A ([s + 256 * t.kind] ++ w64 (secsOf (t.at16.toNat / 65536)) ++ [nanosOf (t.at16.toNat / 65536)])
      if c.trgOut && bitOf (m1.fld F.echoTrgOutEn) c.line then
          { m1.send (.trgOut c.line) with meas := { m1.meas with trgDriven := setAt m1.meas.trgDriven c.line true } } else m1

/-- The first to occur of several triggers: the earliest instant, then the lowest condition (R323). -/
def firstTrig (l : List EchoTrig) : Option EchoTrig :=
  l.foldl (fun a t => match a with
    | none => some t
    | some b => if t.at16 < b.at16 ∨ (t.at16 = b.at16 ∧ t.cond < b.cond) then some t else a) none

/-- Triggers in the order in which they occur; of those at one instant only the lowest condition stands (R323). -/
def trigOrder : Nat → List EchoTrig → List EchoTrig
  | 0, _ => []
  | f + 1, l => match firstTrig l with
    | none => []
    | some t => t :: trigOrder f (l.filter fun x => decide (x.at16 ≠ t.at16))

/-- A trigger that a slot meets is noted; it is taken once no earlier one can come (R323). -/
def echoNote (s : Nat) (t : EchoTrig) (m : Mach) : Mach :=
  let e := m.echo s
  if e.cfg.isNone || e.waiting.isSome || !m.inState [.ready, .run, .safe] then m else m.setEcho s { e with cands := e.cands ++ [t] }

/-- A slot has a condition of a kind. -/
def hasKind (e : EchoSlot) (k : Nat) : Bool := match e.cfg with | some c => c.conds.any fun d => d.kind == k | none => false

/-- No trigger of the slot can come any more that occurs before one it has met: a crossing up to an instant shows in the samples up to it, and a comparator on a chain at the latest at the intake (R323). -/
def trigSettled (intake : Bool) (e : EchoSlot) (t : EchoTrig) : Bool :=
  if hasKind e 1 then (match e.samples.head? with | some x => decide (t.at16 ≤ x.t * 65536) | none => intake)
  else !hasKind e 2 || intake

/-- The triggers a slot has met and that no earlier one can precede are taken in their order (R323, R324). -/
def echoResolve (tsIn : Nat → Nat) (intake : Bool) (m : Mach) (s : Nat) : Mach :=
  let e := m.echo s
  let due := e.cands.filter (trigSettled intake e)
  if due.isEmpty then m
  else echoCheck tsIn s ((trigOrder due.length due).foldl (echoFire s) (m.setEcho s { e with cands := e.cands.filter fun t => !trigSettled intake e t }))

/-- The same of every slot. -/
def echoResolveAll (tsIn : Nat → Nat) (intake : Bool) (m : Mach) : Mach := (List.range 8).foldl (echoResolve tsIn intake) m

/-- A condition of a kind on a slot, lowest number first. -/
def condOf (e : EchoSlot) (p : EchoCond → Bool) : Option Nat :=
  match e.cfg with
  | some c => c.conds.findIdx? p
  | none => none

/-- Slots with a condition that an event meets note its trigger at its instant, in 2^−16 ns. -/
def echoEvent (p : EchoCond → Bool) (kind : Nat) (at16 : Int) (m : Mach) : Mach :=
  (List.range 8).foldl (fun m s => match condOf (m.echo s) p with
    | some j => echoNote s ⟨j, kind, 0, at16, boundaryOf m (at16 / 65536)⟩ m
    | none => m) m

/-- The crossings a new sample makes: condition, f, instant in 2^−16 ns. -/
def levelHits (c : EchoCfg) (old new : EchoSample) : List EchoTrig :=
  (c.conds.zipIdx).filterMap fun x =>
    if x.1.kind ≠ 1 then none
    else match old.at x.1.which, new.at x.1.which with
      | some a, some b =>
        let lev := signed 32 x.1.level
        if crosses x.1.dir a b lev then
          let f := crossF a b lev
          some ⟨x.2, 1, if f = 256 then 0 else f, old.t * 65536 + f * 256 * (new.t - old.t), if f = 256 then new.k else old.k⟩
        else none
      | _, _ => none

/-- A sample taken by a slot: its crossings trigger, and the record may be complete (R322–R324). -/
def echoSample (tsIn : Nat → Nat) (s : Nat) (x : EchoSample) (m : Mach) : Mach :=
  let e := m.echo s
  match e.cfg with
  | none => m
  | some c =>
    if e.waiting.isSome || siphonLost m 5 then m
    else
      let hits := match e.samples.head? with | some old => levelHits c old x | none => []
      let m1 := m.setEcho s { e with samples := (x :: e.samples).take (c.pre + c.post + 1), cands := e.cands ++ hits }
      echoCheck tsIn s (echoResolve tsIn false m1 s)

/-- The channels of a record as the Gallery holds them (R322). -/
def galleryChannel (m : Mach) (w : Nat) : Int × Bool :=
  let e := m.g (if bitOf w 31 then 0xC4100 + w % 16 else w % 2 ^ 20)
  (e.value.toInt, e.good)

/-- A GALLERY clock at the intake. -/
def echoGallery (tsIn : Nat → Nat) (m : Mach) (s : Nat) : Mach :=
  let e := m.echo s
  match e.cfg with
  | some c =>
    if c.clock ≠ 0 then m
    else if e.divCount ≠ 0 then m.setEcho s { e with divCount := e.divCount - 1 }
    else
      let vs := c.chans.map (galleryChannel m)
      echoSample tsIn s ⟨m.now, m.tb.k, vs.map Prod.snd, vs.map Prod.fst⟩ (m.setEcho s { e with divCount := c.div - 1 })
  | none => m

/-- The BIT conditions of a slot at the intake (R323). -/
def echoBits (m : Mach) (s : Nat) : Mach :=
  let e := m.echo s
  match e.cfg with
  | some c =>
    let now := c.conds.map fun x => x.kind == 4 && bitOf (m.gv (x.level % 2 ^ 20)).toNat x.which
    let rose := (now.zip e.bits).findIdx? fun p => p.1 && !p.2
    let m1 := m.setEcho s { e with bits := now }
    match rose with
    | some j => echoNote s ⟨j, 4, 0, intakeAt m * 65536, m.tb.k⟩ m1
    | none => m1
  | none => m

/-! ### Chains (R311–R315) -/

def Mach.chain (m : Mach) (c : Nat) : Chain := m.meas.chains.getD c chainInit

def Mach.setChain (m : Mach) (c : Nat) (x : Chain) : Mach := { m with meas := { m.meas with chains := setAt m.meas.chains c x } }

/-- Ts_in of a chain's source in ns; 0 where the source is not configured. -/
def sourceTs (m : Mach) (h : ChainCfg) : Nat :=
  if h.insrc = 1 then
    match m.meas.adc with
    | some a => (match a.seqs[h.srcA]? with
      | some q => if q.mode = 1 then m.tb.p else if q.mode = 2 then q.repeatNs else 0
      | none => 0)
    | none => 0
  else if h.insrc = 2 then
    match (m.meas.streams.getD h.srcA svInit).sub with
    | some u => 1000000000 / (if u.rate = 1 then 4800 else 14400)
    | none => 0
  else 0

/-- Ts_in of chain `c`. -/
def chainTs (m : Mach) (c : Nat) : Nat := match (m.chain c).cfg with | some h => sourceTs m h | none => 0

/-- The biquad sections of a bank. -/
def chainBiquad : Nat → List Int → Int → List Int → Sv × List Int
  | 0, _, x, _ => ((x, false), [])
  | n + 1, b, x, st =>
    let y := section1 (sAt b 0) (sAt b 1) (sAt b 2) (sAt b 3) (sAt b 4) x (sAt st 0) (sAt st 1) (sAt st 2) (sAt st 3)
    let r := chainBiquad n (b.drop 5) y.1 (st.drop 4)
    ((r.1.1, r.1.2 || y.2), [x, sAt st 0, y.1, sAt st 2] ++ r.2)

/-- The four stages before the resampler on an input q. -/
def chainStages (h : ChainCfg) (c : Chain) (frozen : Bool) (q : Int) : Chain × Int :=
  let s1 := satS ((q - h.offset) * h.scale)
  let win := if c.started then (s1.1 :: c.window).take h.m else List.replicate h.m s1.1
  let y := roundDiv win.sum (max h.m 1)
  let o := satS (y - c.d)
  let d := if frozen then (c.d, false) else toPu (2 ^ 24 * c.d + h.kdc * (y - c.d))
  let z := chainBiquad h.nsec (if c.bankB then h.bankB else h.bankA) o.1 c.hist
  ({ c with window := win, d := d.1, hist := z.2, started := true, sat := c.sat || s1.2 || o.2 || d.2 || z.1.2 }, z.1.1)

/-- The value interpolated at fraction `ph` of 64 between the last two inputs, from the delay line, newest first (R314). -/
def interpolate (line : List Sample) (ph : Nat) : Sv :=
  accPu ((line.zipIdx).map fun x => Config.resampTap ph x.2 * x.1.v)

/-- Multiples of `step` in [a, b). -/
def multiplesIn (a b step : Int) : List Int :=
  let f := -(-a / step)
  (List.range (-(-b / step) - f).toNat).map fun (i : Nat) => (f + (i : Int)) * step

/-- The instants in [t0, t1) at which the angle passes a multiple of 2^32 / N under one law (R314). -/
def lawOuts (n : Int) (l : AngLaw) (t0 t1 : Int) : List (Int × Bool) :=
  if t1 ≤ t0 then []
  else
    let a := fun t => (l.theta * l.p + l.d * (t - l.b)) * n
    let full : Int := 2 ^ 32 * l.p
    let at_ := fun x => (l.b + roundDivI (x - l.theta * l.p * n) (l.d * n), l.ok)
    if 0 < l.d then (multiplesIn (a t0) (a t1) full).map at_
    else if l.d < 0 then ((multiplesIn (a t1 + 1) (a t0 + 1) full).reverse).map at_
    else []

/-- Multiples that the angle passes where a new law sets it forward at its boundary.
DESIGN CHOICE: one that sets it back gives no output there. -/
def jumpOuts (n : Int) (o l : AngLaw) : List (Int × Bool) :=
  let j := signed 32 (unsigned 32 (l.theta - (o.theta + o.d)))
  (multiplesIn ((l.theta - j) * n) (l.theta * n) (2 ^ 32)).map fun _ => (l.b, l.ok)

/-- The instants under the laws of an interval, newest law first: each law from its boundary to the next one's (R314). -/
def lawsOuts (n : Int) : List AngLaw → Int → Int → List (Int × Bool)
  | [], _, _ => []
  | [l], t0, t1 => lawOuts n l t0 t1
  | l :: o :: rest, t0, t1 =>
    if l.b < t0 then lawOuts n l t0 t1
    else lawsOuts n (o :: rest) t0 (min t1 l.b) ++ (if l.b < t1 then jumpOuts n o l else []) ++ lawOuts n l (max t0 l.b) t1

/-- Output instants in [t0, t1) between two input instants, each with whether its angle is good (R314). -/
def outInstants (m : Mach) (h : ChainCfg) (c : Chain) (t0 t1 : Int) : List (Int × Bool) :=
  if h.rsMode = 1 then (multiplesIn (t0 - m.tb.anchor) (t1 - m.tb.anchor) (max h.tout 1 : Nat)).map fun t => (t + m.tb.anchor, true)
  else lawsOuts h.tout c.laws t0 t1

/-- The outputs of the resampler for a new input of its delay line. -/
def resample (m : Mach) (h : ChainCfg) (c : Chain) (x : Sample) : Chain × List Sample :=
  let line := if c.line.isEmpty then List.replicate 8 x else (x :: c.line).take 8
  match c.line.head? with
  | none => ({ c with line := line }, [])
  | some old =>
    let dt := max (x.t - old.t) 1
    let outs := (outInstants m h c old.t x.t).map fun o =>
      let v := interpolate line (min 63 (64 * (o.1 - old.t) / dt)).toNat
      (({ x with t := o.1, v := v.1, subst := x.subst || !o.2 } : Sample), v.2)
    ({ c with line := line, sat := c.sat || outs.any Prod.snd }, outs.map Prod.fst)

/-- The latest output of a chain as a channel of a record: its value, and whether it is VALID and not STALE (R327). -/
def chainChannel (m : Mach) (i : Nat) : Int × Bool :=
  let c := m.chain i
  match c.latest with
  | some y => (y.v, y.valid && (c.out.isSome || c.lateOut.isSome || !qBit (m.g (0xC4100 + i)).quality qSTALE))
  | none => (0, false)

/-- What follows an output of chain `i`: it is kept for an intake, comparators on it are evaluated, records clocked by it take a sample, and triggers up to it are taken (R312, R315, R316, R322, R323). -/
def chainOutput (i : Nat) (late : Bool) (m : Mach) (x : Sample) : Mach :=
  let c := m.chain i
  let m1 := m.setChain i (if late then { c with latest := some x, lateOut := some x } else { c with latest := some x, out := some x })
  let m2 := (List.range 16).foldl (fun m r =>
    match m.meas.rims[r]? with
    | some y =>
      if y.chain && y.src = i then
        (let v := rimValue r x.v x.t x.valid m
         if v.2 then echoEvent (fun d => d.kind == 2 && d.which == r) 2 (x.t * 65536) v.1 else v.1)
      else m
    | none => m) m1
  let m3 := (List.range 8).foldl (fun m s => match (m.echo s).cfg with
    | some d =>
      if d.clock = 1 && d.div = i then
        (let vs := d.chans.map fun w => chainChannel m (w % 16)
         echoSample (chainTs m) s ⟨x.t, boundaryOf m x.t, vs.map Prod.snd, vs.map Prod.fst⟩ m)
      else m
    | none => m) m2
  echoResolveAll (chainTs m3) false m3

/-- The freeze source of a chain as it stood at a sample's instant (R312). -/
def frozenAt (m : Mach) (h : ChainCfg) (c : Chain) (t : Int) : Bool :=
  if h.frzMode = 1 then (match m.meas.rims[h.frzRef]? with | some r => r.enable && levelAt r.past t | none => false)
  else if h.frzMode = 2 then levelAt c.freeze t
  else false

/-- The angle read at a boundary: the law of the period, or its last increment carried on where the entry is not good (R314).
DEDUCED: until two angles have been read no increment is known, and there are no outputs. -/
def angleRead (m : Mach) (e : GEntry) (c : Chain) : Chain :=
  match c.theta with
  | none => if e.good then { c with theta := some e.value.toNat } else c
  | some th =>
    if e.good then
      let l : AngLaw := ⟨m.now, e.value.toNat, signed 32 (unsigned 32 ((e.value.toNat : Int) - th)), m.tb.p, true⟩
      { c with theta := some e.value.toNat, laws := (l :: c.laws).take 256 }
    else match c.laws.head? with
      | some o => { c with theta := some ((th + o.d) % 2 ^ 32), laws := ((⟨m.now, (th + o.d) % 2 ^ 32, o.d, m.tb.p, false⟩ : AngLaw) :: c.laws).take 256 }
      | none => c

/-- CHAIN_SAT at the first saturation after a clear. -/
def noteSat (i : Nat) (was : Bool) (m : Mach) : Mach := if (m.chain i).sat && !was then m.raise F.adcStatusChainSat else m

/-- An input sample taken through a chain whose angle is known. -/
def chainRun (i : Nat) (late : Bool) (x : Sample) (m : Mach) : Mach :=
  let c := m.chain i
  match c.cfg with
  | none => m
  | some h =>
    let due := (c.swaps.filter fun t => decide (t ≤ x.t)).length
    let c1 := { c with bankB := if due % 2 = 1 then !c.bankB else c.bankB, swaps := c.swaps.filter fun t => !decide (t ≤ x.t) }
    let r := chainStages h c1 (frozenAt m h c1 x.t) x.v
    let y := { x with v := r.2 }
    let z := if h.rsMode = 0 then (r.1, [y]) else resample m h r.1 y
    z.2.foldl (chainOutput i late) (noteSat i c.sat (m.setChain i z.1))

/-- An input sample of a chain: in ANGLE mode it waits for the intake that gives the angle of its interval (R314). -/
def chainInput (i : Nat) (late : Bool) (x : Sample) (m : Mach) : Mach :=
  let c := m.chain i
  match c.cfg with
  | none => m
  | some h => if h.rsMode = 2 && !m.dev.intakeDone then m.setChain i { c with wait := c.wait ++ [(x, late)] } else chainRun i late x m

/-- An input sample given to every chain that takes it. -/
def feedChains (insrc a b : Nat) (late : Bool) (x : Sample) (m : Mach) : Mach :=
  (List.range 16).foldl (fun m i => match (m.chain i).cfg with
    | some h => if h.insrc = insrc && h.srcA = a && h.srcB = b then chainInput i late x m else m
    | none => m) m

/-- A chain at the intake: the angle of the period, the freeze bit, the samples that waited, and its entry (R312, R314, R315). -/
def chainIntake (m : Mach) (i : Nat) : Mach :=
  let c := m.chain i
  match c.cfg with
  | none => m
  | some h =>
    let c1 := if h.rsMode = 2 then angleRead m (m.g (h.angRef % 2 ^ 20)) c else c
    let fz := bitOf (m.gv (bitsOf h.frzRef 0 20)).toNat (bitsOf h.frzRef 20 5)
    let m1 := m.setChain i { c1 with freeze := if h.frzMode = 2 then levelNote (intakeAt m) fz c.freeze else c.freeze, wait := [] }
    let m2 := c.wait.foldl (fun m x => chainRun i x.2 x.1 m) m1
    let c2 := m2.chain i
    match c2.out with
    | none => m2
    | some x =>
      let q := (if x.valid then [qVALID] else []) ++ (if x.ovr then [qOVR] else []) ++ (if x.subst then [qSUBST] else []) ++ (if c2.sat then [qSAT] else [])
      (m2.setChain i { c2 with out := none }).produce true (0xC4100 + i) (wordOf x.v) (qOf q) (0x20 + i)

/-! ### Converter cores (R302–R310) -/

/-- AD cycles of the conversion after acquisition. -/
def convCycles (low : Bool) : Nat := if low then 156 else 12

/-- End of an entry's conversion after the trigger, in 0.25 ns: acquisition ends at T_SAMPLE, and the conversion runs on (R304). -/
def entryEndQ (low : Bool) (e : AdcEntry) : Nat := 4 * e.tSample + 25 * convCycles low

/-- T_SAMPLE plus the conversion time of an entry, in 0.25 ns.
DEDUCED: the conversion time is that of R302, acquisition included. -/
def entrySpanQ (low : Bool) (e : AdcEntry) : Nat := 4 * e.tSample + 25 * (e.acq + convCycles low)

/-- R304 on the entries of a sequencer from the end of the previous one. -/
def entriesOk (low : Bool) : Nat → List AdcEntry → Bool
  | _, [] => true
  | prev, e :: t => decide (25 * e.acq ≤ 4 * e.tSample) && decide (prev ≤ 4 * e.tSample) && entriesOk low (entrySpanQ low e) t

/-- The span of a sequence, in 0.25 ns. -/
def spanQ (low : Bool) (es : List AdcEntry) : Nat := match es.getLast? with | some e => entrySpanQ low e | none => 0

def Mach.core (m : Mach) (c : Nat) : AdcCore := m.meas.cores.getD c coreInit

def Mach.setCore (m : Mach) (c : Nat) (x : AdcCore) : Mach := { m with meas := { m.meas with cores := setAt m.meas.cores c x } }

def Mach.seqCfg (m : Mach) (s : Nat) : Option AdcSeq := m.meas.adc.bind fun a => a.seqs[s]?

def Mach.setSeq (m : Mach) (s : Nat) (x : SeqRun) : Mach := { m with meas := { m.meas with seqs := setAt m.meas.seqs s x } }

def Mach.seqRun (m : Mach) (s : Nat) : SeqRun := m.meas.seqs.getD s seqRunInit

/-- Insertion into a core's queue in the order of R308. -/
def queueInsert (r : AdcReq) : List AdcReq → List AdcReq
  | [] => [r]
  | a :: t =>
    let before := (r.priv && !a.priv) || (r.priv == a.priv && (decide (r.prio < a.prio) || (r.prio == a.prio && (decide (r.at_ < a.at_)
      || (r.at_ == a.at_ && decide (r.order < a.order))))))
    if before then r :: a :: t else a :: queueInsert r t

/-- Instant from which a conversion asks for the core, in 0.25 ns: the start of its acquisition. -/
def AdcReq.askQ (r : AdcReq) : Nat := r.wantQ - 25 * r.entry.acq

/-- A conversion delayed by another: counted, and posted once for each run of delayed periods (R306).
DESIGN CHOICE: an urgent conversion is of no sequencer entry, and the values it posts are free. -/
def delayed (core : Nat) (src : AdcSrc) (m : Mach) : Mach :=
  let m1 := (m.raise F.adcStatusConflict).bump F.adcCountDelayed 1
  match src with
  | .entry s e =>
    let q := m.seqRun s
    let m2 := m1.setSeq s { q with delayed := true }
    if q.delayRun || q.delayed then m2 else m2.post 0x0601 [s, e]
  | _ =>
    let c := m.core core
    let m2 := m1.setCore core { c with delayed := true }
    if c.delayRun || c.delayed then m2 else m2.post 0x0601 [Config.unstatedArg 0x0601 0, Config.unstatedArg 0x0601 1]

/-- A core begins a conversion that is sampled at an instant in 0.25 ns, later than asked for where it is delayed (R302, R306). -/
def beginConv (core : Nat) (r : AdcReq) (sampleQ : Nat) (m : Mach) : Mach :=
  let c := m.core core
  let m1 := m.setCore core { c with running := some ⟨r, sampleQ, sampleQ + 25 * convCycles c.low⟩ }
  let m2 := if r.wantQ < sampleQ then delayed core r.src m1 else m1
  m2.send (.sample core r.src)

/-- The conversion that sequencer `s` asks for next, where it meets a condition on the instant from which it asks. -/
def seqHead (m : Mach) (p : Nat → Bool) (s : Nat) : Option (Nat × AdcReq) :=
  match (m.seqRun s).due with
  | r :: _ => if p r.askQ then some (s, r) else none
  | [] => none

/-- The next conversion of a sequencer begins, no earlier than the core is free (R306). -/
def beginSeq (core s : Nat) (r : AdcReq) (freeQ : Nat) (m : Mach) : Mach :=
  beginConv core r (max r.wantQ freeQ) (m.setSeq s { m.seqRun s with due := (m.seqRun s).due.drop 1 })

/-- An idle core begins the sequencer conversion that asked for it first, of those that meet a condition; the lower-numbered sequencer goes first (R306). -/
def beginIdle (core : Nat) (p : Nat → Bool) (m : Mach) : Mach :=
  if (m.core core).running.isSome then m
  else match seqHead m p (2 * core), seqHead m p (2 * core + 1) with
    | some a, some b => if b.2.askQ < a.2.askQ then beginSeq core b.1 b.2 0 m else beginSeq core a.1 a.2 0 m
    | some a, none => beginSeq core a.1 a.2 0 m
    | none, some b => beginSeq core b.1 b.2 0 m
    | none, none => m

/-- What an idle core does from an instant in 0.25 ns on: a PRIV request, the conversion that was aborted from its acquisition, the queue, then the lower-numbered sequencer (R306, R308, R309). -/
def nextConv (core freeQ : Nat) (m : Mach) : Mach :=
  let c := m.core core
  let fromQueue := fun (_ : Unit) => match c.queue with
    | r :: t => some (beginConv core r (max r.wantQ freeQ) (m.setCore core { c with queue := t }))
    | [] => none
  let asks := fun q => decide (q ≤ freeQ)
  match (if c.queue.head?.any AdcReq.priv then fromQueue () else none), c.aborted with
  | some n, _ => n
  | none, some a => beginConv core a (freeQ + 25 * a.entry.acq) (m.setCore core { c with aborted := none })
  | none, none => match fromQueue () with
    | some n => n
    | none => match seqHead m asks (2 * core) <|> seqHead m asks (2 * core + 1) with
      | some a => beginSeq core a.1 a.2 freeQ m
      | none => m

/-- A PRIV request aborts a conversion that is not PRIV and begins within two AD cycles (R309). -/
def preempt (core : Nat) (r : AdcReq) (m : Mach) : Mach :=
  let c := m.core core
  let q := r.wantQ + min (Config.privLag r.at_) 50
  match c.running with
  | some a => beginConv core { r with wantQ := q } q ((m.setCore core { c with running := none, aborted := some a.req }).bump F.adcCountAbortCnt 1)
  | none => beginConv core { r with wantQ := q } q m

/-- A request put to its core at its instant: begun, queued, or in place of a conversion that it aborts (R306, R308, R309). -/
def request (core : Nat) (r : AdcReq) (m : Mach) : Mach :=
  let m1 := beginIdle core (fun q => decide (q < 4 * r.at_)) m
  let c := m1.core core
  match c.running with
  | some a => if r.priv && !a.req.priv then preempt core r m1 else m1.setCore core { c with queue := queueInsert r c.queue }
  | none => if r.priv then preempt core r m1 else beginConv core r r.wantQ m1

/-- An urgent request at an instant in ns: its sampling instant is asked for after its acquisition. -/
def urgentReq (src : AdcSrc) (priv : Bool) (prio at_ order : Nat) (e : AdcEntry) : AdcReq := ⟨src, priv, prio, at_, order, e, 4 * at_ + 25 * e.acq⟩

/-- The urgent requests a core has taken and not completed. -/
def pendingReqs (c : AdcCore) : List AdcReq := c.queue ++ (c.running.map AdcRun.req).toList ++ c.aborted.toList

/-- A slot triggered at an instant; pending, it is merged (R308). -/
def slotTrigger (u at_ : Nat) (m : Mach) : Mach :=
  match m.meas.adc.bind fun a => a.slots[u]? with
  | none => m
  | some x =>
    if !x.enable then m
    else
      let c := m.core x.core
      if (pendingReqs c).any fun r => r.src == AdcSrc.slot u then
        let m1 := (m.raise F.adcStatusMerged).bump F.adcCountMergeCnt 1
        if m.meas.mergeRun then m1 else (let m2 := m1.post 0x0603 []; { m2 with meas := { m2.meas with mergeRun := true } })
      else request x.core (urgentReq (.slot u) x.priv x.prio at_ u ⟨x.input, x.gain, x.acq, 0⟩) { m with meas := { m.meas with mergeRun := false } }

/-- Every urgent slot of a trigger source (R331). -/
def triggerSlots (src at_ : Nat) (m : Mach) : Mach :=
  (List.range 16).foldl (fun m u => match m.meas.adc.bind fun a => a.slots[u]? with
    | some x => if x.src = src then slotTrigger u at_ m else m
    | none => m) m

/-- Conversions of a sequencer skipped in this period (R305). -/
def skipped (s n : Nat) (m : Mach) : Mach :=
  let q := m.seqRun s
  if n = 0 then m.setSeq s { q with skipRun := false }
  else
    let m1 := ((m.setSeq s { q with skipRun := true }).raise F.adcStatusSkipped).bump F.adcCountSkipCnt n
    if q.skipRun then m1 else m1.post 0x0602 []

/-- A sequencer triggered at an instant in ns: its conversions are asked for, but those that a later change of the period or of the mode has made too long (R304, R305). -/
def seqTrigger (s at_ : Nat) (m : Mach) : Mach :=
  match m.seqCfg s with
  | none => m
  | some q =>
    let low := (m.core (s / 2)).low
    let runs := q.entries.zipIdx.filter fun x => if q.mode = 1 then decide (entryEndQ low x.1 < 4 * m.tb.p) else decide (spanQ low q.entries ≤ 4 * q.repeatNs)
    let reqs : List AdcReq := runs.map fun x => ⟨.entry s x.2, false, 16, at_, x.2, x.1, 4 * (at_ + x.1.tSample)⟩
    skipped s (q.entries.length - runs.length) (m.setSeq s { m.seqRun s with due := (m.seqRun s).due ++ reqs })

/-- The cores and sequencers at a boundary: modes, runs of delay, PERIODIC triggers, and results that were too late before (R302, R304, R306, R307). -/
def adcBoundary (m : Mach) : Mach :=
  let low := fun (c : Nat) => m.flag (if c = 0 then F.adcCtrlLp0 else F.adcCtrlLp1)
  let cores := (m.meas.cores.zipIdx).map fun x => { x.1 with low := low x.2, delayRun := x.1.delayed, delayed := false }
  let m1 := { m with meas := { m.meas with cores := cores
                                           seqs := m.meas.seqs.map fun q => { q with delayRun := q.delayed, delayed := false }
                                           results := m.meas.results.map fun r => { r with late := false }
                                           chains := m.meas.chains.map fun c => if c.lateOut.isSome then { c with out := c.lateOut, lateOut := none } else c
                                           streams := m.meas.streams.map fun s => if s.lateSample.isSome then { s with sample := s.lateSample, lateSample := none } else s } }
  if m.measures then (List.range 4).foldl (fun m s => match m.seqCfg s with
    | some q => if q.mode = 1 then seqTrigger s m.now m else m
    | none => m) m1
  else m1

/-- Gain of a code. -/
def gainOf (g : Nat) : Nat := 2 ^ (g % 4)

/-- Scaling of an input into the converter as a fraction (R303): the differential pairs and channels 26 and 31 go in as they are, 24 and 25 are temperatures. -/
def inputScale (input : Nat) : Nat × Nat :=
  match input with
  | 24 => (2, 1) | 25 => (2, 1) | 27 => (1, 16) | 28 => (1, 64) | 29 => (1, 16) | 30 => (1, 2) | _ => (1, 1)

/-- The code of a quantity against V_AVREF in µV, and whether it is at a limit (R303).
The quantity is the voltage in µV; that of inputs 24 and 25 is the die's temperature in 0.001 °C, and input 30 is V_AVREF itself. -/
def adcCode (input : Nat) (v : Int) (gain vref : Nat) : Int × Bool :=
  let x : Int := if input = 30 then vref else v
  let c := clampI (roundDiv (x * (inputScale input).1 * 32768 * gainOf gain) ((inputScale input).2 * max vref 1)) (-32768) 32767
  (c, c == -32768 || c == 32767)

/-- A result kept for the intake, and given to its chains unless the Siphon channel of its sequencer has stopped (R307, R329). -/
def adcResult (index source : Nat) (code : Int × Bool) (sampleQ endQ : Nat) (entry : Option (Nat × Nat)) (m : Mach) : Mach :=
  let late := tooLateQ m endQ
  let m1 := { m with meas := { m.meas with results := m.meas.results ++ [⟨index, code.1, code.2, source, late⟩] } }
  match entry with
  | some (s, e) => if siphonLost m1 s then m1 else feedChains 1 s e late ⟨(sampleQ / 4 : Nat), code.1, true, code.2, false⟩ m1
  | none => m1

/-- A core makes the conversion named, from its sampling to its end in 0.25 ns. -/
def AdcRun.is (a : AdcRun) (src : AdcSrc) (sampleQ endQ : Nat) : Bool := a.req.src == src && a.sampleQ == sampleQ && a.endQ == endQ

/-- The conversion that a core makes ends, with the quantity at its input and V_AVREF in µV (R306–R310); the end of one that the core does not make is none. -/
def conversionDone (core : Nat) (src : AdcSrc) (v : Int) (vref sampleQ endQ : Nat) (m : Mach) : Mach :=
  let m1 := beginIdle core (fun _ => true) m
  match (m1.core core).running.filter fun a => a.is src sampleQ endQ with
  | none => m
  | some a =>
    let code := adcCode a.req.entry.input v a.req.entry.gain vref
    let m2 := nextConv core a.endQ (m1.setCore core { m1.core core with running := none })
    match a.req.src with
    | .entry s e => adcResult (0xC4000 + 16 * s + e) (0x30 + s) code a.sampleQ a.endQ (some (s, e)) m2
    | .slot u => if siphonLost m2 7 then m2 else adcResult (0xC4040 + u) (if core = 0 then 0x30 else 0x32) code a.sampleQ a.endQ none m2
    | .host ring seq => completeLater ring seq ⟨stDONE, nanosOf (a.sampleQ / 4), unsigned 32 code.1, if code.2 then cfCLAMP else 0, []⟩ m2

/-- ADC_URGENT requests in a core's queue. -/
def hostRequests (c : AdcCore) : Nat := ((pendingReqs c).filter fun r => match r.src with | .host _ _ => true | _ => false).length

/-- The requests beyond four, as far as there is room (R308). -/
def promote : Nat → Nat → Mach → Mach
  | 0, _, m => m
  | f + 1, core, m =>
    let c := m.core core
    match c.waiting with
    | [] => m
    | r :: t => if hostRequests c < 4 then promote f core (request core (urgentReq r.src r.priv r.prio (intakeAt m) r.order r.entry) (m.setCore core { c with waiting := t })) else m

/-- The results of the sequencers and slots at the intake (R307, R310). -/
def adcIntake (m : Mach) : Mach :=
  let take := m.meas.results.filter fun r => !r.late
  let m1 := take.foldl (fun m r => m.produce true r.index (wordOf r.code) (qOf (if r.ovr then [qVALID, qOVR] else [qVALID])) r.source) m
  let m2 := { m1 with meas := { m1.meas with results := m1.meas.results.filter AdcResult.late } }
  (List.range 2).foldl (fun m c => promote 16 c m) m2

/-! ### Sampled values (R318–R321) -/

def SvState.code : SvState → Nat
  | .free => 0 | .waiting => 1 | .active => 2 | .lost => 3 | .mismatch => 4

def svBase (n : Nat) : Nat := 0xC8000 + 0x200 * n

def Mach.stream (m : Mach) (n : Nat) : SvStream := m.meas.streams.getD n svInit

def Mach.setStream (m : Mach) (n : Nat) (x : SvStream) : Mach := { m with meas := { m.meas with streams := setAt m.meas.streams n x } }

def rateOf (code : Nat) : Nat := if code = 1 then 4800 else 14400

/-- The entries of a stream keep their values with VALID cleared and HELD set. -/
def svHold (n nch : Nat) (m : Mach) : Mach :=
  let m1 := [1, 2, 3].foldl (fun m o => m.invalidate (svBase n + o) true) m
  (List.range nch).foldl (fun m j => (m.invalidate (svBase n + 0x10 + j) true).invalidate (svBase n + 0x30 + j) true) m1

/-- Quality bits of IEC 61850 (PRESUMED): validity [1:0], overflow [2], source substituted [10], test [11]. -/
def svGood (q : Nat) : Bool := q % 4 == 0 && !bitOf q 11
def svOvr (q : Nat) : Bool := bitOf q 2
def svSubst (q : Nat) : Bool := bitOf q 10

/-- The instant of a sample: the latest one of its count that is not after its arrival (R319). -/
def svInstant (cnt rate at_ : Nat) : Int :=
  let off : Int := roundDiv (cnt * 1000000000) rate
  ((at_ : Int) - off) / 1000000000 * 1000000000 + off

/-- One ASDU accepted (R319, R320). -/
def svAsdu (n : Nat) (u : SvSub) (at_ : Nat) (m : Mach) (a : SvAsdu) : Mach :=
  let s := m.stream n
  let rate := rateOf u.rate
  if s.lastCnt = some a.smpCnt then m
  else
    let gap := match s.lastCnt with | some l => (a.smpCnt + 2 * rate - l - 1) % rate | none => 0
    let t := svInstant a.smpCnt rate at_
    let late := tooLate m at_
    let s1 := { s with lastCnt := some a.smpCnt, loss := incSat 32 s.loss gap, lossRun := decide (0 < gap), unsync := a.smpSynch == 0, heardAt := at_ }
    let s2 := if late then { s1 with lateSample := some (a, t) } else { s1 with sample := some (a, t) }
    let m1 := m.setStream n s2
    let m2 := if 0 < gap ∧ !s.lossRun then m1.post 0x0609 [] else m1
    ((a.values.zipIdx).take u.nch).foldl (fun m x =>
      feedChains 2 n x.2 late ⟨t, x.1.1, svGood x.1.2 && a.smpSynch != 0, svOvr x.1.2, svSubst x.1.2⟩ m) m2

/-- A frame matched to a stream (R321). -/
def svStream (f : SvFrame) (m : Mach) (n : Nat) : Mach :=
  let s := m.stream n
  match s.sub with
  | none => m
  | some u =>
    if !(u.dest == f.dest && u.appid == f.appid && u.svId == f.svId && bitOf u.ports f.port) || s.state == .free || s.state == .mismatch then m
    else if u.confRev ≠ f.confRev ∨ rateOf u.rate ≠ f.rate ∨ (f.asdus.any fun a => a.values.length != u.nch) then
      (svHold n u.nch (m.setStream n { s with state := .mismatch, revBad := true, sample := none, lateSample := none })).post 0x0608 [f.confRev]
    else
      let m1 := if s.state == .active then m else (m.setStream n { s with state := .active }).post 0x0606 []
      f.asdus.foldl (svAsdu n u f.at_) m1

/-- A sampled-value frame (R318–R321, R342). -/
def svRx (f : SvFrame) (m : Mach) : Mach :=
  if !portTakes m f.port f.dest || !m.measures then m
  else if f.sim then m.bump (F.ethCountRxUnknown f.port) 1
  else if siphonLost m 4 then m
  else if f.asdus.isEmpty ∨ 8 < f.asdus.length ∨ (f.asdus.any fun a => decide (f.rate ≤ a.smpCnt)) ∨ !(decide (0x4000 ≤ f.appid) && decide (f.appid ≤ 0x7FFF)) then m
  else
    let d := prpTake f.src f.port f.rct m
    if d.2 then d.1 else (List.range 64).foldl (svStream f) d.1

/-- An ACTIVE stream without an accepted sample for LOST_MS (R321). -/
def svLost (n : Nat) (m : Mach) : Mach :=
  let s := m.stream n
  match s.state, s.sub with
  | .active, some u => ((svHold n u.nch (m.setStream n { s with state := .lost, sample := none, lateSample := none })).raise F.adcStatusSvLost).post 0x0607 []
  | _, _ => m

/-- A stream at the intake: its latest sample and its status (R319, R320). -/
def svIntake (m : Mach) (n : Nat) : Mach :=
  let s := m.stream n
  let put := fun (o v q : Nat) (m : Mach) => m.produce true (svBase n + o) (BitVec.ofNat 32 v) (BitVec.ofNat 8 q) (0x40 + n)
  match s.sub with
  | none => m
  | some _ =>
    let m1 := match s.sample with
      | none => m
      | some (a, t) =>
        let m0 := put 2 (t % 1000000000).toNat 1 (put 1 a.smpCnt 1 (m.setStream n { s with sample := none }))
        (a.values.zipIdx).foldl (fun m x =>
          let q := x.1.2
          let bits := (if svGood q && a.smpSynch != 0 then [qVALID] else []) ++ (if svOvr q then [qOVR] else []) ++ (if svSubst q then [qSUBST] else [])
          put (0x30 + x.2) q 1 (m.produce true (svBase n + 0x10 + x.2) (wordOf x.1.1) (qOf bits) (0x40 + n))) (put 3 s.loss 1 m0)
    put 0 (s.state.code + 8 * b2n s.unsync + 16 * b2n s.revBad) 1 m1

/-! ### The intake (R307, R312, R316, R317, R319, R322, R323) -/

/-- The comparators on Gallery entries, and SIG_RIM_STATE. -/
def rimIntake (m : Mach) : Mach :=
  let m1 := (List.range 16).foldl (fun m r => match m.meas.rims[r]? with
    | some y =>
      if y.enable && !y.chain then
        (let e := m.g y.src
         let v := rimValue r e.value.toInt (intakeAt m) e.good m
         if v.2 then echoEvent (fun d => d.kind == 2 && d.which == r) 2 (intakeAt m * 65536) v.1 else v.1)
      else m
    | none => m) m
  let st := fun i => match m1.meas.rims[i]? with | some r => r.state | none => .inside
  m1.produceValid sigRIMSTATE (maskOf 16 (fun i => st i != .inside) + 65536 * maskOf 16 (fun i => st i == .above)) 2

/-- What measurement writes at the intake, before the snapshot. -/
def measIntake (m : Mach) : Mach := rimIntake ((List.range 64).foldl svIntake ((List.range 16).foldl chainIntake (adcIntake m)))

/-- Echo on the snapshot of the intake. -/
def echoIntake (m : Mach) : Mach :=
  if !m.inState [.ready, .run, .safe] then m
  else
    let m1 := (List.range 8).foldl echoBits ((List.range 8).foldl (echoGallery (chainTs m)) m)
    echoResolveAll (chainTs m1) true m1

/-! ### Trigger lines and Siphon (R323, R324, R329) -/

/-- A falling edge of a TRG line at an instant in ns, low for `width` ns. -/
def trgEdge (line at_ width : Nat) (m : Mach) : Mach :=
  if width < 20 || m.meas.trgDriven.getD line false || !m.measures then m
  else
    let m1 := triggerSlots line at_ m
    if bitOf (m1.fld F.echoTrgInEn) line
    then echoResolveAll (chainTs m1) false (echoEvent (fun d => d.kind == 3 && d.which == line) 3 (at_ * 65536) m1) else m1

/-- The range of a transfer's end overlaps a peripheral window. -/
def windowed (e : SiphonEnd) (count : Nat) : Bool :=
  match e with
  | .mem a => (List.range count).any fun i => Config.siphonWindow (a + i)
  | .port => false

/-- A bad descriptor (R329). -/
def SiphonDesc.bad (d : SiphonDesc) : Bool := windowed d.src d.count || windowed d.dst d.count

def Mach.siphonCh (m : Mach) (ch : Nat) : SiphonCh := m.meas.siphon.getD ch siphonInit

def Mach.setSiphon (m : Mach) (ch : Nat) (x : SiphonCh) : Mach := { m with meas := { m.meas with siphon := setAt m.meas.siphon ch x } }

/-- Priority of a channel: that of its path, and on the channels of this chapter the one its descriptor is given (R329, R366). -/
def siphonPrio (ch : Nat) (d : SiphonDesc) : Nat :=
  if ch < 8 then d.prio else [1, 1, 1, 1, 0, 2, 2, 4, 3, 3, 3, 3, 5, 5].getD (ch - 8) d.prio

/-- A channel started on a descriptor: a bad one stops it, one of count 0 moves nothing and is complete (R329). -/
def siphonStart (ch : Nat) (d : SiphonDesc) (m : Mach) : Mach :=
  let c := m.siphonCh ch
  if d.bad then ((m.setSiphon ch { siphonInit with stopped := true, doneCnt := c.doneCnt }).setF F.siphonStatusBad (putBits (m.reg.raw F.siphonStatusBad) ch 1 1)).post 0x060D [ch]
  else if d.count = 0 then m.setSiphon ch { siphonInit with doneCnt := (c.doneCnt + 1) % 65536 }
  else m.setSiphon ch { siphonInit with desc := some d, remain := d.count, prio := siphonPrio ch d, active := true, paced := d.paced, host := d.host, linked := d.linked, doneCnt := c.doneCnt }

/-- What a complete descriptor leaves in memory: the result of a copy through a temporary buffer (R329). -/
def siphonCopy (d : SiphonDesc) (m : Mach) : Mach :=
  match d.src, d.dst with
  | .mem a, .mem b => { m with meas := { m.meas with siphonMem := Memory.write m.meas.siphonMem b (Memory.read m.meas.siphonMem a d.count) } }
  | _, _ => m

/-- One burst of a channel moves: its events at half, where it is host-bound, and at full completion; then the next descriptor of a linked chain (R329). -/
def siphonBurst (ch burst : Nat) (m : Mach) : Mach :=
  let c := m.siphonCh ch
  match c.desc with
  | none => m
  | some d =>
    let r := c.remain - burst
    let m1 := { m with meas := { m.meas with siphonTurn := ch } }
    let m2 := if c.host && decide (2 * r ≤ d.count) && decide (d.count < 2 * c.remain) then m1.send (.siphonEvent ch false) else m1
    if 0 < r then m2.setSiphon ch { c with remain := r, burst := none }
    else
      let m3 := (siphonCopy d (m2.setSiphon ch { siphonInit with doneCnt := (c.doneCnt + 1) % 65536 })).send (.siphonEvent ch true)
      match c.linked, c.next with
      | true, some n => siphonStart ch n m3
      | _, _ => m3

/-- Bytes of the burst a channel is ready to move: the one its peripheral has requested, or one of a channel that is not paced, which takes 64 bytes at a time (DESIGN CHOICE). -/
def siphonReady (m : Mach) (ch : Nat) : Option Nat :=
  let c := m.siphonCh ch
  if !c.active then none else if c.paced then c.burst else some 64

/-- The channel whose burst moves next: the highest priority, and equal priorities in turn after the one that moved last (R329). -/
def siphonPick (m : Mach) : Option (Nat × Nat) :=
  let order := (List.range 32).map fun i => (m.meas.siphonTurn + 1 + i) % 32
  order.foldl (fun a ch => match siphonReady m ch with
    | none => a
    | some b => match a with
      | none => some (ch, b)
      | some x => if (m.siphonCh ch).prio < (m.siphonCh x.1).prio then some (ch, b) else a) none

/-- Bursts move one by one, 32 of them at most, until none is ready. -/
def siphonRun : Nat → Mach → Mach
  | 0, m => m
  | f + 1, m => match siphonPick m with
    | some x => siphonRun f (siphonBurst x.1 x.2 m)
    | none => m

/-- A request of a channel's peripheral for one burst, with a descriptor that the device has programmed by then: it starts an idle channel, or follows in its chain (R329). Channels 22 to 31 are reserved (R366). -/
def siphonRequest (ch burst : Nat) (next : Option SiphonDesc) (m : Mach) : Mach :=
  if 22 ≤ ch then m
  else
    let c := m.siphonCh ch
    let m1 := match next with
      | some d => if c.active then m.setSiphon ch { c with next := some d } else siphonStart ch d m
      | none => m
    let c1 := m1.siphonCh ch
    siphonRun 32 (if c1.active && c1.paced then m1.setSiphon ch { c1 with burst := some (max burst 1) } else m1)

/-! ### Echo after a change of server (R326) -/

/-- A walk over the records of a range of units of record ring 0: the last trigger instant of an Echo record, in 2^−16 ns, and whether the next Echo record continues one; `a` and `cont` are those before it. -/
def echoScan (m : Mach) (x : RecRing) : Nat → Nat → Nat → Bool → Int → Bool × Int
  | 0, _, _, cont, a => (cont, a)
  | f + 1, i, stop, cont, a =>
    if stop ≤ i then (cont, a)
    else
      let b := Memory.read m.hostMem (x.addr + 64 * i) 64
      let len := fieldLE b 4 4
      let echo := fieldLE b 0 2 == 0x0601
      let t : Int := (fieldLE b 0x24 8 * 1000000000 + fieldLE b 0x2C 4) * 65536 + fieldLE b 0x30 2
      echoScan m x f (i + 1 + recUnits len) stop (if echo then bitOf (fieldLE b 2 1) 0 else cont) (if echo && !cont then t else a)

/-- Trigger instant of the last Echo record standing in record ring 0: of those not yet consumed in the ring's earlier pass, then of those of the present one (R326). -/
def echoStanding (m : Mach) : Int :=
  let x := m.recRing 0
  let e := max x.e 1
  let old := if x.ci / e < x.pi / e then echoScan m x x.e (x.ci % e) x.e false 0 else (false, 0)
  (echoScan m x x.e 0 (x.pi % e) old.1 old.2).2

/-- The new server posts each of its records later than the last one in record ring 0, in order of completion. -/
def echoAfterServer (m : Mach) : Mach :=
  let last := echoStanding m
  let due := m.meas.echoKept.reverse.filter fun r => decide (last < r.at16)
  echoPost (m.meas.echoOrder.length + due.length + 1) { m with meas := { m.meas with echoOrder := due ++ m.meas.echoOrder, echoKept := [] } }

end Sys2Proof.Machine
end

