-- ==== Sys2Proof/Machine/MeasCmd.lean ====
section
/-! DEFINITION. Machine/MeasCmd.lean: the measurement commands and the measurement rows (R302–R336). -/
set_option Elab.async false
namespace Sys2Proof.Machine

/-! ### ADC_SEQ_CONFIG and ADC_URGENT (R304, R308, R310, R331) -/

/-- Bytes [o, o + n) of the buffer are zero. -/
def Cmd.bufZero (c : Cmd) (o n : Nat) : Bool := allZero ((c.buf.drop o).take n)

/-- The sequencer descriptor at an offset of the block. -/
def parseSeq (c : Cmd) (o : Nat) : AdcSeq :=
  { mode := c.b o 1, ageLimit := c.b (o + 2) 1, repeatNs := c.b (o + 4) 4
    entries := (List.range (c.b (o + 1) 1)).map fun e => ⟨c.b (o + 8 + 8 * e) 1, c.b (o + 9 + 8 * e) 1, c.b (o + 10 + 8 * e) 2, c.b (o + 12 + 8 * e) 4⟩ }

/-- The urgent slot at an offset of the block. -/
def parseAdcSlot (c : Cmd) (o : Nat) : AdcSlot :=
  { input := c.b o 1, gain := c.b (o + 1) 1, acq := c.b (o + 2) 2, core := c.b (o + 4) 1
    enable := bitOf (c.b (o + 5) 1) 0, priv := bitOf (c.b (o + 5) 1) 1, src := c.b (o + 6) 1, prio := c.b (o + 7) 1 }

/-- The ADC configuration block (R331). -/
def parseAdc (c : Cmd) : AdcCfg :=
  ⟨(List.range 4).map fun s => parseSeq c (0x10 + 136 * s), (List.range 16).map fun u => parseAdcSlot c (0x230 + 8 * u)⟩

/-- INPUT, GAIN and ACQ in range (R302, R303). -/
def convOk (input gain acq : Nat) : Bool := decide (input ≤ 31) && decide (gain ≤ 3) && decide (4 ≤ acq) && decide (acq ≤ 1023)

def seqOk (c : Cmd) (o : Nat) : Bool :=
  let q := parseSeq c o
  decide (q.mode ≤ 2) && decide (c.b (o + 1) 1 ≤ 16) && decide (1 ≤ q.ageLimit) && c.b (o + 3) 1 == 0
    && (q.mode != 2 || (decide (100 ≤ q.repeatNs) && decide (q.repeatNs ≤ 200000))) && q.entries.all fun e => convOk e.input e.gain e.acq

def adcSlotOk (c : Cmd) (o : Nat) : Bool :=
  let x := parseAdcSlot c o
  decide (c.b (o + 5) 1 < 4) && (!x.enable || (convOk x.input x.gain x.acq && decide (x.core ≤ 1) && decide (x.src ≤ 15) && decide (x.prio ≤ 15)))

def chkAdcSeqConfig (c : Cmd) : Option Nat :=
  if c.b 0 2 = 1 ∧ c.bufZero 2 14 ∧ ((List.range 4).all fun s => seqOk c (0x10 + 136 * s)) ∧ (List.range 16).all fun u => adcSlotOk c (0x230 + 8 * u)
  then none else some stMALFORMED

/-- R304 on sequencer `s`, with the core mode and the period in force. -/
def seqFits (m : Mach) (s : Nat) (q : AdcSeq) : Bool :=
  let low := (m.core (s / 2)).low
  entriesOk low 0 q.entries && (if q.mode = 1 then decide (spanQ low q.entries ≤ 4 * m.tb.p) else if q.mode = 2 then decide (spanQ low q.entries ≤ 4 * q.repeatNs) else true)

def effAdcSeqConfig (c : Cmd) (m : Mach) : Mach × Eff :=
  let a := parseAdc c
  if (a.seqs.zipIdx).all fun x => seqFits m x.2 x.1 then
    okDone { m with meas := { m.meas with adc := some a, seqs := List.replicate 4 seqRunInit } }
  else reject stLIMIT m

def chkAdcUrgent (c : Cmd) : Option Nat :=
  if c.f 0 1 ≤ 1 ∧ convOk (c.f 1 1) (c.f 2 1) (c.f 4 2) ∧ c.f 3 1 = 0 ∧ c.zeroFrom 6 then none else some stMALFORMED

/-- The request enters its core's queue, or waits as a fifth; the completion comes with the conversion. -/
def effAdcUrgent (c : Cmd) (m : Mach) : Mach × Eff :=
  let core := c.f 0 1
  let r := urgentReq (.host c.ring c.seq) false 16 (intakeAt m) (16 + m.meas.urgentOrder) ⟨c.f 1 1, c.f 2 1, c.f 4 2, 0⟩
  let m1 := { m with meas := { m.meas with urgentOrder := m.meas.urgentOrder + 1 } }
  let x := m1.core core
  if hostRequests x < 4 && x.waiting.isEmpty then (request core r m1, .hold) else (m1.setCore core { x with waiting := x.waiting ++ [r] }, .hold)

/-! ### CHAIN_CONFIG and CHAIN_BANK_SWAP (R311–R314, R332) -/

/-- Ten words of a bank from an offset. -/
def parseBank (c : Cmd) (o : Nat) : List Int := (List.range 10).map fun i => signed 32 (c.b (o + 4 * i) 4)

/-- The chain block (R332). -/
def parseChain (c : Cmd) : ChainCfg :=
  { insrc := c.b 1 1, srcA := c.b 2 1, srcB := c.b 3 1, offset := signed 32 (c.b 4 4), scale := signed 32 (c.b 8 4), m := c.b 0x0C 2
    ageLimit := c.b 0x0E 1, frzMode := c.b 0x0F 1, kdc := c.b 0x10 4, frzRef := c.b 0x14 4, rsMode := c.b 0x18 1, nsec := c.b 0x19 1
    tout := c.b 0x1C 4, angRef := c.b 0x20 4, bankA := parseBank c 0x30, bankB := parseBank c 0x58 }

def chkChainConfig (c : Cmd) : Option Nat :=
  let h := parseChain c
  if 15 < c.b 0 1 ∨ 2 < h.insrc ∨ (h.insrc = 1 ∧ (3 < h.srcA ∨ 15 < h.srcB)) ∨ (h.insrc = 2 ∧ (63 < h.srcA ∨ 31 < h.srcB)) ∨ 2 < h.frzMode
      ∨ (h.frzMode = 1 ∧ 15 < h.frzRef) ∨ (h.frzMode = 2 ∧ !refOk h.frzRef) ∨ 2 < h.rsMode ∨ h.nsec < 1 ∨ 2 < h.nsec ∨ c.b 0x1A 2 ≠ 0
      ∨ 2 ^ 20 ≤ h.angRef ∨ 2 ≤ c.b 0x24 4 ∨ !c.bufZero 0x28 8
      ∨ (h.nsec = 1 ∧ ((h.bankA.drop 5 ++ h.bankB.drop 5).any fun v => v != 0)) then some stMALFORMED
  else if h.m = 0 ∨ 256 < h.m ∨ 0x1000000 < h.kdc ∨ (h.rsMode = 1 ∧ (h.tout < 1000 ∨ 1000000 < h.tout)) ∨ (h.rsMode = 2 ∧ (h.tout < 16 ∨ 1024 < h.tout)) then some stLIMIT
  else none

/-- Ts_in of a chain's source as a fraction of ns (R311). -/
def tsFrac (m : Mach) (h : ChainCfg) : Nat × Nat :=
  if h.insrc = 2 then (match (m.stream h.srcA).sub with | some u => (1000000000, rateOf u.rate) | none => (0, 1)) else (sourceTs m h, 1)

/-- The output interval is at least 2 × Ts_in; in ANGLE mode at 1.5 × F_BASE, F_BASE in mHz (R314). -/
def outSlow (m : Mach) (h : ChainCfg) : Bool :=
  let ts := tsFrac m h
  let fBase := match m.conv.active with | some r => r.fBase | none => 0
  if h.rsMode = 1 then decide (2 * ts.1 ≤ h.tout * ts.2)
  else if h.rsMode = 2 then decide (ts.1 * 3 * h.tout * fBase ≤ 1000000000000 * ts.2)
  else true

/-- The block but for its banks. -/
def sameButBanks (a b : ChainCfg) : Bool := ({ a with bankA := [], bankB := [] } : ChainCfg) == { b with bankA := [], bankB := [] }

def effChainConfig (c : Cmd) (m : Mach) : Mach × Eff :=
  let h := parseChain c
  let i := c.b 0 1
  let x := m.chain i
  let only := bitOf (c.b 0x24 4) 0
  let bankOk := match x.cfg with
    | some g => sameButBanks g h && (if x.bankB then g.bankB == h.bankB else g.bankA == h.bankA)
    | none => false
  if m.inState [.run] ∧ !(only && bankOk) then reject stSTATE m
  else if !outSlow m h then reject stLIMIT m
  else match only, x.cfg with
    | true, some g => okDone (m.setChain i { x with cfg := some (if x.bankB then { g with bankA := h.bankA } else { g with bankB := h.bankB }) })
    | true, none => reject stSTATE m
    | false, _ => okDone (m.setChain i { chainInit with cfg := some h, sat := x.sat })

def chkChainBankSwap (c : Cmd) : Option Nat := if c.zeroFrom 4 then none else some stMALFORMED

def effChainBankSwap (c : Cmd) (m : Mach) : Mach × Eff :=
  let swap := c.f 0 2
  let clear := c.f 2 2
  if swap = 0 ∧ clear = 0 then okEmpty m
  else
    let chains := (m.meas.chains.zipIdx).map fun p =>
      let x := p.1
      let x1 := if bitOf clear p.2 then { x with sat := false } else x
      if bitOf swap p.2 then { x1 with swaps := x.swaps ++ [(intakeAt m : Int)] } else x1
    okDone { m with meas := { m.meas with chains := chains } }

/-! ### RIM_CONFIG (R316, R330) -/

def chkRimConfig (c : Cmd) : Option Nat :=
  let chain := bitOf (c.f 1 1) 1
  if 15 < c.f 0 1 ∨ 4 ≤ c.f 1 1 ∨ c.f 2 2 ≠ 0 ∨ (if chain then 16 else 2 ^ 20) ≤ c.f 4 4 ∨ !c.zeroFrom 20 then some stMALFORMED
  else if signed 32 (c.f 12 4) < signed 32 (c.f 8 4) ∨ signed 32 (c.f 16 4) < 0 then some stLIMIT
  else none

def effRimConfig (c : Cmd) (m : Mach) : Mach × Eff :=
  let r : Rim := ⟨bitOf (c.f 1 1) 0, bitOf (c.f 1 1) 1, c.f 4 4, signed 32 (c.f 8 4), signed 32 (c.f 12 4), signed 32 (c.f 16 4), .inside, false, []⟩
  okDone { m with meas := { m.meas with rims := setAt m.meas.rims (c.f 0 1) r } }

/-! ### SV_SUBSCRIBE and SV_UNSUBSCRIBE (R321, R333) -/

def chkSvSubscribe (c : Cmd) : Option Nat :=
  if c.b 0 1 ≤ 63 ∧ 1 ≤ c.b 1 1 ∧ c.b 1 1 ≤ 32 ∧ 1 ≤ c.b 2 1 ∧ c.b 2 1 ≤ 2 ∧ 0x4000 ≤ c.b 4 2 ∧ c.b 4 2 ≤ 0x7FFF ∧ 1 ≤ c.b 6 1 ∧ c.b 6 1 ≤ 3
      ∧ 1 ≤ c.b 7 1 ∧ c.b 0x0E 2 = 0 ∧ 1 ≤ c.b 0x14 1 ∧ c.b 0x14 1 ≤ 32 ∧ c.b 0x15 3 = 0 ∧ c.bufZero 0x38 8
  then none else some stMALFORMED

/-- A port of a mask is not enabled in ETH. -/
def portOff (m : Mach) (ports : Nat) : Bool := (bitOf ports 0 && !m.flag F.ethCtrlEnA) || (bitOf ports 1 && !m.flag F.ethCtrlEnB)

def effSvSubscribe (c : Cmd) (m : Mach) : Mach × Eff :=
  if portOff m (c.b 6 1) then reject stMALFORMED m
  else
    let u : SvSub := ⟨c.b 1 1, c.b 2 1, c.b 3 1, c.b 4 2, c.b 6 1, c.b 7 1, c.b 8 6, c.b 0x10 4, (c.buf.drop 0x18).take (c.b 0x14 1)⟩
    okDone (m.setStream (c.b 0 1) { svInit with sub := some u, state := .waiting })

def chkSvUnsubscribe (c : Cmd) : Option Nat := if c.f 0 1 ≤ 63 ∧ c.zeroFrom 1 then none else some stMALFORMED

def effSvUnsubscribe (c : Cmd) (m : Mach) : Mach × Eff :=
  let n := c.f 0 1
  match (m.stream n).sub with
  | none => okEmpty m
  | some u => okDone ((svHold n u.nch (m.invalidate (svBase n) true)).setStream n svInit)

/-! ### Echo commands (R322–R327, R334) -/

/-- Trigger condition `j` of the structure. -/
def parseCond (c : Cmd) (j : Nat) : EchoCond := ⟨c.b (0x10 + 8 * j) 1, c.b (0x11 + 8 * j) 1, c.b (0x12 + 8 * j) 1, c.b (0x14 + 8 * j) 4⟩

/-- A condition's codes and ranges. -/
def condOk (nch : Nat) (d : EchoCond) (resv : Nat) : Bool :=
  resv == 0 && (match d.kind with
    | 0 => true
    | 1 => decide (d.which < nch) && decide (1 ≤ d.dir) && decide (d.dir ≤ 3)
    | 2 => decide (d.which ≤ 15)
    | 3 => decide (d.which ≤ 3)
    | 4 => decide (d.which ≤ 31) && decide (d.level < 2 ^ 20)
    | _ => false)

/-- A channel word's reserved bits are zero, and it is a chain under a CHAIN clock. -/
def chanOk (clock w : Nat) : Bool :=
  bitsOf w 20 10 == 0 && (if bitOf w 31 then bitsOf w 4 16 == 0 else clock == 0)

/-- The structure of ECHO_ARM (R334). -/
def parseEcho (c : Cmd) : EchoCfg :=
  { clock := c.b 2 1, div := c.b 3 1, autoRearm := bitOf (c.b 4 1) 0, trgOut := bitOf (c.b 4 1) 1, line := bitsOf (c.b 4 1) 2 2
    pre := c.b 8 4, post := c.b 0x0C 4, conds := (List.range 4).map (parseCond c), chans := (List.range (c.b 1 1)).map fun i => c.b (0x40 + 4 * i) 4
    ring := c.ring, seq := c.seq }

def echoLenOk (n : Nat) : Bool := decide (68 ≤ n) && decide (n ≤ 320) && n % 4 == 0

def chkEchoArm (c : Cmd) : Option Nat :=
  let e := parseEcho c
  let n := c.b 1 1
  if 7 < c.b 0 1 ∨ n < 1 ∨ 64 < n ∨ 1 < e.clock ∨ (e.clock = 0 ∧ e.div = 0) ∨ (e.clock = 1 ∧ 15 < e.div) ∨ 16 ≤ c.b 4 1 ∨ !c.bufZero 5 3 ∨ e.post = 0
      ∨ !c.bufZero 0x30 16 ∨ !((List.range 4).all fun j => condOk n (parseCond c j) (c.b (0x13 + 8 * j) 1)) ∨ !(e.chans.all (chanOk e.clock)) then some stMALFORMED
  else if c.len ≠ 64 + 4 * n then some stLIMIT
  else none

def effEchoArm (c : Cmd) (m : Mach) : Mach × Eff :=
  let e := parseEcho c
  let s := c.b 0 1
  if (m.echo s).cfg.isSome then reject stSTATE m
  else if echoFree m < echoAlloc e then reject stLIMIT m
  else okDone (m.setEcho s (echoArmed e (m.echo s)))

def chkEchoTrigger (c : Cmd) : Option Nat := if c.zeroFrom 1 then none else some stMALFORMED

def effEchoTrigger (c : Cmd) (m : Mach) : Mach × Eff :=
  let mask := c.f 0 1
  if (List.range 8).all fun s => !bitOf mask s || (m.echo s).cfg.isNone then okEmpty m
  else okDone ((List.range 8).foldl (fun m s => if bitOf mask s then echoNote s ⟨0xFF, 5, 0, intakeAt m * 65536, m.tb.k⟩ m else m) m)

def chkEchoDisarm (c : Cmd) : Option Nat := if c.f 0 1 ≤ 7 ∧ c.zeroFrom 1 then none else some stMALFORMED

/-- The triggers a slot has met are taken in their order (R323, R325). -/
def echoTakeAll (s : Nat) (m : Mach) : Mach :=
  let e := m.echo s
  (trigOrder e.cands.length e.cands).foldl (echoFire s) (m.setEcho s { e with cands := [] })

/-- A slot disarmed; triggers it has met count first (R325). One whose record waits to be posted is not armed again after that (DESIGN CHOICE). -/
def effEchoDisarm (c : Cmd) (m : Mach) : Mach × Eff :=
  let s := c.f 0 1
  let e := m.echo s
  match e.cfg with
  | none => okEmpty m
  | some g =>
    if e.waiting.isSome then okDone (m.setEcho s { e with cfg := some { g with autoRearm := false } })
    else
      let m1 := echoTakeAll s m
      if (m1.echo s).trig.isSome then okDone (echoComplete (chainTs m) s (m1.setEcho s { m1.echo s with trunc := true }))
      else okDone (m.setEcho s { echoInit with last := e.last })

def chkEchoRead (c : Cmd) : Option Nat := if c.b 0 1 ≤ 7 then none else some stMALFORMED

def effEchoRead (c : Cmd) (m : Mach) : Mach × Eff :=
  match (m.echo (c.b 0 1)).last with
  | none => okEmpty m
  | some d => if c.len < d.length then reject stLIMIT m else okDone (writeBuf c d m)

/-! ### The rows -/

def runConfig : List DevState := [.ready, .run]
def runAll : List DevState := [.ready, .run, .safe]

def infoAdcSeqConfig : CmdInfo := ⟨0x0601, .buffer, false, (· == 688), [.ready], fun c _ => chkAdcSeqConfig c⟩
def infoAdcUrgent : CmdInfo := ⟨0x0602, .inline, true, fun _ => true, runAll, fun c _ => chkAdcUrgent c⟩
def infoChainConfig : CmdInfo := ⟨0x0603, .buffer, false, (· == 128), runConfig, fun c _ => chkChainConfig c⟩
def infoChainBankSwap : CmdInfo := ⟨0x0604, .inline, true, fun _ => true, runConfig, fun c _ => chkChainBankSwap c⟩
def infoRimConfig : CmdInfo := ⟨0x0605, .inline, false, fun _ => true, runConfig, fun c _ => chkRimConfig c⟩
def infoSvSubscribe : CmdInfo := ⟨0x0606, .buffer, false, (· == 64), runConfig, fun c _ => chkSvSubscribe c⟩
def infoSvUnsubscribe : CmdInfo := ⟨0x0607, .inline, false, fun _ => true, runConfig, fun c _ => chkSvUnsubscribe c⟩
def infoEchoArm : CmdInfo := ⟨0x0610, .buffer, false, echoLenOk, runAll, fun c _ => chkEchoArm c⟩
def infoEchoTrigger : CmdInfo := ⟨0x0611, .inline, true, fun _ => true, runAll, fun c _ => chkEchoTrigger c⟩
def infoEchoDisarm : CmdInfo := ⟨0x0612, .inline, false, fun _ => true, runAll, fun c _ => chkEchoDisarm c⟩
def infoEchoRead : CmdInfo := ⟨0x0613, .buffer, false, fun n => decide (0 < n), runAll, fun c _ => chkEchoRead c⟩

def execAdcSeqConfig (d : Desc) (s : State) : Host.Outcome State Fault Refusal := .next (s.run (hostCommand infoAdcSeqConfig effAdcSeqConfig d))
def execAdcUrgent (d : Desc) (s : State) : Host.Outcome State Fault Refusal := .next (s.run (hostCommand infoAdcUrgent effAdcUrgent d))
def execChainConfig (d : Desc) (s : State) : Host.Outcome State Fault Refusal := .next (s.run (hostCommand infoChainConfig effChainConfig d))
def execChainBankSwap (d : Desc) (s : State) : Host.Outcome State Fault Refusal := .next (s.run (hostCommand infoChainBankSwap effChainBankSwap d))
def execRimConfig (d : Desc) (s : State) : Host.Outcome State Fault Refusal := .next (s.run (hostCommand infoRimConfig effRimConfig d))
def execSvSubscribe (d : Desc) (s : State) : Host.Outcome State Fault Refusal := .next (s.run (hostCommand infoSvSubscribe effSvSubscribe d))
def execSvUnsubscribe (d : Desc) (s : State) : Host.Outcome State Fault Refusal := .next (s.run (hostCommand infoSvUnsubscribe effSvUnsubscribe d))
def execEchoArm (d : Desc) (s : State) : Host.Outcome State Fault Refusal := .next (s.run (hostCommand infoEchoArm effEchoArm d))
def execEchoTrigger (d : Desc) (s : State) : Host.Outcome State Fault Refusal := .next (s.run (hostCommand infoEchoTrigger effEchoTrigger d))
def execEchoDisarm (d : Desc) (s : State) : Host.Outcome State Fault Refusal := .next (s.run (hostCommand infoEchoDisarm effEchoDisarm d))
def execEchoRead (d : Desc) (s : State) : Host.Outcome State Fault Refusal := .next (s.run (hostCommand infoEchoRead effEchoRead d))

/-- A conversion of a core ends (R307). -/
def execAdcConversionDone (core : Nat) (src : AdcSrc) (v : Int) (vref sampleQ endQ : Nat) (s : State) : Host.Outcome State Fault Refusal :=
  .next (s.run fun m => if m.measures then conversionDone core src v vref sampleQ endQ m else m)

/-- A CONTINUOUS trigger at an instant of its grid (R304). -/
def execAdcContinuousTrigger (q at_ : Nat) (s : State) : Host.Outcome State Fault Refusal :=
  .next (s.run fun m => match m.seqCfg q with
    | some x => if m.measures && x.mode == 2 && ((at_ : Int) - m.tb.anchor) % (x.repeatNs : Int) == 0 then seqTrigger q at_ m else m
    | none => m)

def execSvFrame (f : SvFrame) (s : State) : Host.Outcome State Fault Refusal := .next (s.run (whenAlive (svRx f)))

def execSvLostTimeout (stream : Nat) (s : State) : Host.Outcome State Fault Refusal := .next (s.run (whenAlive (svLost stream)))

def execTrgEdge (line at_ width : Nat) (s : State) : Host.Outcome State Fault Refusal := .next (s.run (whenAlive (trgEdge line at_ width)))

/-- The device releases a TRG line after 1 µs (R324). -/
def execTrgOutEnd (line : Nat) (s : State) : Host.Outcome State Fault Refusal :=
  .next (s.run fun m => { m with meas := { m.meas with trgDriven := setAt m.meas.trgDriven line false } })

def execSiphonRequest (ch burst : Nat) (next : Option SiphonDesc) (s : State) : Host.Outcome State Fault Refusal :=
  .next (s.run fun m => if m.working then siphonRequest ch burst next m else m)

/-- This unit becomes the server of the pair; its Echo records follow (R293, R326). -/
def execServerChange (cells : List Host.Cell) (s : State) : Host.Outcome State Fault Refusal :=
  .next (s.run (whenAlive fun m => let r := serverChange cells m; if r.pair.server && !m.pair.server then echoAfterServer r else r))

end Sys2Proof.Machine
end

