-- ==== Sys2Proof/Machine/Net.lean ====
section
/-! DEFINITION. Machine/Net.lean: the Ethernet ports, timed transmit, PRP, GOOSE and far telegrams (R337–R354, R366–R369). -/
set_option Elab.async false
namespace Sys2Proof.Machine

/-! ### Ports and frames (R337–R341, R354) -/

/-- GOOSE, far telegrams, timed frames and CAN leave from this unit: it drives the local outputs by R294, or no partner is there. -/
def netDrives (m : Mach) : Bool := mayDrive m || (m.pair.role == .solo && !(m.pair.heard || m.pair.heardPrev))

/-- The redundancy control trailer of IEC 62439-3 (PRESUMED): sequence, LAN A or B with the size, suffix. -/
def rctBytes (seq port size : Nat) : List Byte := beBytes 2 seq ++ beBytes 2 ((0xA + port) * 4096 + size % 4096) ++ beBytes 2 0x88FB

/-- Data padded to a length. -/
def padTo (n : Nat) (l : List Byte) : List Byte := l ++ List.replicate (n - l.length) 0#8

/-- The RCT where a sequence is given, and the FCS, after a frame without its FCS; a frame that would be shorter than 64 bytes with them is padded first. -/
def closeFrame (port : Nat) (prp : Option Nat) (f : List Byte) : List Byte :=
  let g := match prp with
    | some n => let h := padTo 54 f; h ++ rctBytes n port (h.length - 14 + 6)
    | none => padTo 60 f
  g ++ leBytes 4 (crc32 g)

/-- A frame of the device's own: header, VLAN tag where VID or PCP is not zero, data (R349). -/
def ownFrame (m : Mach) (port dest vlan typ : Nat) (prp : Option Nat) (data : List Byte) : List Byte :=
  closeFrame port prp (beBytes 6 dest ++ beBytes 6 (macOf m port) ++ (if vlan = 0 then [] else beBytes 2 0x8100 ++ beBytes 2 vlan) ++ beBytes 2 typ ++ data)

/-! ### Departures and the transmit timestamp queue (R230, R231, R339, R348) -/

/-- A timestamp put into the queue of 64; a full queue drops it (R231). -/
def stampQueue (e : TsEntry) (m : Mach) : Mach :=
  if m.tb.tsq.length < 64 then { m with tb := { m.tb with tsq := m.tb.tsq ++ [e], tsqDropRun := false } }
  else
    let m1 := (m.raise F.tbStatusTsqOvf).bump F.tbCountOvfCnt 1
    let m2 := if m.tb.tsqDropRun then m1 else m1.post 0x0507 []
    let m3 := { m2 with tb := { m2.tb with tsqDropRun := true } }
    match e.cmd with
    | some (r, s) => { m3 with net := { m3.net with timed := m3.net.timed.map fun t => if t.ring == r && t.seq == s then { t with tsLost := true } else t } }
    | none => m3

/-- A frame of a command has left a port; without TS the command completes with the last one. -/
def leftPort (r s port stamp : Nat) (launch : Nat) (m : Mach) : Mach :=
  match m.net.timed.find? fun t => t.ring == r && t.seq == s with
  | none => m
  | some t =>
    let t1 := { t with left := t.left ||| 2 ^ port, tsLost := t.tsLost || (t.ts && !netDrives m) }
    let put := { m with net := { m.net with timed := m.net.timed.map fun u => if u.ring == r && u.seq == s then t1 else u } }
    if t.ts then (if netDrives m then stampQueue ⟨stamp, port, s % 65536, launch, some (r, s), 0, 0⟩ put else put)
    else if t1.left = t.ports then
      completeLater r s (fin stDONE) { m with net := { m.net with timed := m.net.timed.filter fun u => !(u.ring == r && u.seq == s) } }
    else put

/-- Siphon channel of a kind of frame (R366). -/
def TxKind.channel (port : Nat) : TxKind → Nat
  | .safety => 12 | .goose => 13 | .far => 14 | .timed => 15 | .ptp | .prp => 10 + port

/-- A kind of frame leaves from this unit: GOOSE, far telegrams and timed frames only from the one that drives the local outputs (R354). -/
def kindLeaves (m : Mach) (k : TxKind) : Bool :=
  match k with
  | .goose | .far | .timed => netDrives m
  | .safety | .ptp | .prp => true

/-- SCRC: CRC-32C over bytes 0x00–0x3B with PORT taken as 0 (R353). -/
def scrc (b : List Byte) : Nat := crc32c ((b.take 60).set 3 0#8)

/-- The 64 data bytes of a telegram (R353). -/
def telBytes (o : TelOut) (port sendT : Nat) : List Byte :=
  let data := leBytes 4 o.bits ++ leBytes 4 o.crc ++ leBytes 8 0
  let b := leBytes 2 1 ++ leBytes 1 o.chan ++ leBytes 1 port ++ leBytes 4 o.own ++ leBytes 4 o.peer ++ leBytes 4 o.seq ++ leBytes 8 (secsOf sendT) ++ leBytes 4 (nanosOf sendT)
    ++ data ++ data.map (fun x => ~~~x)
  b ++ leBytes 4 (scrc b)

/-- A frame on its port; a safety telegram carries the boundary before its departure (R403). -/
def TxFrame.out (m : Mach) (port : Nat) (f : TxFrame) : Out :=
  match f.body with
  | .tel o => .eth port (ownFrame m port (Config.unstatedArg 0x88B6 0) 0 0x88B6 none (telBytes o port (o.sendT.getD m.now)))
  | .raw b => .eth port b
  | .ptp o => .ptp port o.kind.dest ptpEtherType o
  | .goose o r => .goose port o r
  | .prpSup => .prpSup port

/-- The copies of a safety telegram that wait yet take the SEND_T of the one that leaves (R353). -/
def stampCopies (f : TxFrame) (m : Mach) : Mach :=
  match f.body with
  | .tel o =>
    let fix := fun (g : TxFrame) => match g.body with
      | .tel p => if p.chan = o.chan ∧ p.seq = o.seq ∧ p.sendT = none then { g with body := .tel { p with sendT := some m.now } } else g
      | _ => g
    { m with net := { m.net with ports := m.net.ports.map fun x => { x with queue := x.queue.map fix } } }
  | _ => m

/-- The next frame of a port leaves at an instant in 2^−16 ns of device time: of those that are ready, the first in the order of R339 (R230, R339, R366). -/
def frameLeaves (port stamp : Nat) (busy inBuffer : Bool) (m : Mach) : Mach :=
  let x := m.ethPort port
  match x.queue.find? fun f => decide (f.at_ * 65536 ≤ stamp) && !siphonLost m (10 + port) && !siphonLost m (f.kind.channel port) with
  | none => m
  | some f =>
    let m1 := stampCopies f (m.setEthPort port { x with queue := x.queue.erase f })
    if f.kind == .timed && !inBuffer then
      (match f.cmd with
       | some (r, s) => completeLater r s (fin stEXPIRED) { m1 with net := { m1.net with timed := m1.net.timed.filter fun t => !(t.ring == r && t.seq == s) } }
       | none => m1)
    else
      let m2 := if f.kind == .timed && busy then m1.bump (F.ethCountTxLate port) 1 else m1
      let m3 := if kindLeaves m f.kind then m2.send (f.out m port) else m2
      let m4 := if f.tsRec && netDrives m then stampQueue ⟨stamp, port, f.seqNo % 65536, f.at_, none, f.chan, f.seqNo⟩ m3 else m3
      match f.cmd, f.body with
      | some (r, s), _ => leftPort r s port stamp f.at_ m4
      | none, .ptp o => ptpLeft port o stamp m4
      | none, _ => m4

/-- One entry of the timestamp queue drained: into its command, or into record ring 1 (R231, R348). -/
def drainStamp (m : Mach) (e : TsEntry) : Mach :=
  match e.cmd with
  | some (r, s) => { m with net := { m.net with timed := m.net.timed.map fun t =>
      if t.ring == r && t.seq == s then (if e.port = 0 then { t with stampA := some e.stamp } else { t with stampB := some e.stamp }) else t } }
  | none => postRec 1 0x0701 (Config.unstatedArg 0x0701 0) (Config.recordData 0x0701 [TxKind.far.rank, e.chan, e.seqNo, e.stamp]) m

/-- A command with TS whose frame has left every named port. -/
def finishTimed (m : Mach) (t : TimedTx) : Mach :=
  if t.ts && t.left == t.ports then
    let stamp := fun o => match o with | some v => ts128 v | none => List.replicate 16 0#8
    completeLater t.ring t.seq ⟨stDONE, 0, t.ports, if t.tsLost then cfTSLOST else 0, stamp t.stampA ++ stamp t.stampB⟩
      { m with net := { m.net with timed := m.net.timed.filter (· ≠ t) } }
  else m

/-- The timestamp queue drained at a boundary. -/
def drainStamps (m : Mach) : Mach :=
  let m1 := m.tb.tsq.foldl drainStamp { m with tb := { m.tb with tsq := [] } }
  m1.net.timed.foldl finishTimed m1

/-! ### ETH_TIMED_TX (R347, R348) -/

def chkEthTimedTx (c : Cmd) : Option Nat :=
  if c.b 8 4 < 1000000000 ∧ 1 ≤ c.b 12 1 ∧ c.b 12 1 ≤ 3 ∧ c.b 13 1 < 4 ∧ c.b 14 2 = 0 then none else some stMALFORMED

/-- Timed frames in a port's queue. -/
def timedCount (x : EthPort) : Nat := (x.queue.filter fun f => f.kind == .timed).length

def effEthTimedTx (c : Cmd) (m : Mach) : Mach × Eff :=
  let ports := c.b 12 1
  let t0 := c.b 0 8 * 1000000000 + c.b 8 4
  let at_ := if t0 = 0 then intakeAt m + 1000 else t0
  if (List.range 2).any fun p => bitOf ports p && decide (64 ≤ timedCount (m.ethPort p)) then (m, .wait)
  else if at_ < intakeAt m + 1000 then reject stEXPIRED m
  else
    let f := (c.buf.take c.len).drop 16
    let m1 := { m with net := { m.net with timed := m.net.timed ++ [⟨c.ring, c.seq, ports, 0, bitOf (c.b 13 1) 1, false, none, none⟩] } }
    (queueFrame ports (bitOf (c.b 13 1) 0) (fun p rct => ⟨.timed, at_, m.net.txOrder, some (c.ring, c.seq), false, 0, 0, .raw (closeFrame p rct f)⟩) m1, .hold)

/-! ### PRP (R341) -/

/-- A supervision frame makes its source an entry of the node table. -/
def prpSupRx (port dest src : Nat) (m : Mach) : Mach :=
  if !portTakes m port dest || !m.flag F.ethCtrlPrpEn || m.net.nodes.any (fun x => x.src == src) then m
  else if m.net.nodes.length < 512 then { m with net := { m.net with nodes := m.net.nodes ++ [⟨src, []⟩], prpFullRun := false } }
  else
    let m1 := m.raise F.ethStatusPrpFull
    if m.net.prpFullRun then m1 else (let m2 := m1.post 0x070A []; { m2 with net := { m2.net with prpFullRun := true } })

/-- Supervision frames on both ports, every LIFE interval. -/
def prpSupTx (m : Mach) : Mach :=
  if m.flag F.ethCtrlPrpEn then queueFrame 3 false (fun _ _ => ⟨.prp, m.now, m.net.txOrder, none, false, 0, 0, .prpSup⟩) m else m

def prpForget (src : Nat) (m : Mach) : Mach := { m with net := { m.net with nodes := m.net.nodes.filter fun x => x.src != src } }

/-! ### GOOSE (R343–R346) -/

/-- First entry of block `n`. -/
def gooseBase (n : Nat) : Nat := 0xD0000 + 0x80 * n

/-- Member `j` of the block (R344). -/
def parseMember (c : Cmd) (j : Nat) : GooseMember := ⟨c.b (0xE0 + 8 * j) 4, c.b (0xE4 + 8 * j) 1, bitOf (c.b (0xE5 + 8 * j) 1) 0⟩

def parseGoose (c : Cmd) : GooseCfg :=
  { ports := c.b 2 1, flags := c.b 3 1, appid := c.b 4 2, vlan := c.b 6 2, dest := c.b 8 6, confRev := c.b 0x10 4, tMin := c.b 0x14 4, tMax := c.b 0x18 4
    gocbRef := sliceBytes c.buf 0x20 64, datSet := sliceBytes c.buf 0x60 64, goId := sliceBytes c.buf 0xA0 64
    members := (List.range (c.b 1 1)).map (parseMember c) }

def memberOk (c : Cmd) (j : Nat) : Bool :=
  refOk (c.b (0xE0 + 8 * j) 4) && !bitOf (c.b (0xE0 + 8 * j) 4) 31 && decide (1 ≤ c.b (0xE4 + 8 * j) 1) && decide (c.b (0xE4 + 8 * j) 1 ≤ 4)
    && decide (c.b (0xE5 + 8 * j) 1 < 2) && c.b (0xE6 + 8 * j) 2 == 0

/-- What publication and subscription blocks have in common. -/
def gooseCommon (c : Cmd) : Bool :=
  decide (1 ≤ c.b 1 1) && decide (c.b 1 1 ≤ 32) && decide (1 ≤ c.b 2 1) && decide (c.b 2 1 ≤ 3) && c.b 0x0E 2 == 0 && c.b 0x1C 4 == 0
    && (List.range (min (c.b 1 1) 32)).all (memberOk c)

def chkGoosePublish (c : Cmd) : Option Nat :=
  if gooseCommon c ∧ c.b 0 1 ≤ 31 ∧ (c.b 3 1 = 0 ∨ c.b 3 1 = 2) ∧ bitsOf (c.b 6 2) 12 1 = 0 ∧ 100 ≤ c.b 0x14 4 ∧ c.b 0x14 4 ≤ 1000000
      ∧ c.b 0x14 4 ≤ 1000 * c.b 0x18 4 ∧ c.b 0x18 4 ≤ 60000 then none else some stMALFORMED

def effGoosePublish (c : Cmd) (m : Mach) : Mach × Eff :=
  if portOff m (c.b 2 1) then reject stMALFORMED m
  else okDone { m with net := { m.net with pubs := setAt m.net.pubs (c.b 0 1) { goosePubInit with cfg := some (parseGoose c) } } }

def chkGooseSubscribe (c : Cmd) : Option Nat :=
  if gooseCommon c ∧ 32 ≤ c.b 0 1 ∧ c.b 0 1 ≤ 159 ∧ c.b 3 1 ≤ 1 ∧ c.b 6 2 = 0 ∧ c.b 0x14 4 = 0 ∧ 1 ≤ c.b 0x18 4 ∧ c.b 0x18 4 ≤ 255 then none
  else some stMALFORMED

/-- An index is a declared entry of the loop graph area that no block writes (R344), and that no set-point slot and no other subscription than `own` produces (R28). -/
def freeDecl (m : Mach) (own i : Nat) : Bool :=
  decide (0xE0000 ≤ i) && declared m i && (match m.loop.graph with | some g => !((writersOf g.blocks).map Prod.fst).contains i | none => false)
    && (m.mode.slots.all fun s => match s with | some s => s.index != i | none => true)
    && (m.net.subs.zipIdx).all fun p => p.2 == own || (match p.1.cfg with | some g => g.members.all fun x => x.ref % 2 ^ 20 != i | none => true)

def effGooseSubscribe (c : Cmd) (m : Mach) : Mach × Eff :=
  let g := parseGoose c
  if portOff m g.ports || !(g.members.all fun x => freeDecl m (c.b 0 1 - 32) (x.ref % 2 ^ 20)) then reject stMALFORMED m
  else okDone { m with net := { m.net with subs := setAt m.net.subs (c.b 0 1 - 32) { gooseSubInit with cfg := some g, state := .waiting } } }

def Mach.gooseSub (m : Mach) (b : Nat) : GooseSub := m.net.subs.getD b gooseSubInit

def Mach.setGooseSub (m : Mach) (b : Nat) (x : GooseSub) : Mach := { m with net := { m.net with subs := setAt m.net.subs b x } }

/-- Member entries keep their values with VALID cleared and HELD set. -/
def gooseHold (g : GooseCfg) (m : Mach) : Mach := g.members.foldl (fun m x => m.invalidate (x.ref % 2 ^ 20) true) m

def chkGooseUnsubscribe (c : Cmd) : Option Nat := if 32 ≤ c.f 0 1 ∧ c.f 0 1 ≤ 159 ∧ c.zeroFrom 1 then none else some stMALFORMED

def effGooseUnsubscribe (c : Cmd) (m : Mach) : Mach × Eff :=
  let b := c.f 0 1 - 32
  match (m.gooseSub b).cfg with
  | none => okEmpty m
  | some g =>
    let m1 := (List.range 4).foldl (fun m o => m.invalidate (gooseBase (b + 32) + o) true) (gooseHold g m)
    okDone (m1.setGooseSub b gooseSubInit)

def StreamState.code : StreamState → Nat
  | .free => 0 | .waiting => 1 | .active => 2 | .lost => 3 | .mismatch => 4

/-- A value matches a member's type and the Quality member after it. -/
def memberMatches (x : GooseMember) (v : GooseVal) : Bool := x.typ == v.typ && x.qual == v.qual.isSome

/-- Messages missed between two stNum values, which wrap from 0xFFFF_FFFF to 1 (R345, R346). -/
def stGap (old new : Nat) : Nat :=
  let d := (new + (2 ^ 32 - 1) - old) % (2 ^ 32 - 1)
  if d < 2 ^ 31 then d - 1 else 0

/-- A message of a block's stream is accepted or ignored (R346). -/
def gooseAccept (b : Nat) (f : GooseFrame) (m : Mach) : Mach :=
  let s := m.gooseSub b
  let renewed := { s with tal := f.tal, heardAt := f.at_ }
  match s.last with
  | some (st, sq) =>
    if (f.stNum = st ∧ f.sqNum ≤ sq) then m
    else if f.stNum = st then m.setGooseSub b { renewed with last := some (f.stNum, f.sqNum) }
    else
      let gap := stGap st f.stNum
      let m1 := m.setGooseSub b { renewed with last := some (f.stNum, f.sqNum), loss := incSat 32 s.loss gap, lossRun := decide (0 < gap), waiting := some f.vals }
      if 0 < gap ∧ !s.lossRun then m1.post 0x0704 [] else m1
  | none => m.setGooseSub b { renewed with last := some (f.stNum, f.sqNum), waiting := some f.vals }

/-- A frame offered to block `b` (R321, R346). -/
def gooseStream (f : GooseFrame) (m : Mach) (b : Nat) : Mach :=
  let s := m.gooseSub b
  match s.cfg with
  | none => m
  | some g =>
    if !(g.dest == f.dest && g.appid == f.appid && g.gocbRef == padTo 64 f.gocbRef && g.datSet == padTo 64 f.datSet && bitOf g.ports f.port)
        || s.state == .free || s.state == .mismatch || (f.test && !bitOf g.flags 0) then m
    else if g.confRev ≠ f.confRev ∨ f.ndsCom ∨ g.members.length ≠ f.vals.length ∨ ((g.members.zip f.vals).any fun p => !memberMatches p.1 p.2) then
      (gooseHold g (m.setGooseSub b { s with state := .mismatch, waiting := none })).post 0x0703 [f.confRev]
    else
      let m1 := if s.state == .active then m else (m.setGooseSub b { s with state := .active }).post 0x0701 []
      gooseAccept b f m1

/-- A GOOSE message (R338, R342, R343, R346). -/
def gooseRx (f : GooseFrame) (m : Mach) : Mach :=
  if !portTakes m f.port f.dest || f.sim then m
  else
    let d := prpTake f.src f.port f.rct m
    if d.2 then d.1 else (List.range 128).foldl (gooseStream f) d.1

/-- No message within the timeAllowedToLive of the last accepted one. -/
def gooseLost (b : Nat) (m : Mach) : Mach :=
  let s := m.gooseSub b
  match s.state, s.cfg with
  | .active, some g => (gooseHold g (m.setGooseSub b { s with state := .lost, waiting := none })).post 0x0702 []
  | _, _ => m

/-- A member written: BOOLEAN changes its bit of the entry alone; VALID unless its Quality is not good. -/
def writeMember (m : Mach) (p : GooseMember × GooseVal) : Mach :=
  let i := p.1.ref % 2 ^ 20
  let old := (m.ownEntry i).value.toNat
  let v := if p.1.typ = 1 then putBits old (bitsOf p.1.ref 20 5) 1 (p.2.value % 2) else p.2.value
  let good := match p.2.qual with | some q => svGood q | none => true
  m.produce true i (BitVec.ofNat 32 v) (if good then 1#8 else 0#8) 0x0A

/-- A subscribed block at the intake. -/
def gooseSubIntake (m : Mach) (b : Nat) : Mach :=
  let s := m.gooseSub b
  match s.cfg with
  | none => m
  | some g =>
    let m1 := match s.waiting with
      | some vs => (g.members.zip vs).foldl writeMember (m.setGooseSub b { s with waiting := none })
      | none => m
    let o := gooseBase (b + 32)
    let l := s.last.getD (0, 0)
    (((m1.produceValid o s.state.code 0x0A).produceValid (o + 1) l.1 0x0A).produceValid (o + 2) l.2 0x0A).produceValid (o + 3) s.loss 0x0A

/-- A member's value as published (R345). -/
def memberValue (m : Mach) (x : GooseMember) : GooseVal :=
  let e := m.g (x.ref % 2 ^ 20)
  ⟨x.typ, if x.typ = 1 then b2n (bitOf e.value.toNat (bitsOf x.ref 20 5)) else e.value.toNat, if x.qual then some (b2n (!e.good)) else none⟩

/-- A counter that wraps from 0xFFFF_FFFF to 1. -/
def wrapTo1 (v : Nat) : Nat := if 0xFFFFFFFF ≤ v then 1 else v + 1

/-- A published block at the intake: a difference makes a new message for the next boundary (R345). -/
def goosePubIntake (m : Mach) (n : Nat) : Mach :=
  match m.net.pubs[n]? with
  | some x =>
    (match x.cfg with
     | some g =>
       let vs := g.members.map (memberValue m)
       let y := if x.sent && x.last == vs then x
         else { x with last := vs, sent := true, due := true, stNum := wrapTo1 x.stNum, sqNum := 0, interval := g.tMin, elapsed := 0 }
       let m1 := { m with net := { m.net with pubs := setAt m.net.pubs n y } }
       let o := gooseBase n
       ((m1.produceValid o (Config.unstatedArg 0xD0000 n) 2).produceValid (o + 1) y.stNum 2).produceValid (o + 2) y.sqNum 2
     | none => m)
  | none => m

/-- A message of a published block; timeAllowedToLive is twice the interval to the next one, in ms rounded up (R343, R345). -/
def gooseOut (g : GooseCfg) (x : GoosePub) : GooseOut :=
  { dest := g.dest, appid := g.appid, vlan := g.vlan, gocbRef := g.gocbRef, datSet := g.datSet, goId := g.goId, confRev := g.confRev
    stNum := x.stNum, sqNum := x.sqNum, tal := (2 * x.interval + 999) / 1000, test := bitOf g.flags 1, sim := false, ndsCom := false, vals := x.last }

/-- A message of a published block is ready to leave on its ports at an instant. -/
def gooseSend (x : GoosePub) (at_ : Nat) (m : Mach) : Mach :=
  match x.cfg with
  | some g => queueFrame g.ports true (fun _ rct => ⟨.goose, at_, m.net.txOrder, none, false, 0, 0, .goose (gooseOut g x) rct⟩) m
  | none => m

/-- Messages due at a boundary. -/
def gooseBoundary (m : Mach) : Mach :=
  (List.range 32).foldl (fun m n => match m.net.pubs[n]? with
    | some x => if x.due then gooseSend x m.now { m with net := { m.net with pubs := setAt m.net.pubs n { x with due := false } } } else m
    | none => m) m

/-- A retransmission: at T_MIN, 2 T_MIN, 4 T_MIN … after the last change, at most T_MAX apart (R345). -/
def gooseRetransmit (n at_ : Nat) (m : Mach) : Mach :=
  match m.net.pubs[n]? with
  | some x =>
    (match x.cfg with
     | some g =>
       if !x.sent || x.due then m
       else
         let e := x.elapsed + x.interval
         let y := { x with sqNum := wrapTo1 x.sqNum, elapsed := e, interval := min e (1000 * g.tMax) }
         gooseSend y at_ { m with net := { m.net with pubs := setAt m.net.pubs n y } }
     | none => m)
  | none => m

/-! ### Far telegrams (R349–R352, R368) -/

def farBase (ch : Nat) : Nat := 0xDE000 + 0x100 * ch

def Mach.farCh (m : Mach) (ch : Nat) : FarCh := m.net.far.getD ch farInit

def Mach.setFar (m : Mach) (ch : Nat) (x : FarCh) : Mach := { m with net := { m.net with far := setAt m.net.far ch x } }

/-- Device time of the next boundary: the next instant of the grid (R213, R215, R350). -/
def nextBoundary (m : Mach) : Nat := m.tb.nextInstant

/-- The data of a telegram (R349), its CRC included. -/
def farBytes (m : Mach) (kind ch link seq count : Nat) (body : List Byte) : List Byte :=
  let t := nextBoundary m
  withCrc (leBytes 2 1 ++ leBytes 1 kind ++ leBytes 1 ch ++ leBytes 4 link ++ leBytes 8 seq ++ leBytes 8 (secsOf t) ++ leBytes 4 (nanosOf t)
    ++ leBytes 1 (m.pair.unit % 2 + 2 * b2n (!m.tb.timeValid)) ++ leBytes 1 count ++ leBytes 2 body.length ++ body)

/-- A telegram of a channel queued for the next boundary. -/
def farQueue (ch kind count : Nat) (body : List Byte) (cmd : Option (Nat × Nat)) (m : Mach) : Mach :=
  let x := m.farCh ch
  match x.cfg with
  | none => m
  | some g =>
    let seq := x.txSeq + 1
    let data := farBytes m kind ch g.linkId seq count body
    queueFrame g.ports g.prp (fun p rct => ⟨.far, nextBoundary m, m.net.txOrder, cmd, g.tsRec, ch, seq, .raw (ownFrame m p g.dest g.vlan 0x88B5 rct data)⟩)
      (m.setFar ch { x with txSeq := seq })

/-- DATA telegrams of the snapshot of period k, for boundary k + 1 (R350). -/
def farTx (m : Mach) : Mach :=
  (List.range 4).foldl (fun m ch => match (m.farCh ch).cfg with
    | some g =>
      if g.txEn && m.tb.k % max g.interval 1 == 0 then
        farQueue ch 1 g.count ((g.sources.take g.count).flatMap fun i => let e := m.g i; leBytes 4 e.value.toNat ++ leBytes 1 e.quality.toNat ++ leBytes 3 0) none m
      else m
    | none => m) m

/-- A telegram is well formed (R349).
DESIGN CHOICE: one whose SEND_T has NANOSECONDS of 10^9 or more is malformed by R6 and dropped, though R351 does not list it. -/
def farOk (b : List Byte) : Bool :=
  let n := fieldLE b 0x1E 2
  let count := fieldLE b 0x1D 1
  fieldLE b 0 2 == 1 && decide (36 + n ≤ b.length) && fieldLE b (0x20 + n) 4 == crc32 (b.take (0x20 + n)) && decide (fieldLE b 0x18 4 < 1000000000)
    && (if fieldLE b 2 1 = 1 then decide (1 ≤ count) && decide (count ≤ 32) && n == 8 * count
        else fieldLE b 2 1 == 2 && count == 0 && decide (1 ≤ n) && decide (n ≤ 1024))

/-- A far telegram whose frame ended at an instant (R351). -/
def farRx (port dest src : Nat) (rct : Option Nat) (b : List Byte) (at_ : Nat) (m : Mach) : Mach :=
  if !portTakes m port dest || siphonLost m 14 || !farOk b then m
  else
    let d := prpTake src port rct m
    let ch := fieldLE b 3 1
    let x := d.1.farCh ch
    let seq := fieldLE b 8 8
    match x.cfg with
    | none => d.1
    | some g =>
      if d.2 || 3 < ch || !g.rxEn || g.linkId != fieldLE b 4 4 || (match x.lastSeq with | some l => x.state == 2 && decide (seq ≤ l) | none => false) then d.1
      else
        let gap := match x.lastSeq with | some l => seq - l - 1 | none => 0
        let noTime := bitOf (fieldLE b 0x1C 1) 1
        let sendT := fieldLE b 0x10 8 * 1000000000 + fieldLE b 0x18 4
        let lat := if noTime || !m.tb.timeValid then x.latency else some (roundDiv ((at_ : Int) - sendT) 1000)
        let n := fieldLE b 0x1E 2
        let recs := (List.range (n / 8)).map fun j => (fieldLE b (0x20 + 8 * j) 4, fieldLE b (0x24 + 8 * j) 1)
        let late := tooLate m at_
        let y := { x with state := 2, lastSeq := some seq, loss := incSat 32 x.loss gap, lossRun := decide (0 < gap), noTime := noTime, heardAt := at_, latency := lat }
        let z := if fieldLE b 2 1 ≠ 1 then y else if late then { y with lateData := some recs } else { y with data := some recs }
        let m1 := d.1.setFar ch z
        let m2 := if x.state = 2 then m1 else m1.post 0x0705 []
        let m3 := if 0 < gap ∧ !x.lossRun then m2.post 0x0707 [] else m2
        if fieldLE b 2 1 = 2 then postRec 2 0x0702 (seq % 2 ^ 32) ((b.drop 0x20).take n) m3 else m3

/-- LOSS_MS without an accepted telegram (R352). -/
def farLost (ch : Nat) (m : Mach) : Mach :=
  let x := m.farCh ch
  match x.cfg with
  | some g =>
    if x.state = 2 then ((List.range g.count).foldl (fun m j => m.invalidate (farBase ch + 0x10 + j) true) (m.setFar ch { x with state := 3, data := none, lateData := none })).post 0x0706 []
    else m
  | none => m

/-- QUALITY bits VALID, SUBST, OVR and SAT of a record. -/
def farQual (q : Nat) : Byte := qOf ([qVALID, qSUBST, qOVR, qSAT].filter fun n => bitOf q n)

/-- A configured channel at the intake: its values where it receives, its state in any case (R351, R352). -/
def farIntake (m : Mach) (ch : Nat) : Mach :=
  let x := m.farCh ch
  match x.cfg with
  | some g =>
    if !g.rxEn then m.produceValid (farBase ch) x.state 0x0B
    else
      let b := farBase ch
      let m1 := match x.data with
        | some rs => ((rs.take g.count).zipIdx).foldl (fun (m : Mach) (r : (Nat × Nat) × Nat) => m.produce true (b + 0x10 + r.2) (BitVec.ofNat 32 r.1.1) (farQual r.1.2) 0x0B) (m.setFar ch { x with data := none })
        | none => m
      let m2 := ((m1.produceValid b (x.state + 4 * b2n x.noTime) 0x0B).produceValid (b + 1) (x.lastSeq.getD 0 % 2 ^ 32) 0x0B).produceValid (b + 3) x.loss 0x0B
      match x.latency with
      | some l => (m2.setFar ch { m2.farCh ch with latency := none }).produceValid (b + 2) (unsigned 32 l) 0x0B
      | none => m2
  | none => m

def parseFar (c : Cmd) : FarCfg :=
  let fl := c.b 1 1
  { txEn := bitOf fl 0, rxEn := bitOf fl 1, prp := bitOf fl 2, tsRec := bitOf fl 3, ports := c.b 2 1, count := c.b 3 1, linkId := c.b 4 4, dest := c.b 8 6
    interval := c.b 14 2, lossMs := c.b 16 2, ageLimit := c.b 18 1, vlan := c.b 20 2
    sources := (List.range 32).map fun j => c.b (48 + 4 * j) 4 % 2 ^ 20, formats := (List.range 32).map fun j => c.b (176 + j) 1 }

def chkFarConfig (c : Cmd) : Option Nat :=
  let g := parseFar c
  if c.b 19 1 ≠ 0 ∨ !c.bufZero 24 24 ∨ !c.bufZero 208 96 ∨ 16 ≤ c.b 1 1 ∨ 4 ≤ c.b 2 1 ∨ bitsOf g.vlan 12 1 ≠ 0 ∨ c.b 22 2 ≠ 0
      ∨ ((List.range 32).any fun j => decide (2 ^ 20 ≤ c.b (48 + 4 * j) 4)) then some stMALFORMED
  else if 3 < c.b 0 1 ∨ g.ports = 0 ∨ g.count < 1 ∨ 32 < g.count ∨ g.interval < 1 ∨ g.lossMs < 1 ∨ 60000 < g.lossMs
      ∨ (g.rxEn ∧ (g.formats.take g.count).any fun f => (fmtOfCode f).isNone) then some stLIMIT
  else none

/-- Slots of a channel that ports of the committed graph read. -/
def farReads (m : Mach) (ch : Nat) : List Nat :=
  match m.loop.graph with
  | some g => (g.blocks.flatMap fun b => b.ins.filterMap fun p =>
      if !p.none && decide (farBase ch + 0x10 ≤ p.index) && decide (p.index < farBase ch + 0x30) then some (p.index - farBase ch - 0x10) else none)
  | none => []

def effFarConfig (c : Cmd) (m : Mach) : Mach × Eff :=
  let g := parseFar c
  let ch := c.b 0 1
  if (farReads m ch).any fun s => decide (farFormat (m.farCh ch).cfg s ≠ farFormat (some g) s) then reject stSTATE m
  else okDone (m.setFar ch { farInit with cfg := some g, state := if g.rxEn then 1 else 0 })

def chkFarSend (c : Cmd) : Option Nat := if c.b 0 1 ≤ 3 ∧ c.b 1 3 = 0 then none else some stMALFORMED

def effFarSend (c : Cmd) (m : Mach) : Mach × Eff :=
  let ch := c.b 0 1
  match (m.farCh ch).cfg with
  | some g =>
    if g.txEn then
      let m1 := { m with net := { m.net with timed := m.net.timed ++ [⟨c.ring, c.seq, g.ports, 0, false, false, none, none⟩] } }
      (farQueue ch 2 0 ((c.buf.take c.len).drop 4) (some (c.ring, c.seq)) m1, .hold)
    else reject stSTATE m
  | none => reject stSTATE m

/-! ### Boundary and intake -/

/-- What the networks do at a boundary: late telegrams count for this period, GOOSE departs, timestamps are drained. -/
def netBoundary (m : Mach) : Mach :=
  let far := m.net.far.map fun x => if x.lateData.isSome then { x with data := x.lateData, lateData := none } else x
  drainStamps (gooseBoundary { m with net := { m.net with far := far } })

/-- Received values at the intake. -/
def netIntake (m : Mach) : Mach := (List.range 4).foldl farIntake ((List.range 128).foldl gooseSubIntake m)

/-- What the snapshot of the intake gives to be sent. -/
def netSnapshot (m : Mach) : Mach := farTx ((List.range 32).foldl goosePubIntake m)

/-- A link goes down or returns (R340). -/
def linkChange (port : Nat) (up : Bool) (m : Mach) : Mach :=
  let x := m.ethPort port
  if 1 < port || x.link == up then m
  else
    let m1 := m.setEthPort port { x with link := up }
    if up then m1.post 0x0709 [] else (m1.raise F.ethStatusLinkLost).post 0x0708 []

/-! ### The rows -/

def infoGoosePublish : CmdInfo := ⟨0x0701, .buffer, false, (· == 480), runConfig, fun c _ => chkGoosePublish c⟩
def infoGooseSubscribe : CmdInfo := ⟨0x0702, .buffer, false, (· == 480), runConfig, fun c _ => chkGooseSubscribe c⟩
def infoGooseUnsubscribe : CmdInfo := ⟨0x0703, .inline, false, fun _ => true, runConfig, fun c _ => chkGooseUnsubscribe c⟩
def infoEthTimedTx : CmdInfo := ⟨0x0704, .buffer, false, fun n => decide (76 ≤ n) && decide (n ≤ 1530), runConfig, fun c _ => chkEthTimedTx c⟩
def infoFarConfig : CmdInfo := ⟨0x0705, .buffer, false, (· == 304), [.ready], fun c _ => chkFarConfig c⟩
def infoFarSend : CmdInfo := ⟨0x0706, .buffer, true, fun n => decide (5 ≤ n) && decide (n ≤ 1028), runConfig, fun c _ => chkFarSend c⟩

def execGoosePublish (d : Desc) (s : State) : Host.Outcome State Fault Refusal := .next (s.run (hostCommand infoGoosePublish effGoosePublish d))
def execGooseSubscribe (d : Desc) (s : State) : Host.Outcome State Fault Refusal := .next (s.run (hostCommand infoGooseSubscribe effGooseSubscribe d))
def execGooseUnsubscribe (d : Desc) (s : State) : Host.Outcome State Fault Refusal := .next (s.run (hostCommand infoGooseUnsubscribe effGooseUnsubscribe d))
def execEthTimedTx (d : Desc) (s : State) : Host.Outcome State Fault Refusal := .next (s.run (hostCommand infoEthTimedTx effEthTimedTx d))
def execFarConfig (d : Desc) (s : State) : Host.Outcome State Fault Refusal := .next (s.run (hostCommand infoFarConfig effFarConfig d))
def execFarSend (d : Desc) (s : State) : Host.Outcome State Fault Refusal := .next (s.run (hostCommand infoFarSend effFarSend d))

/-- A meaning of the networks, which work from READY on. -/
def whenWorking (f : Mach → Mach) (m : Mach) : Mach := if m.working then f m else m

def execEthLinkChange (port : Nat) (up : Bool) (s : State) : Host.Outcome State Fault Refusal := .next (s.run (whenWorking (linkChange port up)))
def execEthUnknownFrame (rx : RxPort) (s : State) : Host.Outcome State Fault Refusal :=
  .next (s.run (whenWorking fun m => if portTakes m rx.port rx.dest then m.bump (F.ethCountRxUnknown rx.port) 1 else m))
def execEthBadFrame (port : Nat) (s : State) : Host.Outcome State Fault Refusal :=
  .next (s.run (whenWorking fun m => if portEn m port then m.bump (F.ethCountRxBad port) 1 else m))
def execEthFrameDeparture (port stamp : Nat) (busy inBuffer : Bool) (s : State) : Host.Outcome State Fault Refusal :=
  .next (s.run (whenAlive fun m => if portEn m port then frameLeaves port stamp busy inBuffer m else m))
def execGooseFrame (f : GooseFrame) (s : State) : Host.Outcome State Fault Refusal := .next (s.run (whenWorking (gooseRx f)))
def execGooseRetransmit (due : BlockAt) (s : State) : Host.Outcome State Fault Refusal := .next (s.run (whenWorking (gooseRetransmit due.block due.at_)))
def execGooseTalExpiry (block : Nat) (s : State) : Host.Outcome State Fault Refusal :=
  .next (s.run (whenWorking fun m => if block < 32 then m else gooseLost (block - 32) m))
def execPrpSupervisionFrame (rx : RxPort) (src : Nat) (s : State) : Host.Outcome State Fault Refusal := .next (s.run (whenWorking (prpSupRx rx.port rx.dest src)))
def execPrpSupervisionTx (s : State) : Host.Outcome State Fault Refusal := .next (s.run (whenWorking prpSupTx))
def execPrpNodeForget (src : Nat) (s : State) : Host.Outcome State Fault Refusal := .next (s.run (whenWorking (prpForget src)))
def execFarTelegram (rx : RxPort) (src : Nat) (rct : Option Nat) (bytes : List Byte) (at_ : Nat) (s : State) : Host.Outcome State Fault Refusal :=
  .next (s.run (whenWorking (farRx rx.port rx.dest src rct bytes at_)))
def execFarLossTimeout (ch : Nat) (s : State) : Host.Outcome State Fault Refusal := .next (s.run (whenWorking (farLost ch)))

end Sys2Proof.Machine
end

