-- ==== Sys2Proof/Machine/Can.lean ====
section
/-! DEFINITION. Machine/Can.lean: the CAN FD channels (R354–R365, R367, R368). -/
set_option Elab.async false
namespace Sys2Proof.Machine

def Mach.canCh (m : Mach) (ch : Nat) : CanCh := m.net.can.getD ch canInit

def Mach.setCan (m : Mach) (ch : Nat) (x : CanCh) : Mach := { m with net := { m.net with can := setAt m.net.can ch x } }

/-- First entry of channel `ch` (R360). -/
def canBase (ch : Nat) : Nat := 0xD8000 + 0x2000 * ch

/-- The channel sends: normal mode, not bus-off, in the unit that drives local outputs (R354, R363). -/
def canSends (m : Mach) (x : CanCh) : Bool :=
  (match x.cfg with | some g => g.mode == 1 | none => false) && decide (x.state ≤ 1) && !x.listen && netDrives m && !m.inState [.safe]

/-- The channel is in listen-only mode: by its own mode, or as the controller of the unit that does not drive the local outputs (R354). -/
def canListens (m : Mach) (x : CanCh) : Bool := x.listen || !netDrives m

/-- CnTX stays recessive: no acknowledge, no error flag (R354, R476). -/
def canMute (m : Mach) (x : CanCh) : Bool := canListens m x || m.inState [.safe]

/-- Identifier of an identifier word. -/
def canId (w : Nat) : Nat := w % 2 ^ 29

/-! ### Error counters (R357) -/

/-- Error state of the counters as ISO 11898-1 gives it (PRESUMED): passive above 127, bus-off above 255. -/
def canStateOf (x : CanCh) : Nat := if x.state = 3 then 3 else if 255 < x.txErr then 2 else if 127 < x.txErr ∨ 127 < x.rxErr then 1 else 0

/-- The state that the counters give entered, with its event. -/
def canSettle (ch : Nat) (m : Mach) : Mach :=
  let x := m.canCh ch
  let s := canStateOf x
  if s = x.state ∨ x.state = 2 then m
  else
    let m1 := m.setCan ch { x with state := s }
    if s = 1 then m1.post 0x070C [] else if s = 2 then (m1.raise F.canStatusBusOff).post 0x070D [] else m1

/-! ### Transmission (R361, R363) -/

/-- The next EXCLUSIVE instant after an instant, in ns from the start of the present basic cycle. -/
def nextExclusive (s : CanSched) (cycle : Nat) (pos : Int) : Option Int :=
  ((List.range (s.cycles + 1)).flatMap fun d => s.entries.filterMap fun e =>
    let t : Int := (1000 * (d * s.len + e.ofs) : Nat)
    if e.kind = 1 ∧ bitOf e.cycleMask ((cycle + d) % max s.cycles 1) ∧ pos < t then some t else none).foldl
      (fun (a : Option Int) t => match a with | some b => some (min b t) | none => some t) none

/-- A queued frame may be started at an instant: no schedule, or an ARBITRATING window with GUARD left. -/
def mayArbitrate (x : CanCh) (at_ : Nat) : Bool :=
  match x.sched with
  | none => true
  | some s => x.window && (match nextExclusive s x.cycle ((at_ : Int) - x.base) with
      | some t => decide ((1000 * s.guardUs : Nat) ≤ t - ((at_ : Int) - x.base))
      | none => true)

/-- The queued frame of the lowest identifier. -/
def lowestFrame (q : List CanTx) : Option CanTx :=
  q.foldl (fun a t => match a with | none => some t | some b => if canId t.idWord < canId b.idWord then some t else a) none

/-- Data of template `t` as of the latest snapshot. -/
def tplFrame (x : CanCh) (t : Nat) : Option (Nat × List Byte) :=
  match x.sched with
  | some s => (s.templates[t]?).map fun p => (p.idWord, (x.tplData.getD t []).take p.len)
  | none => none

/-- A frame put on the bus: an FD frame of an error-passive channel carries ESI (R355). -/
def canPut (ch : Nat) (w : Nat) (d : List Byte) (m : Mach) : Mach := m.send (.can ch w (bitOf w 30 && (m.canCh ch).state == 1) d)

/-- The bus is idle: the EXCLUSIVE frame that waits is started, else a queued frame where the channel may (R361, R363). The bus is taken as idle whenever no frame of the channel is under way (DESIGN CHOICE). -/
def canStart (ch at_ : Nat) (m : Mach) : Mach :=
  let x := m.canCh ch
  if !canSends m x || siphonLost m (18 + ch) || x.busy then m
  else match x.exclWait.bind fun t => (tplFrame x t).map fun f => (t, f) with
    | some (t, f) => canPut ch f.1 f.2 (m.setCan ch { x with exclusive := some t, exclOver := false, exclWait := none, missRun := false })
    | none =>
      if !mayArbitrate x at_ then m
      else match lowestFrame x.txq with
        | some f => canPut ch f.idWord f.data (m.setCan ch { x with txq := x.txq.map fun g => if g = f then { g with started := true } else g })
        | none => m

/-- A frame of CAN_TX ends with an outcome for its command and for every CAN_CANCEL that waits on it (R364). -/
def canFinish (ch : Nat) (f : CanTx) (r : Fin) (c : Fin) (m : Mach) : Mach :=
  let x := m.canCh ch
  f.cancel.foldl (fun m q => completeLater q.1 q.2 c m) (completeLater f.ring f.seq r (m.setCan ch { x with txq := x.txq.erase f }))

/-- The frame under way is acknowledged (R363). -/
def canAck (ch retrans sof at_ : Nat) (m : Mach) : Mach :=
  let x := m.canCh ch
  if !x.busy then m
  else
    let m1 := (m.setCan ch { x with txErr := x.txErr - 1 }).setF (F.canCountTxOk ch) ((m.reg.raw (F.canCountTxOk ch) + 1) % 65536)
    let m2 := canSettle ch m1
    let y := m2.canCh ch
    if y.exclusive.isSome then canStart ch at_ (m2.setCan ch { y with exclusive := none })
    else match y.txq.find? CanTx.started with
      | some f => canStart ch at_ (canFinish ch f ⟨stDONE, retrans, sof, 0, []⟩ ⟨stDONEEMPTY, 1, 0, 0, []⟩ m2)
      | none => m2

/-- The frame under way loses arbitration or meets an error: it is sent again, unless it is cancelled (R361, R364). -/
def canRetry (ch at_ : Nat) (m : Mach) : Mach :=
  let x := m.canCh ch
  match x.exclusive with
  | some t =>
    if x.exclOver then canStart ch at_ (m.setCan ch { x with exclusive := none })
    else (match tplFrame x t with
     | some f => if canSends m x then canPut ch f.1 f.2 m else m
     | none => m)
  | none =>
    match x.txq.find? CanTx.started with
    | some f =>
      if !f.cancel.isEmpty then canStart ch at_ (canFinish ch f (fin stSUPERSEDED) (fin stDONE) m)
      else canStart ch at_ (m.setCan ch { x with txq := x.txq.map fun g => if g = f then { g with started := false } else g })
    | none => m

/-- A trial of CAN_AUTOBAUD fails: the count restarts, or a BRS frame makes the next data set be tried (R365). -/
def autoError (x : CanCh) (a : CanAuto) (brs : Bool) : CanCh :=
  { x with auto := some (if !a.found then { a with good := 0 } else if brs then { a with dataIdx := (a.dataIdx + 1) % max a.data.length 1 } else a) }

/-- The counters after an error (R357): the steps ISO 11898-1 gives (PRESUMED), and those of its exceptions where one applies. -/
def canCount (ch at_ : Nat) (tx collision : Bool) (x : CanCh) : CanCh :=
  let odd := Config.canException ch at_
  if tx then (if x.state = 1 ∧ collision = false ∧ odd then x else { x with txErr := x.txErr + 8 })
  else { x with rxErr := min (x.rxErr + if odd then 8 else 1) 255 }

/-- A bit error (R357, R358): as transmitter lost arbitration where `arb`, a collision where `collision`. -/
def canBitError (ch : Nat) (tx : Bool) (idWord bitPos at_ : Nat) (arb collision : Bool) (m : Mach) : Mach :=
  let x := m.canCh ch
  if 1 < ch || 2 ≤ x.state then m
  else match x.auto with
    | some a => m.setCan ch (autoError x a (bitOf idWord 31))
    | none =>
      if canMute m x then m
      else if tx && arb then canRetry ch at_ m
      else
        let m1 := ((m.setCan ch (canCount ch at_ tx collision x)).send (.canError ch)).bump (F.canErrErrFrames ch) 1
        let m2 := if tx && collision then ((m1.raise F.canStatusCollision).bump (F.canErrCollisions ch) 1).post 0x070B [ch, canId idWord, bitPos] else m1
        let m3 := canSettle ch m2
        if tx then canRetry ch at_ m3 else m3

/-- Recovery from bus-off (R357). -/
def canRecover (ch at_ : Nat) (m : Mach) : Mach :=
  let x := m.canCh ch
  if x.state = 2 ∧ m.flag (if ch = 0 then F.canCtrlAutoRecover0 else F.canCtrlAutoRecover1) then
    canStart ch at_ ((m.setCan ch { x with state := 0, txErr := 0, rxErr := 0 }).post 0x070E [])
  else m

/-! ### Reception (R359, R365) -/

/-- Filter match (R359). -/
def filterHits (f : CanFrame) (x : CanFilter) : Bool :=
  x.enable && (canId f.idWord ^^^ x.id) &&& x.mask == 0 && bitOf f.idWord 29 == x.ide

/-- Records of a channel that wait for ring 2 are posted in order as far as there is room. -/
def drainHold (ch : Nat) : List CanFrame → Mach → Mach
  | [], m => m.setCan ch { m.canCh ch with hold := [], dropRun := false }
  | f :: t, m =>
    let box := match (m.canCh ch).cfg with | some g => (g.filters.findIdx? (filterHits f)).getD 64 | none => 64
    let r := postRec 2 0x0710 (Config.unstatedArg 0x0710 ch)
      ((Config.recordData 0x0710 ([ch, box, f.idWord, b2n f.esi, f.sof] ++ f.data.map BitVec.toNat)).take 256) m
    if (m.recRing 2).queue.isEmpty && (r.recRing 2).queue.isEmpty then drainHold ch t r else m.setCan ch { m.canCh ch with hold := f :: t }

/-- A frame for record ring 2: 64 of a channel wait, further ones are dropped (R359). -/
def recordFrame (ch : Nat) (f : CanFrame) (m : Mach) : Mach :=
  let x := m.canCh ch
  if x.hold.length < 64 then drainHold ch (x.hold ++ [f]) m
  else
    let m1 := (m.raise F.canStatusRxDrop).bump (F.canCountRxDrop ch) 1
    let m2 := if x.dropRun then m1 else m1.post 0x0713 []
    m2.setCan ch { m2.canCh ch with dropRun := true }

/-- A frame without error counts for CAN_AUTOBAUD. A nominal set found leaves the data timing as it was until a data set is found. -/
def autoFrame (ch : Nat) (f : CanFrame) (m : Mach) : Mach :=
  let x := m.canCh ch
  match x.auto with
  | none => m
  | some a =>
    if !a.found then
      let data := fun (n : CanTiming) => match x.timing.or (x.cfg.map CanCfg.timing) with
        | some o => { n with dbrp := o.dbrp, dtseg1 := o.dtseg1, dtseg2 := o.dtseg2, dsjw := o.dsjw, tdco := o.tdco }
        | none => n
      m.setCan ch { x with auto := some { a with good := a.good + 1, found := decide (3 ≤ a.good + 1) }
                           timing := if 3 ≤ a.good + 1 then (a.nominal[a.idx]?).map data else x.timing }
    else if bitOf f.idWord 31 && !a.data.isEmpty then
      let d := a.data.getD a.dataIdx ⟨0, 0, 0, 0, 0, 0, 0, 0, 0⟩
      let t := x.timing.map fun n => { n with dbrp := d.dbrp, dtseg1 := d.dtseg1, dtseg2 := d.dtseg2, dsjw := d.dsjw, tdco := d.tdco }
      completeLater a.ring a.seq ⟨stDONE, a.dataIdx, a.idx, 0, []⟩ (m.setCan ch { x with auto := none, timing := t })
    else m

/-- The lowest-numbered mailbox that takes a frame. -/
def boxFor (x : CanCh) (f : CanFrame) : Option Nat := match x.cfg with | some g => g.filters.findIdx? (filterHits f) | none => none

/-- A frame of another node has ended: an EXCLUSIVE frame that waits for the bus is started (R361). -/
def canIdle (ch : Nat) (m : Mach) : Mach := if (m.canCh ch).exclWait.isSome then canStart ch 0 m else m

/-- A frame received without error (R355, R359). -/
def canRx (ch : Nat) (f : CanFrame) (m : Mach) : Mach :=
  let x := m.canCh ch
  if 1 < ch || 2 ≤ x.state || siphonLost m (16 + ch) then m
  else
    let m1 := autoFrame ch f (m.setF (F.canCountRxOk ch) ((m.reg.raw (F.canCountRxOk ch) + 1) % 65536))
    let y := m1.canCh ch
    let m2 := canSettle ch (if canMute m1 y then m1 else m1.setCan ch { y with rxErr := if 127 < y.rxErr then 127 else y.rxErr - 1 })
    let z := m2.canCh ch
    canIdle ch <| if f.remote then m2
    else match boxFor z f with
      | some b =>
        let o := z.boxes.getD b mailboxInit
        let n : Mailbox := { frame := some f, overwrite := if o.frame.isSome then incSat 8 o.overwrite 1 else o.overwrite, count := o.count + 1, everRx := true, silent := false }
        let m3 := m2.setCan ch { z with boxes := setAt z.boxes b n }
        let m4 := if o.silent then m3.post 0x0712 [] else m3
        if (match z.cfg with | some g => (g.filters.getD b ⟨0, false, false, 0, false⟩).record | none => false) then recordFrame ch f m4 else m4
      | none => if (match z.cfg with | some g => g.rxAll | none => false) then recordFrame ch f m2 else m2

/-! ### The intake (R359, R360) -/

/-- Word `w` of a frame's data. -/
def dataWord (d : List Byte) (w : Nat) : Nat := fieldLE d (4 * w) 4

/-- A mailbox whose entries have first reached AGE_LIMIT is silent (R360). -/
def boxSilent (ch : Nat) (limit : Nat) (m : Mach) (b : Nat) : Mach :=
  let x := m.canCh ch
  let o := x.boxes.getD b mailboxInit
  if o.everRx && !o.silent && decide (limit ≤ (m.g (canBase ch + 0x100 + 0x20 * b)).age.toNat) then
    (m.setCan ch { x with boxes := setAt x.boxes b { o with silent := true } }).post 0x0711 [b]
  else m

/-- A mailbox written to its entries. -/
def boxIntake (ch : Nat) (m : Mach) (b : Nat) : Mach :=
  let x := m.canCh ch
  let o := x.boxes.getD b mailboxInit
  let e := canBase ch + 0x100 + 0x20 * b
  let src := 8 + ch
  match o.frame with
  | some f =>
    let m1 := m.setCan ch { x with boxes := setAt x.boxes b { o with frame := none } }
    let info := f.data.length + 128 * b2n f.esi + 256 * o.overwrite + 65536 * (o.count % 65536)
    let m2 := ((m1.produceValid e f.idWord src).produceValid (e + 1) info src).produceValid (e + 2) f.sof src
    (List.range 16).foldl (fun m w => m.produceValid (e + 0x10 + w) (dataWord f.data w) src) m2
  | none => m

/-- A channel at the intake. -/
def canIntake (m : Mach) (ch : Nat) : Mach :=
  let x := m.canCh ch
  let m1 := m.produceValid (canBase ch) (x.state + 4 * b2n (canListens m x) + 256 * min x.txErr 255 + 65536 * min x.rxErr 255) (8 + ch)
  if x.cfg.isSome then (List.range 64).foldl (boxIntake ch) m1 else m1

/-- Template data of the snapshot, mailboxes that have gone silent, and frames that may start. -/
def canSnapshot (m0 : Mach) (ch : Nat) : Mach :=
  let m := match (m0.canCh ch).cfg with
    | some g => (List.range 64).foldl (boxSilent ch g.ageLimit) m0
    | none => m0
  let x := m.canCh ch
  let data := fun (s : Option CanSched) => match s with
    | some s => s.templates.map fun t => t.indices.flatMap fun i => leBytes 4 (m.gv i).toNat
    | none => []
  canStart ch (intakeAt m) (m.setCan ch { x with tplData := data x.sched, tplNext := data (x.schedNext.map Prod.fst) })

/-- The next boundary after a schedule took effect (R362). -/
def canBoundary (m : Mach) (ch : Nat) : Mach :=
  let x := m.canCh ch
  match x.schedDone with
  | some (r, s) => completeLater r s (fin stDONE) (m.setCan ch { x with schedDone := none })
  | none => m

/-! ### The schedule matrix (R361, R362) -/

/-- Ns from ANCHOR to an instant. -/
def fromAnchor (m : Mach) (at_ : Nat) : Int := (at_ : Int) - m.tb.anchor

/-- An EXCLUSIVE window ends: a frame not started by then is missed, and one under way is not sent again (R361). -/
def slotEnds (ch : Nat) (m : Mach) : Mach :=
  let x := m.canCh ch
  if x.exclWait.isSome then
    let m1 := ((m.setCan ch { x with exclWait := none, exclOver := true, missRun := true }).raise F.canStatusSlotMiss).bump (F.canCountSlotMissed ch) 1
    if x.missRun then m1 else m1.post 0x070F []
  else m.setCan ch { x with exclOver := true }

/-- The next basic cycle of the schedule in force. -/
def nextCycle (ch at_ : Nat) (m : Mach) : Mach :=
  let t := fromAnchor m at_
  match (m.canCh ch).sched with
  | some o =>
    if t % ((1000 * o.len : Nat) : Int) = 0 then
      let m1 := slotEnds ch m
      m1.setCan ch { m1.canCh ch with base := at_, cycle := ((t / ((1000 * o.len : Nat) : Int)) % (o.cycles : Int)).toNat, window := false }
    else m
  | none => m

/-- A basic cycle starts at an instant of the grid (R361, R362). -/
def cycleStart (ch at_ : Nat) (m : Mach) : Mach :=
  match (m.canCh ch).schedNext with
  | some (s, r, q) =>
    if fromAnchor m at_ % ((1000 * s.len * s.cycles : Nat) : Int) = 0 then
      let m1 := slotEnds ch m
      let x := m1.canCh ch
      canStart ch at_ (m1.setCan ch { x with sched := some s, schedNext := none, schedDone := some (r, q), base := at_, cycle := 0, window := false
                                             checks := List.replicate 64 (none, false), tplData := x.tplNext, tplNext := [] })
    else nextCycle ch at_ m
  | none => nextCycle ch at_ m

/-- RX_CHECK of entry `i` on mailbox `b`. -/
def rxCheck (ch i b : Nat) (m : Mach) : Mach :=
  let x := m.canCh ch
  let n := (x.boxes.getD b mailboxInit).count
  let o := x.checks.getD i (none, false)
  let miss := o.1 == some n
  let m1 := m.setCan ch { x with checks := setAt x.checks i (some n, miss) }
  if miss && !o.2 then m1.post 0x0710 [b] else m1

/-- The instant of an entry of the schedule in force; `idle` says whether the bus is idle. An EXCLUSIVE frame that finds it busy is started at the next bus idle: as a frame of the bus ends (R361). -/
def scheduleEntry (ch i at_ : Nat) (idle : Bool) (m : Mach) : Mach :=
  let x := m.canCh ch
  match x.sched.bind fun s => s.entries[i]? with
  | none => m
  | some e =>
    if (at_ : Int) - x.base ≠ (1000 * e.ofs : Nat) ∨ !bitOf e.cycleMask x.cycle then m
    else
      let m1 := slotEnds ch m
      let x1 := m1.canCh ch
      if e.kind = 1 then
        (let m2 := m1.setCan ch { x1 with window := false, exclWait := some e.which }
         if idle then canStart ch at_ m2 else m2)
      else if e.kind = 2 then canStart ch at_ (m1.setCan ch { x1 with window := true })
      else rxCheck ch i e.which m1

/-! ### Commands (R356, R362–R365, R368) -/

/-- Nominal timing in range and not above 1 Mbit/s (R356). -/
def nominalOk (t : CanTiming) : Bool :=
  decide (1 ≤ t.nbrp) && decide (t.nbrp ≤ 32) && decide (2 ≤ t.ntseg1) && decide (t.ntseg1 ≤ 256) && decide (1 ≤ t.ntseg2) && decide (t.ntseg2 ≤ 128)
    && decide (1 ≤ t.nsjw) && decide (t.nsjw ≤ t.ntseg2) && decide (80 ≤ t.nbrp * (1 + t.ntseg1 + t.ntseg2))

/-- Data timing in range and not above 8 Mbit/s (R356). -/
def dataOk (t : CanTiming) : Bool :=
  decide (1 ≤ t.dbrp) && decide (t.dbrp ≤ 32) && decide (1 ≤ t.dtseg1) && decide (t.dtseg1 ≤ 32) && decide (1 ≤ t.dtseg2) && decide (t.dtseg2 ≤ 16)
    && decide (1 ≤ t.dsjw) && decide (t.dsjw ≤ t.dtseg2) && decide (10 ≤ t.dbrp * (1 + t.dtseg1 + t.dtseg2))

def parseFilter (c : Cmd) (j : Nat) : CanFilter :=
  let a := c.b (32 + 8 * j) 4
  let b := c.b (36 + 8 * j) 4
  ⟨a % 2 ^ 29, bitOf a 29, bitOf a 31, b % 2 ^ 29, bitOf b 31⟩

def parseCan (c : Cmd) : CanCfg :=
  { mode := c.b 1 1, fdEn := bitOf (c.b 2 1) 0, rxAll := bitOf (c.b 2 1) 1, ageLimit := c.b 3 1
    timing := ⟨c.b 4 1, c.b 5 1, c.b 6 2, c.b 8 1, c.b 9 1, c.b 10 1, c.b 11 1, c.b 12 1, c.b 13 1⟩
    filters := (List.range 64).map (parseFilter c) }

def chkCanConfig (c : Cmd) : Option Nat :=
  let g := parseCan c
  if 4 ≤ c.b 2 1 ∨ !c.bufZero 14 18 ∨ ((List.range 64).any fun j => bitOf (c.b (32 + 8 * j) 4) 30 || bitsOf (c.b (36 + 8 * j) 4) 29 2 != 0) then some stMALFORMED
  else if 1 < c.b 0 1 ∨ 2 < g.mode ∨ !nominalOk g.timing ∨ !dataOk g.timing then some stLIMIT
  else none

/-- Every queued frame ends SUPERSEDED. -/
def dropQueue (ch : Nat) (m : Mach) : Mach := (m.canCh ch).txq.foldl (fun m f => canFinish ch f (fin stSUPERSEDED) (fin stDONE) m) m

/-- The channel restarts; a CAN_AUTOBAUD under way ends SUPERSEDED (DESIGN CHOICE). -/
def effCanConfig (c : Cmd) (m : Mach) : Mach × Eff :=
  let ch := c.b 0 1
  let g := parseCan c
  let m1 := dropQueue ch m
  let m2 := match (m1.canCh ch).auto with | some a => completeLater a.ring a.seq (fin stSUPERSEDED) m1 | none => m1
  let x := m2.canCh ch
  okDone (m2.setCan ch { x with cfg := some g, timing := none, state := if g.mode = 0 then 3 else 0, listen := g.mode == 2, txErr := 0, rxErr := 0
                                boxes := List.replicate 64 mailboxInit, txq := [], exclusive := none, exclWait := none, auto := none })

/-- Timing sets of CAN_AUTOBAUD (R368). -/
def parseNominal (c : Cmd) (j : Nat) : CanTiming := ⟨c.b (16 + 8 * j) 1, c.b (17 + 8 * j) 1, c.b (18 + 8 * j) 2, c.b (20 + 8 * j) 1, 1, 1, 1, 1, 0⟩
def parseData (c : Cmd) (j : Nat) : CanTiming := ⟨1, 1, 2, 1, c.b (80 + 8 * j) 1, c.b (81 + 8 * j) 1, c.b (82 + 8 * j) 1, c.b (83 + 8 * j) 1, c.b (84 + 8 * j) 1⟩

def chkCanAutobaud (c : Cmd) : Option Nat :=
  let nn := c.b 1 1
  let nd := c.b 2 1
  if c.b 3 1 ≠ 0 ∨ !c.bufZero 8 8 ∨ ((List.range 16).any fun j => !c.bufZero (21 + 8 * j) 3) then some stMALFORMED
  else if 1 < c.b 0 1 ∨ nn < 1 ∨ 8 < nn ∨ 8 < nd ∨ c.b 4 2 < 1 ∨ 10000 < c.b 4 2 ∨ c.b 6 2 < 1 ∨ 60000 < c.b 6 2
      ∨ !((List.range nn).all fun j => nominalOk (parseNominal c j)) ∨ !((List.range nd).all fun j => dataOk (parseData c j)) then some stLIMIT
  else none

def effCanAutobaud (c : Cmd) (m : Mach) : Mach × Eff :=
  let ch := c.b 0 1
  let x := m.canCh ch
  let a : CanAuto := ⟨(List.range (c.b 1 1)).map (parseNominal c), (List.range (c.b 2 1)).map (parseData c), c.ring, c.seq, 0, 0, false, 0⟩
  let m1 := match x.auto with | some o => completeLater o.ring o.seq (fin stSUPERSEDED) m | none => m
  (m1.setCan ch { m1.canCh ch with auto := some a, listen := true, exclusive := none, exclWait := none, state := if x.state = 3 then 0 else x.state
                                   txq := x.txq.map fun f => { f with started := false } }, .hold)

/-- DWELL ms pass: the next nominal set, or the end at the found set without a BRS frame (R365). -/
def autoDwell (ch : Nat) (m : Mach) : Mach :=
  let x := m.canCh ch
  match x.auto with
  | none => m
  | some a =>
    if a.found then completeLater a.ring a.seq ⟨stDONE, 0xFF, a.idx, 0, []⟩ (m.setCan ch { x with auto := none })
    else m.setCan ch { x with auto := some { a with idx := (a.idx + 1) % max a.nominal.length 1, good := 0 } }

/-- TIMEOUT ms pass without a set (R365). -/
def autoTimeout (ch : Nat) (m : Mach) : Mach :=
  let x := m.canCh ch
  match x.auto with
  | some a => if a.found then m else completeLater a.ring a.seq (fin stDONEEMPTY) (m.setCan ch { x with auto := none })
  | none => m

def parseCanEntry (c : Cmd) (j : Nat) : CanEntry := ⟨c.b (16 + 16 * j) 1, c.b (17 + 16 * j) 1, c.b (20 + 16 * j) 4, c.b (24 + 16 * j) 8⟩

def parseTemplate (c : Cmd) (j : Nat) : CanTemplate :=
  let o := 0x410 + 72 * j
  ⟨c.b o 4, c.b (o + 4) 1, (List.range 16).map fun i => c.b (o + 8 + 4 * i) 4⟩

def parseSched (c : Cmd) : CanSched :=
  ⟨c.b 1 1, c.b 4 4, c.b 8 4, (List.range (c.b 12 1)).map (parseCanEntry c), (List.range 16).map (parseTemplate c)⟩

def canEntryOk (s : CanSched) (e : CanEntry) : Bool :=
  decide (1 ≤ e.kind) && decide (e.kind ≤ 3) && (if e.kind = 1 then decide (e.which ≤ 15) else if e.kind = 3 then decide (e.which ≤ 63) else true)
    && decide (e.ofs < s.len) && decide (e.cycleMask < 2 ^ s.cycles)

def chkCanSchedule (c : Cmd) : Option Nat :=
  let s := parseSched c
  if c.b 2 2 ≠ 0 ∨ c.b 13 3 ≠ 0 ∨ ((List.range 64).any fun j => c.b (18 + 16 * j) 2 != 0)
      ∨ ((List.range 16).any fun j => c.b (0x410 + 72 * j + 5) 3 != 0 || (parseTemplate c j).indices.any fun i => decide (2 ^ 20 ≤ i)) then some stMALFORMED
  else if 1 < c.b 0 1 ∨ s.cycles < 1 ∨ 64 < s.cycles ∨ s.len < 100 ∨ 1000000 < s.len ∨ 64 < s.entries.length ∨ !(s.entries.all (canEntryOk s))
      ∨ (s.templates.any fun t => decide (64 < t.len)) then some stLIMIT
  else none

def effCanSchedule (c : Cmd) (m : Mach) : Mach × Eff :=
  let ch := c.b 0 1
  let m1 := match (m.canCh ch).schedNext with | some (_, r, s) => completeLater r s (fin stSUPERSEDED) m | none => m
  (m1.setCan ch { m1.canCh ch with schedNext := some (parseSched c, c.ring, c.seq) }, .hold)

/-- The layout of CAN_TX, inline or in a buffer. -/
def txField (c : Cmd) (o n : Nat) : Nat := if c.ptr then c.b o n else c.f o n
def txData (c : Cmd) : List Byte := sliceBytes (if c.ptr then c.buf else c.pay) 8 (txField c 1 1)

/-- Data lengths that a DLC encodes. -/
def dlcOk (n : Nat) : Bool := decide (n ≤ 8) || [12, 16, 20, 24, 32, 48, 64].contains n

def chkCanTx (c : Cmd) : Option Nat :=
  let n := txField c 1 1
  let w := txField c 4 4
  if 1 < txField c 0 1 ∨ txField c 2 2 ≠ 0 ∨ (if c.ptr then 64 else 24) < n ∨ (c.ptr ∧ c.len < 8 + n) ∨ (!c.ptr ∧ (c.plen < 8 + n ∨ !c.zeroFrom (8 + n))) ∨ !dlcOk n
      ∨ (!bitOf w 30 ∧ 8 < n) ∨ (bitOf w 31 ∧ !bitOf w 30) then some stMALFORMED
  else none

def effCanTx (c : Cmd) (m : Mach) : Mach × Eff :=
  let ch := txField c 0 1
  let w := txField c 4 4
  let x := m.canCh ch
  match x.cfg with
  | some g =>
    if g.mode ≠ 1 ∨ x.listen ∨ (bitOf w 30 ∧ !g.fdEn) then reject stSTATE m
    else if 32 ≤ x.txq.length then (m, .wait)
    else (m.setCan ch { x with txq := x.txq ++ [⟨c.ring, c.seq, w, txData c, false, []⟩] }, .hold)
  | none => reject stSTATE m

def chkCanCancel (c : Cmd) : Option Nat := if c.f 0 1 ≤ 15 ∧ allZero (sliceBytes c.pay 1 7) ∧ c.zeroFrom 16 then none else some stMALFORMED

/-- CAN_CANCEL (R364); a CAN_TX that waits for room in its queue counts as queued. -/
def effCanCancel (c : Cmd) (m : Mach) : Mach × Eff :=
  let r := c.f 0 1
  let s := c.f 8 8
  match (List.range 2).findSome? fun ch => ((m.canCh ch).txq.find? fun f => f.ring == r && f.seq == s).map fun f => (ch, f) with
  | some (ch, f) =>
    if f.started then
      (let x := m.canCh ch
       (m.setCan ch { x with txq := x.txq.map fun g => if g = f then { g with cancel := g.cancel ++ [(c.ring, c.seq)] } else g }, .hold))
    else okDone (canFinish ch f (fin stSUPERSEDED) (fin stDONE) m)
  | none =>
    match m.findCmd r s with
    | some p => if p.cmd.op = 0x0713 ∧ !p.inEffect then okDone (complete p.cmd (fin stSUPERSEDED) m) else okEmpty m
    | none => okEmpty m

/-! ### The rows -/

def infoCanConfig : CmdInfo := ⟨0x0710, .buffer, false, (· == 544), runConfig, fun c _ => chkCanConfig c⟩
def infoCanAutobaud : CmdInfo := ⟨0x0711, .buffer, false, (· == 144), runConfig, fun c _ => chkCanAutobaud c⟩
def infoCanSchedule : CmdInfo := ⟨0x0712, .buffer, false, (· == 2192), runConfig, fun c _ => chkCanSchedule c⟩
def infoCanTx : CmdInfo := ⟨0x0713, .either, true, fun n => decide (8 ≤ n) && decide (n ≤ 72), runConfig, fun c _ => chkCanTx c⟩
def infoCanCancel : CmdInfo := ⟨0x0714, .inline, false, fun _ => true, runConfig, fun c _ => chkCanCancel c⟩

def execCanConfig (d : Desc) (s : State) : Host.Outcome State Fault Refusal := .next (s.run (hostCommand infoCanConfig effCanConfig d))
def execCanAutobaud (d : Desc) (s : State) : Host.Outcome State Fault Refusal := .next (s.run (hostCommand infoCanAutobaud effCanAutobaud d))
def execCanSchedule (d : Desc) (s : State) : Host.Outcome State Fault Refusal := .next (s.run (hostCommand infoCanSchedule effCanSchedule d))
def execCanTx (d : Desc) (s : State) : Host.Outcome State Fault Refusal := .next (s.run (hostCommand infoCanTx effCanTx d))
def execCanCancel (d : Desc) (s : State) : Host.Outcome State Fault Refusal := .next (s.run (hostCommand infoCanCancel effCanCancel d))

def execCanFrameReceived (ch : Nat) (f : CanFrame) (s : State) : Host.Outcome State Fault Refusal := .next (s.run (whenWorking (canRx ch f)))
def execCanTxAck (ch retrans sof at_ : Nat) (s : State) : Host.Outcome State Fault Refusal := .next (s.run (whenWorking (canAck ch retrans sof at_)))
def execCanBitError (ch : Nat) (tx : Bool) (idWord bitPos at_ : Nat) (arb collision : Bool) (s : State) : Host.Outcome State Fault Refusal :=
  .next (s.run (whenWorking (canBitError ch tx idWord bitPos at_ arb collision)))
def execCanBusRecovery (ch : Nat) (s : State) : Host.Outcome State Fault Refusal := .next (s.run (whenWorking fun m => canRecover ch m.now m))
def execCanScheduleEntry (ch entry at_ : Nat) (idle : Bool) (s : State) : Host.Outcome State Fault Refusal :=
  .next (s.run (whenWorking (scheduleEntry ch entry at_ idle)))
def execCanCycleStart (ch at_ : Nat) (s : State) : Host.Outcome State Fault Refusal := .next (s.run (whenWorking (cycleStart ch at_)))
def execCanAutobaudDwell (ch : Nat) (s : State) : Host.Outcome State Fault Refusal := .next (s.run (whenWorking (autoDwell ch)))
def execCanAutobaudTimeout (ch : Nat) (s : State) : Host.Outcome State Fault Refusal := .next (s.run (whenWorking (autoTimeout ch)))

end Sys2Proof.Machine
end

