-- ==== Sys2Proof/Machine/Pwm.lean ====
section
/-! DEFINITION. Machine/Pwm.lean: PWM carriers, dead time, trips, overrides and the Lantern drivers (R371–R389). -/
set_option Elab.async false
namespace Sys2Proof.Machine

def Mach.pwmCh (m : Mach) (n : Nat) : PwmCh := m.pwm.chans.getD n pwmChInit

def Mach.setPwm (m : Mach) (n : Nat) (c : PwmCh) : Mach := { m with pwm := { m.pwm with chans := setAt m.pwm.chans n c } }

def pwmEnabled (m : Mach) (n : Nat) : Bool := bitOf (m.fld F.pwmCtrlChEn) n

/-- A latched trip holds the outputs of channel `n`: of its driver where it drives one (R378, R382). -/
def tripped (m : Mach) (n : Nat) : Bool := bitOf (tripMask m (onLantern m n)) n

/-- Dead times of channel `n` in ticks; at least 320 for a Lantern channel (R375). -/
def deadTime (m : Mach) (n : Nat) (side : Side) : Nat :=
  let d := match side with | .high => m.fld (F.pwmDtDtH n) | .low => m.fld (F.pwmDtDtL n)
  if onLantern m n then max d 320 else d

/-- What a channel's reference or override asks of its two sides (R375, R376, R387). -/
def wanted (m : Mach) (n : Nat) (c : PwmCh) : Bool × Bool :=
  if !pwmEnabled m n || tripped m n then (false, false)
  else match c.forced with
    | some (h, l) => (h && !l, l && !h)
    | none => if c.resuming || c.startAt.isNone then (false, false) else (c.ref, !c.ref)

/-- A side brought to what is asked of it: it falls at once, and rises when its dead time has passed (R375). -/
def drive (want was dead level : Bool) (dt : Nat) : Bool × Bool :=
  if !want then (false, false) else if was then (dead, level) else if dt = 0 then (false, true) else (true, false)

/-- The dead time that a turn-on at an instant has before it: the side's own at an edge of the reference; under an override none once it has passed since the other side turned off (R375, R376). -/
def waitFor (c : PwmCh) (at_ : Nat) (other : Bool) (off dt : Nat) : Nat := if c.forced.isSome && !other && decide (off + dt ≤ at_) then 0 else dt

/-- The two sides of a channel follow, at an instant in ticks, what is asked of them; a refresh ends with the high side's turn (R384). -/
def follow (n at_ : Nat) (m : Mach) : Mach :=
  let c := m.pwmCh n
  let w := wanted m n c
  let a := drive w.1 c.wantH c.deadH c.h (waitFor c at_ c.l c.offL (deadTime m n .high))
  let b := drive w.2 c.wantL c.deadL c.l (waitFor c at_ c.h c.offH (deadTime m n .low))
  let m1 := m.setPwm n { c with wantH := w.1, wantL := w.2, deadH := a.1, h := a.2, deadL := b.1, l := b.2
                                offH := if c.h && !a.2 then at_ else c.offH, offL := if c.l && !b.2 then at_ else c.offL }
  if a.2 then m1 else { m1 with pwm := { m1.pwm with lan := modAt m1.pwm.lan n fun x => { x with refresh := .none } } }

/-! ### Carriers (R371–R377) -/

/-- Ticks of a carrier. -/
def carrierTicks (c : PwmCh) : Nat := c.per * 32

/-- PHASE as it acts: below the carrier's length (R371). -/
def carrierPhase (m : Mach) (n : Nat) : Nat := min (m.fld (F.pwmPhasePhase n)) (m.fld (F.pwmPerPer n) * 32 - 1)

/-- The boundary whose restart is the next: the first after the last restart's, PHASE after which has not gone by at the last boundary (R371). -/
def restartFor (m : Mach) (last : Option Nat) (phase : Nat) : Option (Nat × Nat) :=
  ((m.tb.k, m.now) :: m.tb.hist).reverse.find? fun b =>
    (match last with | some k => decide (k < b.1) | none => true) && decide (16 * m.now ≤ 16 * b.2 + phase)

/-- Start of a carrier, with the number of the boundary it is counted from: a restart, PHASE after a boundary; or the end of the carrier that runs. `none` where no carrier may start (R371). In ticks of device time. -/
def carrierAt (m : Mach) (n : Nat) (restart : Bool) : Option (Option Nat × Nat) :=
  let c := m.pwmCh n
  let phase := match c.startAt with | some _ => c.phase | none => carrierPhase m n
  let again := (restartFor m c.restartK phase).map fun b => (some b.1, 16 * b.2 + phase)
  if !pwmEnabled m n then none
  else match c.startAt, restart with
    | none, true => again
    | none, false => none
    | some s, false => some (c.restartK, s + carrierTicks c)
    | some _, true => if m.flag (F.pwmPerAlign n) then again else none

/-- The reload of a carrier start (R373). -/
def reload (m : Mach) (n : Nat) (c : PwmCh) : PwmCh :=
  let cmp := if m.flag (F.pwmSrcNone n) then m.fld (F.pwmCmpfixCmpFix n) else c.cmpShadow
  let tc := m.fld (F.pwmTrgTrgCmp n)
  let td := m.fld (F.pwmTrgTrgDiv n)
  { c with cmp := cmp, cmpShadow := cmp, per := m.fld (F.pwmPerPer n), phase := carrierPhase m n, trgCmp := tc, trgDiv := td
           carriers := if tc = c.trgCmp ∧ td = c.trgDiv then c.carriers + 1 else 1 }

/-- A carrier starts, cutting a running one short where it restarts before its end. -/
def carrierStart (n : Nat) (restart : Bool) (m : Mach) : Mach :=
  match carrierAt m n restart with
  | none => m
  | some (k, t) =>
    let c := m.pwmCh n
    let cut := restart && (match c.startAt with | some s => decide (t < s + carrierTicks c) | none => false)
    let m1 := if cut then m.raise F.pwmStatusCut else m
    let m2 := if cut && !c.cutRun then m1.post 0x0C07 [] else m1
    let d := reload m n c
    let acts := match c.pend with | some p => decide (p.1 < t / 32) | none => false
    let e := { d with startAt := some t, restartK := k, cutRun := if restart then cut else c.cutRun, ref := decide (0 < d.cmp), resuming := false
                      forced := if acts then c.pend.bind Prod.snd else c.forced, pend := if acts then none else c.pend }
    let lan := match m.pwm.lan[n]? with
      | some x => setAt m.pwm.lan n { x with uvHold := x.uvHold && !x.recovered, recovered := false }
      | none => m.pwm.lan
    follow n t { m2.setPwm n e with pwm := { (m2.setPwm n e).pwm with lan := lan } }

/-- The carrier reaches CMP (R372). -/
def compareMatch (n : Nat) (m : Mach) : Mach :=
  let c := m.pwmCh n
  match c.startAt with
  | some s => if carrierTicks c ≤ c.cmp then m else follow n (s + c.cmp) (m.setPwm n { c with ref := false })
  | none => m

/-- A dead time has passed: the side turns on (R375). -/
def deadOver (n : Nat) (side : Side) (m : Mach) : Mach :=
  let c := m.pwmCh n
  match side with
  | .high => if c.deadH then m.setPwm n { c with deadH := false, h := c.wantH } else m
  | .low => if c.deadL then m.setPwm n { c with deadL := false, l := c.wantL } else m

/-- The converter trigger of a channel (R377). -/
def pwmTrigger (n : Nat) (m : Mach) : Mach :=
  let c := m.pwmCh n
  match c.startAt with
  | some s =>
    if pwmEnabled m n && decide (0 < c.trgDiv) && decide (c.trgCmp < carrierTicks c) && decide (0 < c.carriers) && c.carriers % max c.trgDiv 1 == 0
    then triggerSlots (4 + n) ((s + c.trgCmp) / 16) m else m
  | none => m

/-- The duty of a channel moved to its shadow at a boundary (R374). -/
def dutyTransfer (m : Mach) (n : Nat) : Mach :=
  let c := m.pwmCh n
  if m.flag (F.pwmSrcNone n) then m.setPwm n { c with cmpShadow := m.fld (F.pwmCmpfixCmpFix n) }
  else
    let e := m.g (m.fld (F.pwmSrcIndex n))
    let d := e.value.toInt
    if !e.good then
      let m1 := (m.setPwm n { c with dutyBad := true }).raise F.pwmStatusDutyBad
      if c.dutyBad then m1 else m1.post 0x0C06 []
    else
      let full := m.fld (F.pwmPerPer n) * 32
      let v := if d < 0 then 0 else if 2 ^ 24 < d then full else (roundDiv (d * full) (2 ^ 24)).toNat
      let m1 := m.setPwm n { c with cmpShadow := v, dutyBad := false }
      if d < 0 ∨ 2 ^ 24 < d then m1.raise F.pwmStatusDutyClamp else m1

/-- PWM at a boundary: the events that wait for it, and the duties. -/
def pwmBoundary (m : Mach) : Mach :=
  let m1 := m.pwm.tripEv.foldl (fun m e => m.post 0x0C01 [e.1, e.2]) m
  let m2 := m.pwm.shortEv.foldl (fun m e => m.post 0x0C04 [e.1, e.2.1, e.2.2]) m1
  (List.range 12).foldl dutyTransfer { m2 with pwm := { m2.pwm with tripEv := [], shortEv := [] } }

/-- A channel after a write to the block at an instant in ticks: one that is not enabled has no carrier and no override, one that is starts at the next boundary; a trip's hold ends an override; the shadow is CMP_FIX while NONE is set (R371, R374, R378, R387). -/
def pwmChSync (n at_ : Nat) (m : Mach) : Mach :=
  let c := m.pwmCh n
  let c1 := if m.flag (F.pwmSrcNone n) then { c with cmpShadow := m.fld (F.pwmCmpfixCmpFix n) } else c
  let c2 :=
    if !pwmEnabled m n then { c1 with startAt := none, restartK := none, ref := false, forced := none, pend := none, carriers := 0 }
    else if tripped m n then { c1 with forced := none, pend := none } else c1
  follow n at_ (m.setPwm n (if pwmEnabled m n && c2.startAt.isNone && c2.restartK.isNone then { c2 with restartK := some m.tb.k } else c2))

/-- The channels after a write to the block, `ns` after the last boundary. -/
def pwmSync (ns : Nat) (m : Mach) : Mach := (List.range 12).foldl (fun m n => pwmChSync n (16 * (m.now + ns % max m.tb.p 1)) m) m

/-! ### Trips (R378–R381) -/

/-- The outputs that a trip holds are off, with their overrides and pending turn-ons cancelled. -/
def tripAct (at_ : Nat) (m : Mach) : Mach :=
  (List.range 12).foldl (fun m n => if tripped m n then follow n at_ (m.setPwm n { m.pwmCh n with forced := none, pend := none }) else m) m

/-- The first instant from the last boundary on whose nanoseconds are these, in ticks. -/
def ticksOfNs (m : Mach) (ns : Nat) : Nat := 16 * (m.now + (ns + 1000000000 - m.now % 1000000000) % 1000000000)

/-- An enabled input has been low for its filter time (R378). -/
def tripLatch (t ns : Nat) (m : Mach) : Mach :=
  if 7 < t || !bitOf (m.fld F.tripCfgTripEn) t then m
  else
    let m1 := { m with pwm := { m.pwm with active := m.pwm.active ||| 2 ^ t } }
    if bitOf m.pwm.latched t then m1
    else tripAct (ticksOfNs m ns) { m1 with pwm := { m1.pwm with latched := m1.pwm.latched ||| 2 ^ t, tripEv := m1.pwm.tripEv ++ [(t, ns)] } }

/-- A latched trip whose map has ZL set blocks every cut (R379). -/
def tripBlocks (m : Mach) : Bool := (List.range 8).any fun t => bitOf m.pwm.latched t && m.flag (F.tripMapZl t)

def chkTripClear (c : Cmd) : Option Nat := if c.zeroFrom 1 then none else some stMALFORMED

/-- Bits of `a` that are clear in `b`, of 8. -/
def without (a b : Nat) : Nat := maskOf 8 fun i => bitOf a i && !bitOf b i

def effTripClear (c : Cmd) (m : Mach) : Mach × Eff :=
  let mask := c.f 0 1
  if mask = 0 then okEmpty m
  else if mask &&& m.pwm.active ≠ 0 then reject stSTATE m
  else if mask &&& m.pwm.latched = 0 then okEmpty m
  else
    let m1 := { m with pwm := { m.pwm with latched := without m.pwm.latched mask } }
    let m2 := (List.range 12).foldl (fun a n => if tripped m n && !tripped m1 n then follow n (16 * intakeAt m) (a.setPwm n { a.pwmCh n with resuming := true }) else a) m1
    okDone (m2.post 0x0C02 [])

/-! ### Overrides (R376, R387) -/

def chkOutputOverride (c : Cmd) : Option Nat := if c.f 0 1 ≤ 11 ∧ c.f 1 1 ≤ 1 ∧ c.f 2 1 < 4 ∧ c.zeroFrom 3 then none else some stMALFORMED

/-- A reload of the channel is in the PW cycle of an instant in ticks: it has been, or is to come (R373). -/
def reloadIn (m : Mach) (n at_ : Nat) : Bool :=
  let starts := (m.pwmCh n).startAt.toList ++ ((carrierAt m n true).toList ++ (carrierAt m n false).toList).map Prod.snd
  starts.any fun t => t / 32 == at_ / 32

/-- The channel is forced, or is to be. -/
def PwmCh.overridden (x : PwmCh) : Bool := x.forced.isSome || x.pend.any fun p => p.2.isSome

/-- OUTPUT_OVERRIDE: a force acts at the intake, or at the next reload where one is in the intake's PW cycle; a release acts at the next carrier start (R373, R387). -/
def effOutputOverride (c : Cmd) (m : Mach) : Mach × Eff :=
  let n := c.f 0 1
  let x := m.pwmCh n
  let t := 16 * intakeAt m
  if !pwmEnabled m n || tripped m n || !mayDrive m then reject stSTATE m
  else if c.f 1 1 = 0 then
    (if !x.overridden then okEmpty m else okDone (m.setPwm n { x with pend := some (t / 32, none) }))
  else
    let h := bitOf (c.f 2 1) 0
    let l := bitOf (c.f 2 1) 1
    let m1 := if reloadIn m n t then m.setPwm n { x with pend := some (t / 32, some (h, l)) } else follow n t (m.setPwm n { x with forced := some (h, l), pend := none })
    if h && l then (((m1.raise F.pwmStatusShootBlock).post 0x0C03 [n]), .done ⟨stDONE, 1, 0, 0, []⟩) else okDone m1

/-! ### Lantern drivers (R382–R385) -/

/-- Bootstrap under-voltage of a driver, which watches its voltage whether LAN_EN names it or not (R383). -/
def bootUv (n : Nat) (m : Mach) : Mach :=
  match m.pwm.lan[n]? with
  | some x =>
    if x.uvHold && !x.recovered then m
    else
      let m1 := { m with pwm := { m.pwm with lan := setAt m.pwm.lan n ⟨true, false, .none⟩ } }
      (m1.setF F.lanStatusBootUv (putBits (m1.reg.raw F.lanStatusBootUv) n 1 1)).post 0x0C05 [n]
  | none => m

/-- The bootstrap voltage has risen above 8.0 V: the high side waits for the next carrier start. -/
def bootRecover (n : Nat) (m : Mach) : Mach :=
  match m.pwm.lan[n]? with
  | some x => { m with pwm := { m.pwm with lan := setAt m.pwm.lan n { x with recovered := x.uvHold } } }
  | none => m

/-- A refresh of a driver whose high side has been on for BOOT_HOLD: it begins, and goes on as DT_L, LS_MIN and DT_H pass (R384). -/
def bootRefresh (n : Nat) (m : Mach) : Mach :=
  let put := fun (r : Refresh) (m : Mach) => { m with pwm := { m.pwm with lan := modAt m.pwm.lan n fun x => { x with refresh := r } } }
  match (m.pwm.lan.getD n lanternInit).refresh with
  | .none => if lanLevel m .high n then put .before ((m.send (.refresh n (m.fld F.lanBootLsMin))).bump F.lanCountRefreshCnt 1) else m
  | .before => put .pulse m
  | .pulse => put .after m
  | .after => put .none m

/-- A short circuit sensed on a side that is on (R385). -/
def lanternShort (n : Nat) (side : Side) (ns : Nat) (m : Mach) : Mach :=
  if !lanLevel m side n then m
  else
    let f := match side with | .high => F.lanStatusScH | .low => F.lanStatusScL
    let m1 := (m.setF f (putBits (m.reg.raw f) n 1 1)).bump F.lanCountScCnt 1
    { m1 with pwm := { m1.pwm with shortEv := m1.pwm.shortEv ++ [(n, match side with | .high => 0 | .low => 1, ns)] } }

/-! ### The rows -/

def infoTripClear : CmdInfo := ⟨0x0910, .inline, false, fun _ => true, runAll, fun c _ => chkTripClear c⟩
def infoOutputOverride : CmdInfo := ⟨0x0911, .inline, true, fun _ => true, runConfig, fun c _ => chkOutputOverride c⟩

def execTripClear (d : Desc) (s : State) : Host.Outcome State Fault Refusal := .next (s.run (hostCommand infoTripClear effTripClear d))
def execOutputOverride (d : Desc) (s : State) : Host.Outcome State Fault Refusal := .next (s.run (hostCommand infoOutputOverride effOutputOverride d))

def execPwmCarrierStart (ch : Nat) (restart : Bool) (s : State) : Host.Outcome State Fault Refusal := .next (s.run (whenWorking (carrierStart ch restart)))
def execPwmCompareMatch (ch : Nat) (s : State) : Host.Outcome State Fault Refusal := .next (s.run (whenWorking (compareMatch ch)))
def execDeadTimeExpiry (ch : Nat) (side : Side) (s : State) : Host.Outcome State Fault Refusal := .next (s.run (whenWorking (deadOver ch side)))
def execPwmTrigger (ch : Nat) (s : State) : Host.Outcome State Fault Refusal := .next (s.run (whenWorking (pwmTrigger ch)))
def execTripLatch (t ns : Nat) (s : State) : Host.Outcome State Fault Refusal := .next (s.run (whenAlive (tripLatch t ns)))
def execBootUv (n : Nat) (s : State) : Host.Outcome State Fault Refusal := .next (s.run (whenWorking (bootUv n)))
def execBootUvRecover (n : Nat) (s : State) : Host.Outcome State Fault Refusal := .next (s.run (whenWorking (bootRecover n)))
def execBootstrapRefresh (n : Nat) (s : State) : Host.Outcome State Fault Refusal := .next (s.run (whenWorking (bootRefresh n)))
def execLanternShort (n : Nat) (side : Side) (ns : Nat) (s : State) : Host.Outcome State Fault Refusal := .next (s.run (whenWorking (lanternShort n side ns)))

end Sys2Proof.Machine
end

