-- ==== Sys2Proof/Machine/Personnel.lean ====
section
/-! DEFINITION. Machine/Personnel.lean: the personnel safety subsystem: inputs, safe outputs, telegrams and their commands (R390–R416). -/
set_option Elab.async false
namespace Sys2Proof.Machine

def Mach.safeIn (m : Mach) (i : Nat) : SafeIn := m.safety.ins.getD i safeInInit
def Mach.setIn (m : Mach) (i : Nat) (x : SafeIn) : Mach := { m with safety := { m.safety with ins := setAt m.safety.ins i x } }
def Mach.safeOut (m : Mach) (o : Nat) : SafeOut := m.safety.outs.getD o safeOutInit
def Mach.setOut (m : Mach) (o : Nat) (x : SafeOut) : Mach := { m with safety := { m.safety with outs := setAt m.safety.outs o x } }
def Mach.tel (m : Mach) (n : Nat) : SafeTel := m.safety.tels.getD n safeTelInit
def Mach.setTel (m : Mach) (n : Nat) (x : SafeTel) : Mach := { m with safety := { m.safety with tels := setAt m.safety.tels n x } }

def inCfgOff : SafeInCfg := ⟨false, false, false, 0xF, 0xF, 1, 1⟩
def outCfgOff : SafeOutCfg := ⟨false, false, false, 0, 0, 0⟩
def telCfgOff : SafeTelCfg := ⟨false, false, 0, 1, 0, 2, 1, 1⟩

def Mach.inCfg (m : Mach) (i : Nat) : SafeInCfg := match m.safety.cfg with | some g => g.ins.getD i inCfgOff | none => inCfgOff
def Mach.outCfg (m : Mach) (o : Nat) : SafeOutCfg := match m.safety.cfg with | some g => g.outs.getD o outCfgOff | none => outCfgOff
def Mach.telCfg (m : Mach) (n : Nat) : SafeTelCfg := match m.safety.cfg with | some g => g.tels.getD n telCfgOff | none => telCfgOff

/-! ### Outputs (R392, R400, R402) -/

/-- Both channels closed without a latched fault. -/
def faultFree (x : SafeIn) : Bool := x.a.closed && x.b.closed && !x.discLatch && !x.tpLatch

/-- Healthy-closed: also not untested (R398). -/
def healthy (m : Mach) (i : Nat) : Bool := (m.inCfg i).en && faultFree (m.safeIn i) && !(m.safeIn i).untested

/-- A safety fault latch is set. -/
def safetyLatch (m : Mach) : Bool := m.safety.internal || (m.safety.ins.any fun x => x.discLatch || x.tpLatch) || m.safety.outs.any SafeOut.outLatch

/-- Every receive channel an output needs is valid and carries its bits (R400). -/
def telsOk (m : Mach) (g : SafeOutCfg) : Bool :=
  (List.range 4).all fun n => !bitOf g.telMask n || ((m.tel n).valid && g.remoteReq &&& (m.tel n).data == g.remoteReq)

/-- What an output needs besides its reset; an untested input keeps an energised output on but lets none be reset (R398, R400). -/
def outHolds (m : Mach) (o : Nat) (tested : Bool) : Bool :=
  let g := m.outCfg o
  g.en && m.alive && !m.inState [.safe, .boot, .recovery] && !m.safety.internal && !(m.safeOut o).outLatch && telsOk m g
    && (List.range 8).all fun i => !bitOf g.inMask i || (if tested then healthy m i else faultFree (m.safeIn i))

/-- An output de-energised: it awaits a reset. -/
def outOff (latch : Bool) (o : Nat) (m : Mach) : Mach :=
  let x := m.safeOut o
  m.setOut o { x with on := false, needsReset := true, noAuto := x.noAuto || latch }

/-- An output brought to what R400 says of it, AUTO_RESET included (R407). -/
def evalOut (m : Mach) (o : Nat) : Mach :=
  let x := m.safeOut o
  if x.on then (if outHolds m o false then m else outOff (safetyLatch m) o m)
  else if (m.outCfg o).auto && !x.noAuto && outHolds m o true then m.setOut o { x with on := true, needsReset := false }
  else m

def evalOuts (m : Mach) : Mach := (List.range 4).foldl evalOut m

/-- Outputs whose function names input `i` de-energise. -/
def dropFor (i : Nat) (latch : Bool) (m : Mach) : Mach :=
  (List.range 4).foldl (fun m o => if bitOf (m.outCfg o).inMask i && (m.safeOut o).on then outOff latch o m else m) m

/-- An output with CONV set is de-energised: every cut is made as in BLOCKED (R402). -/
def convBlocks (m : Mach) : Bool := (List.range 4).any fun o => (m.outCfg o).conv && !(m.safeOut o).on

/-- A demand of input `i`, the channel that opened first (R393). -/
def demand (i chan : Nat) (m : Mach) : Mach :=
  dropFor i false (((m.bump F.safeCountDemands 1).raise F.safeStatusDemand).post 0x0901 [i, chan])

/-! ### Inputs (R393–R399) -/

/-- One channel in a cycle: low outside its windows for FILT it is open; high it is closed (R393). -/
def chanCycle (src filt : Nat) (level : Bool) (window : Option Nat) (c : SafeChan) : SafeChan :=
  let h := if window.isNone then level else c.high
  if window == some src then c
  else if level then { c with lowFor := 0, closed := true, high := h }
  else { c with lowFor := c.lowFor + 1, closed := c.closed && decide (c.lowFor + 1 < 2 * filt), high := h }

/-- The test of R398 in a cycle: both open together for FILT, then both closed within DISC_T of each other. -/
def testCycle (g : SafeInCfg) (x : SafeIn) : SafeIn :=
  match x.a.closed, x.b.closed with
  | false, false => { x with openFor := if x.closing.isSome then 1 else x.openFor + 1, closing := none }
  | true, true =>
    let ok := decide (2 * g.filt ≤ x.openFor) && (match x.closing with | some n => decide (n < 20 * g.discT) | none => true) && !x.discLatch && !x.tpLatch
    if ok then { x with openFor := 0, closing := none, untested := false, due := false, hours := 0 } else { x with openFor := 0, closing := none }
  | _, _ => if 0 < x.openFor then { x with closing := some (match x.closing with | some n => n + 1 | none => 0) } else x

/-- The timer has reached DISC_T (R394). -/
def discDue (g : SafeInCfg) (n : Nat) : Bool := decide (20 * g.discT ≤ n)

/-- Discrepancy of a cycle, and what has been seen since its latch (R394). The timer starts with the cycle of the first disagreement, or of one that turns round (R396); one that has reached DISC_T as the channels agree stands until it latches. -/
def discCycle (g : SafeInCfg) (turned : Bool) (x : SafeIn) : SafeIn :=
  let n := match x.disc with | some n => if turned then 0 else n + 1 | none => 0
  let y :=
    if x.a.closed ≠ x.b.closed then { x with disc := some n, discChan := if x.a.closed then 0 else 1 }
    else { x with disc := if x.disc.isSome && !x.discLatch && discDue g n then some n else none }
  if !x.discLatch then y
  else
    let z := { y with openSeen := y.openSeen || (!x.a.closed && !x.b.closed) }
    { z with closedSeen := z.closedSeen || (z.openSeen && x.a.closed && x.b.closed) }

/-- An input in a safety cycle; of one that is not enabled only the channels' states go on (R415). -/
def inCycle (r : SafetyRead) (m : Mach) (i : Nat) : Mach :=
  let g := m.inCfg i
  let x := m.safeIn i
  let a := chanCycle g.tpA g.filt (bitOf r.sia i) r.window x.a
  let b := chanCycle g.tpB g.filt (bitOf r.sib i) r.window x.b
  if !g.en then m.setIn i { x with a := a, b := b }
  else
    let aOpens := x.a.closed && !a.closed
    let bOpens := x.b.closed && !b.closed
    let turned := (aOpens && !x.b.closed && b.closed) || (bOpens && !x.a.closed && a.closed)
    let m1 := m.setIn i (discCycle g turned (testCycle g { x with a := a, b := b }))
    if (aOpens && (x.b.closed || b.closed)) || (bOpens && (x.a.closed || a.closed)) then demand i (if aOpens then 0 else 1) m1 else m1

/-- A finding of a test-pulse window on a channel of an input: it opens, and both channels count their test periods anew (R395). -/
def tpFinding (i chan stp : Nat) (m : Mach) : Mach :=
  let x := m.safeIn i
  let y := { x with
    a := { x.a with closed := x.a.closed && chan != 0, passed := 0 }
    b := { x.b with closed := x.b.closed && chan == 0, passed := 0 }
    tpLatch := true }
  let m1 := { m with safety := { m.safety with runFound := m.safety.runFound || !m.safety.selfTest.isEmpty } }
  dropFor i true ((demand i chan (m1.setIn i y)).post 0x0903 [i, chan, stp])

/-- A channel checked in a window of STP `stp`: whether it is found faulty, high in its own source's window, or gone low in another's; a channel that is open, or without a source, is not tested. -/
def tpBad (src stp : Nat) (level : Bool) (c : SafeChan) : Bool := c.closed && src != 0xF && (if src = stp then level else c.high && !level)

/-- Test periods passed in a row: a window of the channel's own source without a finding; one in which it is open is not passed. -/
def tpPass (src stp : Nat) (c : SafeChan) : SafeChan := if src == stp then { c with passed := if c.closed then c.passed + 1 else 0 } else c

/-- A window of an STP output on one input (R395). -/
def pulseIn (stp sia sib : Nat) (m : Mach) (i : Nat) : Mach :=
  let g := m.inCfg i
  if !g.en then m
  else
    let x := m.safeIn i
    let badA := tpBad g.tpA stp (bitOf sia i) x.a
    let badB := tpBad g.tpB stp (bitOf sib i) x.b
    let m1 := m.setIn i { x with a := tpPass g.tpA stp x.a, b := tpPass g.tpB stp x.b }
    let m2 := if badA then tpFinding i 0 stp m1 else m1
    if badB then tpFinding i 1 stp m2 else m2

def testPulse (stp sia sib : Nat) (m : Mach) : Mach :=
  if m.safety.cfg.isNone || 3 < stp then m else evalOuts ((List.range 8).foldl (pulseIn stp sia sib) (m.send (.testPulse stp)))

/-- The discrepancy timer of an input reaches DISC_T (R394). -/
def discrepancy (i : Nat) (m : Mach) : Mach :=
  let x := m.safeIn i
  if !(m.inCfg i).en || x.discLatch || !(x.disc.any (discDue (m.inCfg i))) then m
  else evalOuts (dropFor i true ((m.setIn i { x with discLatch := true, openSeen := false, closedSeen := false }).post 0x0902 [i, x.discChan]))

/-- A readback fault of a channel of an output, energised or not (R401). -/
def outFault (o chan : Nat) (m : Mach) : Mach :=
  if 3 < o then m
  else (outOff true o (m.setOut o { m.safeOut o with outLatch := true, clearable := false, midRun := !m.safety.selfTest.isEmpty })).post 0x0904 [o, chan]

/-- SO_TEST of the configuration in force, in µs. -/
def soTest (m : Mach) : Nat := match m.safety.cfg with | some g => g.soTest | none => 0

/-- The dark test of a channel of an energised output: it is switched off for SO_TEST, and on again where its readback followed. -/
def darkTest (o chan : Nat) (ok : Bool) (m : Mach) : Mach :=
  if !(m.safeOut o).on then m
  else
    let m1 := m.send (.darkTest o chan (soTest m))
    if ok then m1 else outFault o chan m1

/-- The hours of input `i` since its last passed test have reached TEST_INT, and TEST_GRACE more where asked (R399). -/
def hoursUp (i : Nat) (grace : Bool) (m : Mach) : Bool :=
  match m.safety.cfg with
  | some g => (m.inCfg i).en && (m.inCfg i).periodic && decide (g.testInt + (if grace then g.grace else 0) ≤ (m.safeIn i).hours)
  | none => false

/-- TEST_INT has passed without a passed test (R399). -/
def testDue (i : Nat) (m : Mach) : Mach :=
  if hoursUp i false m && !(m.safeIn i).due then ((m.setIn i { m.safeIn i with due := true }).raise F.safeStatusTestDue).post 0x0909 [i] else m

/-- TEST_GRACE more hours have passed without one (R399). -/
def testOverdue (i : Nat) (m : Mach) : Mach :=
  if hoursUp i true m && (m.safeIn i).due then (dropFor i false (m.setIn i { m.safeIn i with untested := true })).post 0x090A [i] else m

/-- Hours the always-on island has counted (R399). -/
def addHours (n : Nat) (m : Mach) : Mach := { m with safety := { m.safety with ins := m.safety.ins.map fun x => { x with hours := incSat 32 x.hours n } } }

/-! ### Reset (R407) -/

/-- A channel has passed three test periods in a row without a finding; one that is not pulse-tested has none to pass (R395). -/
def tpPassed (src : Nat) (c : SafeChan) : Bool := src == 0xF || decide (3 ≤ c.passed)

/-- Latches a CLEAR_FAULT clears: those whose clearing condition is met. -/
def clearIn (g : SafeInCfg) (x : SafeIn) : SafeIn :=
  { x with discLatch := x.discLatch && !x.closedSeen, tpLatch := x.tpLatch && !(tpPassed g.tpA x.a && tpPassed g.tpB x.b) }

def clearLatches (m : Mach) : Mach :=
  { m with safety := { m.safety with ins := (m.safety.ins.zipIdx).map (fun x => clearIn (m.inCfg x.2) x.1), outs := m.safety.outs.map fun x => { x with outLatch := x.outLatch && !x.clearable } } }

/-- Failing outputs and the inputs that block them, as RESULT carries them. -/
def resetFails (mask : Nat) (m : Mach) : Nat :=
  let bad := maskOf 4 fun o => bitOf mask o && !outHolds m o true
  let ins := maskOf 8 fun i => (List.range 4).any fun o => bitOf bad o && bitOf (m.outCfg o).inMask i && !healthy m i
  bad + 256 * ins

/-- A SAFETY_RESET at the safety cycle that follows its intake. -/
def resetCycle (m : Mach) (r : SafeReset) : Mach :=
  let c := if r.clear then clearLatches m else m
  let f := resetFails r.mask c
  if f ≠ 0 then completeLater r.ring r.seq ⟨stSTATE, 0, f, 0, []⟩ m
  else
    let m1 := (List.range 4).foldl (fun m o => if bitOf r.mask o then m.setOut o { m.safeOut o with on := true, needsReset := false, noAuto := false } else m) c
    completeLater r.ring r.seq (fin stDONE) (m1.post 0x090B [])

/-! ### Telegrams (R403–R406) -/

/-- Bits [18:0] of DATA as this unit sends them. -/
def telBits (m : Mach) : Nat :=
  maskOf 4 (fun o => (m.safeOut o).on) + 256 * maskOf 8 (healthy m) + 65536 * b2n (m.inState [.safe]) + 131072 * b2n (safetyLatch m) + 262144 * b2n (!m.tb.timeValid)

/-- A telegram of channel `n` on every port named (R403). -/
def telSend (n : Nat) (m : Mach) : Mach :=
  match m.safety.cfg with
  | none => m
  | some g =>
    let t := m.telCfg n
    if !t.tx then m
    else
      let x := m.tel n
      let seq := (x.txSeq + 1) % 2 ^ 32
      let bits := telBits m
      let m1 := m.setTel n { x with txSeq := seq, sent := bits }
      let m2 := if t.rx then m1 else m1.setF (F.safeTelLastSeq n) seq
      queueFrame t.ports false (fun _ _ => ⟨.safety, m.now, m.net.txOrder, none, false, 0, 0, .tel ⟨n, g.ownId, t.peer, seq, bits, g.crc, none⟩⟩) m2

/-- Telegrams due because a bit has changed (R403). -/
def telChanges (m : Mach) : Mach := (List.range 4).foldl (fun m n => if (m.telCfg n).tx && (m.tel n).sent != telBits m then telSend n m else m) m

/-- A copy's reserved bits are zero. -/
def telResvOk (data : Nat) : Bool := bitsOf data 4 4 == 0 && bitsOf data 19 13 == 0 && data < 2 ^ 64

/-- SEQ is newer than the last accepted; on a channel not valid any passes (R404). -/
def newer (x : SafeTel) (seq : Nat) : Bool :=
  let d := (seq + 2 ^ 32 - x.last) % 2 ^ 32
  !x.valid || (decide (1 ≤ d) && decide (d < 2 ^ 31))

/-- A telegram accepted: its DATA is in force (R405). -/
def telAccept (n seq data : Nat) (m : Mach) : Mach :=
  let x := { m.tel n with valid := true, last := seq, data := data, disagree := false }
  (m.setTel n { x with copies := x.copies.filter fun f => newer x f.seq }).setF (F.safeTelLastSeq n) seq

/-- A telegram that acts on one copy (R405). -/
def telSingle (n seq data : Nat) (m : Mach) : Mach :=
  let x := m.tel n
  let m1 := (m.bump F.safeCountSingle 1).raise F.safeStatusTelSingle
  let m2 := if x.singleRun then m1 else m1.post 0x0908 []
  let m3 := telAccept n seq data m2
  m3.setTel n { m3.tel n with singleRun := true }

/-- The link of the other port named in PORTS is down. -/
def otherDown (m : Mach) (n port : Nat) : Bool := (m.telCfg n).ports == 3 && !(m.ethPort (1 - port)).link

/-- DATA in force after a copy that counts in the clearing direction: bits [15:0] only clear, bits [18:16] only set. -/
def clearData (old new : Nat) : Nat := (old &&& new) % 65536 + bitsOf (old ||| new) 16 3 * 65536 + old / 2 ^ 32 * 2 ^ 32

/-- A valid copy: with its twin it acts where both agree; alone it acts while the other port's link is down, and else waits, but for what it clears (R405). -/
def telCopy (n port seq data : Nat) (body : List Byte) (m : Mach) : Mach :=
  let x := m.tel n
  match x.copies.find? fun f => f.seq == seq && f.port != port with
  | some f =>
    if f.body = body then
      let m1 := telAccept n seq data m
      m1.setTel n { m1.tel n with singleRun := false }
    else ((m.setTel n { x with valid := false, data := 0, copies := x.copies.filter fun f => f.seq != seq, disagree := true }).bump F.safeCountTelMismatch 1).post 0x0907 [n]
  | none =>
    if (m.telCfg n).ports ≠ 3 then telAccept n seq data m
    else if otherDown m n port && !x.disagree then telSingle n seq data m
    else
      let keep := if x.copies.any fun f => f.seq == seq then x.copies else x.copies ++ [⟨seq, port, body, data⟩]
      m.setTel n { x with data := if x.valid then clearData x.data data else x.data, copies := keep }

/-- A safety telegram received (R404).
DESIGN CHOICE: R404 does not list the form of SEND_T; a NANOSECONDS of 10^9 or more, malformed by R6, is taken as it stands, as SECONDS · 10^9 + NANOSECONDS. -/
def telRx (port dest : Nat) (b : List Byte) (at_ : Nat) (m : Mach) : Mach :=
  let n := fieldLE b 2 1
  match m.safety.cfg with
  | none => m
  | some g =>
    if !portTakes m port dest || siphonLost m 12 || 3 < n || !(m.telCfg n).rx then m
    else
      let t := m.telCfg n
      let data := fieldLE b 0x1C 16
      let seq := fieldLE b 0x0C 4
      let ok := b.length == 64 && fieldLE b 0x3C 4 == scrc b && sliceBytes b 0x2C 16 == (sliceBytes b 0x1C 16).map (fun x => ~~~x) && fieldLE b 0 2 == 1
        && fieldLE b 4 4 == t.peer && fieldLE b 8 4 == g.ownId && telResvOk data && newer (m.tel n) seq
      let sendT := fieldLE b 0x10 8 * 1000000000 + fieldLE b 0x18 4
      let late := m.tb.timeValid && !bitOf data 18 && decide (sendT + t.maxAge * 1000000 < at_)
      if !ok then m.bump (F.safeTelDisc n) 1
      else if late then m.bump (F.safeTelLate n) 1
      else evalOuts (telCopy n port seq data ((b.take 60).set 3 0#8) m)

/-- No second copy of the SEQ that has waited longest within CMP_WIN (R405). -/
def telCmpWin (n : Nat) (m : Mach) : Mach :=
  let x := m.tel n
  match x.copies with
  | f :: t =>
    let m1 := m.setTel n { x with copies := t }
    if otherDown m n f.port && !x.disagree then evalOuts (telSingle n f.seq f.data m1) else m1
  | [] => m

/-- No telegram accepted for WD_MS (R406). -/
def telWatchdog (n : Nat) (m : Mach) : Mach :=
  let x := m.tel n
  if x.valid then evalOuts (((m.setTel n { x with valid := false, data := 0 }).bump F.safeCountTelLost 1).post 0x0906 []) else m

/-! ### The safety cycle (R391) -/

/-- Results that differed in two consecutive cycles (R391). -/
def compareCycle (agree : Bool) (m : Mach) : Mach :=
  let d := if agree then 0 else m.safety.differ + 1
  let m1 := { m with safety := { m.safety with differ := d } }
  if 2 ≤ d ∧ !m.safety.internal then
    ((List.range 4).foldl (fun m o => outOff true o m) { m1 with safety := { m1.safety with internal := true } }).post 0x0905 []
  else m1

def safetyCycle (r : SafetyRead) (m : Mach) : Mach :=
  let m0 := telChanges m
  let stp := match m.safety.cfg with | some _ => 15 - (match r.window with | some w => 2 ^ w | none => 0) | none => 0
  let m1 := { m0 with safety := { m0.safety with sia := r.sia % 256, sib := r.sib % 256, soaRb := r.soaRb % 16, sobRb := r.sobRb % 16, stp := stp } }
  let m2 := (List.range 8).foldl (inCycle r) m1
  let m3 := m2.safety.resets.foldl resetCycle m2
  compareCycle r.agree (evalOuts { m3 with safety := { m3.safety with resets := [] } })

/-- The first boundary after a latch (R392): SUB names its kind, in a code the spec does not give, and its input or output. -/
def safetyBoundary (m : Mach) : Mach :=
  if safetyLatch m then
    let sub := match m.safety.ins.findIdx? fun x => x.discLatch || x.tpLatch, m.safety.outs.findIdx? SafeOut.outLatch with
      | some i, _ => Config.unstatedArg 0x0E06 (if (m.safeIn i).discLatch then 0 else 1) % 16 + 16 * i
      | none, some o => Config.unstatedArg 0x0E06 2 % 16 + 16 * o
      | none, none => Config.unstatedArg 0x0E06 3 % 16
    enterSafe 8 sub m
  else m

/-! ### Registers and Gallery (R415, R416) -/

def faultWord (m : Mach) : Nat :=
  maskOf 8 (fun i => (m.safeIn i).discLatch) + 256 * maskOf 8 (fun i => (m.safeIn i).tpLatch) + 65536 * maskOf 4 (fun o => (m.safeOut o).outLatch)
    + 1048576 * b2n m.safety.internal

def statusWord (m : Mach) : Nat :=
  maskOf 8 (healthy m) + 256 * maskOf 4 (fun o => (m.safeOut o).on) + 4096 * b2n m.safety.cfg.isSome + 8192 * b2n (safetyLatch m) + 16384 * b2n m.safety.selfTestOk
    + 65536 * m.reg.raw F.safeStatusTelSingle + 131072 * m.reg.raw F.safeStatusTestDue + 262144 * m.reg.raw F.safeStatusDemand

def safetyCrc (m : Mach) : Nat := match m.safety.cfg with | some g => g.crc | none => 0

/-- The entries written at each intake. -/
def safetyIntake (m : Mach) : Mach :=
  let ins := maskOf 8 (healthy m) + 256 * maskOf 8 (fun i => (m.safeIn i).a.closed) + 65536 * maskOf 8 (fun i => (m.safeIn i).b.closed)
    + 16777216 * maskOf 8 (fun i => (m.safeIn i).untested)
  let outs := maskOf 4 (fun o => (m.safeOut o).on) + 16 * maskOf 4 (fun o => (m.outCfg o).en && (m.safeOut o).needsReset)
    + 256 * maskOf 4 fun o => (m.outCfg o).conv && !(m.safeOut o).on
  let m1 := ((m.produceValid 0xDC000 ins 7).produceValid 0xDC001 outs 7).produceValid 0xDC002 (faultWord m) 7
  (List.range 4).foldl (fun m n => m.produce true (0xDC010 + n) (BitVec.ofNat 32 (m.tel n).data) (if (m.tel n).valid then 1#8 else 0#8) 7) m1

/-! ### Commands (R410–R413) -/

def parseSafeIn (c : Cmd) (i : Nat) : SafeInCfg :=
  let o := 0x20 + 8 * i
  let f := c.b o 1
  ⟨bitOf f 0, bitOf f 1, bitOf f 2, c.b (o + 1) 1, c.b (o + 2) 1, c.b (o + 3) 1, c.b (o + 4) 2⟩

def parseSafeOut (c : Cmd) (i : Nat) : SafeOutCfg :=
  let o := 0x60 + 16 * i
  let f := c.b o 1
  ⟨bitOf f 0, bitOf f 1, bitOf f 2, c.b (o + 1) 1, c.b (o + 2) 1, c.b (o + 4) 2⟩

def parseSafeTel (c : Cmd) (i : Nat) : SafeTelCfg :=
  let o := 0xA0 + 16 * i
  let f := c.b o 1
  ⟨bitOf f 0, bitOf f 1, c.b (o + 1) 1, c.b (o + 2) 2, c.b (o + 4) 4, c.b (o + 8) 2, c.b (o + 10) 2, c.b (o + 12) 2⟩

/-- The safety configuration block (R411). -/
def parseSafety (c : Cmd) : SafeCfg :=
  { ownId := c.b 4 4, tpWidth := c.b 8 2, tpPeriod := c.b 0x0A 2, soTest := c.b 0x0C 2, grace := c.b 0x0E 2, testInt := c.b 0x10 4
    ins := (List.range 8).map (parseSafeIn c), outs := (List.range 4).map (parseSafeOut c), tels := (List.range 4).map (parseSafeTel c), crc := c.b 0xFC 4 }

/-- FORMAT, LENGTH, reserved fields and CRC. -/
def safetyForm (c : Cmd) : Bool :=
  c.b 0 2 == 1 && c.b 2 2 == 256 && c.bufZero 0x14 12 && c.bufZero 0xE0 28
    && ((List.range 8).all fun i => decide (c.b (0x20 + 8 * i) 1 < 8) && c.b (0x26 + 8 * i) 2 == 0)
    && ((List.range 4).all fun o => decide (c.b (0x60 + 16 * o) 1 < 8) && decide (c.b (0x62 + 16 * o) 1 < 16) && c.b (0x63 + 16 * o) 1 == 0 && c.bufZero (0x66 + 16 * o) 10)
    && ((List.range 4).all fun n => decide (c.b (0xA0 + 16 * n) 1 < 4) && decide (c.b (0xA1 + 16 * n) 1 < 4) && c.b (0xAE + 16 * n) 2 == 0)
    && c.b 0xFC 4 == crc32c (c.buf.take 0xFC)

def tpCode (n : Nat) : Bool := decide (n ≤ 3) || n == 0xF

def safeInOk (x : SafeInCfg) : Bool :=
  tpCode x.tpA && tpCode x.tpB && (x.tpA != x.tpB || x.tpA == 0xF) && decide (1 ≤ x.filt) && decide (1 ≤ x.discT) && decide (x.discT ≤ 10000)

def safeOutOk (g : SafeCfg) (x : SafeOutCfg) : Bool :=
  ((List.range 8).all fun i => !bitOf x.inMask i || (g.ins.getD i inCfgOff).en) && (List.range 4).all fun n => !bitOf x.telMask n || (g.tels.getD n telCfgOff).rx

def safeTelOk (x : SafeTelCfg) : Bool :=
  (!(x.tx || x.rx) || x.ports != 0) && decide (1 ≤ x.txMs) && decide (x.txMs ≤ 1000) && decide (2 ≤ x.wdMs) && decide (x.wdMs ≤ 5000)
    && decide (1 ≤ x.cmpWin) && decide (x.cmpWin ≤ 100) && decide (1 ≤ x.maxAge) && decide (x.maxAge ≤ 5000)

/-- The ranges of R411, of every field whether it is in use or not. -/
def safetyRanges (g : SafeCfg) : Bool :=
  g.ownId != 0 && decide (100 ≤ g.tpWidth) && decide (g.tpWidth ≤ 2000) && decide (1 ≤ g.tpPeriod) && decide (g.tpPeriod ≤ 1000)
    && decide (8 * g.tpWidth ≤ 1000 * g.tpPeriod) && decide (50 ≤ g.soTest) && decide (g.soTest ≤ 1000) && decide (1 ≤ g.grace) && decide (g.grace ≤ 8760)
    && decide (1 ≤ g.testInt) && decide (g.testInt ≤ 87600) && g.ins.all safeInOk && g.outs.all (safeOutOk g) && g.tels.all safeTelOk

def chkSafetyConfig (c : Cmd) : Option Nat :=
  if !safetyForm c then some stMALFORMED else if !safetyRanges (parseSafety c) then some stLIMIT else none

/-- SAFETY_CONFIG (R411). A SAFETY_RESET that passed and waits for the next cycle has its effect first, and the configuration then de-energises its outputs. -/
def effSafetyConfig (c : Cmd) (m : Mach) : Mach × Eff :=
  let g := parseSafety c
  if g.tels.any fun t => (t.tx || t.rx) && portOff m t.ports then reject stMALFORMED m
  else
    let m0 := m.safety.resets.foldl resetCycle m
    let ins := (m0.safety.ins.zipIdx).map fun x =>
      let k := g.ins.getD x.2 inCfgOff
      { x.1 with untested := k.en && (k.startTest || x.1.untested), disc := none, openFor := 0, closing := none, due := k.periodic && x.1.due }
    let m1 := { m0 with safety := { m0.safety with
        cfg := some g, ins := ins, tels := List.replicate 4 safeTelInit, resets := []
        selfTest := m0.safety.selfTest ++ [⟨c.ring, c.seq, some g.crc⟩], runFound := m0.safety.runFound && !m0.safety.selfTest.isEmpty } }
    ((List.range 4).foldl (fun m o => outOff false o m) m1, .hold)

def chkSafetyStartTest (c : Cmd) : Option Nat := if c.f 1 1 < 2 ∧ c.zeroFrom 2 then none else some stMALFORMED

def effSafetyStartTest (c : Cmd) (m : Mach) : Mach × Eff :=
  let mask := c.f 0 1
  let run := bitOf (c.f 1 1) 0
  if mask = 0 ∧ !run then okEmpty m
  else
    let ins := (m.safety.ins.zipIdx).map fun x => if bitOf mask x.2 && (m.inCfg x.2).en then { x.1 with untested := true, openFor := 0, closing := none } else x.1
    let m1 := { m with safety := { m.safety with ins := ins } }
    if run then ({ m1 with safety := { m1.safety with selfTest := m1.safety.selfTest ++ [⟨c.ring, c.seq, none⟩], runFound := m1.safety.runFound && !m1.safety.selfTest.isEmpty } }, .hold)
    else okDone m1

def chkSafetyReset (c : Cmd) : Option Nat := if c.f 0 1 < 16 ∧ c.f 1 1 < 2 ∧ c.zeroFrom 2 then none else some stMALFORMED

/-- SAFETY_RESET: checked at its intake; outputs that pass act at the next safety cycle (R407). -/
def effSafetyReset (c : Cmd) (m : Mach) : Mach × Eff :=
  let mask := c.f 0 1
  let clear := bitOf (c.f 1 1) 0
  let cl := if clear then clearLatches m else m
  let f := resetFails mask cl
  if f ≠ 0 then rejectR stSTATE f m
  else if ((List.range 4).all fun o => !bitOf mask o || (m.safeOut o).on) && faultWord cl == faultWord m then okEmpty m
  else ({ m with safety := { m.safety with resets := m.safety.resets ++ [⟨c.ring, c.seq, mask, clear⟩] } }, .hold)

/-- SAFETY_REPORT (R413). -/
def safetyReport (m : Mach) : List Byte :=
  leBytes 4 (statusWord m) ++ leBytes 4 (faultWord m) ++ leBytes 4 (safetyCrc m) ++ leBytes 1 (maskOf 8 fun i => (m.safeIn i).untested)
    ++ leBytes 1 (maskOf 8 fun i => (m.safeIn i).due) ++ leBytes 2 0 ++ ((List.range 8).flatMap fun i => leBytes 4 (m.safeIn i).hours)
    ++ (List.range 4).flatMap fun n => leBytes 4 (m.tel n).last

def effSafetyReport (c : Cmd) (m : Mach) : Mach × Eff := okDone (writeBuf c (safetyReport m) m)

/-- A self-test run ends: failures latch, outputs found correct whose latch came before the run may be cleared, and the commands that wait complete; a finding of its test pulses is a fault as well (R407, R412). -/
def selfTestDone (failed : Nat) (m : Mach) : Mach :=
  if m.safety.selfTest.isEmpty then m
  else
    let m1 := (List.range 8).foldl (fun m j => if bitOf failed j then outFault (j % 4) (j / 4) m else m) m
    let ok := fun o => !bitOf failed o && !bitOf failed (4 + o)
    let outs := (m1.safety.outs.zipIdx).map fun x => if ok x.2 && x.1.outLatch then { x.1 with clearable := x.1.clearable || !x.1.midRun, midRun := false } else { x.1 with midRun := false }
    let good := failed % 256 == 0 && !m.safety.runFound
    let m2 := { m1 with safety := { m1.safety with outs := outs, selfTest := [], selfTestOk := good, runFound := false } }
    let m3 := if good then m2.post 0x090C [] else m2
    m.safety.selfTest.foldl (fun m t => completeLater t.ring t.seq (finR (match t.crc with | some c => c | none => failed % 256)) m) m3

/-! ### The rows -/

def infoSafetyConfig : CmdInfo := ⟨0x0901, .buffer, false, (· == 256), [.ready], fun c _ => chkSafetyConfig c⟩
def infoSafetyStartTest : CmdInfo := ⟨0x0902, .inline, false, fun _ => true, runAll, fun c _ => chkSafetyStartTest c⟩
def infoSafetyReset : CmdInfo := ⟨0x0903, .inline, false, fun _ => true, runAll, fun c _ => chkSafetyReset c⟩
def infoSafetyReport : CmdInfo := ⟨0x0904, .buffer, false, fun n => decide (64 ≤ n), runAll, fun _ _ => none⟩

def execSafetyConfig (d : Desc) (s : State) : Host.Outcome State Fault Refusal := .next (s.run (hostCommand infoSafetyConfig effSafetyConfig d))
def execSafetyStartTest (d : Desc) (s : State) : Host.Outcome State Fault Refusal := .next (s.run (hostCommand infoSafetyStartTest effSafetyStartTest d))
def execSafetyReset (d : Desc) (s : State) : Host.Outcome State Fault Refusal := .next (s.run (hostCommand infoSafetyReset effSafetyReset d))
def execSafetyReport (d : Desc) (s : State) : Host.Outcome State Fault Refusal := .next (s.run (hostCommand infoSafetyReport effSafetyReport d))

/-- The safety subsystem runs on its own clock whenever the device has its supply and is not held in reset (R390). -/
def execSafetyCycle (r : SafetyRead) (s : State) : Host.Outcome State Fault Refusal := .next (s.run fun m => if m.alive then safetyCycle r m else m)
def execTestPulse (stp sia sib : Nat) (s : State) : Host.Outcome State Fault Refusal := .next (s.run fun m => if m.alive then testPulse stp sia sib m else m)
def execSafetyDiscrepancy (i : Nat) (s : State) : Host.Outcome State Fault Refusal := .next (s.run fun m => if m.alive then discrepancy i m else m)
def execSoDarkTest (o : Nat) (chanB ok : Bool) (s : State) : Host.Outcome State Fault Refusal :=
  .next (s.run fun m => if m.alive then darkTest o (b2n chanB) ok m else m)
def execSoReadbackFault (o : Nat) (chanB : Bool) (s : State) : Host.Outcome State Fault Refusal :=
  .next (s.run fun m => if m.alive then outFault o (b2n chanB) m else m)
def execSafetyTestDue (i : Nat) (s : State) : Host.Outcome State Fault Refusal := .next (s.run fun m => if m.alive then testDue i m else m)
def execSafetyTestOverdue (i : Nat) (s : State) : Host.Outcome State Fault Refusal := .next (s.run fun m => if m.alive then testOverdue i m else m)
def execSafetyTelegram (rx : RxPort) (bytes : List Byte) (at_ : Nat) (s : State) : Host.Outcome State Fault Refusal :=
  .next (s.run fun m => if m.alive then telRx rx.port rx.dest bytes at_ m else m)
def execSafetyTelegramTx (n : Nat) (s : State) : Host.Outcome State Fault Refusal := .next (s.run fun m => if m.alive then telSend n m else m)
def execSafetyTelWatchdog (n : Nat) (s : State) : Host.Outcome State Fault Refusal := .next (s.run fun m => if m.alive then telWatchdog n m else m)
def execSafetyTelCmpWin (n : Nat) (s : State) : Host.Outcome State Fault Refusal := .next (s.run fun m => if m.alive then telCmpWin n m else m)
def execSelftestDone (failed : Nat) (s : State) : Host.Outcome State Fault Refusal := .next (s.run fun m => if m.alive then selfTestDone failed m else m)

end Sys2Proof.Machine
end

