-- ==== Sys2Proof/Machine/Boot.lean ====
section
/-! DEFINITION. Machine/Boot.lean: power-up, power-down and resets, the boot, signed images and keys, attestation, and debug access (R434–R461). -/
set_option Elab.async false
namespace Sys2Proof.Machine

/-! ### Supply, DORMANT and resets (R436–R443) -/

/-- What the outputs and the pair see of a loss of supply (R438 step 1). -/
def goDark (st : DevState) (m : Mach) : Mach := powerDown st (pairSafe m false)

/-- VIN crosses 34.0 V: a power-on clears the causes and sets POR (R437, R441); with WAKE low the device is DORMANT. -/
def vinRise (wake : Bool) (m : Mach) : Mach :=
  if m.pwr.vin then m
  else
    let m1 := { m with reg := machInit.reg, safety := safeInit }
    { m1 with dev := { m1.dev with state := if wake then .off else .dormant }
              pwr := { m1.pwr with vin := true, wake := wake, rails := wake, inReset := true, hotOff := false } }

/-- RST_N is high with the rails good: reset is released, straps and calibration are read, the device enters BOOT (R437 step 4). -/
def resetRelease (s : Straps) (m : Mach) : Mach :=
  if m.pwr.rails && m.pwr.inReset then
    postEnded (resetContent { m with pwr := { m.pwr with straps := s, crystal := s.crystal, inReset := false } })
  else m

/-- VIN falls below VIN_FAIL (R438). -/
def vinFail (m : Mach) : Mach :=
  if !m.pwr.vin then m
  else
    let m1 := goDark .off m
    { m1 with pwr := { m1.pwr with vin := false, hotOff := false } }

/-- Tj at or above 135 °C, whenever the rails are up (R436). -/
def thermalShutdown (m : Mach) : Mach :=
  if !m.pwr.rails then m
  else
    let m1 := goDark .off m
    { m1 with pwr := { m1.pwr with hotOff := true } }

/-- The rails start with a cause set, and the device waits for the release of its reset, which RST_N low holds off (R436, R437 steps 2 to 4, R440). -/
def restart (c : ResetCause) (hours : Nat) (m : Mach) : Mach :=
  (addHours hours { m with pwr := { m.pwr with rails := true, inReset := true, hotOff := false } }).setF c.field 1

def thermalRestart (m : Mach) : Mach := if m.pwr.hotOff then restart .thermal 0 m else m

/-- DORMANT, with the rails still down. -/
def asleep (m : Mach) : Bool := m.inState [.dormant] && !m.pwr.rails

/-- A wake by WAKE, qualified (R440). -/
def wakeUp (hours : Nat) (m : Mach) : Mach := if asleep m then restart .wake hours { m with pwr := { m.pwr with wake := true } } else m

/-- The alarm expires: only with a crystal and a SECONDS other than 0 (R440). -/
def alarmUp (hours : Nat) (m : Mach) : Mach :=
  if asleep m && m.pwr.crystal && m.reg.raw F.pwrAlarmSeconds != 0 then restart .wake hours m else m

/-- RST_N low for 1 µs: the device stays in reset until RESET_RELEASE, which samples the straps (R441). -/
def rstPin (m : Mach) : Mach :=
  if m.inState [.off, .dormant] || m.pwr.inReset then m
  else
    let m1 := resetFrom .rstPin m
    { m1 with pwr := { m1.pwr with inReset := true } }

/-- PERST_N resets the PCIe endpoint alone (R441). -/
def perstPin (m : Mach) : Mach := { m with host := { m.host with linkUp := false, busMaster := false, d3 := false, reach := false } }

/-- A lockstep mismatch: SAFE with cause 0x02, the Stewards held (R443). -/
def lockstepMismatch (m : Mach) : Mach :=
  if !m.alive then m
  else
    let m1 := enterSafe 2 0 m
    { m1 with pwr := { m1.pwr with held := true } }

/-- SLEEP set in PWR_CTRL: acted on at the next boundary; set again while a request is pending it is a new one (R426, R439). -/
def askSleep (m : Mach) : Mach := { m.setF F.pwrCtrlSleep 1 with pwr := { m.pwr with sleepDue := true, sleepAgain := m.pwr.sleepDue } }

/-- The row SLEEP: PWR_CTRL is reached only where the whole window decodes (R427). -/
def sleepRow (m : Mach) : Mach := if m.inState [.boot, .recovery] || m.dev.test then m else askSleep m

/-- The first failing condition of R439. -/
def sleepFail (m : Mach) : Option Nat :=
  if !m.inState [.ready] then some 1
  else if m.pair.role != .solo then some 2
  else if m.pwr.wake then some 3
  else if unfinishedAny m.host then some 4
  else none

/-- SLEEP acted on at a boundary: it clears unless a new request is pending (R426, R439). -/
def sleepBoundary (m : Mach) : Mach :=
  if !m.pwr.sleepDue then m
  else
    let m1 := { m.setF F.pwrCtrlSleep (b2n m.pwr.sleepAgain) with pwr := { m.pwr with sleepDue := m.pwr.sleepAgain, sleepAgain := false } }
    match sleepFail m1 with
    | some c => m1.post 0x0A03 [c]
    | none => powerDown .dormant m1

/-- VIN found below VIN_WARN, once per crossing (R436). -/
def vinLow (mv : Nat) (m : Mach) : Mach :=
  let low := decide (mv < m.fld F.pwrThreshVinWarn)
  let m1 := { m with pwr := { m.pwr with lowSeen := low } }
  if low && !m.pwr.lowSeen then (m1.raise F.pwrStatusVinLow).post 0x0A01 [mv] else m1

/-- A die (0 control, 1 power) found above T_WARN, once per crossing; Tj in 0.125 °C (R436). -/
def tjHigh (die : Nat) (tj : Int) (m : Mach) : Mach :=
  let hot := decide ((8 * m.fld F.pwrThreshTWarn : Nat) < tj)
  let seen := if die = 0 then m.pwr.hotCtrl else m.pwr.hotPwr
  let m1 := { m with pwr := if die = 0 then { m.pwr with hotCtrl := hot } else { m.pwr with hotPwr := hot } }
  if hot && !seen then (m1.raise F.pwrStatusHot).post 0x0A02 [die, unsigned 32 tj] else m1

/-! ### Signed images (R447, R448, R453) -/

def imgType (b : List Byte) : Nat := fieldLE b 6 1
def imgSigs (b : List Byte) : Nat := fieldLE b 7 1
def imgBodyLen (b : List Byte) : Nat := fieldLE b 8 4
def imgSvn (b : List Byte) : Nat := fieldLE b 0xC 2
def imgSerial (b : List Byte) : Nat := fieldLE b 0x10 8
def imgHeader (b : List Byte) : List Byte := b.take 512
def imgBody (b : List Byte) : List Byte := (b.drop 512).take (imgBodyLen b)

/-- Key slot codes of the signers. -/
def imgSigners (b : List Byte) : List Nat := (List.range (min (imgSigs b) 2)).map fun i => fieldLE b (0x38 + i) 1

/-- Signature `i`. -/
def imgSig (b : List Byte) (i : Nat) : List Byte := (b.drop (512 + imgBodyLen b + 16224 * i)).take 16224

/-- The length a header implies (R459). -/
def imgLen (b : List Byte) : Nat := 512 + imgBodyLen b + 16224 * imgSigs b

/-- Index of a key slot by its code (R453): V0, V1, O0 to O3. -/
def slotIndex (code : Nat) : Option Nat := if code < 2 then some code else if 0x10 ≤ code ∧ code < 0x14 then some (code - 0xE) else none

def keySlot (m : Mach) (code : Nat) : KeySlot := match slotIndex code with | some i => m.sec.slots.getD i ⟨.empty, []⟩ | none => ⟨.empty, []⟩

def slotValid (m : Mach) (code : Nat) : Bool := (keySlot m code).state == .valid

def isVendor (code : Nat) : Bool := decide (code < 2)
def isOwner (code : Nat) : Bool := decide (0x10 ≤ code) && decide (code < 0x14)

/-- Owner slots that are VALID, bit n for On. -/
def ownersValid (m : Mach) : Nat := maskOf 4 fun n => slotValid m (0x10 + n)

/-- Vendor slots that are VALID. -/
def vendorsValid (m : Mach) : Nat := maskOf 2 (slotValid m)

/-- The public key of a slot. -/
def slotKey (m : Mach) (code : Nat) : List Byte := if isVendor code then Config.vendorKey code else (keySlot m code).key

/-- Check 1 of R448. -/
def imgForm (typ : Nat) (b : List Byte) : Bool :=
  fieldLE b 0 4 == 0x4E584749 && fieldLE b 4 2 == 1 && imgType b == typ && imgBodyLen b % 4 == 0
    && decide (imgBodyLen b ≤ if typ = 1 then 8388608 else 64) && (imgSigs b == 1 || imgSigs b == 2)
    && ((fieldLE b 0x39 1 == 0xFF) == (imgSigs b == 1))
    && fieldLE b 0xF 1 == 0 && fieldLE b 0x3A 2 == 0 && allZero (sliceBytes b 0x40 448)

/-- Check 2 of R448. -/
def imgSerialOk (typ : Nat) (b : List Byte) (m : Mach) : Bool :=
  if imgSerial b = 0 then typ == 1 else imgSerial b == m.pwr.straps.serial

/-- Check 4 of R448: every signer is VALID, and the signers are those the use requires. -/
def imgSignersOk (need : List Nat → Bool) (b : List Byte) (m : Mach) : Bool := (imgSigners b).all (slotValid m) && need (imgSigners b)

/-- Check 5 of R448. -/
def imgSigsOk (b : List Byte) (m : Mach) : Bool :=
  (imgSigners b).zipIdx.all fun s => Config.slhVerify (slotKey m s.1) (imgHeader b) (imgSig b s.2)

/-- The first check of R448 that an image fails. -/
def imgFails (typ : Nat) (need : List Nat → Bool) (b : List Byte) (m : Mach) : Option Nat :=
  if !imgForm typ b then some 1
  else if !imgSerialOk typ b m then some 2
  else if typ = 1 ∧ imgSvn b < m.sec.svnMin then some 3
  else if !imgSignersOk need b m then some 4
  else if !imgSigsOk b m then some 5
  else if sha256 (imgBody b) ≠ sliceBytes b 0x18 32 then some 6
  else none

/-- A firmware image needs a vendor signer, and an owner signer while OWNER_COSIGN is set. -/
def firmwareSigners (m : Mach) (s : List Nat) : Bool := s.any isVendor && s.all (fun c => isVendor c || isOwner c) && (!m.sec.ownerCosign || s.any isOwner)

/-- Owner signers; vendor signers while no owner slot is VALID (R454, R458). -/
def ownerSigners (m : Mach) (s : List Nat) : Bool := s.all (if ownersValid m = 0 then isVendor else isOwner)

def firmwareFails (b : List Byte) (m : Mach) : Option Nat := imgFails 1 (firmwareSigners m) b m

/-- AUTH_FAIL: the flag, and the event with the opcode and the check (R448). -/
def authFail (op check : Nat) (m : Mach) : Mach := (m.raise F.secStatusAuthFail).post 0x0A09 [op, check]

/-- Status of a command whose image fails a check. -/
def authStatus (check : Nat) : Nat := if check = 1 then stMALFORMED else stAUTH

/-- A pointer payload whose length differs from what its header implies (R459). -/
def chkImage (body : Option Nat) (c : Cmd) : Option Nat :=
  if c.len == imgLen c.buf && (match body with | some n => imgBodyLen c.buf == n | none => true) then none else some stMALFORMED

/-- The image of a command. -/
def Cmd.img (c : Cmd) : List Byte := c.buf.take c.len

/-! ### Boot (R445, R446, R449, R450) -/

def runImage (b : List Byte) : RunImage := ⟨imgSvn b, fieldLE b 0xE 1, fieldLE b 0x3C 4, sha256 (imgHeader b)⟩

/-- RECOVERY: no image runs, and the ROM serves ring 0. -/
def enterRecovery (m : Mach) : Mach := { m with dev := { m.dev with state := .recovery }, sec := { m.sec with bootSlot := 3, image := none, romRing := true } }

/-- Commands of ring 0 that a start of firmware finds unfinished (R450): which of the terminal statuses of R259 they end with is not stated, so it is free among them. -/
def endRomCommands (m : Mach) : Mach :=
  let st := [stDONE, stDONEEMPTY, stSUPERSEDED, stEXPIRED, stABORTED].getD (Config.unstatedArg 0x0A04 1 % 5) stDONE
  m.host.accepted.foldl (fun m p => complete p.cmd (fin st) m) m

/-- Steps 5 and 6 of R449: a verified image is started; without a usable band entry the device is in RECOVERY (R444). -/
def startImage (slot : Nat) (b : List Byte) (m : Mach) : Mach :=
  if (bootBand m).isNone then enterRecovery m
  else
    let m1 := bootSource (bootLock (endRomCommands m))
    { m1.setF F.hostCtrlEnable 0 with
        dev := { m1.dev with state := .ready }, sec := { m1.sec with bootSlot := slot, image := some (runImage b), romRing := false }
        host := { m1.host with enabled := false, starting := none }, pair := { m1.pair with server := false } }

/-- The image in a slot as read. -/
def slotImage (f : FlashRead) (slot : Nat) : List Byte := let s := if slot = 0 then f.slotA else f.slotB; s.take (imgLen s)

/-- The slot to boot first and whether the other is thereby given up (R452): the record's TRIES are lowered, or TRIAL is cleared. -/
def chooseSlot (m : Mach) : Nat × Bool × Mach :=
  let r := m.bcr
  if !r.trial then (r.active, false, m)
  else if r.tries = 0 then (1 - r.active % 2, true, updateBcr (fun b => { b with trial := false }) m)
  else (r.active, false, updateBcr (fun b => { b with tries := b.tries - 1 }) m)

/-- FALLBACK and its event: slot booted, slot that failed (R449, R452). -/
def fellBack (booted failed : Nat) (m : Mach) : Mach := (m.raise F.secStatusFallback).post 0x0A04 [booted, failed]

/-- The second slot tried after a failed one; a trial that failed is over (R449, R452). -/
def bootOther (f : FlashRead) (failed : Nat) (m : Mach) : Mach :=
  let other := 1 - failed
  let m1 := if m.bcr.trial then updateBcr (fun b => { b with trial := false }) m else m
  match firmwareFails (slotImage f other) m1 with
  | none => fellBack other failed (startImage other (slotImage f other) m1)
  | some _ => if m.pwr.straps.bootSel % 4 = 0 then enterRecovery m1 else { m1 with sec := { m1.sec with romRing := true } }

/-- The ROM has started: the identity key is derived and the boot control record read (R449 steps 1 and 2, R455). -/
def romStart (f : FlashRead) (m : Mach) : Mach :=
  { m with sec := { m.sec with idKey := leBytes 32 Config.identityKey, bcr := readBcr f.recA f.recB } }

/-- BOOT_FROM_FLASH, with what the ROM reads; BOOTSEL 0b11 makes RECOVERY at once. -/
def bootFromFlash (f : FlashRead) (m : Mach) : Mach :=
  if !m.inState [.boot] || m.sec.romRing || m.pwr.straps.bootSel % 4 = 1 then m
  else
    let m0 := romStart f m
    if m.pwr.straps.bootSel % 4 = 3 then enterRecovery m0
    else
      let r := chooseSlot m0
      match firmwareFails (slotImage f r.1) r.2.2 with
      | none =>
        let m1 := startImage r.1 (slotImage f r.1) r.2.2
        if r.2.1 then fellBack r.1 (1 - r.1) m1 else m1
      | some _ => bootOther f r.1 r.2.2

/-- HOST_BOOT: under BOOTSEL 0b01, and in RECOVERY, the ROM serves ring 0; the boot control record is read unless it has been (R446, R449 step 2, R450). -/
def hostBoot (m : Mach) : Mach :=
  let rec_ := fun c => Config.flashRecord m.pwr.resets c
  let m1 := { m with sec := { m.sec with idKey := leBytes 32 Config.identityKey, romRing := true
                                         bcr := if m.sec.bcr.isSome then m.sec.bcr else readBcr (rec_ 0) (rec_ 1) } }
  if m.inState [.recovery] then m1 else if m.inState [.boot] && m.pwr.straps.bootSel % 4 == 1 then m1 else m

/-! ### Staging and activation (R451, R452) -/

/-- In host boot IMAGE_STAGE loads, verifies and starts the image (R450); else it writes the slot not booted (R451). -/
def effImageStage (c : Cmd) (m : Mach) : Mach × Eff :=
  let b := c.img
  if m.inState [.boot] then
    match firmwareFails b m with
    | some n => (authFail 0x0A04 n m, .done (fin (authStatus n)))
    | none => (startImage 2 b (complete c (fin stDONE) m), .wait)
  else if m.onTrial then reject stSTATE m
  else if m.sec.staging.isSome then (m, .wait)
  else ({ m.send (.flash (slotAddr (stageSlot m)) b) with sec := { m.sec with staging := some (c.ring, c.seq, b), staged := none } }, .hold)

/-- The write is complete: the written copy is verified (R451). -/
def flashWritten (back : List Byte) (m : Mach) : Mach :=
  match m.sec.staging with
  | none => m
  | some (r, q, _) =>
    let m1 := { m with sec := { m.sec with staging := none } }
    match firmwareFails back m1 with
    | some n => completeLater r q (fin (authStatus n)) (authFail 0x0A04 n m1)
    | none =>
      completeLater r q (fin stDONE) ({ m1 with sec := { m1.sec with staged := some (imgSvn back) } }.post 0x0A05 [stageSlot m1, imgSvn back])

def chkImageActivate (c : Cmd) : Option Nat := if 1 ≤ c.f 0 1 ∧ c.f 0 1 ≤ 3 ∧ c.zeroFrom 1 then none else some stMALFORMED

/-- IMAGE_ACTIVATE (R452). -/
def effImageActivate (c : Cmd) (m : Mach) : Mach × Eff :=
  match c.f 0 1 with
  | 1 =>
    if m.inState [.run] || m.sec.staged.isNone then reject stSTATE m
    else (activateStaged m, .done (fin stDONE))
  | 2 =>
    if !m.inState [.ready, .run] then reject stSTATE m
    else if !m.onTrial then okEmpty m
    else okDone (updateBcr (fun b => { b with trial := false }) m)
  | _ =>
    let svn := match m.sec.image with | some i => i.svn | none => 0
    if !m.inState [.ready, .run] || m.onTrial then reject stSTATE m
    else if svn ≤ m.sec.svnMin then okEmpty m
    else if m.sec.stepsLeft = 0 then reject stLIMIT m
    else okDone { m with sec := { m.sec with svnMin := svn, stepsLeft := m.sec.stepsLeft - 1 } }

/-! ### Keys (R453, R454) -/

def putSlot (code : Nat) (k : KeySlot) (m : Mach) : Mach :=
  match slotIndex code with
  | some i => { m with sec := { m.sec with slots := setAt m.sec.slots i k } }
  | none => m

def KeyState.code : KeyState → Nat
  | .empty => 0 | .valid => 1 | .revoked => 2

/-- An image command refused for a check of R448. -/
def refuseImage (op check : Nat) (m : Mach) : Mach × Eff := (authFail op check m, .done (fin (authStatus check)))

/-- KEY_INSTALL (R454). -/
def effKeyInstall (c : Cmd) (m : Mach) : Mach × Eff :=
  let b := imgBody c.img
  let slot := fieldLE b 0 1
  let policy := fieldLE b 1 1
  match imgFails 2 (ownerSigners m) c.img m with
  | some n => refuseImage 0x0A02 n m
  | none =>
    if !isOwner slot || 16 ≤ policy || !allZero (sliceBytes b 2 14) then reject stMALFORMED m
    else if (keySlot m slot).state ≠ .empty then reject stSTATE m
    else
      let m1 := putSlot slot ⟨.valid, sliceBytes b 16 48⟩ m
      let s := m1.sec
      okDone ({ m1 with sec := { s with ownerCosign := s.ownerCosign || bitOf policy 0, deny1 := s.deny1 || bitOf policy 1
                                        deny2 := s.deny2 || bitOf policy 2, deny3 := s.deny3 || bitOf policy 3 } }.post 0x0A06 [slot, 1])

/-- Signers of the class of the slot to be revoked. -/
def revokeSigners (b : List Byte) (s : List Nat) : Bool := s.all fun c => isVendor c == isVendor (fieldLE (imgBody b) 0 1)

/-- KEY_REVOKE (R454). -/
def effKeyRevoke (c : Cmd) (m : Mach) : Mach × Eff :=
  let b := imgBody c.img
  let slot := fieldLE b 0 1
  let validOf := if isVendor slot then vendorsValid m else ownersValid m
  let bit := 2 ^ (if isVendor slot then slot else slot - 0x10)
  match imgFails 3 (revokeSigners c.img) c.img m with
  | some n => refuseImage 0x0A03 n m
  | none =>
    if (slotIndex slot).isNone || !allZero (sliceBytes b 1 63) then reject stMALFORMED m
    else if (keySlot m slot).state = .revoked then okEmpty m
    else if slotValid m slot && validOf == bit then reject stLIMIT m
    else okDone ((putSlot slot ⟨.revoked, (keySlot m slot).key⟩ m).post 0x0A06 [slot, 2])

/-! ### Quotes (R456, R457) -/

/-- Bytes 0x000 to 0x0FF of a quote (R456). -/
def quoteBody (nonce : List Byte) (m : Mach) : List Byte :=
  let im := m.sec.image
  leBytes 2 1 ++ leBytes 1 (m.pair.unit % 2) ++ leBytes 1 m.pair.role.code ++ leBytes 1 m.dev.state.code ++ leBytes 1 m.dbg.level
    ++ leBytes 1 m.dbg.highest ++ leBytes 1 m.sec.bootSlot ++ leBytes 8 m.pwr.straps.serial ++ ts128ns m.now ++ leBytes 8 m.tb.k
    ++ leBytes 2 (match im with | some i => i.svn | none => 0) ++ leBytes 1 (match im with | some i => i.compat | none => 0)
    ++ leBytes 1 (ownersValid m + 16 * vendorsValid m) ++ leBytes 4 (match m.safety.cfg with | some g => g.crc | none => 0)
    ++ sliceBytes nonce 0 32 ++ leBytes 32 Config.romDigest
    ++ (match im with | some i => i.digest | none => List.replicate 32 0#8)
    ++ (match m.conv.active with | some _ => m.conv.digest | none => List.replicate 32 0#8)
    ++ (match m.loop.graph with | some g => g.digest | none => List.replicate 32 0#8)
    ++ sliceBytes m.sec.idKey 0 32 ++ List.replicate 16 0#8

/-- QUOTE: one at a time; a further one waits (R457). -/
def effQuote (c : Cmd) (m : Mach) : Mach × Eff :=
  if mirrored c m then (m, .hold)
  else if m.sec.quote.isSome then (m, .wait)
  else ({ m with sec := { m.sec with quote := some ⟨c.ring, c.seq, quoteBody c.pay m, false⟩ } }, .hold)

/-- A signed quote whose record has been written completes its command (R457). -/
def quoteDrain (m : Mach) : Mach :=
  match m.sec.quote with
  | some q =>
    if q.signed && (m.recRing 3).queue.isEmpty then completeLater q.ring q.seq (fin stDONE) { m with sec := { m.sec with quote := none } } else m
  | none => m

/-- The quote is signed: its record, after the certificate where it is the first since reset (R455, R456). -/
def quoteSigned (m : Mach) : Mach :=
  match m.sec.quote with
  | some q =>
    if q.signed then quoteDrain m
    else
      let m1 := if m.sec.certSent then m else postRec 3 0x0A02 (Config.unstatedArg 0x0A02 0 % 2 ^ 32) Config.certificate m
      let m2 := postRec 3 0x0A01 (q.seq % 2 ^ 32) (q.body ++ sliceBytes (Config.quoteSignature q.body) 0 17088) m1
      quoteDrain { m2 with sec := { m2.sec with certSent := true, quote := some { q with signed := true } } }
  | none => m

/-! ### Debug access (R458, R467, R472) -/

/-- A challenge issued on either path; it voids the earlier one. -/
def newChallenge (m : Mach) : Mach :=
  let c := leBytes 32 (Config.challenge m.dbg.challengeCount)
  { m with dbg := { m.dbg with challenge := some c, shown := c, challengeCount := m.dbg.challengeCount + 1 } }

/-- The device as the blocks of a stepped period see it: the snapshot of its intake (R467). -/
def StepRun.at_ (r : StepRun) (m : Mach) : Mach := { m with gal := r.gal, tb := { m.tb with p := r.p } }

/-- RESUME (R467): a period under block steps runs to its end and commits at the graph deadline. -/
def dbgResume (evalRest : Mach → StepRun → Eval) (m : Mach) : Mach :=
  if m.dbg.engine = .running then m
  else
    let m1 := match m.dbg.stepRun with
      | some r => { m with loop := { m.loop with eval := some (evalRest m r) }, dbg := { m.dbg with finishTo := some .running } }
      | none => m
    { m1 with dbg := { m1.dbg with engine := .running, stepRun := none, stepDue := false, blockDue := false, haltBlocked := false } }.post 0x0D02
      [m.dbg.haltedPeriods]

/-- The blocks of a stepped period that are left, run in order. -/
def evalRest (m : Mach) (r : StepRun) : Eval :=
  match m.loop.graph, m.conv.active with
  | some g, some c => r.rest.foldl (evalBlock (r.at_ m) c g) r.eval
  | _, _ => r.eval

/-- The debug level falls below 2: as RESUME, breakpoints cleared, debug-forced entries released at the next intake (R467). -/
def dbgRelease (m : Mach) : Mach :=
  let m1 := dbgResume evalRest m
  let m2 := (List.range 8).foldl (fun m n => m.setF (F.dbgBpCfgKind n) 0) (m1.setF F.dbgCtrlHalt 0)
  { m2 with dbg := { m2.dbg with haltDue := none, bps := List.replicate 8 bpInit, forceDue := [], releaseDue := true } }

/-- The level in force ends (R458): the end of a level-3 session resets the device. -/
def endLevel (m : Mach) : Mach :=
  if m.dbg.level = 0 then m
  else
    let m1 := if 2 ≤ m.dbg.level then dbgRelease m else m
    if m.dbg.level = 3 then deviceReset .debug m1 else { m1 with dbg := { m1.dbg with level := 0, remain := 0 } }.post 0x0A08 []

/-- Signers of a debug token (R458). -/
def tokenSigners (level : Nat) (m : Mach) (s : List Nat) : Bool :=
  if level = 3 then s.any isVendor && (ownersValid m = 0 || s.any isOwner) else ownerSigners m s

/-- DENY of a level. -/
def denied (level : Nat) (m : Mach) : Bool := match level with | 1 => m.sec.deny1 | 2 => m.sec.deny2 | _ => m.sec.deny3

/-- A token checked by R458: the status that refuses it, with the failed check of R448. -/
def tokenFails (b : List Byte) (m : Mach) : Option (Nat × Option Nat) :=
  let t := imgBody b
  let level := fieldLE t 32 1
  let dur := fieldLE t 36 4
  match imgFails 4 (tokenSigners level m) b m with
  | some n => some (authStatus n, some n)
  | none =>
    if level = 0 ∨ 3 < level ∨ dur = 0 ∨ 86400 < dur ∨ !allZero (sliceBytes t 33 3) ∨ !allZero (sliceBytes t 40 24) then some (stMALFORMED, none)
    else if m.dbg.challenge ≠ some (t.take 32) then some (stAUTH, none)
    else if denied level m then some (stAUTH, none)
    else if level = 3 ∧ !m.inState [.ready] then some (stSTATE, none)
    else none

/-- An accepted token: its level is in force for DURATION; level 3 is test mode (R427, R458). -/
def grantLevel (b : List Byte) (m : Mach) : Mach :=
  let t := imgBody b
  let level := fieldLE t 32 1
  let dur := fieldLE t 36 4
  let m1 := if 2 ≤ m.dbg.level ∧ level < 2 then dbgRelease m else m
  { m1 with dev := { m1.dev with test := level == 3 }
            dbg := { m1.dbg with level := level, highest := max m1.dbg.highest level, remain := dur, challenge := none } }.post 0x0A07 [level, dur]

/-- A token delivered by a command, or by SUBMIT with no opcode of its own: the status, and the device after. -/
def tryToken (op : Nat) (b : List Byte) (m : Mach) : Nat × Mach :=
  match tokenFails b m with
  | some (s, some n) => (s, authFail op n m)
  | some (s, none) => (s, m)
  | none => (stDONE, grantLevel b m)

/-- A token of a lower level accepted at level 3 ends the level-3 session (R458). -/
def endsTest (m after : Mach) : Bool := m.dbg.level == 3 && decide (after.dbg.level < 3)

/-- The reset at the end of a level-3 session (R458). -/
def testEnds (m : Mach) : Mach := deviceReset .debug m

def chkDebugUnlock (c : Cmd) : Option Nat :=
  if c.ptr then chkImage (some 64) c else if (c.f 0 1 = 1 ∨ c.f 0 1 = 2) ∧ c.zeroFrom 1 then none else some stMALFORMED

/-- DEBUG_UNLOCK (R458, R459). -/
def effDebugUnlock (c : Cmd) (m : Mach) : Mach × Eff :=
  if c.ptr then
    let r := tryToken 0x0A06 c.img m
    if endsTest m r.2 then (testEnds (complete c (fin r.1) r.2), .wait) else (r.2, .done (fin r.1))
  else if c.f 0 1 = 1 then
    let m1 := newChallenge m
    (m1, .done ⟨stDONE, 0, 0, 0, m1.dbg.shown⟩)
  else if m.dbg.level = 0 then okEmpty m
  else (endLevel (complete c (fin stDONE) m), .wait)

/-- DURATION counted on the AO clock, at a boundary (R458). -/
def debugSeconds (secs : Nat) (m : Mach) : Mach := { m with dbg := { m.dbg with remain := m.dbg.remain - secs } }

/-! ### The rows -/

def infoQuote : CmdInfo := ⟨0x0A01, .inline, false, fun _ => true, [.ready, .run, .safe, .boot, .recovery], fun _ _ => none⟩
def infoKeyInstall : CmdInfo := ⟨0x0A02, .buffer, false, fun _ => true, [.ready], fun c _ => chkImage (some 64) c⟩
def infoKeyRevoke : CmdInfo := ⟨0x0A03, .buffer, false, fun _ => true, [.ready], fun c _ => chkImage (some 64) c⟩
def infoImageStage : CmdInfo := ⟨0x0A04, .buffer, false, fun _ => true, [.ready, .run, .boot, .recovery], fun c _ => chkImage none c⟩
def infoImageActivate : CmdInfo := ⟨0x0A05, .inline, false, fun _ => true, [.ready, .run, .recovery], fun c _ => chkImageActivate c⟩
def infoDebugUnlock : CmdInfo := ⟨0x0A06, .either, false, fun _ => true, runAll, fun c _ => chkDebugUnlock c⟩

def execQuote (d : Desc) (s : State) : Host.Outcome State Fault Refusal := .next (s.run (hostCommand infoQuote effQuote d))
def execKeyInstall (d : Desc) (s : State) : Host.Outcome State Fault Refusal := .next (s.run (hostCommand infoKeyInstall effKeyInstall d))
def execKeyRevoke (d : Desc) (s : State) : Host.Outcome State Fault Refusal := .next (s.run (hostCommand infoKeyRevoke effKeyRevoke d))
def execImageStage (d : Desc) (s : State) : Host.Outcome State Fault Refusal := .next (s.run (hostCommand infoImageStage effImageStage d))
def execImageActivate (d : Desc) (s : State) : Host.Outcome State Fault Refusal := .next (s.run (hostCommand infoImageActivate effImageActivate d))
def execDebugUnlock (d : Desc) (s : State) : Host.Outcome State Fault Refusal := .next (s.run (hostCommand infoDebugUnlock effDebugUnlock d))

def execVinRise (wake : Bool) (s : State) : Host.Outcome State Fault Refusal := .next (s.run (vinRise wake))
def execResetRelease (straps : Straps) (s : State) : Host.Outcome State Fault Refusal := .next (s.run (resetRelease straps))
def execPwrVinLow (mv : Nat) (s : State) : Host.Outcome State Fault Refusal := .next (s.run (whenAlive (vinLow mv)))
def execVinFail (s : State) : Host.Outcome State Fault Refusal := .next (s.run vinFail)
def execPwrThermal (die : Nat) (tj : Int) (s : State) : Host.Outcome State Fault Refusal := .next (s.run (whenAlive (tjHigh die tj)))
def execThermalShutdown (s : State) : Host.Outcome State Fault Refusal := .next (s.run thermalShutdown)
def execThermalRestart (s : State) : Host.Outcome State Fault Refusal := .next (s.run thermalRestart)
def execWake (hours : Nat) (s : State) : Host.Outcome State Fault Refusal := .next (s.run (wakeUp hours))
def execAlarmExpiry (hours : Nat) (s : State) : Host.Outcome State Fault Refusal := .next (s.run (alarmUp hours))
def execRstN (s : State) : Host.Outcome State Fault Refusal := .next (s.run rstPin)
def execPerstN (s : State) : Host.Outcome State Fault Refusal := .next (s.run perstPin)
def execLockstepMismatch (s : State) : Host.Outcome State Fault Refusal := .next (s.run lockstepMismatch)
/-- 10 ms after the mismatch the device resets itself (R443). -/
def execLockstepReset (s : State) : Host.Outcome State Fault Refusal := .next (s.run fun m => if m.pwr.held then deviceReset .lockstep m else m)
def execBootFromFlash (f : FlashRead) (s : State) : Host.Outcome State Fault Refusal := .next (s.run (whenAlive (bootFromFlash f)))
def execHostBoot (s : State) : Host.Outcome State Fault Refusal := .next (s.run (whenAlive hostBoot))
def execFlashWriteDone (readback : List Byte) (s : State) : Host.Outcome State Fault Refusal := .next (s.run (whenAlive (flashWritten readback)))
/-- 1 ms after IMAGE_ACTIVATE RESTART, or PAIR_FW_UPDATE (R452). -/
def execActivateReset (s : State) : Host.Outcome State Fault Refusal := .next (s.run (whenAlive fun m => if m.sec.activateDue then deviceReset .activate m else m))
def execQuoteSigned (s : State) : Host.Outcome State Fault Refusal := .next (s.run (whenAlive quoteSigned))
def execSleep (s : State) : Host.Outcome State Fault Refusal := .next (s.run (whenAlive sleepRow))
def execDebugLevelExpiry (s : State) : Host.Outcome State Fault Refusal := .next (s.run (whenAlive endLevel))
def execChallengeExpiry (s : State) : Host.Outcome State Fault Refusal :=
  .next (s.run (whenAlive fun m => { m with dbg := { m.dbg with challenge := none } }))

end Sys2Proof.Machine
end

