-- ==== Sys2Proof/Machine/Dbg.lean ====
section
/-! DEFINITION. Machine/Dbg.lean: the debug unit: its control bits, halting and stepping, breakpoints, the token buffer and the MDIO frame (R466–R474). -/
set_option Elab.async false
namespace Sys2Proof.Machine

/-! ### Lock violations (R421) -/

/-- A lock violation at a word. -/
def lockViolation (off : Nat) (m : Mach) : Mach :=
  (((m.raise F.devStatusLockviol).setF F.devViolOffset off).bump F.devViolViolCnt 1).post 0x0E01 [off]

/-! ### The engine (R467, R470, R471) -/

def Engine.code : Engine → Nat
  | .running => 0 | .halted => 1 | .blockStep => 2

/-- A halt asked for with a cause: 0 HALT, 1 + n breakpoint n. An earlier cause stands. -/
def askHalt (cause : Nat) (m : Mach) : Mach :=
  if m.dbg.haltDue.isSome then m else { m with dbg := { m.dbg with haltDue := some cause } }

/-- The rest of a stepped period is run; it commits at the graph deadline, and the engine is then HALTED. -/
def finishPeriod (m : Mach) : Mach :=
  match m.dbg.stepRun with
  | some r => { m with loop := { m.loop with eval := some (evalRest m r) }
                       dbg := { m.dbg with stepRun := none, engine := .halted, finishTo := some .halted, haltAt := m.tb.k } }
  | none => { m with dbg := { m.dbg with engine := .halted, haltAt := m.tb.k } }

/-- STEP_BLOCK in BLOCK_STEP: the next block in the order of R51, unless it is the last due. -/
def nextBlock (m : Mach) : Mach :=
  match m.dbg.stepRun, m.loop.graph, m.conv.active with
  | some r, some g, some c =>
    (match r.rest with
     | i :: j :: rest => { m with dbg := { m.dbg with stepRun := some { r with eval := evalBlock (r.at_ m) c g r.eval i, rest := j :: rest } } }
     | _ => finishPeriod m)
  | _, _, _ => finishPeriod m

/-- The engine bits of one write, taken in the order HALT, STEP_BLOCK, STEP_PERIOD, RESUME: the first that has a row applies (R467). -/
def engineBits (halt stepP stepB res : Bool) (m : Mach) : Mach :=
  match m.dbg.engine with
  | .running => if halt then (askHalt 0 m).raise F.dbgCtrlHalt else m
  | .halted =>
    if stepB then { m with dbg := { m.dbg with blockDue := true } }
    else if stepP then { m with dbg := { m.dbg with stepDue := true } }
    else if res then dbgResume evalRest m
    else m
  | .blockStep =>
    if stepB then nextBlock m
    else if stepP then finishPeriod m
    else if res then dbgResume evalRest m
    else m

/-- Entry into HALTED or BLOCK_STEP at a boundary, with its cause. -/
def engineStops (e : Engine) (cause : Nat) (m : Mach) : Mach :=
  { m with dbg := { m.dbg with engine := e, haltAt := m.tb.k, haltedPeriods := 0, haltBlocked := false, stepDue := false, blockDue := false } }.post 0x0D01
    (w64 m.tb.k ++ [cause])

/-- A halt is not permitted to a SENIOR or a SHADOW outside SAFE (R470). -/
def haltPermitted (m : Mach) : Bool := m.inState [.safe] || !(m.pair.role == .senior || m.pair.role == .shadow)

/-- A halt permitted by R470; a TWIN leaves the pair first (R471). -/
def tryStop (e : Engine) (cause : Nat) (m : Mach) : Mach :=
  if !haltPermitted m then m.post 0x0D03 [m.pair.role.code]
  else engineStops e cause (if m.pair.role == .twin && !m.inState [.safe] then roleBoundary (leavePair m) else m)

/-- A halt asked for takes effect at the intake. -/
def haltIntake (m : Mach) : Mach :=
  match m.dbg.haltDue with
  | none => m
  | some c =>
    let m1 := { m.setF F.dbgCtrlHalt 0 with dbg := { m.dbg with haltDue := none } }
    if m.dbg.engine = .running then tryStop .halted c m1 else m1

/-- The period is evaluated as far as the engine is concerned. DESIGN CHOICE: the period at whose intake STEP_BLOCK from HALTED takes its snapshot counts as halted, and the mode manager does not run at that intake (R130, R467). -/
def engineEvaluates (m : Mach) : Bool := m.dbg.engine == .running || (m.dbg.engine == .halted && m.dbg.stepDue)

/-- A graph is evaluated in the period, but for the engine: the periods that can be halted periods. -/
def haltedNow (m : Mach) : Bool := m.dbg.engine != .running && !engineEvaluates m

/-- Cuts of halted periods are as in BLOCKED: HALT_MODE BLOCK, or HOLD_MAX HOLD frames sent (R470). -/
def haltCutsBlocked (m : Mach) : Bool := m.flag F.dbgCfgHaltMode || m.dbg.haltBlocked

/-- HOLD_MAX halted periods have been sent as HOLD in RUN (R470). -/
def holdExpiry (m : Mach) : Mach :=
  if m.dbg.engine != .running && m.inState [.run] && !m.flag F.dbgCfgHaltMode && !m.dbg.haltBlocked
      && decide (m.fld F.dbgCfgHoldMax ≤ m.dbg.haltedPeriods) then
    { m with dbg := { m.dbg with haltBlocked := true } }.post 0x0D04 []
  else m

/-- A halted period at its intake (R468): output entries as in an abandoned one, nothing counted as an overrun, no slack for the servo. -/
def haltPeriod (m : Mach) : Mach :=
  let m1 := holdOutputs (fun _ => true) (holdExpiry m)
  { m1 with loop := { m1.loop with eval := none, overrunLast := false, slack := none }
            dbg := { m1.dbg with haltedPeriods := m1.dbg.haltedPeriods + 1 } }

/-- STEP_BLOCK from HALTED: the snapshot of this intake, and the first due block (R467). -/
def startSteps (m : Mach) : Mach :=
  match m.loop.graph, m.conv.active with
  | some g, some c =>
    let ev : Eval := ⟨m.tb.k, [], m.loop.states, m.loop.sticky, []⟩
    let r : StepRun := match dueBlocks g m.tb.k with
      | i :: rest => ⟨evalBlock m c g ev i, rest, m.gal, m.tb.p⟩
      | [] => ⟨ev, [], m.gal, m.tb.p⟩
    engineStopsAt { m with dbg := { m.dbg with engine := .blockStep, blockDue := false, stepRun := some r } }
  | _, _ => { m with dbg := { m.dbg with blockDue := false } }
where
  /-- DBG_HALT_AT takes the boundary of the entry into BLOCK_STEP. -/
  engineStopsAt (m : Mach) : Mach := { m with dbg := { m.dbg with haltAt := m.tb.k } }

/-! ### Breakpoints (R469) -/

/-- KIND of breakpoint `n`. -/
def bpKind (m : Mach) (n : Nat) : Nat := m.fld (F.dbgBpCfgKind n)

def Mach.bp (m : Mach) (n : Nat) : BpState := m.dbg.bps.getD n bpInit

def Mach.setBp (m : Mach) (n : Nat) (b : BpState) : Mach := { m with dbg := { m.dbg with bps := setAt m.dbg.bps n b } }

/-- The condition of breakpoint `n` is met once more: whether it fires, and the device after. -/
def bpHit (n : Nat) (m : Mach) : Bool × Mach :=
  let b := m.bp n
  if m.fld (F.dbgBpCfgCount n) ≤ b.hits + 1 then
    (true, (m.setBp n { b with hits := 0 }).setF F.dbgStatusBpHit (m.reg.raw F.dbgStatusBpHit ||| 2 ^ n))
  else (false, m.setBp n { b with hits := b.hits + 1 })

/-- Breakpoints that meet their condition, in rising order: those that fire, and the device after. -/
def bpHits (ns : List Nat) (m : Mach) : List Nat × Mach :=
  ns.foldl (fun (r : List Nat × Mach) n => let h := bpHit n r.2; (if h.1 then r.1 ++ [n] else r.1, h.2)) ([], m)

/-- BLOCK breakpoints whose block is due in the period. -/
def bpBlocks (m : Mach) : List Nat :=
  match m.loop.graph with
  | some g => (List.range 8).filter fun n => bpKind m n == 1 && (dueBlocks g m.tb.k).contains (m.fld (F.dbgBpCfgTarget n) % 65536)
  | none => []

/-- The comparison of a SIGNAL breakpoint with the value of its entry; `prev` is the value at the previous commit. -/
def bpCompare (m : Mach) (n : Nat) (v : Word) (prev : Option Word) : Bool :=
  let mask := m.reg.raw (F.dbgBpArgArgHi n)
  let a := v.toNat &&& mask
  let b := m.reg.raw (F.dbgBpArgArgLo n) &&& mask
  match m.fld (F.dbgBpCfgCmp n) with
  | 0 => a == b
  | 1 => a != b
  | 2 => decide (signed 32 b < signed 32 a)
  | 3 => decide (signed 32 a < signed 32 b)
  | _ => (match prev with | some p => (p.toNat &&& mask) != a | none => false)

/-- What a SIGNAL breakpoint remembers of an output commit, for the next one: its condition and the value of its entry. -/
def bpNote (m : Mach) (n : Nat) : Mach :=
  if bpKind m n ≠ 2 then m
  else
    let b := m.bp n
    let v := m.gv (m.fld (F.dbgBpCfgTarget n))
    m.setBp n { b with held := bpCompare m n v b.prev, prev := some v }

/-- A SIGNAL breakpoint at an output commit: its condition holds and did not hold at the one before. -/
def bpSignal (r : List Nat × Mach) (n : Nat) : List Nat × Mach :=
  let m1 := bpNote r.2 n
  if bpKind r.2 n == 2 && (m1.bp n).held && !(r.2.bp n).held then (let h := bpHit n m1; (if h.1 then r.1 ++ [n] else r.1, h.2)) else (r.1, m1)

/-- The lowest breakpoint that fired asks for a halt. -/
def bpFire (r : List Nat × Mach) : Mach := match r.1 with | n :: _ => askHalt (1 + n) r.2 | [] => r.2

/-- SIGNAL breakpoints at an output commit: evaluated while the engine is RUNNING, else only noted (R469). -/
def bpCommit (m : Mach) : Mach :=
  if m.dbg.engine = .running then bpFire ((List.range 8).foldl bpSignal ([], m)) else (List.range 8).foldl bpNote m

/-- The commit of a stepped period whose blocks have all run: an output commit like any other (R467, R469). -/
def finishCommit (m : Mach) : Mach :=
  match m.dbg.finishTo with
  | some _ =>
    let m1 := bpCommit (commitEval m)
    { m1 with dbg := { m1.dbg with finishTo := none } }
  | none => m

/-- Device time of a TIME breakpoint in ns. -/
def bpTime (m : Mach) (n : Nat) : Nat :=
  let a := m.fld2 (F.dbgBpArgArgLo n) (F.dbgBpArgArgHi n)
  bitsOf a 30 34 * 1000000000 + bitsOf a 0 30

/-- TIME breakpoints, at the boundary to which their time maps by R217. -/
def bpBoundary (m : Mach) : Mach :=
  if m.dbg.engine = .running then
    bpFire (bpHits ((List.range 8).filter fun n => bpKind m n == 3 && decide (bpTime m n ≤ m.now) && decide (m.now < bpTime m n + m.tb.p)) m)
  else m

/-- BLOCK breakpoints at an intake whose period is to be evaluated: the engine stops before INST (R467). -/
def bpIntake (m : Mach) : Mach :=
  if m.dbg.engine ≠ .running then m
  else
    let r := bpHits (bpBlocks m) m
    match r.1, r.2.loop.graph, r.2.conv.active with
    | n :: _, some g, some c =>
      let m1 := tryStop .blockStep (1 + n) r.2
      if m1.dbg.engine = .blockStep then
        let inst := m1.fld (F.dbgBpCfgTarget n) % 65536
        let due := dueBlocks g m1.tb.k
        let before := due.takeWhile (· ≠ inst)
        { m1 with dbg := { m1.dbg with stepRun := some ⟨before.foldl (evalBlock m1 c g) ⟨m1.tb.k, [], m1.loop.states, m1.loop.sticky, []⟩, due.drop before.length, m1.gal, m1.tb.p⟩ } }
      else m1
    | _, _, _ => r.2

/-! ### Debug forces (R30, R466, R474) -/

/-- The debug forces of an intake put in force, within the limit of R30. -/
def applyForces (m : Mach) : Mach :=
  m.dbg.forceDue.foldl (fun m x => if isForced m x.1 || decide (forcedCount m < 64) then forceEntry x.1 x.2 true m else m) m

/-- The release of debug-forced entries and the debug forces, at an intake after the commands. -/
def debugForces (m : Mach) : Mach :=
  let m1 := applyForces (if m.dbg.releaseDue then m.conv.forcedDebug.foldl (fun m i => releaseEntry i m) m else m)
  { m1 with dbg := { m1.dbg with releaseDue := false } }

/-- The end of an intake's debug forces: they stand over a GALLERY_FORCE that a FENCE let act after them (R466). -/
def lastForces (m : Mach) : Mach :=
  let m1 := applyForces m
  { m1 with dbg := { m1.dbg with forceDue := [] } }

/-! ### Token buffer, MDIO and the control word (R472, R474) -/

/-- The bytes of the token buffer, their length taken from the header. -/
def tokenBytes (m : Mach) : List Byte :=
  let at_ := fun i => sget (fun _ => (0#8 : Byte)) m.dbg.token i
  let head := (List.range 512).map at_
  (List.range (min (imgLen head) 65536)).map at_

/-- SUBMIT: the token buffer checked (R472). -/
def submitToken (m : Mach) : Mach :=
  let r := tryToken (Config.unstatedArg 0x0A09 0) (tokenBytes m) m
  let res := if r.1 = stDONE then 1 else if r.1 = stMALFORMED then 2 else if r.1 = stAUTH then 3 else 4
  if endsTest m r.2 then testEnds r.2 else { r.2 with dbg := { r.2.dbg with tokenRes := res } }

/-- A clause 45 frame starts; GO stays set until it is complete (R420). -/
def mdioStart (m : Mach) : Mach :=
  let w := m.reg.raw F.dbgMdioData + m.reg.raw F.dbgMdioDevad * 2 ^ 16 + m.reg.raw F.dbgMdioPrtad * 2 ^ 21 + m.reg.raw F.dbgMdioOp * 2 ^ 26
  { (m.setF F.dbgMdioGo 1).send (.mdio w) with dbg := { m.dbg with mdioBusy := true, mdioAgain := false } }

/-- GO written: the frame starts, or is pending while one is in progress (R426). -/
def mdioGo (m : Mach) : Mach := if m.dbg.mdioBusy then { m with dbg := { m.dbg with mdioAgain := true } } else mdioStart m

/-- A frame is complete: a read's result, and GO clears unless a new request is pending, whose frame starts (R426). -/
def mdioDone (data : Nat) (m : Mach) : Mach :=
  if !m.dbg.mdioBusy then m
  else
    let m1 := if 2 ≤ m.reg.raw F.dbgMdioOp then m.setF F.dbgMdioData data else m
    if m1.dbg.mdioAgain then mdioStart m1 else { m1.setF F.dbgMdioGo 0 with dbg := { m1.dbg with mdioBusy := false } }

/-- A write of DBG_CTRL: each bit set acts if the level in force permits it, else the write is a lock violation (R472, R474). -/
def writeDbgCtrl (v : Nat) (m : Mach) : Mach :=
  let lv := m.dbg.level
  let b := fun n => bitOf v n
  let low := (v &&& 0x11F != 0 && decide (lv < 2)) || (b 7 && decide (lv < 1))
  let m0 := if low then lockViolation 0x4404 m else m
  let m1 := if 2 ≤ lv then engineBits (b 0) (b 1) (b 2) (b 3) m0 else m0
  let m2 := if b 4 && decide (2 ≤ lv) then { m1 with dbg := { m1.dbg with releaseDue := true } } else m1
  let m3 := if b 5 then newChallenge m2 else m2
  let m4 := if b 6 then submitToken m3 else m3
  let m5 := if b 7 && decide (1 ≤ lv) then endLevel m4 else m4
  if b 8 && decide (2 ≤ lv) then deviceReset .debug m5 else m5

/-- A row of DBG_CTRL: the register is reached only where the whole window decodes (R427). -/
def dbgRow (v : Nat) (m : Mach) : Mach := if m.inState [.boot, .recovery] || m.dev.test then m else writeDbgCtrl v m

def execHalt (s : State) : Host.Outcome State Fault Refusal := .next (s.run (whenAlive (dbgRow 0x001)))
def execStepPeriod (s : State) : Host.Outcome State Fault Refusal := .next (s.run (whenAlive (dbgRow 0x002)))
def execStepBlock (s : State) : Host.Outcome State Fault Refusal := .next (s.run (whenAlive (dbgRow 0x004)))
def execResume (s : State) : Host.Outcome State Fault Refusal := .next (s.run (whenAlive (dbgRow 0x008)))
def execReleaseAll (s : State) : Host.Outcome State Fault Refusal := .next (s.run (whenAlive (dbgRow 0x010)))
def execNewChallenge (s : State) : Host.Outcome State Fault Refusal := .next (s.run (whenAlive (dbgRow 0x020)))
def execSubmit (s : State) : Host.Outcome State Fault Refusal := .next (s.run (whenAlive (dbgRow 0x040)))
def execEndLevel (s : State) : Host.Outcome State Fault Refusal := .next (s.run (whenAlive (dbgRow 0x080)))
def execReset (s : State) : Host.Outcome State Fault Refusal := .next (s.run (whenAlive (dbgRow 0x100)))
def execMdioFrameDone (data : Nat) (s : State) : Host.Outcome State Fault Refusal := .next (s.run (whenAlive (mdioDone data)))
def execHaltHoldExpiry (s : State) : Host.Outcome State Fault Refusal := .next (s.run (whenAlive holdExpiry))

end Sys2Proof.Machine
end

