-- ==== Sys2Proof/Machine/RegView.lean ====
section
/-! DEFINITION. Machine/RegView.lean: what a read of the setup window returns: stored fields by the field tables, and read-only fields that show the device's state (R417–R420, R428). -/
set_option Elab.async false
namespace Sys2Proof.Machine

/-- The fields of the word at an offset. -/
def fieldsAt (off : Nat) : List FieldRow :=
  ((blockRows (off / 0x400)).filter fun r =>
    if r.stride = 0 then off == r.off else decide (r.off ≤ off) && (off - r.off) % r.stride == 0 && decide ((off - r.off) / r.stride < r.count)).map
      fun r => { r with off := off }

/-- A field row as the operations on registers take it. -/
def FieldRow.ref (r : FieldRow) : FieldRef := ⟨r.off, r.lo, r.w, r.voted, r.reset, 0, 2 ^ r.w - 1⟩

/-! ### Read-only fields derived from the state: low bit and value, by word -/

def viewDev (m : Mach) (off : Nat) : List (Nat × Nat) :=
  let s := m.pwr.straps
  match off with
  | 0x00 => [(16, s.stepping), (24, s.grade)]
  | 0x08 => [(0, m.dev.state.code), (3, m.pair.unit), (4, s.bootSel), (6, b2n m.dev.test)]
  | 0x28 => [(0, s.serial)]
  | 0x2C => [(0, s.serial / 2 ^ 32)]
  | _ => []

def viewHost (m : Mach) (off : Nat) : List (Nat × Nat) :=
  if off = 0x400 then [(0, b2n m.serving), (5, b2n !m.host.folds.isEmpty)] else []

def viewTb (m : Mach) (off : Nat) : List (Nat × Nat) :=
  let t := m.tb
  match off with
  | 0x800 => [(0, b2n t.timeValid), (1, t.sync.code), (3, t.src.code), (5, b2n t.pllLock), (6, b2n t.relock.isSome),
              (7, b2n (match t.converge with | some (.slew _) => true | _ => false))]
  | 0x808 => [(0, t.p)]
  | 0x834 => [(0, unsigned 32 (sat32 (thetaNs t.theta)))]
  | 0x838 => [(0, unsigned 32 (roundDiv t.y 65536))]
  | 0xA00 => [(0, t.band)]
  | _ => []

def viewZl (m : Mach) (off : Nat) : List (Nat × Nat) :=
  if off = 0xC00 then [(0, maskOf 16 fun l => (m.lane l).step == 8)]
  else if 0xC80 ≤ off ∧ off < 0xCC0 then
    let x := m.lane ((off - 0xC80) / 4)
    [(0, unsigned 16 x.d), (16, x.spread)]
  else if 0xCC0 ≤ off ∧ off < 0xD40 then
    let x := m.lane ((off - 0xCC0) / 8)
    if off % 8 = 0 then
      [(0, min x.step 7), (4, x.attach.code), (8, match x.attach, x.entry with | .bound, some h => h | _, _ => 0xFF)]
    else [(16, x.margin)]
  else []

def viewPair (m : Mach) (off : Nat) : List (Nat × Nat) :=
  let p := m.pair
  if off = 0x1000 then
    [(0, p.role.code), (3, p.unit), (4, b2n (m.path 0).inService), (5, b2n (m.path 1).inService), (6, b2n p.partnerInService), (7, b2n p.acceptJoin)]
  else if off = 0x1008 then [(0, p.epoch)]
  else if off = 0x100C then [(0, p.claim)]
  else if off = 0x1020 ∨ off = 0x1028 then
    let x := m.path ((off - 0x1020) / 8)
    [(0, x.step), (8, x.delay)]
  else []

/-- LOOP registers; B_NS shows its reset value until the device is in READY (R71). -/
def viewLoop (m : Mach) (off : Nat) : List (Nat × Nat) :=
  let l := m.loop
  match off with
  | 0x1400 => [(0, 2 * b2n l.graph.isSome + b2n l.staged.isSome), (2, b2n (evaluates m)), (3, b2n l.overrunLast)]
  | 0x1408 => [(0, if m.inState [.ready, .run, .safe] then graphBudget m.tb.p else 0)]
  | 0x140C => [(0, match l.graph with | some g => twc g.steps | none => 0)]
  | _ => []

def viewMeas (m : Mach) (off : Nat) : List (Nat × Nat) :=
  let e := fun s => m.meas.echo.getD s echoInit
  if off = 0x1800 then [(0, b2n m.conv.active.isSome)]
  else if off = 0x1C00 then [(0, b2n m.meas.adc.isSome)]
  else if off = 0x2400 then
    [(0, maskOf 8 fun s => (e s).cfg.isSome && (e s).trig.isNone && (e s).waiting.isNone), (8, maskOf 8 fun s => (e s).trig.isSome || (e s).waiting.isSome)]
  else if off = 0x2404 then [(0, echoFree m)]
  else if off = 0x3800 then [(0, maskOf 32 fun n => (m.meas.siphon.getD n siphonInit).active)]
  else if 0x3900 ≤ off ∧ off < 0x3A00 then
    let c := m.meas.siphon.getD ((off - 0x3900) / 8) siphonInit
    if off % 8 = 0 then [(0, c.remain), (24, c.prio), (28, b2n c.active), (29, b2n c.paced), (30, b2n c.host), (31, b2n c.linked)] else [(0, c.doneCnt)]
  else []

def viewNet (m : Mach) (off : Nat) : List (Nat × Nat) :=
  let c := fun n => m.net.can.getD n canInit
  if off = 0x2800 then [(0, b2n ((m.net.ports.map EthPort.link).getD 0 false)), (1, b2n ((m.net.ports.map EthPort.link).getD 1 false))]
  else if off = 0x2C00 then [(0, (c 0).state), (2, b2n (canListens m (c 0))), (3, (c 1).state), (5, b2n (canListens m (c 1)))]
  else if off = 0x2C08 ∨ off = 0x2C10 then let x := c ((off - 0x2C08) / 8); [(0, x.txErr), (16, min x.rxErr 255)]
  else []

def viewPwm (m : Mach) (off : Nat) : List (Nat × Nat) :=
  if off = 0x3000 then [(0, b2n (m.pwm.latched != 0))]
  else if off = 0x3008 then [(0, m.pwm.latched), (8, m.pwm.active)]
  else if off = 0x320C then [(24, maskOf 6 fun n => onLantern m n && (m.pwm.lan.getD n lanternInit).uvHold)]
  else if 0x3058 ≤ off ∧ (off - 0x3058) % 0x20 = 0 ∧ (off - 0x3058) / 0x20 < 12 then
    let c := m.pwm.chans.getD ((off - 0x3058) / 0x20) pwmChInit
    [(0, c.cmp), (25, b2n c.forced.isSome), (26, b2n c.dutyBad)]
  else []

def viewSafe (m : Mach) (off : Nat) : List (Nat × Nat) :=
  let s := m.safety
  match off with
  | 0x3400 => let w := statusWord m; [(0, w), (8, w / 256), (12, w / 4096), (13, w / 8192), (14, w / 16384)]
  | 0x3404 => let w := faultWord m; [(0, w), (8, w / 256), (16, w / 65536), (20, w / 1048576)]
  | 0x3408 => [(0, safetyCrc m)]
  | 0x340C => [(0, s.sia), (8, s.sib), (16, s.soaRb), (20, s.sobRb), (24, s.stp)]
  | _ => []

def viewPwr (m : Mach) (off : Nat) : List (Nat × Nat) :=
  let r := b2n m.pwr.rails
  match off with
  | 0x3C00 => [(0, r), (1, r), (2, r), (3, r), (4, r)]
  | 0x3C10 => [(0, m.pwr.vinMeas), (16, m.pwr.vmidMeas)]
  | 0x3C14 => [(0, unsigned 16 m.pwr.tjCtrl), (16, unsigned 16 m.pwr.tjPwr)]
  | _ => []

def viewSec (m : Mach) (off : Nat) : List (Nat × Nat) :=
  let s := m.sec
  let k := fun n => (s.slots.getD n ⟨.empty, []⟩).state.code
  let im := s.image
  if off = 0x4000 then
    [(0, s.bootSlot), (2, b2n m.onTrial), (4, m.dbg.level), (6, b2n s.staged.isSome), (8, b2n s.ownerCosign),
     (9, b2n s.deny1 + 2 * b2n s.deny2 + 4 * b2n s.deny3)]
  else if off = 0x4004 then (List.range 6).map fun n => (2 * n, k n)
  else if off = 0x4008 then [(0, s.svnMin), (16, match im with | some i => i.svn | none => 0)]
  else if off = 0x400C then [(0, s.stepsLeft)]
  else if off = 0x4010 then [(0, match im with | some i => i.version | none => 0)]
  else if off = 0x4014 then [(0, match im with | some i => i.compat | none => 0)]
  else if off = 0x4018 then [(0, m.dbg.remain)]
  else if 0x4020 ≤ off ∧ off < 0x4040 then [(0, fieldLE s.idKey (off - 0x4020) 4)]
  else []

def viewDbg (m : Mach) (off : Nat) : List (Nat × Nat) :=
  let d := m.dbg
  if off = 0x4400 then
    [(0, d.engine.code), (2, b2n d.haltBlocked), (3, b2n (match d.probeAt with | some t => decide (m.tb.uptime < t + 1000000) | none => false)),
     (4, d.tokenRes), (16, match d.stepRun with | some r => r.rest.headD 0xFFFF | none => 0xFFFF)]
  else if off = 0x4404 then [(1, b2n d.stepDue), (2, b2n d.blockDue), (4, b2n d.releaseDue)]
  else if off = 0x440C then [(29, b2n d.mdioBusy)]
  else if off = 0x4410 then [(0, d.haltAt)]
  else if off = 0x4414 then [(0, d.haltAt / 2 ^ 32)]
  else if 0x4420 ≤ off ∧ off < 0x4440 then [(0, fieldLE d.shown (off - 0x4420) 4)]
  else []

/-- The derived fields of a word, by block (R428). -/
def viewAt (m : Mach) (off : Nat) : List (Nat × Nat) :=
  match off / 0x400 with
  | 0 => viewDev m off
  | 1 => viewHost m off
  | 2 => viewTb m off
  | 3 => viewZl m off
  | 4 => viewPair m off
  | 5 => viewLoop m off
  | 6 => viewMeas m off
  | 7 => viewMeas m off
  | 9 => viewMeas m off
  | 10 => viewNet m off
  | 11 => viewNet m off
  | 12 => viewPwm m off
  | 13 => viewSafe m off
  | 14 => viewMeas m off
  | 15 => viewPwr m off
  | 16 => viewSec m off
  | 17 => viewDbg m off
  | _ => []

/-- The current value of a field: derived where it shows state, else stored (R420). -/
def fieldValue (m : Mach) (view : List (Nat × Nat)) (r : FieldRow) : Nat :=
  match view.find? fun v => v.1 == r.lo with
  | some v => v.2 % 2 ^ r.w
  | none => m.reg.raw r.ref

/-- The offset a request reaches: in BOOT, RECOVERY and test mode only the low 12 bits are decoded (R427). -/
def decodeOff (m : Mach) (off : Nat) : Nat := if m.inState [.boot, .recovery] || m.dev.test then off % 0x1000 else off % 0x10000

/-- A read of the word that holds the byte at an offset; a reserved offset reads zero (R417–R419). -/
def regRead (m : Mach) (off : Nat) : Word :=
  let o := decodeOff m (off - off % 4)
  let view := viewAt m o
  BitVec.ofNat 32 ((fieldsAt o).foldl (fun a r => a + fieldValue m view r * 2 ^ r.lo) 0)

end Sys2Proof.Machine
end

