-- ==== Sys2Proof/Machine/RegOps.lean ====
section
/-! DEFINITION. Machine/RegOps.lean: writes to the setup window, voted fields, and errors of on-chip SRAM (R417–R431). -/
set_option Elab.async false
namespace Sys2Proof.Machine

/-! ### Writes (R420, R421, R425) -/

/-- The LOCK of the block of an offset is set. -/
def locked (m : Mach) (off : Nat) : Bool :=
  match lockOff (off / 0x400) with
  | some l => sget (fun _ => 0) m.reg.a (8 * l) == 1
  | none => false

/-- The level a field of the DBG block needs for a write (R472). -/
def dbgLevel (off : Nat) : Nat := if off = 0x440C then 0 else 2

/-- A write to the field counts as one: for W1C and W1S fields only ones do. -/
def writesField (r : FieldRow) (v : Nat) : Bool :=
  match r.acc with
  | .ro => false
  | .w1c => bitsOf v r.lo r.w != 0
  | .w1s => bitsOf v r.lo r.w != 0
  | _ => true

/-- The write of the field is refused: a locked RWL field, a WO field already written, a DBG field above the level in force. -/
def fieldBarred (m : Mach) (v : Nat) (r : FieldRow) : Bool :=
  writesField r v &&
    ((r.acc == .rwl && locked m r.off) || (r.acc == .wo && m.reg.raw r.ref != r.reset)
      || (r.off / 0x400 == 17 && r.off != 0x4404 && decide (m.dbg.level < dbgLevel r.off)))

/-- One field of a written word (R420). -/
def writeField (v : Nat) (m : Mach) (r : FieldRow) : Mach :=
  let x := bitsOf v r.lo r.w
  let old := m.reg.raw r.ref
  if fieldBarred m v r then m
  else match r.acc with
    | .rw => m.setF r.ref x
    | .rwl => m.setF r.ref x
    | .wo => m.setF r.ref x
    | .w1c => m.setF r.ref (old - (old &&& x))
    | .w1s => if x = 0 then m else m.setF r.ref (old ||| x)
    | .ro => m

/-- The offsets whose LOCK they are. -/
def isLock (off : Nat) : Bool := lockOff (off / 0x400) == some off

/-- The writable fields of a word take their parts of a value; one violation for the write (R421). -/
def writeFields (off v : Nat) (m : Mach) : Mach :=
  let fs := fieldsAt off
  let m1 := fs.foldl (writeField v) m
  if fs.any (fieldBarred m v) then lockViolation off m1 else m1

/-- The words whose write starts an action of the device, beside its fields; a reserved offset ignores a write (R419). `ns` is the time since the last boundary. -/
def writeWord (ns off v : Nat) (m : Mach) : Mach :=
  if (fieldsAt off).isEmpty then m
  else if off = 0x820 then (if bitOf v 0 then snapTime ns m else m)
  else if off = 0x3C04 then (if bitOf v 0 then askSleep m else m)
  else if off = 0x4404 then writeDbgCtrl v m
  else
    let m1 := writeFields off v m
    if off = 0x404 then writeEnable (m.flag F.hostCtrlEnable) (m1.flag F.hostCtrlEnable) m1
    else if off = 0x440C then (if bitOf v 28 then mdioGo (m1.setF F.dbgMdioGo (m.reg.raw F.dbgMdioGo)) else m1)
    else if 0x480 ≤ off ∧ off < 0x680 ∧ off % 0x20 = 0 then
      (let r := (off - 0x480) / 0x20
       m1.setRing r { m1.ring r with prio := m1.fld (F.hostCmdRingPrio r) })
    else if off / 0x400 = 12 then pwmSync ns m1
    else if 0x4440 ≤ off ∧ off < 0x44C0 then (if 2 ≤ m.dbg.level then m1.setBp ((off - 0x4440) / 16) bpInit else m1)
    else m1

/-- A write request of the host (R417, R419, R420): refused unless it is one aligned word with all byte enables. -/
def hostWriteReg (ns off be : Nat) (v : Word) (m : Mach) : Mach :=
  if off % 4 ≠ 0 ∨ be ≠ 15 then (m.raise F.devStatusBadAccess).post 0x0E04 [off]
  else writeWord ns (decodeOff m off) v.toNat m

/-- Bits of a word that belong to no field. -/
def reservedOf (off v : Nat) : Nat := (fieldsAt off).foldl (fun a r => a - bitsOf v r.lo r.w * 2 ^ r.lo) v

/-- A write that changes a reserved bit of a listed word in READY, RUN or SAFE (R422): every reserved bit reads as zero. -/
def changesReserved (off be : Nat) (v : Word) (m : Mach) : Bool :=
  let o := decodeOff m off
  m.alive && m.inState [.ready, .run, .safe] && off % 4 == 0 && be == 15 && !(fieldsAt o).isEmpty && reservedOf o v.toNat != 0

/-! ### Voted fields (R425) -/

/-- Words upset in one copy: the voted fields of the word take their parts of it. -/
def upsetWord (m : Mach) (u : Nat × Nat × Word) : Mach :=
  let v := u.2.2.toNat
  (fieldsAt u.1).foldl (fun (m : Mach) r =>
    if !r.voted then m
    else
      let p := sput (fun _ => r.reset) r.ref.key (bitsOf v r.lo r.w)
      { m with reg := match u.2.1 with
          | 0 => { m.reg with a := p m.reg.a }
          | 1 => { m.reg with b := p m.reg.b }
          | _ => { m.reg with c := p m.reg.c } }) m

/-- The check of one voted field: its copies compared, one corrected, or SAFE without a majority. -/
def voteField (m : Mach) (r : FieldRow) : Mach :=
  let g := fun t => sget (fun _ => r.reset) t r.ref.key
  let a := g m.reg.a
  let b := g m.reg.b
  let c := g m.reg.c
  let key := r.ref.key
  if a = b ∧ b = c then { m with dev := { m.dev with voteRun := m.dev.voteRun.filter (· ≠ key) } }
  else
    let m1 := m.setF r.ref (vote a b c)
    if a = b ∨ b = c ∨ a = c then
      let m2 := ((m1.raise F.devStatusVoteFix).bump F.devVoteFixCnt 1).setF F.devVoteLastOfs r.off
      let m3 := if m.dev.voteRun.contains key then m2 else m2.post 0x0E02 [r.off]
      { m3 with dev := { m3.dev with voteRun := insertNat key m3.dev.voteRun } }
    else (enterSafe 3 0 m1).post 0x0E03 [r.off]

/-- Words with a voted field that some copy lists or that is in a run. -/
def votedWords (m : Mach) : List Nat :=
  ((m.reg.a ++ m.reg.b ++ m.reg.c).map Prod.fst ++ m.dev.voteRun).foldl (fun a k => insertNat (k / 32 * 4) a) []

def voteWord (m : Mach) (off : Nat) : Mach := ((fieldsAt off).filter FieldRow.voted).foldl voteField m

/-- VOTE_CHECK at a boundary: every voted field; one that no copy lists is at its reset value in all three. -/
def voteBoundary (m : Mach) : Mach := (votedWords m).foldl voteWord m

/-! ### SRAM errors (R431) -/

/-- An error found in a region: corrected, or in a word that lane `l` uses, or anywhere else. -/
def eccError (region addr : Nat) (corrected : Bool) (lane : Option Nat) (m : Mach) : Mach :=
  if corrected then (((m.bump F.devEccCeCnt 1).setF F.devEccLastRegion region).raise F.devStatusEccCe).post 0x0E05 [region, addr]
  else match lane with
    | some l => laneFault l m
    | none => enterSafe 1 region m

/-! ### The rows -/

/-- Time since the boundary of a write that carries none: left open. -/
def writeNs (m : Mach) : Nat := Config.unstatedArg 0x0820 m.tb.k

/-- REGISTER_WRITE: a write that changes a reserved bit has no stated behaviour (R422). -/
def execRegisterWrite (off be : Nat) (value : Word) (s : State) : Host.Outcome State Fault Refusal :=
  if changesReserved off be value s.m then .fault .reservedBitChanged
  else .next (s.run fun m => if m.alive then hostWriteReg (writeNs m) off be value m else m)

/-- LOCK_SET: 1 written to a LOCK. -/
def execLockSet (off : Nat) (s : State) : Host.Outcome State Fault Refusal :=
  .next (s.run fun m => if m.alive && isLock (decodeOff m off) then writeWord 0 (decodeOff m off) 1 m else m)

def execSnap (ns : Nat) (s : State) : Host.Outcome State Fault Refusal := .next (s.run fun m => if m.alive then snapTime ns m else m)

/-- HOST_ENABLE: HOST_CTRL written; `cells` are bytes of host memory that the device will read back. -/
def execHostEnable (value : Word) (cells : List Host.Cell) (s : State) : Host.Outcome State Fault Refusal :=
  if changesReserved 0x404 15 value s.m then .fault .reservedBitChanged
  else .next (s.run fun m => if m.alive then writeWord 0 0x404 value.toNat { m with hostMem := hostStores m.hostMem cells } else m)

/-- One word of a read request: the copies of every voted field are compared, and the word goes to the host (R417, R425). -/
def hostReadWord (m : Mach) (off : Nat) : Mach := let m1 := voteBoundary m; m1.send (.readData off (regRead m1 off))

/-- A read request of the host over the aligned words that `n` bytes from an offset touch, word by word in rising order (R417). -/
def hostRead (off n : Nat) (m : Mach) : Mach := ((List.range ((off % 4 + n + 3) / 4)).map fun i => off - off % 4 + 4 * i).foldl hostReadWord m

/-- A read of the host that begins at an offset, with the upsets it finds: the row stands for each word of a request. -/
def execVotedFieldRead (off : Nat) (upsets : List (Nat × Nat × Word)) (s : State) : Host.Outcome State Fault Refusal :=
  .next (s.run fun m => if m.alive then hostRead off 1 (upsets.foldl upsetWord m) else m)

/-- SRAM_ECC_ERROR: scrubbing goes on while the Stewards are held; the re-placement of R62 does not. -/
def execSramEccError (region addr : Nat) (corrected : Bool) (lane : Option Nat) (s : State) : Host.Outcome State Fault Refusal :=
  .next (s.run fun m => if m.alive && !(m.pwr.held && lane.isSome && !corrected) then eccError region addr corrected lane m else m)

/-- GO: DBG_MDIO written whole. -/
def execGo (value : Word) (s : State) : Host.Outcome State Fault Refusal :=
  if changesReserved 0x440C 15 value s.m then .fault .reservedBitChanged
  else .next (s.run (whenAlive fun m => if m.inState [.boot, .recovery] || m.dev.test then m else writeWord 0 0x440C value.toNat m))

end Sys2Proof.Machine
end

