-- ==== Sys2Proof/Machine/Luwin.lean ====
section
/-! DEFINITION. Machine/Luwin.lean: the transactions of the Luwin port (R462–R466). -/
set_option Elab.async false
namespace Sys2Proof.Machine

/-- Status codes (R464). -/
def lwDONE : Nat := 0x3C
def lwBUSY : Nat := 0x5A
def lwREFUSED : Nat := 0x66
def lwBARRED : Nat := 0x69
def lwBADFRAME : Nat := 0x96

/-- CRC-16 of a request over HDR, ADDR and the data words, in the order sent (R463). -/
def lwCrc (hdr addr : Nat) (data : List Word) : Nat :=
  crcMsb 16 0x1021 0xFFFF (beBytes 1 hdr ++ beBytes 4 addr ++ data.flatMap fun w => beBytes 4 w.toNat)

/-- A response: STATUS, the data words and the CRC-16 of both (R463). -/
def Mach.lwSend (m : Mach) (status : Nat) (data : List Word) : Mach :=
  m.send (.luwin status data (crcMsb 16 0x1021 0xFFFF (beBytes 1 status ++ data.flatMap fun w => beBytes 4 w.toNat)))

/-- OP and CNT of HDR. -/
def lwOp (hdr : Nat) : Nat := bitsOf hdr 6 2
def lwWords (hdr : Nat) : Nat := bitsOf hdr 2 4 + 1

/-- The areas of the address map (R465). -/
inductive LwArea where
  | window | token | gallery | echo | loop | journals | firmware | flowstone | none
  deriving DecidableEq, Repr

def lwArea (a : Nat) : LwArea :=
  if a < 0x10000 then .window
  else if 0x01000000 ≤ a ∧ a < 0x01010000 then .token
  else if a < 0x10000000 ∨ 0x14000000 ≤ a then .none
  else if a < 0x10800000 then .gallery
  else if a < 0x11800000 then .echo
  else if a < 0x12000000 then .loop
  else if a < 0x13000000 then .journals
  else if a < 0x13800000 then .firmware
  else .flowstone

/-- Offsets of the DBG block. -/
def inDbg (o : Nat) : Bool := decide (0x4400 ≤ o) && decide (o < 0x4800)

/-- What refuses a read of one word; a window word is the one its address decodes to (R427, R465). -/
def lwReadBar (m : Mach) (a : Nat) : Option Nat :=
  let need := fun n => if m.dbg.level < n then some lwREFUSED else Option.none
  match lwArea a with
  | .window => if decodeOff m a < 8 || inDbg (decodeOff m a) then Option.none else need 1
  | .token => Option.none
  | .journals => need 3
  | .firmware => need 3
  | .none => some lwBARRED
  | _ => need 1

/-- Level 3 and READY. -/
def lwRawWrite (m : Mach) : Option Nat :=
  if m.dbg.level < 3 then some lwREFUSED else if m.inState [.ready] then Option.none else some lwBARRED

/-- A write of a window word is refused by a lock, or by the level a DBG field needs (R472). -/
def lwWindowBar (m : Mach) (a : Nat) (v : Word) : Option Nat :=
  let o := decodeOff m a
  if inDbg o then
    (if o = 0x4404 then
       (if (v.toNat &&& 0x11F != 0 && decide (m.dbg.level < 2)) || (bitOf v.toNat 7 && decide (m.dbg.level < 1)) then some lwREFUSED else Option.none)
     else if (fieldsAt o).any (fieldBarred m v.toNat) then some lwREFUSED else Option.none)
  else if m.dbg.level < 2 then some lwREFUSED
  else if (fieldsAt o).any (fieldBarred m v.toNat) then some lwBARRED
  else Option.none

/-- A debug force is refused (R30, R466, R471). -/
def lwForceBar (m : Mach) (a : Nat) : Option Nat :=
  let i := (a - 0x10000000) / 8
  if m.dbg.level < 2 then some lwREFUSED
  else if m.pair.role = .senior ∨ m.pair.role = .shadow then some lwREFUSED
  else if a % 8 ≠ 0 ∨ forceBarred i ∨ galReserved i then some lwBARRED
  else if !isForced m i && !(m.dbg.forceDue.map Prod.fst).contains i
      && decide (64 ≤ forcedCount m + (m.dbg.forceDue.filter fun x => !isForced m x.1).length) then some lwBARRED
  else Option.none

/-- What refuses a write of one word (R465, R466, R472). -/
def lwWriteBar (m : Mach) (a : Nat) (v : Word) : Option Nat :=
  match lwArea a with
  | .window => lwWindowBar m a v
  | .token => Option.none
  | .gallery => lwForceBar m a
  | .firmware => some lwBARRED
  | .none => some lwBARRED
  | _ => lwRawWrite m

/-- The first word that is refused gives the code. -/
def firstBar : List (Option Nat) → Option Nat
  | [] => none
  | some c :: _ => some c
  | Option.none :: t => firstBar t

/-! The layout of Echo's memory, of the loop's and of Flowstone's is internal to the device: `Config.debugCell` says which piece of the model's state a word holds,
and nothing is known of it (R465). -/

/-- Half `h` of a 64-bit value, and the value with that half replaced. -/
def halfOf (v : Int) (h : Nat) : Word := BitVec.ofNat 32 (unsigned 64 v / 2 ^ (32 * (h % 2)))
def putHalf (v : Int) (h : Nat) (w : Word) : Int :=
  let u := unsigned 64 v
  signed 64 (if h % 2 = 0 then u / 2 ^ 32 * 2 ^ 32 + w.toNat else u % 2 ^ 32 + 2 ^ 32 * w.toNat)

/-- Loop state and coefficients: a half of a word of a block's state, a parameter word, or a block's sticky flags. -/
def loopCell (m : Mach) : List Nat → Option Word
  | [0, i, j, h] => (m.loop.states[i]?).bind fun l => (l[j]?).map fun v => halfOf v h
  | [1, n] => m.loop.graph.bind fun g => g.params[n]?
  | [2, i] => m.loop.sticky[i]?
  | _ => none

def putLoopCell (w : Word) (m : Mach) : List Nat → Option Mach
  | [0, i, j, h] => if ((m.loop.states[i]?).bind fun l => l[j]?).isSome then
      some { m with loop := { m.loop with states := modAt m.loop.states i fun l => modAt l j fun v => putHalf v h w } } else none
  | [1, n] => m.loop.graph.bind fun g => if n < g.params.length then some { m with loop := { m.loop with graph := some { g with params := setAt g.params n w } } } else none
  | [2, i] => if i < m.loop.sticky.length then some { m with loop := { m.loop with sticky := setAt m.loop.sticky i w } } else none
  | _ => none

/-- Echo record memory: channel `c` of sample `n` of a slot, newest first. -/
def echoCell (m : Mach) : List Nat → Option Word
  | [s, n, c] => (m.meas.echo[s]?).bind fun x => (x.samples[n]?).bind fun y => (y.values[c]?).map wordOf
  | _ => none

def putEchoCell (w : Word) (m : Mach) : List Nat → Option Mach
  | [s, n, c] =>
    if (echoCell m [s, n, c]).isSome then
      some { m with meas := { m.meas with echo := modAt m.meas.echo s fun x =>
        { x with samples := modAt x.samples n fun y => { y with values := setAt y.values c w.toInt } } } }
    else none
  | _ => none

/-- Flowstone's tables: a field of a submodule, or a half of a field of an arm. -/
def flowCell (m : Mach) : List Nat → Option Word
  | [0, g, f] =>
    let s := m.sm g
    if g < 24576 then ([s.pool.code, s.final, s.cause, s.count, s.count / 2 ^ 32, s.favg, b2n s.stranded][f]?).map (BitVec.ofNat 32) else none
  | [1, a, f, h] => (m.flow.arms[a]?).bind fun x => ([x.h, x.rho, x.cPos, x.cNeg][f]?).map fun v => halfOf v h
  | _ => none

/-- A field of a submodule replaced; a pool code that R146 does not list leaves the state. -/
def putSmField (f v : Nat) (s : Sm) : Sm :=
  match f with
  | 0 => { s with pool := [Pool.uncovered, .absent, .joining, .available, .suspect, .retired, .excluded].getD v s.pool }
  | 1 => { s with final := v % 16 }
  | 2 => { s with cause := v % 256 }
  | 3 => { s with count := s.count / 2 ^ 32 * 2 ^ 32 + v }
  | 4 => { s with count := v % 2 ^ 10 * 2 ^ 32 + s.count % 2 ^ 32 }
  | 5 => { s with favg := v }
  | _ => { s with stranded := v % 2 == 1 }

def putArmField (f h : Nat) (w : Word) (x : Arm) : Arm :=
  match f with
  | 0 => { x with h := putHalf x.h h w }
  | 1 => { x with rho := putHalf x.rho h w }
  | 2 => { x with cPos := putHalf x.cPos h w }
  | _ => { x with cNeg := putHalf x.cNeg h w }

def putFlowCell (w : Word) (m : Mach) (p : List Nat) : Option Mach :=
  match flowCell m p, p with
  | some _, [0, g, f] => some (m.modSm g (putSmField f w.toNat))
  | some _, [1, a, f, h] => some (m.setArm a (putArmField f h w (m.arm a)))
  | _, _ => none

/-- Journals and buffers: four bytes of a journal copy's payload from a place on. -/
def journalCell (m : Mach) : List Nat → Option Word
  | [j, o] => (m.pair.journal[j]?).bind fun x => if o + 4 ≤ x.payload.length then some (BitVec.ofNat 32 (fieldLE x.payload o 4)) else none
  | _ => none

def putJournalCell (w : Word) (m : Mach) : List Nat → Option Mach
  | [j, o] =>
    if (journalCell m [j, o]).isSome then
      some { m with pair := { m.pair with journal := modAt m.pair.journal j fun x => { x with payload := x.payload.take o ++ leBytes 4 w.toNat ++ x.payload.drop (o + 4) } } }
    else none
  | _ => none

/-- The piece of state behind a word of device memory, where there is one. -/
def lwCell (m : Mach) (a : Nat) : Option Word :=
  match lwArea a with
  | .loop => loopCell m (Config.debugCell a)
  | .echo => echoCell m (Config.debugCell a)
  | .flowstone => flowCell m (Config.debugCell a)
  | .journals => journalCell m (Config.debugCell a)
  | _ => none

/-- It written, where there is one. -/
def putLwCell (a : Nat) (w : Word) (m : Mach) : Option Mach :=
  match lwArea a with
  | .loop => putLoopCell w m (Config.debugCell a)
  | .echo => putEchoCell w m (Config.debugCell a)
  | .flowstone => putFlowCell w m (Config.debugCell a)
  | .journals => putJournalCell w m (Config.debugCell a)
  | _ => none

/-- A word of device memory: the state it holds, else what the debugger wrote there, else a value left open. -/
def lwMemWord (m : Mach) (a : Nat) : Word := (lwCell m a).getD (sget (fun x => Config.debugMemory x m.tb.k) m.dbg.mem a)

/-- A Gallery word; the low word latches the high word of its entry for the next access (R466). -/
def lwGallery (m : Mach) (a : Nat) : Word × Mach :=
  let i := (a - 0x10000000) / 8
  let e := m.g i
  let high : Word := BitVec.ofNat 32 (e.bits / 2 ^ 32)
  if a % 8 = 0 then (e.value, { m with dbg := { m.dbg with latch := some (i, high) } })
  else (match m.dbg.latch with | some (j, w) => if j = i then w else high | Option.none => high, { m with dbg := { m.dbg with latch := Option.none } })

/-- One word read. -/
def lwReadWord (r : List Word × Mach) (a : Nat) : List Word × Mach :=
  let m := r.2
  let m0 := { m with dbg := { m.dbg with latch := Option.none } }
  match lwArea a with
  | .window =>
    let m1 := voteBoundary m0
    (r.1 ++ [regRead m1 a], m1)
  | .token => (r.1 ++ [0#32], m0)
  | .gallery => let g := lwGallery m a; (r.1 ++ [g.1], g.2)
  | _ => (r.1 ++ [lwMemWord m a], m0)

/-- One word written. -/
def lwWriteWord (m0 : Mach) (x : Nat × Word) : Mach :=
  let m := { m0 with dbg := { m0.dbg with latch := Option.none } }
  let a := x.1
  match lwArea a with
  | .window => writeWord (writeNs m) (decodeOff m a) x.2.toNat m
  | .token =>
    let o := a - 0x01000000
    { m with dbg := { m.dbg with token := ((leBytes 4 x.2.toNat).zipIdx).foldl (fun (t : List (Nat × Byte)) b => sput (fun _ => 0#8) (o + b.2) b.1 t) m.dbg.token } }
  | .gallery =>
    let i := (a - 0x10000000) / 8
    { m with dbg := { m.dbg with forceDue := m.dbg.forceDue.filter (fun y => y.1 ≠ i) ++ [(i, x.2)] } }
  | _ => (putLwCell a x.2 m).getD { m with dbg := { m.dbg with mem := (m.dbg.mem.filter fun y => y.1 ≠ a) ++ [(a, x.2)] } }

/-- LWCK edges have been seen (PROBE). -/
def lwSeen (m : Mach) : Mach := { m with dbg := { m.dbg with probeAt := some m.tb.uptime } }

/-- The word addresses of an access (R463). -/
def lwAddrs (hdr addr : Nat) : List Nat := (List.range (lwWords hdr)).map fun i => addr + 4 * i

/-- The request is bad: its CRC, an unknown OP, non-zero bits [1:0] of HDR, or another number of words than CNT tells (R464). -/
def lwBad (op hdr addr : Nat) (data : List Word) (crc : Nat) : Bool :=
  lwCrc hdr addr data != crc || lwOp hdr != op || hdr % 4 != 0 || (op == 2 && data.length != lwWords hdr)

/-- READ (R463–R466). -/
def luwinRead (hdr addr crc : Nat) (busy : Bool) (m0 : Mach) : Mach :=
  let m := lwSeen m0
  let as := lwAddrs hdr addr
  if lwBad 1 hdr addr [] crc then m.lwSend lwBADFRAME []
  else match firstBar (as.map (lwReadBar m)) with
    | some c => m.lwSend c []
    | Option.none =>
      if addr % 4 ≠ 0 then m.lwSend lwBARRED []
      else if busy then m.lwSend lwBUSY []
      else
        let r := as.foldl lwReadWord ([], m)
        r.2.lwSend lwDONE r.1

/-- What refuses a WRITE as a whole. -/
def lwWriteStatus (hdr addr : Nat) (data : List Word) (crc : Nat) (busy : Bool) (m : Mach) : Nat :=
  if lwBad 2 hdr addr data crc then lwBADFRAME
  else match firstBar (((lwAddrs hdr addr).zip data).map fun x => lwWriteBar m x.1 x.2) with
    | some c => c
    | Option.none => if addr % 4 ≠ 0 then lwBARRED else if busy then lwBUSY else lwDONE

/-- The window words of a WRITE that a lock or a level refuses count as lock violations (R421, R472). -/
def lwViolations (xs : List (Nat × Word)) (m : Mach) : Mach :=
  xs.foldl (fun (m : Mach) x =>
    let o := decodeOff m x.1
    if lwArea x.1 == .window && (lwWindowBar m x.1 x.2).isSome && ((fieldsAt o).any (fieldBarred m x.2.toNat) || o == 0x4404) then lockViolation o m else m) m

/-- WRITE (R463–R466, R472). -/
def luwinWrite (hdr addr : Nat) (data : List Word) (crc : Nat) (busy : Bool) (m0 : Mach) : Mach :=
  let m := lwSeen m0
  let s := lwWriteStatus hdr addr data crc busy m
  let xs := (lwAddrs hdr addr).zip data
  let m1 := if s = lwDONE then xs.foldl lwWriteWord m else if s = lwREFUSED ∨ s = lwBARRED then lwViolations xs m else m
  m1.lwSend s []

/-- A WRITE that acts and changes a reserved bit of the window (R422). -/
def lwReserved (hdr addr : Nat) (data : List Word) (crc : Nat) (busy : Bool) (m : Mach) : Bool :=
  lwWriteStatus hdr addr data crc busy m == lwDONE
    && ((lwAddrs hdr addr).zip data).any fun x => lwArea x.1 == .window && changesReserved x.1 15 x.2 m

def execLuwinRead (hdr addr crc : Nat) (busy : Bool) (s : State) : Host.Outcome State Fault Refusal :=
  .next (s.run fun m => if m.alive then luwinRead hdr addr crc busy m else m)

def execLuwinWrite (hdr addr : Nat) (data : List Word) (crc : Nat) (busy : Bool) (s : State) : Host.Outcome State Fault Refusal :=
  if s.m.alive && lwReserved hdr addr data crc busy s.m then .fault .reservedBitChanged
  else .next (s.run fun m => if m.alive then luwinWrite hdr addr data crc busy m else m)

/-- LWCK low for 2 µs: the frame is abandoned without a response, and the port hunts again; its clock edges have been seen (R462). -/
def execLuwinFrameAbandon (s : State) : Host.Outcome State Fault Refusal := .next (s.run (whenAlive lwSeen))

end Sys2Proof.Machine
end

