-- ==== Sys2Proof/Machine/ConvCmd.lean ====
section
/-! DEFINITION. Machine/ConvCmd.lean: the device configuration commands and STATE_REQUEST (R19–R36, R444), and the rows of the commands of the loop, mode, Flowstone, timebase, pairing and housekeeping groups. -/
set_option Elab.async false
namespace Sys2Proof.Machine

/-! ### The converter description record (R19–R23, R36) -/

def effCdrLoad (c : Cmd) (m : Mach) : Mach × Eff := okDone { m with conv := { m.conv with staged := some (c.buf.take 672) } }

/-- The active record replaced (R22). -/
def commitCdr (b : List Byte) (m : Mach) : Mach :=
  let c := parseCdr b
  let m1 := (unbindLanes (fun _ => true) m).galReset 0 0xC0000
  let m2 := { m1 with conv := { m1.conv with staged := none, active := some c, digest := sha256 b, bind := List.replicate 16 none, heldDue := true } }
  flowCommit c (reattachAll m2)

/-- CDR_COMMIT: RESULT CONFIG_ID, the digest in the result slot (R20, R22, R257). -/
def effCdrCommit (_ : Cmd) (m : Mach) : Mach × Eff :=
  match m.conv.staged with
  | none => reject stSTATE m
  | some b =>
    if !m.inState [.ready] || m.loop.graph.isSome then reject stSTATE m
    else match cdrCheck b m.tb.p with
      | some s => reject s m
      | none => (commitCdr b m, .done ⟨stDONE, 0, (parseCdr b).configId, 0, sha256 b⟩)

def effCdrRead (c : Cmd) (m : Mach) : Mach × Eff :=
  match m.conv.active with
  | some cd => okDone (writeBuf c (cdrBytes cd) m)
  | none => okEmpty m

/-! ### Hub entries (R34, R35) -/

/-- The checks of HUB_ADD on its payload alone (R34, step 5 of R251). -/
def chkHubAdd (c : Cmd) : Option Nat :=
  if 16 ≤ c.f 0xA 1 then some stLIMIT
  else if !hubFormOk c.pay (c.f 0xA 1) then some stMALFORMED
  else if !hubRangeOk c.pay 6 then some stLIMIT
  else none

/-- The hub list with entry `h` set; entries below it that are missing are unused. -/
def setHub (l : List HubRec) (h : Nat) (x : HubRec) : List HubRec := setAt (l ++ List.replicate (h + 1 - l.length) hubUnused) h x

/-- HUB_ADD (R34). -/
def effHubAdd (c : Cmd) (m : Mach) : Mach × Eff :=
  match m.conv.active with
  | none => reject stSTATE m
  | some cd =>
    let h := c.f 0xA 1
    let x := parseHub c.pay
    let others := (cd.hubs.filter HubRec.used).flatMap HubRec.segs
    if (cd.hub h).used then reject stSTATE m
    else if (cd.hubs.any fun y => y.uid == x.uid) || !x.segs.all (segFits cd.arms) || !pairFree segOverlap (x.segs ++ others) then reject stMALFORMED m
    else
      let cd1 := { cd with hubs := setHub cd.hubs h x, hubCount := max cd.hubCount (h + 1) }
      okDone (flowAdd x (reattachAll { m with conv := { m.conv with active := some cd1, heldDue := true } }))

def chkHubForget (c : Cmd) : Option Nat := if 16 ≤ c.f 0 1 then some stLIMIT else if c.zeroFrom 1 then none else some stMALFORMED

/-- HUB_FORGET (R35). -/
def effHubForget (c : Cmd) (m : Mach) : Mach × Eff :=
  match m.conv.active with
  | none => reject stSTATE m
  | some cd =>
    let h := c.f 0 1
    let x := cd.hub h
    if !x.used then okEmpty m
    else if (m.laneOf h).isSome && m.inState [.run] then reject stSTATE m
    else
      let m1 := if (m.laneOf h).isSome then invalidateHub h x true (unbindLanes (· == h) m) else m
      let m2 := { m1 with conv := { m1.conv with active := some { cd with hubs := setAt cd.hubs h hubUnused }, bind := setAt m1.conv.bind h none } }
      okDone (flowForget x m2)

/-! ### Forced entries (R30) -/

/-- INDEX of GALLERY_FORCE and GALLERY_RELEASE: bits [31:20] zero and not reserved. -/
def chkGallery (n : Nat) (c : Cmd) : Option Nat := if c.f 0 4 < 2 ^ 20 ∧ c.zeroFrom n ∧ !galReserved (c.f 0 4) then none else some stMALFORMED

def effGalleryForce (c : Cmd) (m : Mach) : Mach × Eff :=
  let i := c.f 0 4
  if forceBarred i then reject stSTATE m
  else if !isForced m i && decide (64 ≤ forcedCount m) then reject stLIMIT m
  else okDone (forceEntry i (BitVec.ofNat 32 (c.f 4 4)) false m)

def effGalleryRelease (c : Cmd) (m : Mach) : Mach × Eff :=
  if isForced m (c.f 0 4) then okDone (releaseEntry (c.f 0 4) m) else okEmpty m

/-! ### STATE_REQUEST (R37, R444) -/

def chkStateRequest (c : Cmd) : Option Nat := if (c.f 0 1 = 3 ∨ c.f 0 1 = 4) ∧ c.zeroFrom 1 then none else some stMALFORMED

/-- The first failing condition of READY to RUN, by its code (R444). -/
def runFail (m : Mach) : Option Nat :=
  if !m.tb.timeValid then some 1
  else if m.conv.active.isNone then some 2
  else if m.loop.graph.isNone then some 3
  else if runBarred m then some 4
  else if m.pair.role = .shadow then some 7
  else none

/-- READY to RUN: the epoch by R283, the LOCKs. -/
def enterRun (m : Mach) : Mach := lockBlocks (runEpoch { m with dev := { m.dev with state := .run } })

/-- The claim of a unit that has left RUN or SAFE for READY (R280). -/
def readyClaim (m : Mach) : Mach := { m with pair := { m.pair with claim := claimFor m.pair.role m } }

/-- Cause 0x02, 0x07, or 0x01 in region 4: SAFE is left only through a reset (R444). -/
def safeHolds (m : Mach) : Bool :=
  let c := m.reg.raw F.devSafeCauseCause
  c == 2 || c == 7 || (c == 1 && m.reg.raw F.devSafeCauseSub == 4)

/-- SAFE to READY: block states reset (R38), no submodule stranded (R158). -/
def leaveSafe (m : Mach) : Mach :=
  let m1 := { m with dev := { m.dev with state := .ready }, zl := { m.zl with blockAllDue := false } }
  readyClaim (flowUnstrand (replaceAfterSafe m1))

/-- STATE_REQUEST (R444). -/
def effStateRequest (c : Cmd) (m : Mach) : Mach × Eff :=
  match m.dev.state, c.f 0 1 with
  | .ready, 3 => okEmpty m
  | .run, 4 => okEmpty m
  | .ready, 4 => (match runFail m with | some n => rejectR stSTATE n m | none => okDone (enterRun m))
  | .run, 3 => okDone (readyClaim (flowUnstrand (leaveRun m)))
  | .safe, 3 =>
    if safetyLatch m then rejectR stSTATE 5 m
    else if safeHolds m then rejectR stSTATE 6 m
    else okDone (leaveSafe m)
  | .safe, 4 => rejectR stSTATE 8 m
  | _, _ => reject stSTATE m

/-! ### What the commands are (R36, R66, R135, R169, R235, R262, R297) -/

def anyLen (_ : Nat) : Bool := true
def atLeast (k n : Nat) : Bool := decide (k ≤ n)

def infoCdrLoad : CmdInfo := ⟨0x0101, .buffer, false, (· == 672), [.ready], fun _ _ => none⟩
def infoCdrCommit : CmdInfo := ⟨0x0102, .inline, false, anyLen, [.ready], fun c _ => chkNone c⟩
def infoCdrRead : CmdInfo := ⟨0x0103, .buffer, false, (· == 672), runAll, fun _ _ => none⟩
def infoHubAdd : CmdInfo := ⟨0x0104, .inline, false, anyLen, runConfig, fun c _ => chkHubAdd c⟩
def infoHubForget : CmdInfo := ⟨0x0105, .inline, false, anyLen, runConfig, fun c _ => chkHubForget c⟩
def infoGalleryForce : CmdInfo := ⟨0x0106, .inline, true, anyLen, runConfig, fun c _ => chkGallery 8 c⟩
def infoGalleryRelease : CmdInfo := ⟨0x0107, .inline, true, anyLen, runAll, fun c _ => chkGallery 4 c⟩
def infoStateRequest : CmdInfo := ⟨0x0110, .inline, true, anyLen, runAll, fun c _ => chkStateRequest c⟩

def infoGraphLoad : CmdInfo := ⟨0x0201, .buffer, false, fun n => decide (64 ≤ n) && decide (n ≤ 4194304), [.ready], fun _ _ => none⟩
def infoGraphCommit : CmdInfo := ⟨0x0202, .inline, false, anyLen, runAll, fun c _ => chkNone c⟩
def infoGraphWithdraw : CmdInfo := ⟨0x0203, .inline, false, anyLen, [.ready], fun c _ => chkNone c⟩
def infoGraphReport : CmdInfo := ⟨0x0204, .buffer, false, anyLen, runAll, fun _ _ => none⟩
def infoParamWrite : CmdInfo := ⟨0x0210, .either, true, anyLen, runConfig, fun c _ => chkParamWrite c⟩
def infoParamRead : CmdInfo := ⟨0x0211, .buffer, false, anyLen, runAll, fun c _ => chkParamRead c⟩
def infoFlagClear : CmdInfo := ⟨0x0220, .inline, true, anyLen, runConfig, fun c _ => chkFlagClear c⟩

/-- Target mode code of MODE_REQUEST. -/
def chkModeRequest (c : Cmd) : Option Nat := if (modeOfCode (c.f 0 1)).isSome ∧ c.zeroFrom 1 then none else some stMALFORMED

def infoModeConfig : CmdInfo := ⟨0x0301, .inline, false, anyLen, [.ready], fun c _ => chkModeConfig c⟩
def infoModeRequest : CmdInfo := ⟨0x0302, .inline, true, anyLen, [.run], fun c _ => chkModeRequest c⟩
def infoSpBind : CmdInfo := ⟨0x0303, .inline, false, anyLen, [.ready], fun c _ => chkSpBind c⟩
def infoSetpoint : CmdInfo := ⟨0x0310, .inline, true, anyLen, runConfig, fun c _ => chkSetpoint c⟩

def infoSmExclude : CmdInfo := ⟨0x0401, .inline, true, anyLen, runConfig, fun c _ => chkSmExclude c⟩
def infoSmRestore : CmdInfo := ⟨0x0402, .inline, true, anyLen, runConfig, fun c _ => chkSmRestore c⟩
def infoPoolReport : CmdInfo := ⟨0x0403, .buffer, false, atLeast 24768, runAll, fun _ _ => none⟩
def infoWearRead : CmdInfo := ⟨0x0404, .buffer, false, atLeast 8, runAll, fun c _ => chkWear c⟩
def infoWearWrite : CmdInfo := ⟨0x0405, .buffer, false, atLeast 8, [.ready], fun c _ => chkWear c⟩
def infoFswTarget : CmdInfo := ⟨0x0406, .inline, true, anyLen, runConfig, fun c _ => chkFswTarget c⟩
def infoArmFlagClear : CmdInfo := ⟨0x0407, .inline, true, anyLen, runConfig, fun c _ => chkArmFlagClear c⟩
def infoLaneMapRead : CmdInfo := ⟨0x0408, .buffer, false, atLeast 256, runAll, fun _ _ => none⟩

def infoTbPeriod : CmdInfo := ⟨0x0501, .inline, true, anyLen, runConfig, accTbPeriod⟩
def infoTbSource : CmdInfo := ⟨0x0502, .inline, false, anyLen, runConfig, fun c _ => chkTbSource c⟩
def infoTbConverge : CmdInfo := ⟨0x0503, .inline, false, anyLen, runConfig, fun c _ => chkTbConverge c⟩
def infoTbSet : CmdInfo := ⟨0x0504, .inline, false, anyLen, [.ready], fun c _ => chkTbSet c⟩
def infoTbBand : CmdInfo := ⟨0x0505, .inline, false, anyLen, [.ready], fun c _ => chkTbBand c⟩
def infoTbReport : CmdInfo := ⟨0x0506, .buffer, false, atLeast 64, runAll, fun _ _ => none⟩

def infoPairConfig : CmdInfo := ⟨0x0801, .inline, false, anyLen, runConfig, fun c _ => chkPairConfig c⟩
def infoPairJoin : CmdInfo := ⟨0x0802, .inline, false, anyLen, [.ready], fun c _ => chkNone c⟩
def infoPairLeave : CmdInfo := ⟨0x0803, .inline, false, anyLen, runConfig, fun c _ => chkUnit c⟩
def infoPairSwap : CmdInfo := ⟨0x0804, .inline, true, anyLen, [.run], fun c _ => chkNone c⟩
def infoPairReport : CmdInfo := ⟨0x0805, .buffer, false, atLeast 64, runAll, fun _ _ => none⟩
def infoPairFwUpdate : CmdInfo := ⟨0x0806, .inline, false, anyLen, [.run], fun c _ => chkUnit c⟩

def infoNop : CmdInfo := ⟨0x0F01, .inline, true, anyLen, runAll, fun c _ => chkNone c⟩
def infoFence : CmdInfo := ⟨0x0F02, .inline, false, anyLen, runAll, fun c _ => chkFence c⟩
def infoCancel : CmdInfo := ⟨0x0F03, .inline, false, anyLen, runAll, fun c _ => chkCancel c⟩

/-! ### The rows -/

def execCdrLoad (d : Desc) (s : State) : Host.Outcome State Fault Refusal := .next (s.run (hostCommand infoCdrLoad effCdrLoad d))
def execCdrCommit (d : Desc) (s : State) : Host.Outcome State Fault Refusal := .next (s.run (hostCommand infoCdrCommit effCdrCommit d))
def execCdrRead (d : Desc) (s : State) : Host.Outcome State Fault Refusal := .next (s.run (hostCommand infoCdrRead effCdrRead d))
def execHubAdd (d : Desc) (s : State) : Host.Outcome State Fault Refusal := .next (s.run (hostCommand infoHubAdd effHubAdd d))
def execHubForget (d : Desc) (s : State) : Host.Outcome State Fault Refusal := .next (s.run (hostCommand infoHubForget effHubForget d))
def execGalleryForce (d : Desc) (s : State) : Host.Outcome State Fault Refusal := .next (s.run (hostCommand infoGalleryForce effGalleryForce d))
def execGalleryRelease (d : Desc) (s : State) : Host.Outcome State Fault Refusal := .next (s.run (hostCommand infoGalleryRelease effGalleryRelease d))
def execStateRequest (d : Desc) (s : State) : Host.Outcome State Fault Refusal := .next (s.run (hostCommand infoStateRequest effStateRequest d))
def execGraphLoad (d : Desc) (s : State) : Host.Outcome State Fault Refusal := .next (s.run (hostCommand infoGraphLoad effGraphLoad d))
def execGraphCommit (d : Desc) (s : State) : Host.Outcome State Fault Refusal := .next (s.run (hostCommand infoGraphCommit effGraphCommit d))
def execGraphWithdraw (d : Desc) (s : State) : Host.Outcome State Fault Refusal := .next (s.run (hostCommand infoGraphWithdraw effGraphWithdraw d))
def execGraphReport (d : Desc) (s : State) : Host.Outcome State Fault Refusal := .next (s.run (hostCommand infoGraphReport effGraphReport d))
def execParamWrite (d : Desc) (s : State) : Host.Outcome State Fault Refusal := .next (s.run (hostCommand infoParamWrite effParamWrite d))
def execParamRead (d : Desc) (s : State) : Host.Outcome State Fault Refusal := .next (s.run (hostCommand infoParamRead effParamRead d))
def execFlagClear (d : Desc) (s : State) : Host.Outcome State Fault Refusal := .next (s.run (hostCommand infoFlagClear effFlagClear d))
def execModeConfig (d : Desc) (s : State) : Host.Outcome State Fault Refusal := .next (s.run (hostCommand infoModeConfig effModeConfig d))
def execModeRequest (d : Desc) (s : State) : Host.Outcome State Fault Refusal := .next (s.run (hostCommand infoModeRequest effModeRequestNow d))
def execSpBind (d : Desc) (s : State) : Host.Outcome State Fault Refusal := .next (s.run (hostCommand infoSpBind effSpBind d))
def execSetpoint (d : Desc) (s : State) : Host.Outcome State Fault Refusal := .next (s.run (hostCommand infoSetpoint effSetpoint d))
def execSmExclude (d : Desc) (s : State) : Host.Outcome State Fault Refusal := .next (s.run (hostCommand infoSmExclude effSmExclude d))
def execSmRestore (d : Desc) (s : State) : Host.Outcome State Fault Refusal := .next (s.run (hostCommand infoSmRestore effSmRestore d))
def execPoolReport (d : Desc) (s : State) : Host.Outcome State Fault Refusal := .next (s.run (hostCommand infoPoolReport effPoolReport d))
def execWearRead (d : Desc) (s : State) : Host.Outcome State Fault Refusal := .next (s.run (hostCommand infoWearRead effWearRead d))
def execWearWrite (d : Desc) (s : State) : Host.Outcome State Fault Refusal := .next (s.run (hostCommand infoWearWrite effWearWrite d))
def execFswTarget (d : Desc) (s : State) : Host.Outcome State Fault Refusal := .next (s.run (hostCommand infoFswTarget effFswTarget d))
def execArmFlagClear (d : Desc) (s : State) : Host.Outcome State Fault Refusal := .next (s.run (hostCommand infoArmFlagClear effArmFlagClear d))
def execLaneMapRead (d : Desc) (s : State) : Host.Outcome State Fault Refusal := .next (s.run (hostCommand infoLaneMapRead effLaneMapRead d))
def execTbPeriod (d : Desc) (s : State) : Host.Outcome State Fault Refusal := .next (s.run (hostCommand infoTbPeriod effTbPeriod d))
def execTbSource (d : Desc) (s : State) : Host.Outcome State Fault Refusal := .next (s.run (hostCommand infoTbSource effTbSource d))
def execTbConverge (d : Desc) (s : State) : Host.Outcome State Fault Refusal := .next (s.run (hostCommand infoTbConverge effTbConverge d))
def execTbSet (d : Desc) (s : State) : Host.Outcome State Fault Refusal := .next (s.run (hostCommand infoTbSet effTbSet d))
def execTbBand (d : Desc) (s : State) : Host.Outcome State Fault Refusal := .next (s.run (hostCommand infoTbBand effTbBand d))
def execTbReport (d : Desc) (s : State) : Host.Outcome State Fault Refusal := .next (s.run (hostCommand infoTbReport effTbReport d))
def execPairConfig (d : Desc) (s : State) : Host.Outcome State Fault Refusal := .next (s.run (hostCommand infoPairConfig effPairConfig d))
def execPairJoin (d : Desc) (s : State) : Host.Outcome State Fault Refusal := .next (s.run (hostCommand infoPairJoin effPairJoin d))
def execPairLeave (d : Desc) (s : State) : Host.Outcome State Fault Refusal := .next (s.run (hostCommand infoPairLeave effPairLeave d))
def execPairSwap (d : Desc) (s : State) : Host.Outcome State Fault Refusal := .next (s.run (hostCommand infoPairSwap effPairSwap d))
def execPairReport (d : Desc) (s : State) : Host.Outcome State Fault Refusal := .next (s.run (hostCommand infoPairReport effPairReport d))
def execPairFwUpdate (d : Desc) (s : State) : Host.Outcome State Fault Refusal := .next (s.run (hostCommand infoPairFwUpdate effPairFwUpdate d))
def execNop (d : Desc) (s : State) : Host.Outcome State Fault Refusal := .next (s.run (hostCommand infoNop effNop d))
def execFence (d : Desc) (s : State) : Host.Outcome State Fault Refusal := .next (s.run (hostCommand infoFence effFence d))
def execCancel (d : Desc) (s : State) : Host.Outcome State Fault Refusal := .next (s.run (hostCommand infoCancel effCancel d))

end Sys2Proof.Machine
end

