-- ==== Sys2Proof/Machine/OpTable.lean ====
section
/-! DEFINITION. Machine/OpTable.lean: the opcodes with what the owning chapter says of each and what it does (R264). -/
set_option Elab.async false
namespace Sys2Proof.Machine

/-- A row of the opcode table: what a command is, and its effect at its boundary of effect. -/
abbrev OpRow : Type := CmdInfo × (Cmd → Mach → Mach × Eff)

def opsConv : List OpRow :=
  [(infoCdrLoad, effCdrLoad), (infoCdrCommit, effCdrCommit), (infoCdrRead, effCdrRead), (infoHubAdd, effHubAdd), (infoHubForget, effHubForget),
   (infoGalleryForce, effGalleryForce), (infoGalleryRelease, effGalleryRelease), (infoStateRequest, effStateRequest)]

def opsGraph : List OpRow :=
  [(infoGraphLoad, effGraphLoad), (infoGraphCommit, effGraphCommit), (infoGraphWithdraw, effGraphWithdraw), (infoGraphReport, effGraphReport),
   (infoParamWrite, effParamWrite), (infoParamRead, effParamRead), (infoFlagClear, effFlagClear)]

def opsMode : List OpRow :=
  [(infoModeConfig, effModeConfig), (infoModeRequest, effModeRequest), (infoSpBind, effSpBind), (infoSetpoint, effSetpoint)]

def opsPool : List OpRow :=
  [(infoSmExclude, effSmExclude), (infoSmRestore, effSmRestore), (infoPoolReport, effPoolReport), (infoWearRead, effWearRead),
   (infoWearWrite, effWearWrite), (infoFswTarget, effFswTarget), (infoArmFlagClear, effArmFlagClear), (infoLaneMapRead, effLaneMapRead)]

def opsTime : List OpRow :=
  [(infoTbPeriod, effTbPeriod), (infoTbSource, effTbSource), (infoTbConverge, effTbConverge), (infoTbSet, effTbSet), (infoTbBand, effTbBand),
   (infoTbReport, effTbReport)]

def opsMeas : List OpRow :=
  [(infoAdcSeqConfig, effAdcSeqConfig), (infoAdcUrgent, effAdcUrgent), (infoChainConfig, effChainConfig), (infoChainBankSwap, effChainBankSwap),
   (infoRimConfig, effRimConfig), (infoSvSubscribe, effSvSubscribe), (infoSvUnsubscribe, effSvUnsubscribe), (infoEchoArm, effEchoArm),
   (infoEchoTrigger, effEchoTrigger), (infoEchoDisarm, effEchoDisarm), (infoEchoRead, effEchoRead)]

def opsNet : List OpRow :=
  [(infoGoosePublish, effGoosePublish), (infoGooseSubscribe, effGooseSubscribe), (infoGooseUnsubscribe, effGooseUnsubscribe),
   (infoEthTimedTx, effEthTimedTx), (infoFarConfig, effFarConfig), (infoFarSend, effFarSend), (infoCanConfig, effCanConfig),
   (infoCanAutobaud, effCanAutobaud), (infoCanSchedule, effCanSchedule), (infoCanTx, effCanTx), (infoCanCancel, effCanCancel)]

def opsPair : List OpRow :=
  [(infoPairConfig, effPairConfig), (infoPairJoin, effPairJoin), (infoPairLeave, effPairLeave), (infoPairSwap, effPairSwap),
   (infoPairReport, effPairReport), (infoPairFwUpdate, effPairFwUpdate)]

def opsOut : List OpRow :=
  [(infoSafetyConfig, effSafetyConfig), (infoSafetyStartTest, effSafetyStartTest), (infoSafetyReset, effSafetyReset),
   (infoSafetyReport, effSafetyReport), (infoTripClear, effTripClear), (infoOutputOverride, effOutputOverride)]

def opsSec : List OpRow :=
  [(infoQuote, effQuote), (infoKeyInstall, effKeyInstall), (infoKeyRevoke, effKeyRevoke), (infoImageStage, effImageStage),
   (infoImageActivate, effImageActivate), (infoDebugUnlock, effDebugUnlock)]

def opsHouse : List OpRow :=
  [(infoNop, effNop), (infoFence, effFence), (infoCancel, effCancel)]

/-- The opcodes of R264. -/
def opTable : List OpRow :=
  opsConv ++ opsGraph ++ opsMode ++ opsPool ++ opsTime ++ opsMeas ++ opsNet ++ opsPair ++ opsOut ++ opsSec ++ opsHouse

/-- The row of an opcode. -/
def opRow (op : Nat) : Option OpRow := opTable.find? fun r => r.1.op == op

/-- What the owning chapter says of an opcode; `none` for an unknown one. -/
def infoOf (op : Nat) : Option CmdInfo := (opRow op).map Prod.fst

end Sys2Proof.Machine
end

