-- ==== Sys2Proof/Machine/Intake.lean ====
section
/-! DEFINITION. Machine/Intake.lean: the intake of a period: ageing, the order of effect of the commands, the inputs and the snapshot, and the start of the evaluation (R53, R128–R130, R168, R253–R263, R498). -/
set_option Elab.async false
namespace Sys2Proof.Machine

/-! ### Ageing (R27, R498) -/

/-- The lower of two age limits, where both are given. -/
def lowerLimit : Option Nat → Option Nat → Option Nat
  | some a, some b => some (min a b)
  | some a, none => some a
  | none, b => b

/-- The age limit that the producer of an entry gives (R498). -/
def producerLimit (m : Mach) (i : Nat) : Option Nat :=
  if i < 0xC0000 then
    let s := i % 32
    m.conv.active.bind fun c => if 1 ≤ s ∧ s ≤ 3 then some c.ageFast else if 4 ≤ s ∧ s ≤ 15 then some c.ageSlow else none
  else if 0xC4000 ≤ i ∧ i < 0xC4040 then (m.seqCfg ((i - 0xC4000) / 16)).map AdcSeq.ageLimit
  else if 0xC4100 ≤ i ∧ i < 0xC4110 then (m.chain (i - 0xC4100)).cfg.map ChainCfg.ageLimit
  else if 0xC8000 ≤ i ∧ i < 0xD0000 then (m.stream ((i - 0xC8000) / 0x200)).sub.map SvSub.ageLimit
  else if 0xD8000 ≤ i ∧ i < 0xDC000 ∧ 0x100 ≤ (i - 0xD8000) % 0x2000 then (m.canCh ((i - 0xD8000) / 0x2000)).cfg.map CanCfg.ageLimit
  else if 0xDE000 ≤ i ∧ i < 0xDE400 ∧ 0x10 ≤ i % 0x100 then (m.farCh ((i - 0xDE000) / 0x100)).cfg.map FarCfg.ageLimit
  else none

/-- The age limit that a GOOSE subscription gives its member (R344). -/
def gooseLimit (m : Mach) (i : Nat) : Option Nat :=
  (m.net.subs.filterMap fun s => s.cfg.bind fun g => if g.members.any fun x => x.ref % 2 ^ 20 == i then some g.tMax else none).foldl
    (fun a l => lowerLimit a (some l)) none

/-- The age limit of an entry's declaration (R43). -/
def declLimit (m : Mach) (i : Nat) : Option Nat := m.loop.graph.bind fun g => (g.decls.find? fun d => d.index == i).map SigDecl.ageLimit

/-- The age limit of an entry: the lower of its producer's and its declaration's (R498). -/
def ageLimitOf (m : Mach) (i : Nat) : Option Nat :=
  if i < 0xE0000 then producerLimit m i else lowerLimit (declLimit m i) (gooseLimit m i)

/-- GALLERY_AGE_ADVANCE at an intake. -/
def ageGallery (m : Mach) : Mach := { m with gal := smap (fun _ => gReset) (fun i e => ageEntry (ageLimitOf m i) e) m.gal }

/-! ### The inputs of the intake (R284, R285, R307, R319, R346, R351, R359, R415) -/

/-- What measurement, networks and safety write at the intake. -/
def inputsOf (m : Mach) : Mach := safetyIntake ((List.range 2).foldl canIntake (netIntake (measIntake m)))

/-- What of the inputs a unit of a pair streams by AGREE_CUT: its records, the rest being written at the intake (R285). -/
def streamInputs (m : Mach) : Mach :=
  let r := inputsOf m
  let agree := (r.out.drop m.out.length).filter fun o => match o with | .pairFrame _ b => fieldLE b 0 1 == 3 | _ => false
  let deferred := (r.host.evNew.drop m.host.evNew.length).filter fun e => e.code == 0x080E
  ({ m with pair := r.pair, out := m.out ++ agree, host := { m.host with evNew := m.host.evNew ++ deferred } }.setF F.pairStatusDefer (r.reg.raw F.pairStatusDefer)).setF F.pairCountAgreeDeferCnt (r.reg.raw F.pairCountAgreeDeferCnt)

/-- AGREE_CUT with the inputs ready by then (R284). -/
def cutStream (m : Mach) : Mach := if !m.pair.exchanging || m.pair.cutAgree then m else agreeCut (streamInputs m)

/-- The inputs written at the intake; the entries of the agreed set come from the streams, and what came after AGREE_CUT goes into the next period's (R285). -/
def takeInputs (m : Mach) : Mach :=
  if !m.pair.exchanging then inputsOf m
  else
    let m1 := applyAgreed (cutStream m)
    let r := inputsOf { m1 with pair := { m1.pair with cutAgree := false } }
    let late := r.pair.own.filter fun e => streamGet m1.pair.own e.1 != some e.2
    let out := m1.out ++ (r.out.drop m1.out.length).filter fun o => match o with | .pairFrame _ b => fieldLE b 0 1 != 3 | _ => true
    let events := m1.host.evNew ++ (r.host.evNew.drop m1.host.evNew.length).filter fun e => e.code != 0x080E
    let m2 := ({ r with pair := m1.pair, out := out, host := { r.host with evNew := events } }.setF F.pairStatusDefer (m1.reg.raw F.pairStatusDefer)).setF F.pairCountAgreeDeferCnt (m1.reg.raw F.pairCountAgreeDeferCnt)
    late.foldl (fun m e => m.agreePut e.1 e.2) { m2 with pair := { m2.pair with cutAgree := true } }

/-! ### The commands of an intake (R253–R255, R260, R263) -/

/-- Launch times that map to this boundary (R217). -/
def mapLaunches (m : Mach) : Mach :=
  { m with host := { m.host with accepted := m.host.accepted.map fun p =>
      if p.cmd.own.isNone && decide (p.cmd.launchNs ≤ m.now) then { p with cmd := { p.cmd with own := some m.tb.k } } else p } }

/-- What orders a command by itself: its boundary of effect, which is an earlier one for a command that waited out a halt (R468), and its launch time, or the instant of that boundary (R255). -/
def keyOf (m : Mach) (c : Cmd) : Nat × Nat :=
  let d := c.due.getD (m.tb.k, m.now)
  (d.1, if c.timed then c.launchNs else d.2)

/-- The later of two keys. -/
def maxKey (a b : Nat × Nat) : Nat × Nat := if a.1 < b.1 ∨ (a.1 = b.1 ∧ a.2 < b.2) then b else a

/-- Insertion by key, PRIO, ring and SEQ (R255). -/
def insertDue (m : Mach) (x : (Nat × Nat) × Cmd) : List ((Nat × Nat) × Cmd) → List ((Nat × Nat) × Cmd)
  | [] => [x]
  | y :: t =>
    let k := fun z : (Nat × Nat) × Cmd => [z.1.1, z.1.2, (m.ring z.2.ring).prio, z.2.ring, z.2.seq]
    if lexLt (k x) (k y) then x :: y :: t else y :: insertDue m x t

/-- Keyed commands in the order of effect. -/
def orderOf (m : Mach) (l : List ((Nat × Nat) × Cmd)) : List Cmd := (l.foldl (fun a x => insertDue m x a) []).map Prod.snd

/-- The commands of one ring, in sequence, with their keys: none falls below the key before it (R255). -/
def keyed (m : Mach) : Nat × Nat → List Cmd → List ((Nat × Nat) × Cmd)
  | _, [] => []
  | prev, c :: t => let k := maxKey (keyOf m c) prev; (k, c) :: keyed m k t

/-- Commands of a ring as accepted, in sequence. -/
def ofRing (m : Mach) (r : Nat) (p : Pending → Bool) : List Cmd := (m.host.accepted.filter fun x => x.cmd.ring == r && p x).map Pending.cmd

/-- A set of accepted commands in the order of effect. -/
def inOrder (m : Mach) (p : Pending → Bool) : List Cmd := orderOf m ((List.range 16).flatMap fun r => keyed m (0, 0) (ofRing m r p))

/-- ABORTED_SAFE at the first intake after an entry into SAFE; a CAN frame whose command ends so is not sent (R260). -/
def abortSafe (m : Mach) : Mach :=
  match m.dev.abortBefore with
  | none => m
  | some n =>
    let l := inOrder m fun p => decide (p.cmd.order < n)
    let m1 := { m with dev := { m.dev with abortBefore := none }
                       tb := { m.tb with converge := if l.any fun c => c.op == 0x0503 then none else m.tb.converge }
                       net := { m.net with can := m.net.can.map fun x => { x with txq := x.txq.filter fun f => !l.any fun c => c.ring == f.ring && c.seq == f.seq } } }
    l.foldl (fun m c => complete c (fin stABORTED) m) m1

/-- Its own boundary, and F, have come. -/
def reached (m : Mach) (c : Cmd) : Bool := decide (c.first ≤ m.tb.k) && (match c.own with | some b => decide (b ≤ m.tb.k) | none => false)

/-- One command of the table takes effect, if it still waits to. -/
def actOne (m : Mach) (c : Cmd) : Mach :=
  match m.findCmd c.ring c.seq, opRow c.op with
  | some p, some r => if p.inEffect then m else takeEffect r.1 r.2 p.cmd m
  | _, _ => m

/-- The CANCELs at their F, before every other effect (R263). -/
def cancels (m : Mach) : Mach := (inOrder m fun p => p.cmd.op == 0x0F03 && reached m p.cmd).foldl actOne m

/-- Commands whose own boundary precedes F, at F (R254). -/
def expiries (m : Mach) : Mach :=
  (inOrder m fun p => !p.inEffect && decide (p.cmd.first ≤ m.tb.k) && expired p.cmd && !bitOf p.cmd.flags 1).foldl (fun m c => complete c (fin stEXPIRED) m) m

/-- The commands of a ring that may take effect at this intake: in sequence, up to the first whose boundary has not come (R253). One that took effect earlier and is
not terminal holds back what follows it, unless it becomes terminal at this intake (R263). -/
def ringDue (m : Mach) (skip : List (Nat × Nat)) : List Pending → List Cmd
  | [] => []
  | p :: t =>
    if p.inEffect then ringDue m skip t
    else if !reached m p.cmd || haltWaits p.cmd m || skip.contains (p.cmd.ring, p.cmd.seq) then [] else p.cmd :: ringDue m skip t

/-- The commands at the head of a ring whose boundary of effect falls in this halted period: they keep it while they wait (R468). -/
def noteHalt (m : Mach) : List Pending → List Pending
  | [] => []
  | p :: t =>
    if p.inEffect || !reached m p.cmd || !haltWaits p.cmd m then p :: t
    else { p with cmd := { p.cmd with due := p.cmd.due <|> some (m.tb.k, m.now) } } :: noteHalt m t

/-- The commands of every ring that begin to wait out a halt at this intake (R468). -/
def noteHalts (m : Mach) : Mach :=
  (List.range 16).foldl (fun (m : Mach) r =>
    let mine := noteHalt m (m.host.accepted.filter fun p => p.cmd.ring == r)
    { m with host := { m.host with accepted := m.host.accepted.map fun p => (mine.find? fun q => q.cmd.ring == p.cmd.ring && q.cmd.seq == p.cmd.seq).getD p } }) m

/-- The commands that take effect at this intake, in the order of effect. -/
def dueCmds (m : Mach) (skip : List (Nat × Nat)) : List Cmd :=
  orderOf m ((List.range 16).flatMap fun r => keyed m (0, 0) (ringDue m skip (m.host.accepted.filter fun p => p.cmd.ring == r)))

/-- Commands with a place of their own in the intake: the pool commands (R168), the mode requests (R130) and the fences (R263). -/
def placed (c : Cmd) : Bool := c.op / 256 == 4 || c.op == 0x0302 || c.op == 0x0F02

/-- A MODE_REQUEST followed at its intake by a later one: it is evaluated, and completes with SUPERSEDED (R130). -/
def superseded (c : Cmd) (m : Mach) : Mach :=
  match m.findCmd c.ring c.seq with
  | some p => complete (lateCmd p.cmd) (fin stSUPERSEDED) (inStates infoModeRequest effModeRequest p.cmd m).1
  | none => m

/-- MODE_REQUESTs of an intake: all but the last complete with SUPERSEDED (R130). -/
def modeRequests : List Cmd → Mach → Mach
  | [], m => m
  | [c], m => actOne m c
  | c :: t, m => modeRequests t (superseded c m)

/-- Before command `c` in its ring a fence still waits, or a command that took effect at an earlier boundary is not terminal (R253, R263). -/
def fenced (m : Mach) (c : Cmd) : Bool :=
  m.host.accepted.any fun p => p.cmd.ring == c.ring && decide (p.cmd.seq < c.seq) && (p.cmd.op == 0x0F02 || (p.inEffect && !actedNow p m))

/-- Insertion in the order of acceptance. -/
def insertOrder (c : Cmd) : List Cmd → List Cmd
  | [] => [c]
  | a :: t => if c.order ≤ a.order then c :: a :: t else a :: insertOrder c t

/-- The fences of a list whose predecessors are terminal by now, in the order of acceptance: an earlier one may release a later one (R263). -/
def fences (l : List Cmd) (m : Mach) : Mach := ((l.filter fun c => c.op == 0x0F02).foldr insertOrder []).foldl actOne m

/-- The commands selected of an intake in their order, none before a fence of its ring; each fence as soon as what it waits for is terminal, and then what it, or a command in effect that has ended, held back (R253, R263). -/
def actAll (l : List Cmd) (sel : Cmd → Bool) (m : Mach) : Mach :=
  let once := fun m => (l.filter fun c => c.op != 0x0F02 && sel c).foldl (fun m c => if fenced m c then m else fences l (actOne m c)) m
  (l.length + 1).fold (fun _ _ m => once m) (fences l m)

/-- Steps 2 and 3 of Flowstone's intake: pool evaluation, then the pool commands (R168). -/
def flowCommands (l : List Cmd) (m : Mach) : Mach :=
  let m1 := match m.conv.active with
    | some c => poolEvaluate c m
    | none => m
  actAll l (fun c => c.op / 256 == 4) m1

/-- The entries of the timebase and the Stewards (R26, R37, R281). DESIGN CHOICE: SIG_CONFIG_ID is 0 while no record is active, and VALID as in every period. -/
def deviceEntries (m : Mach) : Mach :=
  let id := match m.conv.active with | some c => c.configId | none => 0
  ((((m.produceValid sigPERIOD (m.tb.k % 2 ^ 32) 1).produceValid sigDEVSTATE m.dev.state.code 2).produceValid sigPAIRROLE m.pair.role.code 2).produceValid sigCLAIM m.pair.claim 2).produceValid
    sigCONFIGID id 2

/-- The MODE_REQUESTs of a list that still wait and that no fence holds back. -/
def openRequests (l : List Cmd) (m : Mach) : List Cmd :=
  l.filter fun c => c.op == 0x0302 && !fenced m c && (match m.findCmd c.ring c.seq with | some p => !p.inEffect | none => false)

/-- Step 1 of R130. Where the end of the requests at hand lets a fence go and so brings further requests to this intake, all of those at hand are
followed by a later one and superseded (R253, R263). -/
def modeStep1 (l : List Cmd) : Nat → Mach → Mach
  | 0, m => modeRequests (openRequests l m) m
  | n + 1, m =>
    let q := openRequests l m
    let sup := actAll l (fun c => c.op != 0x0302) (q.foldl (fun m c => superseded c m) m)
    if q.isEmpty || (openRequests l sup).isEmpty then modeRequests q m else modeStep1 l n sup

/-- The mode manager in the steps of R130, on the snapshot of the intake (R127, R129). -/
def modeIntake (l : List Cmd) (m : Mach) : Mach :=
  if m.inState [.ready, .run] then
    let r := readBits m
    modeSteps r (modeStep1 l l.length (takeBits r m))
  else modeIdle (modeStep1 l l.length m)

/-- The effects that precede the ageing of an intake: STATE_REQUEST, the other groups, debug forces, the set-point slots, the pool commands. -/
def effectsBefore (l : List Cmd) (m : Mach) : Mach :=
  let m2 := actAll l (fun c => c.op != 0x0110 && !placed c) (actAll l (fun c => c.op == 0x0110) m)
  flowCommands l (produceSlots (debugForces m2))

/-- An intake from the effects of its commands on: the effects, AGE and STALE, Flowstone's ranking and the mode manager on the snapshot, the fences and what they held back
(R53, R130, R168, R263). With the engine halted the mode manager does not run (R468), but for its one write in SAFE (R127). -/
def effects (ev : Bool) (l : List Cmd) (m : Mach) : Mach :=
  let m1 := flowRank (ageGallery (deviceEntries (effectsBefore l m)))
  lastForces (actAll l (fun _ => true) (if ev then modeIntake l m1 else if m1.inState [.safe] then modeIdle m1 else m1))

/-- The effects of an intake of the ROM (R450). -/
def effectsRom (l : List Cmd) (m : Mach) : Mach := actAll l (fun _ => true) m

/-- Commands due that took no effect although it was their turn. -/
def stuck (l : List Cmd) (m : Mach) : Option Cmd :=
  l.find? fun c => c.op != 0x0F02 && !fenced m c && (match m.findCmd c.ring c.seq with | some p => !p.inEffect | none => false)

/-- The effects with the commands that wait for room left out, and with them the later ones of their rings (R253). -/
def settleEffects (eff : List Cmd → Mach → Mach) : Nat → List (Nat × Nat) → Mach → Mach
  | 0, skip, m => eff (dueCmds m skip) m
  | n + 1, skip, m =>
    let l := dueCmds m skip
    let r := eff l m
    match stuck l r with
    | some c => settleEffects eff n ((c.ring, c.seq) :: skip) m
    | none => r

/-- A PAIR_SWAP made at the boundary completes at its intake. -/
def swapDone (m : Mach) : Mach := completeOp 0x0804 (fin stDONE) m

/-- The commands that come before every other effect. -/
def firstEffects (m : Mach) : Mach := expiries (cancels (swapDone (periodDone (abortSafe (mapLaunches m)))))

/-! ### The snapshot and the start of the period -/

/-- What is taken from the snapshot of the intake: publications, far data, CAN templates, Echo samples. -/
def snapshotUse (m : Mach) : Mach := echoIntake ((List.range 2).foldl canSnapshot (netSnapshot m))

/-- The cut of a period that is not evaluated is made at the intake: held in a halted period of RUN, else from the references as they stand (R159, R164, R470). -/
def closeIdle (departQ : Nat) (halted : Bool) (m : Mach) : Mach :=
  if m.zl.sent then m
  else if m.inState [.safe] then sendBlockAll departQ m
  else if m.inState [.ready, .run] then closePeriod departQ (halted && m.inState [.run] && !haltCutsBlocked m) (if halted && m.inState [.run] && !haltCutsBlocked m then skipDigest m else stepDigest m)
  else m

/-- The cuts of the period are as in BLOCKED, as seen at the intake (R379, R402, R470). -/
def noteBlocks (halted : Bool) (m : Mach) : Mach :=
  { m with flow := { m.flow with blockDue := tripBlocks m || convBlocks m || (halted && haltCutsBlocked m) } }

/-- The evaluation starts, a halted period begins, or the period has no evaluation (R38, R54, R467, R468). -/
def startPeriod (departQ : Nat) (ev : Bool) (m : Mach) : Mach :=
  let m1 := if ev && evaluates m then bpIntake m else m
  if ev && evaluates m1 && m1.dbg.engine != .blockStep then
    let m2 := noteBlocks false (startEval m1)
    { m2 with dbg := { m2.dbg with stepDue := false } }
  else if m1.dbg.engine != .running && m1.inState [.ready, .run] && !(ev && m1.dbg.engine == .halted) then
    let m2 := if m1.dbg.engine == .halted && m1.dbg.blockDue then startSteps m1 else m1
    closeIdle departQ true (noteBlocks true (haltPeriod m2))
  else
    let m2 := noteBlocks false m1
    closeIdle departQ false { m2 with dbg := { m2.dbg with stepDue := false }, loop := { m2.loop with overrunLast := false } }

/-- A PAIR_SWAP that takes effect at this boundary: its command, where nothing before it in its ring waits and no CANCEL supersedes it (R253, R263, R296). -/
def swapDue (m : Mach) : Option Cmd :=
  if !m.pair.inTwin || !m.inState [.run] then none
  else
    let m1 := mapLaunches m
    (dueCmds m1 []).find? fun c => c.op == 0x0804 && !fenced m1 c && !expired c
      && !(m1.host.accepted.any fun p => p.cmd.op == 0x0F03 && reached m1 p.cmd && p.cmd.f 0 1 == c.ring && p.cmd.f 8 8 == c.seq)

/-- PAIR_SWAP at its boundary: the roles change before the link events (R282, R296); one accepted in the period of its F changes them before the inputs of that intake.
The command completes at the intake. -/
def swapBoundary (m : Mach) : Mach :=
  match swapDue m with
  | none => m
  | some c => settleEff { c with own := some m.tb.k } (swapNow m, .hold)

/-- What comes before the effects of an intake: a halt asked for, heartbeats, inputs and reports. -/
def intakeBegin (tripLow : Nat) (m : Mach) : Mach :=
  let m1 := haltIntake (finishCommit { m with pwm := { m.pwm with active := tripLow % 256 } })
  slowRecordWrite (agreeReports (takeInputs (swapBoundary (countHeartbeats m1))))

/-- A claim above the unit's own in a report used at this intake. -/
def outbid (m : Mach) : Bool := (List.range 16).any fun l => (m.lane l).used.isSome && decide (m.pair.claim < (m.lane l).claimSeen)

/-- A unit that serves the rings of the pair and reads a claim above its own stops serving at the intake (R293), as does one that is to be deposed.
DEDUCED: the rule is about the rings of the pair; a unit that restarts beside a working partner serves its own rings (R296). -/
def deposedStops (m : Mach) : Mach :=
  if m.pair.server && (m.pair.roleDue == some .deposed || (m.pair.pairRings && outbid m)) then { m with pair := { m.pair with server := false } } else m

/-- The intake in READY, RUN and SAFE. -/
def intakeWorking (tripLow departQ : Nat) (m : Mach) : Mach :=
  let m1 := deposedStops (intakeBegin tripLow m)
  let ev := engineEvaluates m1
  let m2 := firstEffects m1
  startPeriod departQ ev (snapshotUse (noteHalts (settleEffects (effects ev) m2.host.accepted.length [] m2)))

/-- The intake in BOOT and RECOVERY: the commands that the ROM serves (R450). -/
def intakeRom (m : Mach) : Mach :=
  let m1 := firstEffects m
  settleEffects effectsRom m1.host.accepted.length [] m1

/-- The frames of an entry into SAFE in the period, where its downlink has not gone (R189, R206). -/
def closeSafe (departQ : Nat) (m : Mach) : Mach := if m.inState [.safe] && !m.zl.sent then sendBlockAll departQ m else m

/-- The intake while the Stewards are held: measurement, Echo, the safety subsystem and the lanes go on (R415, R429, R443), and the mode manager's one write in SAFE is made (R127). -/
def intakeHeld (departQ : Nat) (m : Mach) : Mach := closeSafe departQ (echoIntake (modeIdle (ageGallery (safetyIntake (measIntake m)))))

/-- The intake of a period, once in it. -/
def intake (tripLow departQ : Nat) (m : Mach) : Mach :=
  if !m.alive || m.dev.intakeDone || m.tb.relock.isSome then m
  else
    let m1 := if m.pwr.held then intakeHeld departQ m else if m.inState [.boot, .recovery] then intakeRom m else intakeWorking tripLow departQ m
    { m1 with dev := { m1.dev with intakeDone := true } }

/-! ### The rows -/

def execIntake (tripLow departQ : Nat) (s : State) : Host.Outcome State Fault Refusal := .next (s.run (intake tripLow departQ))

def execAgreeCut (s : State) : Host.Outcome State Fault Refusal := .next (s.run (whenAlive cutStream))

/-- The doorbell page read, and what then finds room: Echo records, held CAN records, a quote (R246, R326, R359, R457). -/
def doorbell (words : List Nat) (m : Mach) : Mach :=
  let m1 := echoPost 16 (doorbellWords words m)
  quoteDrain ((List.range 2).foldl (fun m ch => drainHold ch (m.canCh ch).hold m) m1)

def execDoorbellRead (words : List Nat) (s : State) : Host.Outcome State Fault Refusal := .next (s.run (fun m => if m.service then doorbell words m else m))

def execDescriptorFetch (ring : Nat) (bytes buf : List Byte) (slow : Nat) (s : State) : Host.Outcome State Fault Refusal :=
  .next (s.run (fetchDesc infoOf ring bytes buf slow))

end Sys2Proof.Machine
end

