-- ==== Sys2Proof/Machine/Commit.lean ====
section
/-! DEFINITION. Machine/Commit.lean: output commit, the overrun, re-placement and the faults of a lane of the compute core (R55–R63, R164, R284). -/
set_option Elab.async false
namespace Sys2Proof.Machine

/-- The period is under evaluation and not a stepped one. -/
def evaluating (m : Mach) : Bool := m.loop.eval.isSome && m.dbg.finishTo.isNone && m.inState [.ready, .run]

/-- What a TWIN needs to take a committed period back (R61, R284). -/
def keepUndo (m : Mach) : Mach := if m.pair.inTwin then { m with pair := { m.pair with undo := some ⟨m.gal, m.loop, m.pair.digest, m.pair.base⟩ } } else m

/-- LOOP_OVERRUN: the period under evaluation is abandoned at the graph deadline (R58, R60). -/
def loopOverrun (departQ : Nat) (m : Mach) : Mach :=
  if evaluating m then
    let m1 := abandon true m
    if m1.inState [.safe] then closeSafe departQ m1 else closePeriod departQ true (skipDigest m1)
  else closeSafe departQ m

/-- OUTPUT_COMMIT `ns` after the intake: outputs and states at once, then the cut and its frames (R55, R164, R189); past the graph deadline the period is abandoned (R58). -/
def outputCommit (ns departQ : Nat) (m : Mach) : Mach :=
  if evaluating m then
    if graphBudget m.tb.p < ns then loopOverrun departQ m
    else closePeriod departQ false (stepDigest (bpCommit (commitAt ns (keepUndo m))))
  else closeSafe departQ (finishCommit m)

/-- The lane of the core exists and is in use. -/
def laneInUse (l : Nat) (m : Mach) : Bool := decide (l < 64) && bitOf m.lanesOk l

/-! ### The rows -/

def execOutputCommit (ns departQ : Nat) (s : State) : Host.Outcome State Fault Refusal := .next (s.run (whenAlive (outputCommit ns departQ)))
def execLoopOverrun (departQ : Nat) (s : State) : Host.Outcome State Fault Refusal := .next (s.run (whenAlive (loopOverrun departQ)))
def execReplacementEval (stepTimes : List Nat) (s : State) : Host.Outcome State Fault Refusal := .next (s.run (whenAlive (replaceGraph stepTimes)))
def execLaneFault (lane : Nat) (s : State) : Host.Outcome State Fault Refusal :=
  .next (s.run (whenAlive fun m => if laneInUse lane m then laneFault lane m else m))

end Sys2Proof.Machine
end

