-- ==== Sys2Proof/Machine/Boundary.lean ====
section
/-! DEFINITION. Machine/Boundary.lean: the boundary of a period (R53, R64, R213, R267, R272, R279, R282, R425, R439). -/
set_option Elab.async false
namespace Sys2Proof.Machine

/-- What the surroundings show at a boundary: WAKE, measured values, which end a crossing of a warning threshold, the always-on clock (R399, R436, R439, R458). -/
def boundaryEnv (env : BoundaryEnv) (m : Mach) : Mach :=
  let pwr := match env.measured with
    | some (vin, vmid, tc, tp) =>
      let warm := fun (t : Int) => decide ((8 * m.fld F.pwrThreshTWarn : Nat) < t)
      { m.pwr with wake := env.wake, vinMeas := vin, vmidMeas := vmid, tjCtrl := tc, tjPwr := tp
                   lowSeen := m.pwr.lowSeen && decide (2 * vin < m.fld F.pwrThreshVinWarn), hotCtrl := m.pwr.hotCtrl && warm tc, hotPwr := m.pwr.hotPwr && warm tp }
    | none => { m.pwr with wake := env.wake }
  debugSeconds env.aoSecs (addHours env.aoHours { m with pwr := pwr })

/-- Time and the pair's role, before the link events (R213, R222, R282, R289). -/
def boundaryTime (m : Mach) : Mach := swapBoundary (roleBoundary (bandBoundary (sourceBoundary (timeBoundary (imageBoundary m)))))

/-- The links, the converters and the host's service. -/
def boundaryLinks (m : Mach) : Mach := serviceBoundary (adcBoundary (laneBoundary (linkEvents m)))

/-- The networks and the outputs. -/
def boundaryOutputs (m : Mach) : Mach := safetyBoundary (pwmBoundary ((List.range 2).foldl canBoundary (netBoundary m)))

/-- The check of the voted fields, breakpoints and a sleep asked for (R425, R439, R469). -/
def boundaryChecks (env : BoundaryEnv) (m : Mach) : Mach := sleepBoundary (voteBoundary (env.upsets.foldl upsetWord (bpBoundary m)))

/-- A boundary in READY, RUN and SAFE; the servo of VCORE judges the period just ended by its own P (R64). -/
def boundaryWorking (env : BoundaryEnv) (m : Mach) : Mach :=
  let m1 := boundaryLinks (boundaryTime (vcoreServo (attnBoundary (boundaryEnv env m))))
  boundaryChecks env (boundaryOutputs (pairBoundary (mayDrive m) m1))

/-- A boundary in BOOT and RECOVERY: time, the ROM's service of ring 0, the voted fields. -/
def boundaryRom (env : BoundaryEnv) (m : Mach) : Mach :=
  voteBoundary (env.upsets.foldl upsetWord (serviceBoundary (timeBoundary (attnBoundary (boundaryEnv env m)))))

/-- A boundary while the Stewards are held: time, converters, lanes and the check of the voted fields go on (R425, R429, R443). -/
def boundaryHeld (env : BoundaryEnv) (m : Mach) : Mach :=
  voteBoundary (env.upsets.foldl upsetWord (adcBoundary (laneBoundary (linkEvents (timeBoundary (boundaryEnv env m))))))

/-- A boundary of the period grid: a doorbell read is started, the Sump posts, the ring-state block is written (R53, R267, R272). -/
def periodBoundary (env : BoundaryEnv) (m : Mach) : Mach :=
  if !m.alive || m.tb.relock.isSome then m
  else
    let m0 := flowPeriodEnds (lateBlockAll m)
    let m1 := if m0.pwr.held then boundaryHeld env m0 else if m0.inState [.boot, .recovery] then boundaryRom env m0 else boundaryWorking env m0
    let m2 := if m.pwr.held then m1 else rsUpdate (sumpPost m1)
    let m3 := if m2.service then m2.send (.doorbellRead m2.host.dbAddr) else m2
    { m3 with dev := { m3.dev with intakeDone := false } }

def execPeriodBoundary (env : BoundaryEnv) (s : State) : Host.Outcome State Fault Refusal := .next (s.run (periodBoundary env))

end Sys2Proof.Machine
end

