-- ==== Sys2Proof/Machine/Dispatch.lean ====
section
/-! DEFINITION. Machine/Dispatch.lean: one arm per command, each a direct call of its meaning. -/
namespace Sys2Proof.Machine
open Sys2Proof

/-- The effect of a command on everything but the queue. -/
def exec (i : Instr) (s : State) : Host.Outcome State Fault Refusal :=
  match i with
  | .periodBoundary env => Sys2Proof.Machine.execPeriodBoundary env s
  | .intake tripLow departQ => Sys2Proof.Machine.execIntake tripLow departQ s
  | .outputCommit ns departQ => Sys2Proof.Machine.execOutputCommit ns departQ s
  | .loopOverrun departQ => Sys2Proof.Machine.execLoopOverrun departQ s
  | .replacementEval stepTimes => Sys2Proof.Machine.execReplacementEval stepTimes s
  | .laneFault lane => Sys2Proof.Machine.execLaneFault lane s
  | .reportFrame lane bytes startQ lastQ => Sys2Proof.Machine.execReportFrame lane bytes startQ lastQ s
  | .hubIdent lane bytes => Sys2Proof.Machine.execHubIdent lane bytes s
  | .zlBlockLockLost lane => Sys2Proof.Machine.execZlBlockLockLost lane s
  | .zlTrainFrame lane bytes => Sys2Proof.Machine.execZlTrainFrame lane bytes s
  | .zlTrainTimeout lane => Sys2Proof.Machine.execZlTrainTimeout lane s
  | .zlCalRsp lane bytes dtQ => Sys2Proof.Machine.execZlCalRsp lane bytes dtQ s
  | .zlCalRetry lane => Sys2Proof.Machine.execZlCalRetry lane s
  | .zlLinkLoss lane => Sys2Proof.Machine.execZlLinkLoss lane s
  | .zlDelayTrack lane => Sys2Proof.Machine.execZlDelayTrack lane s
  | .zlMarginLow lane margin => Sys2Proof.Machine.execZlMarginLow lane margin s
  | .zlLockLost => Sys2Proof.Machine.execZlLockLost s
  | .ptpMessage rx msg => Sys2Proof.Machine.execPtpMessage rx msg s
  | .tbCoastTimeout => Sys2Proof.Machine.execTbCoastTimeout s
  | .ppsiEdge at16 widthNs => Sys2Proof.Machine.execPpsiEdge at16 widthNs s
  | .ptpPortFailover => Sys2Proof.Machine.execPtpPortFailover s
  | .pllLockDetected => Sys2Proof.Machine.execPllLockDetected s
  | .pllLockLost => Sys2Proof.Machine.execPllLockLost s
  | .timeCounterDisagree a b c => Sys2Proof.Machine.execTimeCounterDisagree a b c s
  | .tbBandEdge => Sys2Proof.Machine.execTbBandEdge s
  | .ppsoPulse ns => Sys2Proof.Machine.execPpsoPulse ns s
  | .doorbellRead words => Sys2Proof.Machine.execDoorbellRead words s
  | .descriptorFetch ring bytes buf slow => Sys2Proof.Machine.execDescriptorFetch ring bytes buf slow s
  | .hostReadFault what addr => Sys2Proof.Machine.execHostReadFault what addr s
  | .pcieLinkChange up busMaster => Sys2Proof.Machine.execPcieLinkChange up busMaster s
  | .attnPulseEnd => Sys2Proof.Machine.execAttnPulseEnd s
  | .heartbeat path bytes rxQ => Sys2Proof.Machine.execHeartbeat path bytes rxQ s
  | .pairPartnerLost => Sys2Proof.Machine.execPairPartnerLost s
  | .cut path bytes departQ => Sys2Proof.Machine.execCut path bytes departQ s
  | .cutWaitTimeout departQ => Sys2Proof.Machine.execCutWaitTimeout departQ s
  | .agree path bytes => Sys2Proof.Machine.execAgree path bytes s
  | .receipt path bytes => Sys2Proof.Machine.execReceipt path bytes s
  | .forward path bytes startQ lastQ => Sys2Proof.Machine.execForward path bytes startQ lastQ s
  | .journal path frame => Sys2Proof.Machine.execJournal path frame s
  | .jack path frame => Sys2Proof.Machine.execJack path frame s
  | .posted path bytes => Sys2Proof.Machine.execPosted path bytes s
  | .copy path bytes image => Sys2Proof.Machine.execCopy path bytes image s
  | .joinReq path bytes => Sys2Proof.Machine.execJoinReq path bytes s
  | .joinAck path bytes => Sys2Proof.Machine.execJoinAck path bytes s
  | .joinNak path bytes => Sys2Proof.Machine.execJoinNak path bytes s
  | .leave path bytes => Sys2Proof.Machine.execLeave path bytes s
  | .swap path bytes => Sys2Proof.Machine.execSwap path bytes s
  | .verified path bytes => Sys2Proof.Machine.execVerified path bytes s
  | .safeNote path bytes => Sys2Proof.Machine.execSafeNote path bytes s
  | .pairPathCal path samples => Sys2Proof.Machine.execPairPathCal path samples s
  | .pairPathDown path cause => Sys2Proof.Machine.execPairPathDown path cause s
  | .copyTimeout => Sys2Proof.Machine.execCopyTimeout s
  | .serverChange cells => Sys2Proof.Machine.execServerChange cells s
  | .adcConversionDone core src v vref sampleQ endQ => Sys2Proof.Machine.execAdcConversionDone core src v vref sampleQ endQ s
  | .adcContinuousTrigger seqn at_ => Sys2Proof.Machine.execAdcContinuousTrigger seqn at_ s
  | .svFrame f => Sys2Proof.Machine.execSvFrame f s
  | .svLostTimeout stream => Sys2Proof.Machine.execSvLostTimeout stream s
  | .trgEdge line at_ width => Sys2Proof.Machine.execTrgEdge line at_ width s
  | .trgOutEnd line => Sys2Proof.Machine.execTrgOutEnd line s
  | .siphonRequest ch burst next => Sys2Proof.Machine.execSiphonRequest ch burst next s
  | .ethLinkChange port up => Sys2Proof.Machine.execEthLinkChange port up s
  | .ethUnknownFrame rx => Sys2Proof.Machine.execEthUnknownFrame rx s
  | .ethFrameDeparture port stamp busy inBuffer => Sys2Proof.Machine.execEthFrameDeparture port stamp busy inBuffer s
  | .gooseFrame f => Sys2Proof.Machine.execGooseFrame f s
  | .gooseRetransmit due => Sys2Proof.Machine.execGooseRetransmit due s
  | .gooseTalExpiry block => Sys2Proof.Machine.execGooseTalExpiry block s
  | .prpSupervisionFrame rx src => Sys2Proof.Machine.execPrpSupervisionFrame rx src s
  | .prpSupervisionTx => Sys2Proof.Machine.execPrpSupervisionTx s
  | .prpNodeForget src => Sys2Proof.Machine.execPrpNodeForget src s
  | .farTelegram rx src rct bytes at_ => Sys2Proof.Machine.execFarTelegram rx src rct bytes at_ s
  | .farLossTimeout ch => Sys2Proof.Machine.execFarLossTimeout ch s
  | .safetyTelegram rx bytes at_ => Sys2Proof.Machine.execSafetyTelegram rx bytes at_ s
  | .canFrameReceived ch f => Sys2Proof.Machine.execCanFrameReceived ch f s
  | .canTxAck ch retrans sof at_ => Sys2Proof.Machine.execCanTxAck ch retrans sof at_ s
  | .canBitError ch tx idWord bitPos at_ arb collision => Sys2Proof.Machine.execCanBitError ch tx idWord bitPos at_ arb collision s
  | .canBusRecovery ch => Sys2Proof.Machine.execCanBusRecovery ch s
  | .canScheduleEntry ch entry at_ idle => Sys2Proof.Machine.execCanScheduleEntry ch entry at_ idle s
  | .canAutobaudDwell ch => Sys2Proof.Machine.execCanAutobaudDwell ch s
  | .pwmCarrierStart ch restart => Sys2Proof.Machine.execPwmCarrierStart ch restart s
  | .pwmCompareMatch ch => Sys2Proof.Machine.execPwmCompareMatch ch s
  | .deadTimeExpiry ch side => Sys2Proof.Machine.execDeadTimeExpiry ch side s
  | .pwmTrigger ch => Sys2Proof.Machine.execPwmTrigger ch s
  | .tripLatch t ns => Sys2Proof.Machine.execTripLatch t ns s
  | .bootUv n => Sys2Proof.Machine.execBootUv n s
  | .bootUvRecover n => Sys2Proof.Machine.execBootUvRecover n s
  | .bootstrapRefresh n => Sys2Proof.Machine.execBootstrapRefresh n s
  | .lanternShort n side ns => Sys2Proof.Machine.execLanternShort n side ns s
  | .safetyCycle r => Sys2Proof.Machine.execSafetyCycle r s
  | .testPulse stp sia sib => Sys2Proof.Machine.execTestPulse stp sia sib s
  | .safetyDiscrepancy c => Sys2Proof.Machine.execSafetyDiscrepancy c s
  | .soDarkTest o chanB ok => Sys2Proof.Machine.execSoDarkTest o chanB ok s
  | .soReadbackFault o chanB => Sys2Proof.Machine.execSoReadbackFault o chanB s
  | .safetyTestDue c => Sys2Proof.Machine.execSafetyTestDue c s
  | .safetyTestOverdue c => Sys2Proof.Machine.execSafetyTestOverdue c s
  | .safetyTelegramTx n => Sys2Proof.Machine.execSafetyTelegramTx n s
  | .safetyTelWatchdog n => Sys2Proof.Machine.execSafetyTelWatchdog n s
  | .safetyTelCmpWin n => Sys2Proof.Machine.execSafetyTelCmpWin n s
  | .selftestDone failed => Sys2Proof.Machine.execSelftestDone failed s
  | .sramEccError region addr corrected lane => Sys2Proof.Machine.execSramEccError region addr corrected lane s
  | .registerWrite off be value => Sys2Proof.Machine.execRegisterWrite off be value s
  | .lockSet off => Sys2Proof.Machine.execLockSet off s
  | .snap ns => Sys2Proof.Machine.execSnap ns s
  | .hostEnable value cells => Sys2Proof.Machine.execHostEnable value cells s
  | .sleep => Sys2Proof.Machine.execSleep s
  | .halt => Sys2Proof.Machine.execHalt s
  | .stepPeriod => Sys2Proof.Machine.execStepPeriod s
  | .stepBlock => Sys2Proof.Machine.execStepBlock s
  | .resume => Sys2Proof.Machine.execResume s
  | .releaseAll => Sys2Proof.Machine.execReleaseAll s
  | .newChallenge => Sys2Proof.Machine.execNewChallenge s
  | .submit => Sys2Proof.Machine.execSubmit s
  | .endLevel => Sys2Proof.Machine.execEndLevel s
  | .reset => Sys2Proof.Machine.execReset s
  | .go value => Sys2Proof.Machine.execGo value s
  | .mdioFrameDone data => Sys2Proof.Machine.execMdioFrameDone data s
  | .luwinRead hdr addr crc busy => Sys2Proof.Machine.execLuwinRead hdr addr crc busy s
  | .luwinWrite hdr addr data crc busy => Sys2Proof.Machine.execLuwinWrite hdr addr data crc busy s
  | .luwinFrameAbandon => Sys2Proof.Machine.execLuwinFrameAbandon s
  | .haltHoldExpiry => Sys2Proof.Machine.execHaltHoldExpiry s
  | .debugLevelExpiry => Sys2Proof.Machine.execDebugLevelExpiry s
  | .challengeExpiry => Sys2Proof.Machine.execChallengeExpiry s
  | .vinRise wake => Sys2Proof.Machine.execVinRise wake s
  | .resetRelease straps => Sys2Proof.Machine.execResetRelease straps s
  | .pwrVinLow mv => Sys2Proof.Machine.execPwrVinLow mv s
  | .vinFail => Sys2Proof.Machine.execVinFail s
  | .pwrThermal die tj => Sys2Proof.Machine.execPwrThermal die tj s
  | .thermalShutdown => Sys2Proof.Machine.execThermalShutdown s
  | .thermalRestart => Sys2Proof.Machine.execThermalRestart s
  | .wake hours => Sys2Proof.Machine.execWake hours s
  | .alarmExpiry hours => Sys2Proof.Machine.execAlarmExpiry hours s
  | .rstN => Sys2Proof.Machine.execRstN s
  | .perstN => Sys2Proof.Machine.execPerstN s
  | .lockstepMismatch => Sys2Proof.Machine.execLockstepMismatch s
  | .lockstepReset => Sys2Proof.Machine.execLockstepReset s
  | .bootFromFlash flash => Sys2Proof.Machine.execBootFromFlash flash s
  | .hostBoot => Sys2Proof.Machine.execHostBoot s
  | .flashWriteDone readback => Sys2Proof.Machine.execFlashWriteDone readback s
  | .activateReset => Sys2Proof.Machine.execActivateReset s
  | .quoteSigned => Sys2Proof.Machine.execQuoteSigned s
  | .cdrLoad d => Sys2Proof.Machine.execCdrLoad d s
  | .cdrCommit d => Sys2Proof.Machine.execCdrCommit d s
  | .cdrRead d => Sys2Proof.Machine.execCdrRead d s
  | .hubAdd d => Sys2Proof.Machine.execHubAdd d s
  | .hubForget d => Sys2Proof.Machine.execHubForget d s
  | .galleryForce d => Sys2Proof.Machine.execGalleryForce d s
  | .galleryRelease d => Sys2Proof.Machine.execGalleryRelease d s
  | .stateRequest d => Sys2Proof.Machine.execStateRequest d s
  | .graphLoad d => Sys2Proof.Machine.execGraphLoad d s
  | .graphCommit d => Sys2Proof.Machine.execGraphCommit d s
  | .graphWithdraw d => Sys2Proof.Machine.execGraphWithdraw d s
  | .graphReport d => Sys2Proof.Machine.execGraphReport d s
  | .paramWrite d => Sys2Proof.Machine.execParamWrite d s
  | .paramRead d => Sys2Proof.Machine.execParamRead d s
  | .flagClear d => Sys2Proof.Machine.execFlagClear d s
  | .modeConfig d => Sys2Proof.Machine.execModeConfig d s
  | .modeRequest d => Sys2Proof.Machine.execModeRequest d s
  | .spBind d => Sys2Proof.Machine.execSpBind d s
  | .setpoint d => Sys2Proof.Machine.execSetpoint d s
  | .smExclude d => Sys2Proof.Machine.execSmExclude d s
  | .smRestore d => Sys2Proof.Machine.execSmRestore d s
  | .poolReport d => Sys2Proof.Machine.execPoolReport d s
  | .wearRead d => Sys2Proof.Machine.execWearRead d s
  | .wearWrite d => Sys2Proof.Machine.execWearWrite d s
  | .fswTarget d => Sys2Proof.Machine.execFswTarget d s
  | .armFlagClear d => Sys2Proof.Machine.execArmFlagClear d s
  | .laneMapRead d => Sys2Proof.Machine.execLaneMapRead d s
  | .tbPeriod d => Sys2Proof.Machine.execTbPeriod d s
  | .tbSource d => Sys2Proof.Machine.execTbSource d s
  | .tbConverge d => Sys2Proof.Machine.execTbConverge d s
  | .tbSet d => Sys2Proof.Machine.execTbSet d s
  | .tbBand d => Sys2Proof.Machine.execTbBand d s
  | .tbReport d => Sys2Proof.Machine.execTbReport d s
  | .adcSeqConfig d => Sys2Proof.Machine.execAdcSeqConfig d s
  | .adcUrgent d => Sys2Proof.Machine.execAdcUrgent d s
  | .chainConfig d => Sys2Proof.Machine.execChainConfig d s
  | .chainBankSwap d => Sys2Proof.Machine.execChainBankSwap d s
  | .rimConfig d => Sys2Proof.Machine.execRimConfig d s
  | .svSubscribe d => Sys2Proof.Machine.execSvSubscribe d s
  | .svUnsubscribe d => Sys2Proof.Machine.execSvUnsubscribe d s
  | .echoArm d => Sys2Proof.Machine.execEchoArm d s
  | .echoTrigger d => Sys2Proof.Machine.execEchoTrigger d s
  | .echoDisarm d => Sys2Proof.Machine.execEchoDisarm d s
  | .echoRead d => Sys2Proof.Machine.execEchoRead d s
  | .goosePublish d => Sys2Proof.Machine.execGoosePublish d s
  | .gooseSubscribe d => Sys2Proof.Machine.execGooseSubscribe d s
  | .gooseUnsubscribe d => Sys2Proof.Machine.execGooseUnsubscribe d s
  | .ethTimedTx d => Sys2Proof.Machine.execEthTimedTx d s
  | .farConfig d => Sys2Proof.Machine.execFarConfig d s
  | .farSend d => Sys2Proof.Machine.execFarSend d s
  | .canConfig d => Sys2Proof.Machine.execCanConfig d s
  | .canAutobaud d => Sys2Proof.Machine.execCanAutobaud d s
  | .canSchedule d => Sys2Proof.Machine.execCanSchedule d s
  | .canTx d => Sys2Proof.Machine.execCanTx d s
  | .canCancel d => Sys2Proof.Machine.execCanCancel d s
  | .pairConfig d => Sys2Proof.Machine.execPairConfig d s
  | .pairJoin d => Sys2Proof.Machine.execPairJoin d s
  | .pairLeave d => Sys2Proof.Machine.execPairLeave d s
  | .pairSwap d => Sys2Proof.Machine.execPairSwap d s
  | .pairReport d => Sys2Proof.Machine.execPairReport d s
  | .pairFwUpdate d => Sys2Proof.Machine.execPairFwUpdate d s
  | .safetyConfig d => Sys2Proof.Machine.execSafetyConfig d s
  | .safetyStartTest d => Sys2Proof.Machine.execSafetyStartTest d s
  | .safetyReset d => Sys2Proof.Machine.execSafetyReset d s
  | .safetyReport d => Sys2Proof.Machine.execSafetyReport d s
  | .tripClear d => Sys2Proof.Machine.execTripClear d s
  | .outputOverride d => Sys2Proof.Machine.execOutputOverride d s
  | .quote d => Sys2Proof.Machine.execQuote d s
  | .keyInstall d => Sys2Proof.Machine.execKeyInstall d s
  | .keyRevoke d => Sys2Proof.Machine.execKeyRevoke d s
  | .imageStage d => Sys2Proof.Machine.execImageStage d s
  | .imageActivate d => Sys2Proof.Machine.execImageActivate d s
  | .debugUnlock d => Sys2Proof.Machine.execDebugUnlock d s
  | .nop d => Sys2Proof.Machine.execNop d s
  | .fence d => Sys2Proof.Machine.execFence d s
  | .cancel d => Sys2Proof.Machine.execCancel d s
  | .blockLockAcquired link => Sys2Proof.Machine.execBlockLockAcquired link s
  | .trainFrameTx link => Sys2Proof.Machine.execTrainFrameTx link s
  | .pairTrainFrame path bytes => Sys2Proof.Machine.execPairTrainFrame path bytes s
  | .pairCalReq path bytes turn => Sys2Proof.Machine.execPairCalReq path bytes turn s
  | .pairCalRetry path => Sys2Proof.Machine.execPairCalRetry path s
  | .ptpMessageTx port kind at_ => Sys2Proof.Machine.execPtpMessageTx port kind at_ s
  | .pciePowerState d3 => Sys2Proof.Machine.execPciePowerState d3 s
  | .ethBadFrame port => Sys2Proof.Machine.execEthBadFrame port s
  | .canCycleStart ch at_ => Sys2Proof.Machine.execCanCycleStart ch at_ s
  | .canAutobaudTimeout ch => Sys2Proof.Machine.execCanAutobaudTimeout ch s
  | .agreeCut => Sys2Proof.Machine.execAgreeCut s
  | .votedFieldRead off upsets => Sys2Proof.Machine.execVotedFieldRead off upsets s

end Sys2Proof.Machine
end

