-- ==== Sys2Proof/Safety.lean ====
section
/-! DEFINITION. Sys2Proof/Safety.lean: what counts as a safe run, and the words in which the statements speak of commands that take effect. -/
set_option Elab.async false
namespace Sys2Proof
open Sys2Proof.Machine

/-- A run of `n` steps from `s` that meets neither a fault nor a refusal. -/
def SafeRun : Nat → State → Prop
  | 0, _ => True
  | n + 1, s => ∃ t, step s = .next t ∧ SafeRun n t

/-- The four commands that can stop: writes of setup-window words, which may change a reserved bit (R422). -/
def Instr.writesWord : Instr → Bool
  | .registerWrite _ _ _ => true
  | .hostEnable _ _ => true
  | .go _ => true
  | .luwinWrite _ _ _ _ _ => true
  | _ => false

/-- The commands that a device in OFF or DORMANT answers: its supply, its wake sources and its reset (R436 to R441), the PCIe link and its power state (R239), and the ends of what was pulsed. -/
def Instr.actsUnsupplied : Instr → Bool
  | .vinRise _ => true
  | .resetRelease _ => true
  | .vinFail => true
  | .thermalShutdown => true
  | .thermalRestart => true
  | .wake _ => true
  | .alarmExpiry _ => true
  | .lockstepReset => true
  | .perstN => true
  | .pcieLinkChange _ _ => true
  | .pciePowerState _ => true
  | .attnPulseEnd => true
  | .trgOutEnd _ => true
  | _ => false

/-- A situation in which a unit may drive its PWM and Lantern outputs (R294), in a device that is out of SAFE. -/
def Machine.Mach.drivesOutputs (m : Mach) : Prop :=
  (m.pair.role = .solo ∧ m.dev.state = .run) ∨ (m.pair.role = .senior ∧ (m.dev.state = .run ∨ m.dev.state = .ready))
    ∨ (m.pair.role = .solo ∧ m.dev.state = .ready ∧ m.pair.heard = false ∧ m.pair.heardPrev = false)

/-- What the output balls may never show: both sides of a leg on (R376), a PWM or Lantern output on in a unit that may not drive it (R294), a PWM output of a channel that drives a Lantern driver, or a driver whose LAN_EN is clear (R382), SAFE_N high outside READY and RUN (R429), a safe output energised in SAFE or without supply (R400), HRDY high with SAFE_N low (R270). -/
structure Machine.Mach.BallsOk (m : Mach) : Prop where
  legs : ∀ n, ¬(bitOf m.pins.pwmH n = true ∧ bitOf m.pins.pwmL n = true) ∧ ¬(bitOf m.pins.lho n = true ∧ bitOf m.pins.llo n = true)
  driven : ¬m.drivesOutputs → m.pins.pwmH = 0 ∧ m.pins.pwmL = 0 ∧ m.pins.lho = 0 ∧ m.pins.llo = 0
  lantern : ∀ n, n < 6 →
    (bitOf (m.fld F.lanCtrlLanEn) n = true → bitOf m.pins.pwmH n = false ∧ bitOf m.pins.pwmL n = false)
      ∧ (bitOf (m.fld F.lanCtrlLanEn) n = false → bitOf m.pins.lho n = false ∧ bitOf m.pins.llo n = false)
  safeN : m.pins.safeN = true → m.dev.state = .ready ∨ m.dev.state = .run
  safety : m.dev.state = .safe ∨ m.dev.state = .off ∨ m.dev.state = .dormant → m.pins.soA = 0 ∧ m.pins.soB = 0
  hrdy : m.pins.hrdy = true → m.pins.safeN = true

/-- The device with what its last step sent dropped: what every meaning starts from. -/
def Machine.State.start (s : State) : Mach := { s.m with out := [] }

/-- The device is up and its Stewards are not held (R429, R443). -/
abbrev Up (s : State) : Prop := s.m.alive = true ∧ s.m.pwr.held = false

/-- The device that has taken a descriptor of a ring in this period: what the checks of the command and its acceptance start from (R250). -/
def Machine.State.fetching (s : State) (r : Nat) : Mach := { s.start with host := { s.m.host with fetched := r :: s.m.host.fetched } }

/-- A unit that serves the rings of a pair that exchanges journals a command with its partner before it accepts it (R292). -/
def Machine.State.journals (s : State) : Bool := s.m.pair.exchanging && s.m.pair.server && s.m.pair.role != .shadow

/-- A host command of a row is accepted and takes effect in this step. The device is up and serves the rings, a descriptor of the command's ring is to be fetched, and it is its turn (R250). The unit is not one of a pair that exchanges, where a command is journalled with the partner first (R292). The ROM serves it where the ROM serves (R450), in a state that the row lists. The checks of R251 pass. The command's own boundary is the present one (R253). No earlier command of its ring is accepted and not terminal, CANCEL being exempt (R253, R263). The engine does not make it wait (R468). -/
abbrev Taken (info : CmdInfo) (d : Desc) (s : State) : Prop :=
  fetchable d.ring s.start = true ∧ s.m.pair.exchanging = false ∧ romRefuses (d.cmd info.op) (s.fetching d.ring) = false ∧ s.m.inState info.states = true
    ∧ checkCmd info d.resv (d.cmd info.op) (s.fetching d.ring) = none ∧ ownOf (d.cmd info.op) s.m.tb.k (s.fetching d.ring) = some s.m.tb.k
    ∧ (∀ p ∈ s.m.host.accepted, p.cmd.ring = d.ring → p.cmd.seq ≠ d.seq ∧ (info.op = 0x0F03 ∨ d.seq < p.cmd.seq))
    ∧ haltWaits (d.cmd info.op) s.start = false

/-- A host command of a row is journalled in this step: its descriptor is to be fetched, the unit journals commands with its partner, and the checks pass (R251, R292). -/
abbrev Journalled (info : CmdInfo) (d : Desc) (s : State) : Prop :=
  fetchable d.ring s.start = true ∧ s.journals = true ∧ romRefuses (d.cmd info.op) (s.fetching d.ring) = false
    ∧ checkCmd info d.resv (d.cmd info.op) (s.fetching d.ring) = none

/-- The state in which the command is journalled: its descriptor is consumed, it waits for JACK, and JOURNAL goes to the partner (R292). -/
def Machine.State.journalled (s : State) (info : CmdInfo) (d : Desc) : State :=
  let m := consume d.ring (s.fetching d.ring)
  { s with m := settle (sendJournal (d.cmd info.op) { m with host := { m.host with jackWait := m.host.jackWait ++ [d.cmd info.op] } }) }

/-- The command as the device holds it once accepted: F is the present boundary, and so is its own boundary (R252, R253). -/
def Machine.State.held (s : State) (info : CmdInfo) (d : Desc) : Cmd :=
  { d.cmd info.op with first := s.m.tb.k, own := some s.m.tb.k, order := s.m.host.acceptCount }

/-- The device once the command is accepted: its descriptor is consumed and ACCEPTED is posted with FIRST (R251, R252). -/
def Machine.State.accepts (s : State) (info : CmdInfo) (d : Desc) : Mach := acceptNow (d.cmd info.op) (s.fetching d.ring)

/-- The state in which the command has taken effect by `upd` and has completed with `f`: beyond `upd`, only what posting its two completions changes, and the SEQ that its ring notes as the last one in effect (R252, R256). -/
def Machine.State.completed (s : State) (info : CmdInfo) (d : Desc) (f : Fin) (upd : Mach → Mach) : State :=
  { s with m := settle (settleEff (s.held info d) (upd (s.accepts info d), .done f)) }

/-- The state in which the command has taken effect by `upd` and completes in a later step. -/
def Machine.State.inEffect (s : State) (info : CmdInfo) (d : Desc) (upd : Mach → Mach) : State :=
  { s with m := settle (settleEff (s.held info d) (upd (s.accepts info d), .hold)) }

/-- The state with another device, its output balls settled; the queue as it was. -/
def Machine.State.to (s : State) (m : Mach) : State := { s with m := settle m }

/-- The key under which a pair message is taken once (R278). -/
def pairKey (typ : Nat) (b : List Byte) : Nat × Nat × Nat := (typ, fieldLE b 8 8, leNat (pairBody b))

/-- A pair message of a type is taken from a path: the path is in service, the frame is good, and its first copy it is (R278). -/
abbrev PairIn (p typ : Nat) (b : List Byte) (s : State) : Prop :=
  p < 2 ∧ Up s ∧ (s.m.path p).inService = true ∧ pairOk b = true ∧ fieldLE b 0 1 = typ ∧ s.m.pair.taken.contains (pairKey typ b) = false
    ∧ s.m.pair.takenPrev.contains (pairKey typ b) = false

/-- The device once it has noted the message as taken, and the end of the partner's stream on the path it came by (R278, R285, R301). -/
def Machine.State.noted (s : State) (p typ : Nat) (b : List Byte) : Mach :=
  let m := streamEnds p b s.start
  { m with pair := { m.pair with taken := s.m.pair.taken ++ [pairKey typ b] } }

end Sys2Proof
end

