-- ==== Sys2Proof/WellFormed.lean ====
section
/-! DEFINITION. Sys2Proof/WellFormed.lean: the commands whose operands name things the device has. -/
set_option Elab.async false
namespace Sys2Proof
open Sys2Proof.Machine

/-- A lane of ZeldLink: 0 to 15 (R1). -/
def zlLaneOk (l : Nat) : Bool := decide (l < 16)
/-- A lane of the loop engine: 0 to 63 (R50). -/
def loopLaneOk (l : Nat) : Bool := decide (l < 64)
/-- A path of the pair link: 0 or 1 (R276). -/
def pathOk (p : Nat) : Bool := decide (p < 2)
/-- An Ethernet port: 0 or 1 (R1). -/
def portOk (p : Nat) : Bool := decide (p < 2)
/-- A CAN channel: 0 or 1 (R1). -/
def canOk (c : Nat) : Bool := decide (c < 2)
/-- A PWM channel: 0 to 11 (R1). -/
def pwmOk (c : Nat) : Bool := decide (c < 12)
/-- A Lantern driver: 0 to 5 (R1, R382). -/
def lanternOk (n : Nat) : Bool := decide (n < 6)
/-- A command ring: 0 to 15 (R243). -/
def ringOk (r : Nat) : Bool := decide (r < 16)
/-- What a host read is for: the doorbell page, or a descriptor or payload of a ring (R241). -/
def readOk : HostRead → Bool
  | .doorbell => true
  | .descriptor r => ringOk r
  | .payload r => ringOk r
/-- A register word of the setup window: word aligned, within 64 KiB (R417). -/
def offsetOk (o : Nat) : Bool := decide (o < 0x10000) && o % 4 == 0
/-- Byte enables of a word (R417). -/
def byteEnablesOk (b : Nat) : Bool := decide (b < 16)

/-- A descriptor as its 64 bytes can carry it (R247). -/
def Machine.Desc.wf (d : Desc) : Bool :=
  ringOk d.ring && decide (d.seq < 2 ^ 64) && decide (d.flags < 2 ^ 16) && decide (d.plen < 2 ^ 16) && decide (d.secs < 2 ^ 64) && decide (d.nanos < 2 ^ 32)
    && d.pay.length == 32

/-- The operands name parts of the device, and every field fits its width. -/
def Instr.wf : Instr → Bool
  | .periodBoundary env => env.upsets.all fun u => offsetOk u.1 && decide (u.2.1 < 3)
  | .intake tripLow _ => decide (tripLow < 256)
  | .outputCommit _ _ => true
  | .loopOverrun _ => true
  | .replacementEval _ => true
  | .laneFault lane => loopLaneOk lane
  | .reportFrame lane _ _ _ => zlLaneOk lane
  | .hubIdent lane _ => zlLaneOk lane
  | .zlBlockLockLost lane => zlLaneOk lane
  | .zlTrainFrame lane _ => zlLaneOk lane
  | .zlTrainTimeout lane => zlLaneOk lane
  | .zlCalRsp lane _ _ => zlLaneOk lane
  | .zlCalRetry lane => zlLaneOk lane
  | .zlLinkLoss lane => zlLaneOk lane
  | .zlDelayTrack lane => zlLaneOk lane
  | .zlMarginLow lane _ => zlLaneOk lane
  | .zlLockLost => true
  | .ptpMessage rx _ => portOk rx.port
  | .tbCoastTimeout => true
  | .ppsiEdge _ _ => true
  | .ptpPortFailover => true
  | .pllLockDetected => true
  | .pllLockLost => true
  | .timeCounterDisagree _ _ _ => true
  | .tbBandEdge => true
  | .ppsoPulse _ => true
  | .doorbellRead words => words.all fun w => decide (w < 2 ^ 32)
  | .descriptorFetch ring _ _ _ => ringOk ring
  | .hostReadFault what _ => readOk what
  | .pcieLinkChange _ _ => true
  | .attnPulseEnd => true
  | .heartbeat path _ _ => pathOk path
  | .pairPartnerLost => true
  | .cut path _ _ => pathOk path
  | .cutWaitTimeout _ => true
  | .agree path _ => pathOk path
  | .receipt path _ => pathOk path
  | .forward path _ _ _ => pathOk path
  | .journal path _ => pathOk path
  | .jack path _ => pathOk path
  | .posted path _ => pathOk path
  | .copy path _ _ => pathOk path
  | .joinReq path _ => pathOk path
  | .joinAck path _ => pathOk path
  | .joinNak path _ => pathOk path
  | .leave path _ => pathOk path
  | .swap path _ => pathOk path
  | .verified path _ => pathOk path
  | .safeNote path _ => pathOk path
  | .pairPathCal path samples => pathOk path && samples.length == 64
  | .pairPathDown path _ => pathOk path
  | .copyTimeout => true
  | .serverChange _ => true
  | .adcConversionDone core _ _ _ _ _ => decide (core < 2)
  | .adcContinuousTrigger seqn _ => decide (seqn < 4)
  | .svFrame f => portOk f.port
  | .svLostTimeout stream => decide (stream < 64)
  | .trgEdge line _ _ => decide (line < 4)
  | .trgOutEnd line => decide (line < 4)
  | .siphonRequest ch _ _ => decide (ch < 32)
  | .ethLinkChange port _ => portOk port
  | .ethUnknownFrame rx => portOk rx.port
  | .ethFrameDeparture port _ _ _ => portOk port
  | .gooseFrame f => portOk f.port
  | .gooseRetransmit due => decide (due.block < 32)
  | .gooseTalExpiry block => decide (32 ≤ block) && decide (block < 160)
  | .prpSupervisionFrame rx _ => portOk rx.port
  | .prpSupervisionTx => true
  | .prpNodeForget _ => true
  | .farTelegram rx _ _ _ _ => portOk rx.port
  | .farLossTimeout ch => decide (ch < 4)
  | .safetyTelegram rx _ _ => portOk rx.port
  | .canFrameReceived ch _ => canOk ch
  | .canTxAck ch _ _ _ => canOk ch
  | .canBitError ch _ _ _ _ _ _ => canOk ch
  | .canBusRecovery ch => canOk ch
  | .canScheduleEntry ch entry _ _ => canOk ch && decide (entry < 64)
  | .canAutobaudDwell ch => canOk ch
  | .pwmCarrierStart ch _ => pwmOk ch
  | .pwmCompareMatch ch => pwmOk ch
  | .deadTimeExpiry ch _ => pwmOk ch
  | .pwmTrigger ch => pwmOk ch
  | .tripLatch t _ => decide (t < 8)
  | .bootUv n => lanternOk n
  | .bootUvRecover n => lanternOk n
  | .bootstrapRefresh n => lanternOk n
  | .lanternShort n _ _ => lanternOk n
  | .safetyCycle r => decide (r.sia < 256) && decide (r.sib < 256) && decide (r.soaRb < 16) && decide (r.sobRb < 16) && (match r.window with | some n => decide (n < 4) | none => true)
  | .testPulse stp sia sib => decide (stp < 4) && decide (sia < 256) && decide (sib < 256)
  | .safetyDiscrepancy i => decide (i < 8)
  | .soDarkTest o _ _ => decide (o < 4)
  | .soReadbackFault o _ => decide (o < 4)
  | .safetyTestDue i => decide (i < 8)
  | .safetyTestOverdue i => decide (i < 8)
  | .safetyTelegramTx n => decide (n < 4)
  | .safetyTelWatchdog n => decide (n < 4)
  | .safetyTelCmpWin n => decide (n < 4)
  | .selftestDone _ => true
  | .sramEccError _ _ _ lane => (match lane with | some l => loopLaneOk l | none => true)
  | .registerWrite off be _ => decide (off < 0x10000) && byteEnablesOk be
  | .lockSet off => offsetOk off
  | .snap _ => true
  | .hostEnable _ _ => true
  | .sleep => true
  | .halt => true
  | .stepPeriod => true
  | .stepBlock => true
  | .resume => true
  | .releaseAll => true
  | .newChallenge => true
  | .submit => true
  | .endLevel => true
  | .reset => true
  | .go _ => true
  | .mdioFrameDone data => decide (data < 2 ^ 16)
  | .luwinRead hdr addr crc _ => decide (hdr < 256) && decide (addr < 2 ^ 32) && decide (crc < 2 ^ 16)
  | .luwinWrite hdr addr _ crc _ => decide (hdr < 256) && decide (addr < 2 ^ 32) && decide (crc < 2 ^ 16)
  | .luwinFrameAbandon => true
  | .haltHoldExpiry => true
  | .debugLevelExpiry => true
  | .challengeExpiry => true
  | .vinRise _ => true
  | .resetRelease _ => true
  | .pwrVinLow _ => true
  | .vinFail => true
  | .pwrThermal die _ => decide (die < 2)
  | .thermalShutdown => true
  | .thermalRestart => true
  | .wake _ => true
  | .alarmExpiry _ => true
  | .rstN => true
  | .perstN => true
  | .lockstepMismatch => true
  | .lockstepReset => true
  | .bootFromFlash _ => true
  | .hostBoot => true
  | .flashWriteDone _ => true
  | .activateReset => true
  | .quoteSigned => true
  | .cdrLoad d => d.wf
  | .cdrCommit d => d.wf
  | .cdrRead d => d.wf
  | .hubAdd d => d.wf
  | .hubForget d => d.wf
  | .galleryForce d => d.wf
  | .galleryRelease d => d.wf
  | .stateRequest d => d.wf
  | .graphLoad d => d.wf
  | .graphCommit d => d.wf
  | .graphWithdraw d => d.wf
  | .graphReport d => d.wf
  | .paramWrite d => d.wf
  | .paramRead d => d.wf
  | .flagClear d => d.wf
  | .modeConfig d => d.wf
  | .modeRequest d => d.wf
  | .spBind d => d.wf
  | .setpoint d => d.wf
  | .smExclude d => d.wf
  | .smRestore d => d.wf
  | .poolReport d => d.wf
  | .wearRead d => d.wf
  | .wearWrite d => d.wf
  | .fswTarget d => d.wf
  | .armFlagClear d => d.wf
  | .laneMapRead d => d.wf
  | .tbPeriod d => d.wf
  | .tbSource d => d.wf
  | .tbConverge d => d.wf
  | .tbSet d => d.wf
  | .tbBand d => d.wf
  | .tbReport d => d.wf
  | .adcSeqConfig d => d.wf
  | .adcUrgent d => d.wf
  | .chainConfig d => d.wf
  | .chainBankSwap d => d.wf
  | .rimConfig d => d.wf
  | .svSubscribe d => d.wf
  | .svUnsubscribe d => d.wf
  | .echoArm d => d.wf
  | .echoTrigger d => d.wf
  | .echoDisarm d => d.wf
  | .echoRead d => d.wf
  | .goosePublish d => d.wf
  | .gooseSubscribe d => d.wf
  | .gooseUnsubscribe d => d.wf
  | .ethTimedTx d => d.wf
  | .farConfig d => d.wf
  | .farSend d => d.wf
  | .canConfig d => d.wf
  | .canAutobaud d => d.wf
  | .canSchedule d => d.wf
  | .canTx d => d.wf
  | .canCancel d => d.wf
  | .pairConfig d => d.wf
  | .pairJoin d => d.wf
  | .pairLeave d => d.wf
  | .pairSwap d => d.wf
  | .pairReport d => d.wf
  | .pairFwUpdate d => d.wf
  | .safetyConfig d => d.wf
  | .safetyStartTest d => d.wf
  | .safetyReset d => d.wf
  | .safetyReport d => d.wf
  | .tripClear d => d.wf
  | .outputOverride d => d.wf
  | .quote d => d.wf
  | .keyInstall d => d.wf
  | .keyRevoke d => d.wf
  | .imageStage d => d.wf
  | .imageActivate d => d.wf
  | .debugUnlock d => d.wf
  | .nop d => d.wf
  | .fence d => d.wf
  | .cancel d => d.wf
  | .blockLockAcquired link => (match link with | .lane l => zlLaneOk l | .path p => pathOk p)
  | .trainFrameTx link => (match link with | .lane l => zlLaneOk l | .path p => pathOk p)
  | .pairTrainFrame path _ => pathOk path
  | .pairCalReq path _ _ => pathOk path
  | .pairCalRetry path => pathOk path
  | .ptpMessageTx port _ _ => portOk port
  | .pciePowerState _ => true
  | .ethBadFrame port => portOk port
  | .canCycleStart ch _ => canOk ch
  | .canAutobaudTimeout ch => canOk ch
  | .agreeCut => true
  | .votedFieldRead off upsets => offsetOk off && (upsets.all fun u => offsetOk u.1 && decide (u.2.1 < 3))

end Sys2Proof
end

