-- ==== Sys2Proof/Certificates/Slice0/Obligations.lean ====
section
/-! DEFINITION. Certificates/Slice0/Obligations.lean: the statements for the provers. Each docstring names the rules of spec/ that the statement rests on. -/
set_option Elab.async false
open Sys2Proof Sys2Proof.Machine

/-- For every device and every queue that is not empty, step answers what exec answers for the command at the front, on the same device with the rest of the queue. The queue is the model's own form of the order in which commands and events reach the device. Model's choice: how a row stands for what happens is that of log entry 2. (spec/02_loop_engine.md) -/
def Obligations.StepRunsTheFrontCommand : Prop :=
  ∀ (c : Instr) (rest : List Instr) (m : Mach), step ⟨m, c :: rest⟩ = exec c ⟨m, rest⟩

/-- For every command and state: where exec answers a next state, its queue is the queue before. Model's choice: how a row stands for what happens is that of log entry 2. (spec/02_loop_engine.md) -/
def Obligations.ExecLeavesTheQueue : Prop :=
  ∀ (c : Instr) (s t : State), exec c s = .next t → t.pending = s.pending

/-- For every command and state exec never refuses. It answers a fault exactly for a register write, an enable write, an MDIO write or a Luwin write that changes a reserved bit of a listed word in a device in READY, RUN or SAFE; for a Luwin write, one that would be answered DONE. The rule leaves the behaviour after such a write outside the manual. Model's choice: how a row stands for what happens is that of log entry 22. (spec/14_register_behaviour.md (R422), spec/16_luwin_debug.md (R463, R464)) -/
def Obligations.OnlyReservedBitWritesStop : Prop :=
  ∀ (c : Instr) (s : State), (∀ r, exec c s ≠ .refused r)
    ∧ ((∃ f, exec c s = .fault f) ↔
        (∃ off be v, c = .registerWrite off be v ∧ changesReserved off be v s.m = true)
        ∨ (∃ v l, c = .hostEnable v l ∧ changesReserved 0x404 15 v s.m = true)
        ∨ (∃ v, c = .go v ∧ changesReserved 0x440C 15 v s.m = true)
        ∨ (∃ h a w crc b, c = .luwinWrite h a w crc b ∧ s.m.alive = true ∧ lwReserved h a w crc b s.m = true))

/-- For every state whose queue holds no REGISTER_WRITE, HOST_ENABLE, GO or LUWIN_WRITE and every number of steps, the run is safe: each step answers a next state. Model's choice: how a row stands for what happens is that of log entry 22. (spec/14_register_behaviour.md (R422)) -/
def Obligations.RunsWithoutWordWritesNeverStop : Prop :=
  ∀ (n : Nat) (s : State), (∀ c ∈ s.pending, c.writesWord = false) → SafeRun n s

/-- In the state after reset both sides of every leg are off, no PWM, Lantern or safe output is on, and SAFE_N and HRDY are low: the invariant of the output balls holds. Model's choice: a value the spec does not give is that of log entries 10, 15. (spec/09_morkai_pairing.md (R294), spec/12_bridge_outputs_and_lantern.md (R376, R382), spec/14_register_behaviour.md (R429)) -/
def Obligations.ResetBallsAreOk : Prop :=
  State.reset.m.BallsOk

/-- For every state in which the output balls are in order and every step that answers a next state, they are in order in it: never both sides of a PWM leg or a Lantern driver on; every PWM and Lantern output low in a unit outside the situations of R294; the PWM outputs of a channel that drives a Lantern driver low, and the drivers of clear LAN_EN bits low; SAFE_N high only in READY and RUN; every safe output low in SAFE and without supply; HRDY low while SAFE_N is low. This is stated of every state, reached or not, and of every command. Model's choice: how a row stands for what happens is that of log entry 10. (spec/08_host_rings.md (R270), spec/09_morkai_pairing.md (R294), spec/12_bridge_outputs_and_lantern.md (R376, R382), spec/13_safety_functions.md (R400), spec/14_register_behaviour.md (R429)) -/
def Obligations.EveryStepKeepsTheBallsOk : Prop :=
  ∀ s t : State, s.m.BallsOk → step s = .next t → t.m.BallsOk

/-- In OFF or DORMANT every command outside thirteen rows (the supply and reset rows, the wake sources, the PCIe link and power state, and the ends of pulses) leaves the device as it is: only what the last step sent is dropped, and the output balls settle. Model's choice: how a row stands for what happens is that of log entry 5. (spec/08_host_rings.md (R239), spec/15_power_boot_security.md (R436, R438, R440, R441)) -/
def Obligations.DeviceWithoutSupplyIgnoresCommands : Prop :=
  ∀ (c : Instr) (s : State), (s.m.dev.state = .off ∨ s.m.dev.state = .dormant) → c.actsUnsupplied = false →
    exec c s = .next (s.to s.start)

/-- For every device whose host memory is in canonical form and whose held completions of the ring are that ring's own, every command and every outcome: after its terminal completion, every byte of host memory outside the entries of the completion ring and the slots of the result area of the command's ring, and outside the buffers whose bytes still waited for the host, is as before, and the form is kept. Model's choice: how a row stands for what happens is that of log entries 9, 11. (spec/08_host_rings.md (R243, R256, R257, R258)) -/
def Obligations.PostingStaysInItsRing : Prop :=
  ∀ (c : Cmd) (f : Fin) (m : Mach), Memory.wf m.hostMem = true → (∀ x ∈ (m.ring c.ring).held, x.ring = c.ring) →
    Memory.wf (complete c f m).hostMem = true
    ∧ ∀ x, (∀ i, i < (m.ring c.ring).cplE → (x < (m.ring c.ring).cplAddr + 32 * i ∨ (m.ring c.ring).cplAddr + 32 * i + 32 ≤ x)
            ∧ (x < (m.ring c.ring).resAddr + 64 * i ∨ (m.ring c.ring).resAddr + 64 * i + 64 ≤ x)) →
        (∀ w ∈ m.host.bufHeld, x < w.addr ∨ w.addr + w.bytes.length ≤ x) →
        Memory.get (complete c f m).hostMem x = Memory.get m.hostMem x

/-- For every command that is accepted and takes effect by an update and completes, every part of the device outside the host interface, host memory, CPL_STALL, the output balls and what is sent is as the update leaves it; and of the device once accepted, the same parts are as before; the state of the pair is so in a unit that exchanges with no partner. Of the registers only CPL_STALL may differ, and the output balls are those that follow from the state. Model's choice: how a row stands for what happens is that of log entries 9, 11. (spec/08_host_rings.md (R251, R252, R256, R258)) -/
def Obligations.PostingLeavesTheDeviceAlone : Prop :=
  ∀ (info : CmdInfo) (d : Desc) (f : Fin) (upd : Mach → Mach) (s : State),
    let a := s.accepts info d; let u := upd a; let t := (s.completed info d f upd).m;
    t.dev = u.dev ∧ t.gal = u.gal ∧ t.tb = u.tb ∧ t.conv = u.conv ∧ t.loop = u.loop ∧ t.mode = u.mode ∧ t.flow = u.flow ∧ t.zl = u.zl
    ∧ (u.pair.exchanging = false → t.pair = u.pair) ∧ t.meas = u.meas ∧ t.net = u.net ∧ t.pwm = u.pwm ∧ t.safety = u.safety ∧ t.pwr = u.pwr ∧ t.sec = u.sec ∧ t.dbg = u.dbg
    ∧ a.dev = s.m.dev ∧ a.gal = s.m.gal ∧ a.tb = s.m.tb ∧ a.conv = s.m.conv ∧ a.loop = s.m.loop ∧ a.mode = s.m.mode ∧ a.flow = s.m.flow
    ∧ a.zl = s.m.zl ∧ (s.m.pair.exchanging = false → a.pair = s.m.pair) ∧ a.meas = s.m.meas ∧ a.net = s.m.net ∧ a.pwm = s.m.pwm ∧ a.safety = s.m.safety ∧ a.pwr = s.m.pwr
    ∧ a.sec = s.m.sec ∧ a.dbg = s.m.dbg ∧ a.pins = s.m.pins ∧ t.pins = pinsOf t
    ∧ ∀ f : FieldRef, f.key ≠ F.hostStatusCplStall.key → t.reg.raw f = u.reg.raw f ∧ a.reg.raw f = s.m.reg.raw f

/-- After reset every ring expects SEQ 1. Where a descriptor of a ring is to be fetched, for every command row and every descriptor: one whose SEQ is not the expected value completes with REJECT_MALFORMED, the expected value's bits [31:0] in RESULT, is consumed, and leaves the expected value; nothing but the host interface, host memory, CPL_STALL and what is sent changes. One with the expected SEQ moves the expected value to the next, accepted or not. (R248) -/
def Obligations.WrongSeqIsConsumedAndRejected : Prop :=
  (∀ r, (State.reset.m.ring r).nextSeq = 1)
    ∧ (∀ (info : CmdInfo) (eff : Cmd → Mach → Mach × Eff) (d : Desc) (s : State), fetchable d.ring s.start = true →
        d.ring < s.m.host.rings.length → d.seq ≠ (s.m.ring d.ring).nextSeq →
        let t := s.run (hostCommand info eff d); let x := s.m.ring d.ring; let c := d.cmd info.op;
        t = s.to (postFor c ⟨0x10, 0, x.nextSeq % 2 ^ 32, 0, []⟩ 1 ((s.fetching d.ring).setRing d.ring { x with cmdCi := x.cmdCi + 1 }))
        ∧ (t.m.ring d.ring).nextSeq = x.nextSeq ∧ (t.m.ring d.ring).cmdCi = x.cmdCi + 1
        ∧ t.m.gal = s.m.gal ∧ t.m.dev = s.m.dev ∧ t.m.conv = s.m.conv ∧ t.m.loop = s.m.loop ∧ t.m.mode = s.m.mode)
    ∧ (∀ (c : Cmd) (m : Mach), c.ring < m.host.rings.length → c.seq = (m.ring c.ring).nextSeq →
        ((acceptNow c m).ring c.ring).nextSeq = c.seq + 1 ∧ ∀ st r, ((rejectCmd c st r m).ring c.ring).nextSeq = c.seq + 1)

/-- Where a descriptor of a ring is to be fetched, for every command row: a descriptor that fails a check of R251 is consumed and completes with the status and result of the first failing check, without an acceptance; a command that the ROM does not serve, where it serves, completes with REJECT_STATE; one that passes, whose turn it is and whose state its row does not list is accepted and completes with REJECT_STATE, with no effect of the command. Where no descriptor of the ring is to be fetched the row changes nothing. Model's choice: how a row stands for what happens is that of log entries 7, 8, 32. (spec/08_host_rings.md (R250, R251, R252, R253, R264), spec/15_power_boot_security.md (R450)) -/
def Obligations.FirstFailingCheckRejects : Prop :=
  (∀ (info : CmdInfo) (eff : Cmd → Mach → Mach × Eff) (d : Desc) (s : State), fetchable d.ring s.start = false →
      s.run (hostCommand info eff d) = s.to s.start)
    ∧ (∀ (info : CmdInfo) (eff : Cmd → Mach → Mach × Eff) (d : Desc) (s : State), fetchable d.ring s.start = true →
      ∀ st r, checkCmd info d.resv (d.cmd info.op) (s.fetching d.ring) = some (st, r) →
        s.run (hostCommand info eff d) = s.to (rejectCmd (d.cmd info.op) st r (s.fetching d.ring)))
    ∧ (∀ (info : CmdInfo) (eff : Cmd → Mach → Mach × Eff) (d : Desc) (s : State), fetchable d.ring s.start = true → checkCmd info d.resv (d.cmd info.op) (s.fetching d.ring) = none →
      romRefuses (d.cmd info.op) (s.fetching d.ring) = true →
        s.run (hostCommand info eff d) = s.to (rejectCmd (d.cmd info.op) 0x12 0 (s.fetching d.ring)))
    ∧ (∀ (info : CmdInfo) (eff : Cmd → Mach → Mach × Eff) (d : Desc) (s : State), fetchable d.ring s.start = true → romRefuses (d.cmd info.op) (s.fetching d.ring) = false → checkCmd info d.resv (d.cmd info.op) (s.fetching d.ring) = none →
        s.m.pair.exchanging = false → ownOf (d.cmd info.op) s.m.tb.k (s.fetching d.ring) = some s.m.tb.k →
        (∀ p ∈ s.m.host.accepted, p.cmd.ring = d.ring → p.cmd.seq ≠ d.seq ∧ (info.op = 0x0F03 ∨ d.seq < p.cmd.seq)) →
        haltWaits (d.cmd info.op) s.start = false → s.m.inState info.states = false →
        s.run (hostCommand info eff d) = s.completed info d (fin 0x12) id)

/-- Where a descriptor of a ring is to be fetched and passes its checks, for every command row: in a unit that exchanges with no partner, while an earlier command of its ring is accepted, not terminal and did not take effect at this boundary (CANCEL being exempt), or while its launch time is still to come, or for group 0x02 or 0x03 while the engine is halted and not stepped, it is accepted, and nothing else happens in the step. In a unit that exchanges with a partner the descriptor is consumed, the command waits for JACK and JOURNAL is sent, and nothing else happens in the step. Model's choice: how a row stands for what happens is that of log entries 7, 8, 32. Clauses rest on the model's own choices or readings of log entry 31. (spec/08_host_rings.md (R252, R253), spec/09_morkai_pairing.md (R292), spec/16_luwin_debug.md (R468)) -/
def Obligations.CommandsOfARingWaitTheirTurn : Prop :=
  (∀ (info : CmdInfo) (eff : Cmd → Mach → Mach × Eff) (d : Desc) (s : State), fetchable d.ring s.start = true → romRefuses (d.cmd info.op) (s.fetching d.ring) = false → checkCmd info d.resv (d.cmd info.op) (s.fetching d.ring) = none →
    s.m.pair.exchanging = false → (∀ p ∈ s.m.host.accepted, p.cmd.ring = d.ring → p.cmd.seq ≠ d.seq) →
    ((info.op ≠ 0x0F03 ∧ ∃ p ∈ s.m.host.accepted, p.cmd.ring = d.ring ∧ p.cmd.seq < d.seq ∧ actedNow p s.start = false)
      ∨ ownOf (d.cmd info.op) s.m.tb.k (s.fetching d.ring) = none ∨ haltWaits (d.cmd info.op) s.start = true) →
    s.run (hostCommand info eff d) = s.to (s.accepts info d))
    ∧ (∀ (info : CmdInfo) (eff : Cmd → Mach → Mach × Eff) (d : Desc) (s : State), Journalled info d s →
      s.run (hostCommand info eff d) = s.journalled info d)

/-- Where a descriptor of a ring is to be fetched, in a unit that exchanges with no partner, for every command row: a descriptor that passes its checks, whose turn it is and whose launch time maps to a boundary before the present one is accepted and completes with EXPIRED, with no effect; with bit 1 of FLAGS set it takes effect now, with LATE in its completion. A launch time maps to the first boundary at or after it. Model's choice: how a row stands for what happens is that of log entries 7, 8, 32. Clauses rest on the model's own choices or readings of log entry 31. (spec/07_timebase.md (R217), spec/08_host_rings.md (R247, R253, R254, R256)) -/
def Obligations.LateCommandsExpireUnlessTheyMayBeLate : Prop :=
  ∀ (info : CmdInfo) (eff : Cmd → Mach → Mach × Eff) (d : Desc) (s : State), fetchable d.ring s.start = true → romRefuses (d.cmd info.op) (s.fetching d.ring) = false → checkCmd info d.resv (d.cmd info.op) (s.fetching d.ring) = none →
    s.m.pair.exchanging = false →
    ∀ b, (d.cmd info.op).timed = true → s.m.tb.mapped (d.cmd info.op).launchNs = some b → b < s.m.tb.k →
    (∀ p ∈ s.m.host.accepted, p.cmd.ring = d.ring → p.cmd.seq ≠ d.seq ∧ (info.op = 0x0F03 ∨ d.seq < p.cmd.seq)) →
    haltWaits (d.cmd info.op) s.start = false →
    (bitOf d.flags 1 = false → s.run (hostCommand info eff d) = s.to (complete { s.held info d with own := some b } (fin 0x21) (s.accepts info d)))
    ∧ (bitOf d.flags 1 = true → s.m.inState info.states = true →
        s.run (hostCommand info eff d) = s.to (settleEff { s.held info d with late := true } (eff { s.held info d with late := true } (s.accepts info d))))

/-- For every device and every aligned offset at which no block table lists a field: a read returns zero; a write of any word leaves the device as it is, with no flag and no event; and REGISTER_WRITE at it answers a next state in which nothing has changed. (R419) -/
def Obligations.ReservedOffsetsReadZeroAndIgnoreWrites : Prop :=
  ∀ (off : Nat) (s : State), off % 4 = 0 → fieldsAt (decodeOff s.m off) = [] →
    regRead s.m off = 0#32 ∧ (∀ ns v, hostWriteReg ns off 15 v s.m = s.m)
    ∧ (∀ v, exec (.registerWrite off 15 v) s = .next (s.to s.start))

/-- At the check of a voted field: three equal copies end its run and change nothing else; two equal copies make the field the majority, set VOTE_FIX, count it and keep its offset, and post REG_VOTE_FIX with the offset unless the field is in a run; three copies that all differ make the field the lowest of them, enter SAFE with cause 0x03, and post REG_VOTE_FAIL with the offset. Clauses rest on the model's own choices or readings of log entry 188. (spec/14_register_behaviour.md (R425, R430, R432)) -/
def Obligations.VotedFieldsHoldTheMajority : Prop :=
  ∀ (m : Mach) (r : FieldRow), let g := fun t => sget (fun _ => r.reset) t r.ref.key
    let a := g m.reg.a; let b := g m.reg.b; let c := g m.reg.c;
    (a = b → b = c → voteField m r = { m with dev := { m.dev with voteRun := m.dev.voteRun.filter fun x => x ≠ r.ref.key } })
    ∧ (∀ v, ¬(a = b ∧ b = c) → ((a = v ∧ b = v) ∨ (a = v ∧ c = v) ∨ (b = v ∧ c = v)) →
        let m2 := (((m.setF r.ref v).raise F.devStatusVoteFix).bump F.devVoteFixCnt 1).setF F.devVoteLastOfs r.off
        voteField m r = (let m3 := if m.dev.voteRun.contains r.ref.key then m2 else m2.post 0x0E02 [r.off];
          { m3 with dev := { m3.dev with voteRun := insertNat r.ref.key m3.dev.voteRun } }))
    ∧ (a ≠ b → a ≠ c → b ≠ c → voteField m r = (enterSafe 3 0 (m.setF r.ref (min a (min b c)))).post 0x0E03 [r.off])

/-- A cause in READY or RUN brings the device to SAFE, and the last event posted is SAFE_ENTERED with the cause, SUB and the boundary number; in every other state a cause changes nothing. Two causes in a row are as the first alone. (spec/14_register_behaviour.md (R429, R430, R432)) -/
def Obligations.EntryIntoSafeIsLatchedAndTold : Prop :=
  ∀ (cause sub : Nat) (m : Mach),
    ((m.dev.state = .ready ∨ m.dev.state = .run) →
      (enterSafe cause sub m).dev.state = .safe
      ∧ (enterSafe cause sub m).host.evNew.getLast? = some ⟨0x0E06, 0, m.tb.k, [cause, sub, m.tb.k % 2 ^ 32, m.tb.k / 2 ^ 32 % 2 ^ 32], none⟩
      ∧ ∀ c2 s2, enterSafe c2 s2 (enterSafe cause sub m) = enterSafe cause sub m)
    ∧ (m.dev.state ≠ .ready → m.dev.state ≠ .run → enterSafe cause sub m = m)

/-- After reset an entry that is not reserved holds VALUE 0, AGE 0xFFFF, only STALE and SOURCE 0. In a table in canonical form a written entry reads back, at an index that is not reserved, and every other entry is as before; a reserved index reads all zero and takes no write; a producer's write to a forced entry changes nothing, and to any other entry that is not reserved gives its value with AGE 0. (spec/00_scope.md (R8, R9, R497), spec/01_converter_model.md (R25, R28, R30)) -/
def Obligations.GalleryHoldsResetContentUntilWritten : Prop :=
  (∀ i, galReserved i = false → State.reset.m.g i = ⟨0#32, 0xFFFF#16, 2#8, 0#8, false⟩)
    ∧ (∀ (t : List (Nat × GEntry)) (i : Nat) (e : GEntry), swf (fun _ => gReset) t = true →
        swf (fun _ => gReset) (galPut t i e) = true ∧ (galReserved i = false → galGet (galPut t i e) i = e)
        ∧ ∀ j, j ≠ i → galGet (galPut t i e) j = galGet t j)
    ∧ (∀ (t : List (Nat × GEntry)) (i : Nat) (e : GEntry), galReserved i = true → galGet t i = ⟨0#32, 0#16, 0#8, 0#8, false⟩ ∧ galPut t i e = t)
    ∧ (∀ (t : List (Nat × GEntry)) (fr : Bool) (i : Nat) (v : Word) (q : Byte) (src : Nat), swf (fun _ => gReset) t = true →
        (qBit (galGet t i).quality qFORCED = true → galProduce t fr i v q src = t)
        ∧ (qBit (galGet t i).quality qFORCED = false → galReserved i = false → galGet (galProduce t fr i v q src) i = ⟨v, 0#16, q, BitVec.ofNat 8 src, fr⟩))

/-- In the state after reset the device is in BOOT with the queue empty, the role is SOLO, the period number is 0, TIME_VALID is clear and the coast rate zero, no graph is staged or committed, no record is active, the mode is BLOCKED, the engine runs, no lane works, every ring expects SEQ 1, every safe output is de-energised, and every register field holds its reset value but the bit POR of PWR_RESET_CAUSE, which a power-on reset sets. Model's choice: a value the spec does not give is that of log entries 13, 14, 15. (spec/01_converter_model.md (R37), spec/07_timebase.md (R214, R224), spec/08_host_rings.md (R248), spec/15_power_boot_security.md (R441, R442)) -/
def Obligations.ResetLeavesTheStatedValues : Prop :=
  State.reset.pending = [] ∧ State.reset.m.dev.state = .boot ∧ State.reset.m.pair.role = .solo ∧ State.reset.m.tb.k = 0
    ∧ State.reset.m.tb.timeValid = false ∧ State.reset.m.tb.i = 0 ∧ State.reset.m.loop.staged = none ∧ State.reset.m.loop.graph = none
    ∧ State.reset.m.conv.active = none ∧ State.reset.m.mode.mode = .blocked ∧ State.reset.m.dbg.engine = .running
    ∧ (∀ x ∈ State.reset.m.zl.lanes, x.step = 0) ∧ (∀ x ∈ State.reset.m.host.rings, x.nextSeq = 1)
    ∧ (∀ x ∈ State.reset.m.safety.outs, x.on = false) ∧ State.reset.m.reg = ⟨[(F.pwrResetCausePor.key, 1)], [], []⟩

/-- For every device and every n below 6: while LAN_EN n is set and channel n is enabled, LHOn and LLOn follow the channel's leg in a unit that drives its outputs (unless a trip of the driver or its under-voltage hold keeps them off; a refresh of its bootstrap supply cuts the high side), and PWMnH and PWMnL are low; while LAN_EN n is clear, LHOn and LLOn are low. (R382) -/
def Obligations.LanternBitChoosesTheOutputs : Prop :=
  ∀ (m : Mach) (n : Nat), n < 6 → let c := m.pwmCh n;
    (bitOf (m.fld F.lanCtrlLanEn) n = true → pwmEnabled m n = true →
      bitOf (pinsOf m).pwmH n = false ∧ bitOf (pinsOf m).pwmL n = false
      ∧ (driving m = true → bitOf (tripMask m true) n = false →
          ((m.pwm.lan.getD n lanternInit).refresh = .none →
            bitOf (pinsOf m).llo n = (c.l && !c.h) ∧ ((m.pwm.lan.getD n lanternInit).uvHold = false → bitOf (pinsOf m).lho n = (c.h && !c.l)))
          ∧ ((m.pwm.lan.getD n lanternInit).refresh ≠ .none → bitOf (pinsOf m).lho n = false)))
    ∧ (bitOf (m.fld F.lanCtrlLanEn) n = false → bitOf (pinsOf m).lho n = false ∧ bitOf (pinsOf m).llo n = false)

/-- For sixteen lanes, the lane map has 256 bytes, and the record of lane l holds at its byte 0 the attachment state, at byte 1 the bound hub entry or 0xFF, at bytes 2 and 3 the hub's submodule count, at bytes 4 to 7 zero, and at bytes 8 to 15 the HUB_UID of the last identity received, or zero. (R174) -/
def Obligations.LaneMapRecordsAreRightBytes : Prop :=
  ∀ (ls : List Lane) (l : Nat), ls.length = 16 → l < 16 → (∀ h ∈ ls.filterMap Lane.entry, h < 256) → let b := ls.flatMap laneRecord; let x := ls.getD l laneInit;
    b.length = 256
    ∧ fieldLE b (16 * l) 1 = (match x.attach with | .unbound => 0 | .waiting => 1 | .refused => 2 | .bound => 3)
    ∧ fieldLE b (16 * l + 1) 1 = (match x.attach, x.entry with | .bound, some h => h | _, _ => 0xFF)
    ∧ fieldLE b (16 * l + 2) 2 = (match x.ident with | some i => i.smCount % 2 ^ 16 | none => 0)
    ∧ fieldLE b (16 * l + 4) 4 = 0
    ∧ fieldLE b (16 * l + 8) 8 = (match x.ident with | some i => i.uid % 2 ^ 64 | none => 0)

/-- For every bit of the word: AND, OR and XOR of any list of inputs give the conjunction, the disjunction and the parity of that bit of the inputs, NOT its inverse. SRFF gives (q_prev OR SET) AND NOT CLR and keeps it; with a zero state, as at reset, its q_prev is zero. EDGE gives a rise where x is set and x_prev clear and a fall where x is clear and x_prev set, x_prev being the input of the execution before, and no edge at its first execution. (R100) -/
def Obligations.LogicBlocksWorkBitByBit : Prop :=
  ∀ (p : List Word) (xs : List BIn) (a b : BIn) (sk : Nat) (want : Bool) (i : Nat), i < 32 →
    let bit := fun (r : BRes) (k : Nat) => bitOf ((r.outs.map BOut.value).getD k 0#32).toNat i
    bit (genExec 0x0501 p xs [] sk want) 0 = (xs.all fun x => bitOf x.value.toNat i)
    ∧ bit (genExec 0x0502 p xs [] sk want) 0 = (xs.any fun x => bitOf x.value.toNat i)
    ∧ bit (genExec 0x0503 p xs [] sk want) 0 = ((xs.filter fun x => bitOf x.value.toNat i).length % 2 == 1)
    ∧ bit (genExec 0x0504 p [a] [] sk want) 0 = !bitOf a.value.toNat i
    ∧ (∀ q : Word, let r := genExec 0x0505 p [a, b] [(q.toNat : Int)] sk want;
        bit r 0 = ((bitOf q.toNat i || bitOf a.value.toNat i) && !bitOf b.value.toNat i) ∧ r.state = [(((r.outs.map BOut.value).getD 0 0#32).toNat : Int)])
    ∧ (∀ q : Word, let r := genExec 0x0506 p [a] [1, (q.toNat : Int)] sk want;
        bit r 0 = (bitOf a.value.toNat i && !bitOf q.toNat i) ∧ bit r 1 = (bitOf q.toNat i && !bitOf a.value.toNat i) ∧ r.state = [1, (a.value.toNat : Int)])
    ∧ (let r := genExec 0x0506 p [a] [0, 0] sk want;
        bit r 0 = false ∧ bit r 1 = false ∧ r.state = [1, (a.value.toNat : Int)])

/-- For every device and offset: after an accepted sample i and the clamped y are within 200,000 parts per 10^9 (in units of 2^−16), y is the law's value or the largest y that FMAX of the band entry in force permits, whichever is less, and the shadow divider follows y. Within the clamps i falls by ki × θ / Ts and y is i less kp × θ / Ts. (spec/07_timebase.md (R222, R224)) -/
def Obligations.ServoStaysWithinItsClamps : Prop :=
  ∀ (theta : Int) (m : Mach), let t := (servoLaw theta m).tb; let l : Int := 200000 * 65536
    let y := max (-l) (min l (t.i - gainTerm (m.fld F.tbServoKp) theta m.tb.ts));
    -l ≤ t.i ∧ t.i ≤ l ∧ t.y ≤ yMax m ∧ t.y ≤ l ∧ (-l ≤ yMax m → -l ≤ t.y) ∧ t.y = min y (yMax m) ∧ t.nfracShadow = roundDiv (160 * t.y * 65536) 1000000000
    ∧ (∀ i, i = m.tb.i - gainTerm (m.fld F.tbServoKi) theta m.tb.ts → -l ≤ i → i ≤ l → t.i = i)
    ∧ t.k = m.tb.k ∧ t.timeA = m.tb.timeA ∧ t.sync = m.tb.sync

/-- Each of the seven device configuration commands, accepted and at its boundary of effect, answers the next state its rule gives and completes with DONE: the record is staged, the staged record becomes the active one (RESULT CONFIG_ID, digest in the result slot), the active record is written to the buffer, the hub entry is added or freed (DONE_EMPTY for an unused entry), the entry is forced or released (DONE_EMPTY where it is not forced). Nothing changes beyond that effect and what posting the two completions changes. Model's choice: how a row stands for what happens is that of log entries 7, 8, 9. (spec/01_converter_model.md (R19, R20, R22, R30, R34, R35, R36), spec/08_host_rings.md (R251, R252, R256)) -/
def Obligations.RecordAndHubCommandsComplete : Prop :=
  (∀ (d : Desc) (s : State), Taken infoCdrLoad d s → 
      exec (.cdrLoad d) s = .next (s.completed infoCdrLoad d (fin stDONE) fun m => { m with conv := { m.conv with staged := some (d.buf.take 672) } }))
    ∧ (∀ (d : Desc) (s : State), Taken infoCdrCommit d s → ∀ (b : List Byte), s.m.conv.staged = some b → s.m.loop.graph = none → cdrCheck b s.m.tb.p = none → 
      exec (.cdrCommit d) s = .next (s.completed infoCdrCommit d (⟨stDONE, 0, (parseCdr b).configId, 0, sha256 b⟩) fun m => commitCdr b m))
    ∧ (∀ (d : Desc) (s : State), Taken infoCdrRead d s → let c := s.held infoCdrRead d; ∀ (cd : Cdr), s.m.conv.active = some cd → 
      exec (.cdrRead d) s = .next (s.completed infoCdrRead d (fin stDONE) fun m => m.hostWrite c.addr ((cdrBytes cd).take c.len)))
    ∧ (∀ (d : Desc) (s : State), Taken infoCdrRead d s → s.m.conv.active = none → 
      exec (.cdrRead d) s = .next (s.completed infoCdrRead d (fin stDONEEMPTY) fun m => m))
    ∧ (∀ (d : Desc) (s : State), Taken infoHubAdd d s → let c := s.held infoHubAdd d; ∀ (cd : Cdr), s.m.conv.active = some cd → (cd.hub (c.f 0xA 1)).used = false → (cd.hubs.any fun y => y.uid == (parseHub c.pay).uid) = false → (parseHub c.pay).segs.all (segFits cd.arms) = true → pairFree segOverlap ((parseHub c.pay).segs ++ (cd.hubs.filter HubRec.used).flatMap HubRec.segs) = true → 
      exec (.hubAdd d) s = .next (s.completed infoHubAdd d (fin stDONE) fun m => flowAdd (parseHub c.pay) (reattachAll { m with conv := { m.conv with active := some { cd with hubs := setHub cd.hubs (c.f 0xA 1) (parseHub c.pay), hubCount := max cd.hubCount (c.f 0xA 1 + 1) }, heldDue := true } })))
    ∧ (∀ (d : Desc) (s : State), Taken infoHubForget d s → let c := s.held infoHubForget d; ∀ (cd : Cdr), s.m.conv.active = some cd → (cd.hub (c.f 0 1)).used = true → s.m.laneOf (c.f 0 1) = none → 
      exec (.hubForget d) s = .next (s.completed infoHubForget d (fin stDONE) fun m => flowForget (cd.hub (c.f 0 1)) { m with conv := { m.conv with active := some { cd with hubs := setAt cd.hubs (c.f 0 1) hubUnused }, bind := setAt m.conv.bind (c.f 0 1) none } }))
    ∧ (∀ (d : Desc) (s : State), Taken infoHubForget d s → let c := s.held infoHubForget d; ∀ (cd : Cdr), s.m.conv.active = some cd → (cd.hub (c.f 0 1)).used = false → 
      exec (.hubForget d) s = .next (s.completed infoHubForget d (fin stDONEEMPTY) fun m => m))
    ∧ (∀ (d : Desc) (s : State), Taken infoGalleryForce d s → let c := s.held infoGalleryForce d; forceBarred (c.f 0 4) = false → (isForced (s.accepts infoGalleryForce d) (c.f 0 4) = true ∨ forcedCount (s.accepts infoGalleryForce d) < 64) → 
      exec (.galleryForce d) s = .next (s.completed infoGalleryForce d (fin stDONE) fun m => forceEntry (c.f 0 4) (BitVec.ofNat 32 (c.f 4 4)) false m))
    ∧ (∀ (d : Desc) (s : State), Taken infoGalleryRelease d s → let c := s.held infoGalleryRelease d; isForced (s.accepts infoGalleryRelease d) (c.f 0 4) = true → 
      exec (.galleryRelease d) s = .next (s.completed infoGalleryRelease d (fin stDONE) fun m => releaseEntry (c.f 0 4) m))
    ∧ (∀ (d : Desc) (s : State), Taken infoGalleryRelease d s → let c := s.held infoGalleryRelease d; isForced (s.accepts infoGalleryRelease d) (c.f 0 4) = false → 
      exec (.galleryRelease d) s = .next (s.completed infoGalleryRelease d (fin stDONEEMPTY) fun m => m))

/-- STATE_REQUEST RUN in READY with no failing condition of R444 enters RUN (epoch by R283, LOCKs set) and completes with DONE; a failing condition n completes with REJECT_STATE and RESULT n and changes nothing else. STATE_REQUEST READY in RUN returns to READY with no submodule stranded; in SAFE, with no safety fault latch and no cause that holds SAFE, it leaves SAFE; with a safety fault latch it completes with REJECT_STATE and RESULT 5. A request for the state the device is in completes with DONE_EMPTY. Model's choice: how a row stands for what happens is that of log entries 7, 8, 9. Clauses rest on the model's own choices or readings of log entry 52. (spec/01_converter_model.md (R37), spec/02_loop_engine.md (R38), spec/13_safety_functions.md (R408), spec/15_power_boot_security.md (R444)) -/
def Obligations.StateRequestMovesTheDevice : Prop :=
  (∀ (d : Desc) (s : State), Taken infoStateRequest d s → let c := s.held infoStateRequest d; s.m.dev.state = .ready → c.f 0 1 = 4 → runFail (s.accepts infoStateRequest d) = none → 
      exec (.stateRequest d) s = .next (s.completed infoStateRequest d (fin stDONE) fun m => enterRun m))
    ∧ (∀ (d : Desc) (s : State), Taken infoStateRequest d s → let c := s.held infoStateRequest d; ∀ (n : Nat), s.m.dev.state = .ready → c.f 0 1 = 4 → runFail (s.accepts infoStateRequest d) = some n → 
      exec (.stateRequest d) s = .next (s.completed infoStateRequest d (⟨stSTATE, 0, n, 0, []⟩) fun m => m))
    ∧ (∀ (d : Desc) (s : State), Taken infoStateRequest d s → let c := s.held infoStateRequest d; s.m.dev.state = .run → c.f 0 1 = 3 → 
      exec (.stateRequest d) s = .next (s.completed infoStateRequest d (fin stDONE) fun m => readyClaim (flowUnstrand (leaveRun m))))
    ∧ (∀ (d : Desc) (s : State), Taken infoStateRequest d s → let c := s.held infoStateRequest d; s.m.dev.state = .safe → c.f 0 1 = 3 → safetyLatch (s.accepts infoStateRequest d) = false → safeHolds (s.accepts infoStateRequest d) = false → 
      exec (.stateRequest d) s = .next (s.completed infoStateRequest d (fin stDONE) fun m => leaveSafe m))
    ∧ (∀ (d : Desc) (s : State), Taken infoStateRequest d s → let c := s.held infoStateRequest d; s.m.dev.state = .safe → c.f 0 1 = 3 → safetyLatch (s.accepts infoStateRequest d) = true → 
      exec (.stateRequest d) s = .next (s.completed infoStateRequest d (⟨stSTATE, 0, 5, 0, []⟩) fun m => m))
    ∧ (∀ (d : Desc) (s : State), Taken infoStateRequest d s → let c := s.held infoStateRequest d; ((s.m.dev.state = .ready ∧ c.f 0 1 = 3) ∨ (s.m.dev.state = .run ∧ c.f 0 1 = 4)) → 
      exec (.stateRequest d) s = .next (s.completed infoStateRequest d (fin stDONEEMPTY) fun m => m))

/-- Each of the seven loop commands, accepted and at its boundary of effect with the conditions of its rule met, answers the next state the rule gives: the graph is staged; the staged graph passes its checks, becomes the committed graph, clears the staging area, resets its entries and block states, and completes with GRAPH_ID in RESULT and the worst-case completion time in DETAIL; the graph is discarded; its report is written; the parameter words are replaced, or read into the buffer; SAT of the output entries and the sticky flags of the blocks are cleared by MASK. FLAG_CLEAR without a committed graph completes with REJECT_STATE, and with INST_COUNT 0 or MASK 0 with DONE_EMPTY. Model's choice: how a row stands for what happens is that of log entries 7, 8, 9. (spec/02_loop_engine.md (R46, R47, R48, R66, R67, R68, R69, R70)) -/
def Obligations.LoopGraphCommandsComplete : Prop :=
  (∀ (d : Desc) (s : State), Taken infoGraphLoad d s → let c := s.held infoGraphLoad d; 
      exec (.graphLoad d) s = .next (s.completed infoGraphLoad d (fin stDONE) fun m => { m with loop := { m.loop with staged := some (d.buf.take c.len) } }))
    ∧ (∀ (d : Desc) (s : State), Taken infoGraphCommit d s → ∀ (b : List Byte) (cd : Cdr) (g : Graph) (full : Bool), s.m.dev.state = .ready → s.m.loop.staged = some b → s.m.loop.graph = none → s.m.conv.active = some cd → (parseHead b).configId = cd.configId → s.m.pair.inTwin = false → checkGraph b cd (s.m.net.far.map FarCh.cfg) (gooseEntries s.m) s.m.tb.p (s.accepts infoGraphCommit d).lanesOk (s.m.tb.k + 1) = .ok (g, full) → 
      exec (.graphCommit d) s = .next (s.completed infoGraphCommit d (⟨stDONE, twc g.steps, g.graphId, 0, []⟩) fun m => (let m2 := retakeAgreed (resetStates (commitGallery g { m with loop := { m.loop with graph := some g, staged := none } })); if full then m2.raise F.flowStatusBankFull else m2)))
    ∧ (∀ (d : Desc) (s : State), Taken infoGraphWithdraw d s → ∀ (g : Graph), s.m.loop.graph = some g → 
      exec (.graphWithdraw d) s = .next (s.completed infoGraphWithdraw d (fin stDONE) fun m => withdrawGraph m))
    ∧ (∀ (d : Desc) (s : State), Taken infoGraphWithdraw d s → s.m.loop.graph = none → 
      exec (.graphWithdraw d) s = .next (s.completed infoGraphWithdraw d (fin stDONEEMPTY) fun m => m))
    ∧ (∀ (d : Desc) (s : State), Taken infoGraphReport d s → let c := s.held infoGraphReport d; ∀ (g : Graph), s.m.loop.graph = some g → (graphReport g s.m.tb.p).length ≤ c.len → 
      exec (.graphReport d) s = .next (s.completed infoGraphReport d (fin stDONE) fun m => m.hostWrite c.addr ((graphReport g m.tb.p).take c.len)))
    ∧ (∀ (d : Desc) (s : State), Taken infoParamWrite d s → let c := s.held infoParamWrite d; ∀ (g : Graph) (cd : Cdr) (b : Block), s.m.loop.graph = some g → s.m.conv.active = some cd → c.pf 4 2 ≠ 0 → g.blocks[c.pf 0 2]? = some b → c.pf 2 2 + c.pf 4 2 ≤ b.paramCount → paramsOk b.typ b.ins.length (cd.blockEnv b.rateDiv s.m.tb.p) (putParams (blockParams g.params b) (c.pf 2 2) ((List.range (c.pf 4 2)).map fun i => BitVec.ofNat 32 (c.pf (8 + 4 * i) 4))) = true → ((List.range b.paramCount).any fun i => structuralWord b.typ i && (blockParams g.params b)[i]? != (putParams (blockParams g.params b) (c.pf 2 2) ((List.range (c.pf 4 2)).map fun i => BitVec.ofNat 32 (c.pf (8 + 4 * i) 4)))[i]?) = false → 
      exec (.paramWrite d) s = .next (s.completed infoParamWrite d (fin stDONE) fun m => { m with loop := { m.loop with graph := some { g with params := putParams g.params (b.paramIdx + c.pf 2 2) ((List.range (c.pf 4 2)).map fun i => BitVec.ofNat 32 (c.pf (8 + 4 * i) 4)) } } }))
    ∧ (∀ (d : Desc) (s : State), Taken infoParamRead d s → let c := s.held infoParamRead d; ∀ (g : Graph) (b : Block), s.m.loop.graph = some g → c.b 4 2 ≠ 0 → g.blocks[c.b 0 2]? = some b → c.b 2 2 + c.b 4 2 ≤ b.paramCount → 
      exec (.paramRead d) s = .next (s.completed infoParamRead d (fin stDONE) fun m => m.hostWrite (c.addr + 8) (((((blockParams g.params b).drop (c.b 2 2)).take (c.b 4 2)).flatMap fun x => leBytes 4 x.toNat).take (c.len - 8))))
    ∧ (∀ (d : Desc) (s : State), Taken infoFlagClear d s → let c := s.held infoFlagClear d; ∀ (g : Graph), s.m.loop.graph = some g → c.f 2 2 ≠ 0 → c.f 4 4 ≠ 0 → c.f 0 2 + c.f 2 2 ≤ g.blocks.length → 
      exec (.flagClear d) s = .next (s.completed infoFlagClear d (fin stDONE) fun m => (let m1 := if bitOf (c.f 4 4) 0 then (((g.blocks.drop (c.f 0 2)).take (c.f 2 2)).flatMap fun b => b.outs.map Port.index).foldl (fun m i => clearSat i m) m else m; if bitOf (c.f 4 4) 1 then { m1 with loop := { m1.loop with sticky := (m1.loop.sticky.zipIdx).map fun p => if c.f 0 2 ≤ p.2 ∧ p.2 < c.f 0 2 + c.f 2 2 then 0#32 else p.1 } } else m1)))
    ∧ (∀ (d : Desc) (s : State), Taken infoFlagClear d s → s.m.loop.graph = none → 
      exec (.flagClear d) s = .next (s.completed infoFlagClear d (fin stSTATE) fun m => m))
    ∧ (∀ (d : Desc) (s : State), Taken infoFlagClear d s → let c := s.held infoFlagClear d; ∀ (g : Graph), s.m.loop.graph = some g → (c.f 2 2 = 0 ∨ c.f 4 4 = 0) → 
      exec (.flagClear d) s = .next (s.completed infoFlagClear d (fin stDONEEMPTY) fun m => m))

/-- MODE_CONFIG with a committed graph and declared inputs configures the five bound bits. MODE_REQUEST whose transition R131 makes leaves the converter in the target mode; a request that R131 refuses completes with REJECT_STATE and one for the present mode with DONE_EMPTY. SP_BIND with UNBIND frees a bound slot (DONE_EMPTY for a free one). SETPOINT with bound slots writes every entry clamped to its limits and completes with DONE, DETAIL marking the clamped entries and CLAMP set where there is one; an entry for a free slot completes the whole command with REJECT_STATE and writes nothing. Model's choice: how a row stands for what happens is that of log entries 7, 8, 9. (spec/04_grid_forming.md (R130, R131, R133, R134, R136, R137, R138)) -/
def Obligations.ModeAndSetpointCommandsComplete : Prop :=
  (∀ (d : Desc) (s : State), Taken infoModeConfig d s → let c := s.held infoModeConfig d; ∀ (g : Graph), s.m.loop.graph = some g → s.m.pair.inTwin = false → (((List.range 5).map fun i => parseRef (c.f (4 * i) 4)).all fun b => match b.ref with | none => true | some (i, _) => decide (i < 0xE0000) || declared (s.accepts infoModeConfig d) i) = true → 
      exec (.modeConfig d) s = .next (s.completed infoModeConfig d (fin stDONE) fun m => { m with mode := { m.mode with configured := true, bits := (List.range 5).map fun i => parseRef (c.f (4 * i) 4) } }))
    ∧ (∀ (d : Desc) (s : State), Taken infoModeRequest d s → let c := s.held infoModeRequest d; ∀ (t n : Mode), modeOfCode (c.f 0 1) = some t → (s.m.mode.configured = true ∨ t = .blocked) → modeRequestTo s.m.mode.mode t (modeIn ((readBits (s.accepts infoModeRequest d)).map Prod.fst)) = .to n → 
      exec (.modeRequest d) s = .next (s.completed infoModeRequest d (fin stDONE) fun m => writeMode (modeMove n 0 (c.seq % 2 ^ 32) none m)))
    ∧ (∀ (d : Desc) (s : State), Taken infoModeRequest d s → let c := s.held infoModeRequest d; ∀ (t : Mode), modeOfCode (c.f 0 1) = some t → (s.m.mode.configured = true ∨ t = .blocked) → modeRequestTo s.m.mode.mode t (modeIn ((readBits (s.accepts infoModeRequest d)).map Prod.fst)) = .refuse → 
      exec (.modeRequest d) s = .next (s.completed infoModeRequest d (fin stSTATE) fun m => writeMode m))
    ∧ (∀ (d : Desc) (s : State), Taken infoModeRequest d s → let c := s.held infoModeRequest d; ∀ (t : Mode), modeOfCode (c.f 0 1) = some t → (s.m.mode.configured = true ∨ t = .blocked) → modeRequestTo s.m.mode.mode t (modeIn ((readBits (s.accepts infoModeRequest d)).map Prod.fst)) = .same → 
      exec (.modeRequest d) s = .next (s.completed infoModeRequest d (fin stDONEEMPTY) fun m => writeMode m))
    ∧ (∀ (d : Desc) (s : State), Taken infoSpBind d s → let c := s.held infoSpBind d; ∀ (g : Graph) (x : SpSlot), s.m.loop.graph = some g → bitOf (c.f 1 1) 0 = true → s.m.slot (c.f 0 1) = some x → 
      exec (.spBind d) s = .next (s.completed infoSpBind d (fin stDONE) fun m => (m.invalidate x.index true).setSlot (c.f 0 1) none))
    ∧ (∀ (d : Desc) (s : State), Taken infoSpBind d s → let c := s.held infoSpBind d; ∀ (g : Graph), s.m.loop.graph = some g → bitOf (c.f 1 1) 0 = true → s.m.slot (c.f 0 1) = none → 
      exec (.spBind d) s = .next (s.completed infoSpBind d (fin stDONEEMPTY) fun m => m))
    ∧ (∀ (d : Desc) (s : State), Taken infoSpBind d s → let c := s.held infoSpBind d; let a := s.accepts infoSpBind d; ∀ (g : Graph), s.m.loop.graph = some g →
      bitOf (c.f 1 1) 0 = false → bindable a (c.f 0 1) (c.f 4 4) = true → s.m.slot (c.f 0 1) = none →
      let v := (a.gv (c.f 4 4)).toInt; let x := clampI v (signed 32 (c.f 8 4)) (signed 32 (c.f 12 4));
      let w : SpSlot := ⟨c.f 4 4, signed 32 (c.f 8 4), signed 32 (c.f 12 4), x, qBit (a.g (c.f 4 4)).quality qSAT || x != v⟩
      exec (.spBind d) s = .next (s.completed infoSpBind d { fin stDONE with flags := if x != v then cfCLAMP else 0 } fun m => writeSlot w (m.setSlot (c.f 0 1) (some w))))
    ∧ (∀ (d : Desc) (s : State), Taken infoSetpoint d s → let c := s.held infoSetpoint d; 8 ≤ c.plen → (∀ j < c.plen / 8, (s.m.slot (c.f (8 * j) 1)).isSome = true) →
      let r := (List.range (c.plen / 8)).foldl (fun r j => setpointOne c j r) (s.accepts infoSetpoint d, 0);
      exec (.setpoint d) s = .next (s.completed infoSetpoint d ⟨stDONE, r.2, 0, if r.2 = 0 then 0 else cfCLAMP, []⟩ fun _ => r.1))
    ∧ (∀ (d : Desc) (s : State), Taken infoSetpoint d s → let c := s.held infoSetpoint d; (∃ j < c.plen / 8, s.m.slot (c.f (8 * j) 1) = none) →
      exec (.setpoint d) s = .next (s.completed infoSetpoint d (fin stSTATE) fun m => m))

/-- Each of the eight pool commands, accepted and at its boundary of effect with the conditions of its rule met, answers the next state the rule gives: the submodule is EXCLUDED with its cause, or JOINING (its hub bound) or ABSENT again; the pool report, the switching counts or the lane records are written to the buffer; the counts are set; F_T of the arms named is set; the sticky flags of the arms named are cleared. Zero counts and masks complete with DONE_EMPTY, and so does SM_EXCLUDE of a submodule already RETIRED or EXCLUDED. Model's choice: how a row stands for what happens is that of log entries 7, 8, 9. (spec/05_arm_energy_and_flowstone.md (R169, R170, R171, R172, R173, R174)) -/
def Obligations.PoolCommandsComplete : Prop :=
  (∀ (d : Desc) (s : State), Taken infoSmExclude d s → let c := s.held infoSmExclude d; ∀ (cd : Cdr), s.m.conv.active = some cd → cd.exists_ (c.f 0 4) = true → (s.m.sm (c.f 0 4)).pool ≠ .uncovered → (s.m.sm (c.f 0 4)).pool ≠ .retired → (s.m.sm (c.f 0 4)).pool ≠ .excluded → ((s.m.sm (c.f 0 4)).pool ≠ .available ∨ bitOf (c.f 5 1) 0 = true) → 
      exec (.smExclude d) s = .next (s.completed infoSmExclude d (fin stDONE) fun m => m.setSm (c.f 0 4) { (m.sm (c.f 0 4)).fresh with pool := .excluded, cause := c.f 4 1, stranded := false }))
    ∧ (∀ (d : Desc) (s : State), Taken infoSmExclude d s → let c := s.held infoSmExclude d; ∀ (cd : Cdr), s.m.conv.active = some cd → cd.exists_ (c.f 0 4) = true → ((s.m.sm (c.f 0 4)).pool = .retired ∨ (s.m.sm (c.f 0 4)).pool = .excluded) → 
      exec (.smExclude d) s = .next (s.completed infoSmExclude d (fin stDONEEMPTY) fun m => m))
    ∧ (∀ (d : Desc) (s : State), Taken infoSmRestore d s → let c := s.held infoSmRestore d; ∀ (cd : Cdr), s.m.conv.active = some cd → cd.exists_ (c.f 0 4) = true → ((s.m.sm (c.f 0 4)).pool = .excluded ∨ ((s.m.sm (c.f 0 4)).pool = .retired ∧ s.m.dev.state = .ready)) → 
      exec (.smRestore d) s = .next (s.completed infoSmRestore d (fin stDONE) fun m => m.setSm (c.f 0 4) { (m.sm (c.f 0 4)).fresh with pool := if coveredBound m cd (c.f 0 4) then .joining else .absent }))
    ∧ (∀ (d : Desc) (s : State), Taken infoPoolReport d s → let c := s.held infoPoolReport d; 
      exec (.poolReport d) s = .next (s.completed infoPoolReport d (fin stDONE) fun m => m.hostWrite c.addr ((poolReport m).take c.len)))
    ∧ (∀ (d : Desc) (s : State), Taken infoWearRead d s → let c := s.held infoWearRead d; c.b 4 4 ≠ 0 → 
      exec (.wearRead d) s = .next (s.completed infoWearRead d (fin stDONE) fun m => m.hostWrite (c.addr + 8) (((List.range (c.b 4 4)).flatMap fun i => leBytes 4 (swCount m (c.b 0 4 + i))).take (c.len - 8))))
    ∧ (∀ (d : Desc) (s : State), Taken infoWearRead d s → let c := s.held infoWearRead d; c.b 4 4 = 0 → 
      exec (.wearRead d) s = .next (s.completed infoWearRead d (fin stDONEEMPTY) fun m => m))
    ∧ (∀ (d : Desc) (s : State), Taken infoWearWrite d s → let c := s.held infoWearWrite d; ∀ (cd : Cdr), s.m.conv.active = some cd → c.b 4 4 ≠ 0 → (((List.range (c.b 4 4)).map fun i => (c.b 0 4 + i, c.b (8 + 4 * i) 4)).any fun x => !cd.exists_ x.1 && x.2 != 0) = false → 
      exec (.wearWrite d) s = .next (s.completed infoWearWrite d (fin stDONE) fun m => ((List.range (c.b 4 4)).map fun i => (c.b 0 4 + i, c.b (8 + 4 * i) 4)).foldl (fun m x => if cd.exists_ x.1 then m.modSm x.1 (fun s => { s with count := 1024 * x.2 }) else m) m))
    ∧ (∀ (d : Desc) (s : State), Taken infoFswTarget d s → let c := s.held infoFswTarget d; ∀ (cd : Cdr), s.m.conv.active = some cd → 
      exec (.fswTarget d) s = .next (s.completed infoFswTarget d (fin stDONE) fun m => { m with flow := { m.flow with arms := (m.flow.arms.zipIdx).map fun p => if c.f 0 1 = 0xFF ∨ c.f 0 1 = p.2 then { p.1 with fsw := c.f 4 4 } else p.1 } }))
    ∧ (∀ (d : Desc) (s : State), Taken infoArmFlagClear d s → let c := s.held infoArmFlagClear d; ∀ (cd : Cdr), s.m.conv.active = some cd → c.f 0 1 ≠ 0 → 
      exec (.armFlagClear d) s = .next (s.completed infoArmFlagClear d (fin stDONE) fun m => ((List.range m.flow.arms.length).filter fun a => bitOf (c.f 0 1) a).foldl clearSticky { m with flow := { m.flow with arms := (m.flow.arms.zipIdx).map fun p => if bitOf (c.f 0 1) p.2 then { p.1 with sticky := 0 } else p.1 } }))
    ∧ (∀ (d : Desc) (s : State), Taken infoArmFlagClear d s → let c := s.held infoArmFlagClear d; ∀ (cd : Cdr), s.m.conv.active = some cd → c.f 0 1 = 0 → 
      exec (.armFlagClear d) s = .next (s.completed infoArmFlagClear d (fin stDONEEMPTY) fun m => m))
    ∧ (∀ (d : Desc) (s : State), Taken infoLaneMapRead d s → let c := s.held infoLaneMapRead d; 
      exec (.laneMapRead d) s = .next (s.completed infoLaneMapRead d (fin stDONE) fun m => m.hostWrite c.addr ((m.zl.lanes.flatMap laneRecord).take c.len)))

/-- Each of the six timebase commands, accepted and at its boundary of effect with the conditions of its rule met, answers the next state the rule gives: TB_PERIOD schedules P for the next launch and stays in effect, with DONE_EMPTY where P is in force already; TB_SOURCE, in a unit that follows no partner, ends an authorised convergence and names the source for the next boundary; TB_CONVERGE authorises a slew or a step and stays in effect; TB_SET sets device time at the next boundary; TB_BAND begins a relock to the entry as it stands, with TIME_VALID and the PLL lock cleared; TB_REPORT writes its report. Model's choice: how a row stands for what happens is that of log entries 7, 8, 9. Clauses rest on the model's own choices or readings of log entries 97, 104. (spec/07_timebase.md (R216, R223, R225, R227, R235, R236, R237)) -/
def Obligations.TimebaseCommandsComplete : Prop :=
  (∀ (d : Desc) (s : State), Taken infoTbPeriod d s → let c := s.held infoTbPeriod d; (c.f 0 4 ≠ s.m.tb.p ∨ s.m.tb.pNext ≠ none) → periodOk s.start (c.f 0 4) = true → 
      exec (.tbPeriod d) s = .next (s.inEffect infoTbPeriod d fun m => { m with tb := { m.tb with pNext := some (c.f 0 4) } }))
    ∧ (∀ (d : Desc) (s : State), Taken infoTbPeriod d s → let c := s.held infoTbPeriod d; c.f 0 4 = s.m.tb.p → s.m.tb.pNext = none → 
      exec (.tbPeriod d) s = .next (s.completed infoTbPeriod d (fin stDONEEMPTY) fun m => m))
    ∧ (∀ (d : Desc) (s : State), Taken infoTbSource d s → let c := s.held infoTbSource d; s.m.tb.src ≠ .pair → c.f 0 1 ≠ 1 → 
      exec (.tbSource d) s = .next (s.completed infoTbSource d (fin stDONE) fun m => (let m1 := endConverge m; { m1 with tb := { m1.tb with srcDue := some (srcOfCode (c.f 0 1), m1.tb.ports) }, pair := { m1.pair with lastSrc := some (c.f 0 1, m1.tb.ports) } })))
    ∧ (∀ (d : Desc) (s : State), Taken infoTbSource d s → let c := s.held infoTbSource d; s.m.tb.src ≠ .pair → c.f 0 1 = 1 → (bitOf (c.f 1 1) 0 = true → (s.accepts infoTbSource d).flag F.ethCtrlEnA = true) → (bitOf (c.f 1 1) 1 = true → (s.accepts infoTbSource d).flag F.ethCtrlEnB = true) → 
      exec (.tbSource d) s = .next (s.completed infoTbSource d (fin stDONE) fun m => (let m1 := endConverge m; { m1 with tb := { m1.tb with srcDue := some (srcOfCode 1, c.f 1 1) }, pair := { m1.pair with lastSrc := some (1, c.f 1 1) } })))
    ∧ (∀ (d : Desc) (s : State), Taken infoTbConverge d s → let c := s.held infoTbConverge d; (c.f 0 1 = 1 ∨ s.m.dev.state ≠ .run) → s.m.tb.refusedRun = true → 
      exec (.tbConverge d) s = .next (s.inEffect infoTbConverge d fun m => (let m1 := endConverge m; { m1 with tb := { m1.tb with converge := some (if c.f 0 1 = 1 then .slew (c.f 4 4) else .step) } })))
    ∧ (∀ (d : Desc) (s : State), Taken infoTbSet d s → let c := s.held infoTbSet d; s.m.tb.src ≠ .ptp → s.m.tb.src ≠ .pair → 
      exec (.tbSet d) s = .next (s.completed infoTbSet d (fin stDONE) fun m => { m with tb := { m.tb with setDue := some (c.f 0 8 * 1000000000 + c.f 8 4) } }))
    ∧ (∀ (d : Desc) (s : State), Taken infoTbBand d s → let c := s.held infoTbBand d; usable (s.accepts infoTbBand d) (c.f 0 1) = true → c.f 0 1 ≠ s.m.tb.band → 
      exec (.tbBand d) s = .next (s.inEffect infoTbBand d fun m => (let m1 := clearTimeValid m; { m1.raise F.zlStatusLockLost with
        tb := { m1.tb with relock := some (c.f 0 1), fmax := m.reg.raw (F.tbBandFmax (c.f 0 1)), pllLock := false, nfrac := 0, nfracShadow := 0 }, zl := { m1.zl with lanes := m1.zl.lanes.map fun x => { x with lossDue := x.lossDue || decide (1 ≤ x.step) } } })))
    ∧ (∀ (d : Desc) (s : State), Taken infoTbReport d s → let c := s.held infoTbReport d; 
      exec (.tbReport d) s = .next (s.completed infoTbReport d (fin stDONE) fun m => m.hostWrite c.addr ((tbReport m).take c.len)))

/-- Each of the seven measurement commands, accepted and at its boundary of effect with the conditions of its rule met, answers the next state the rule gives: the ADC configuration is replaced and its sequencers start afresh; an urgent request enters its core queue, or waits as a fifth, and stays in effect; a chain is configured from its reset state; banks are swapped for the samples from the intake on and SAT cleared by mask; a rim comparator is set up inside its band; a stream is subscribed and waits, or freed with its entries invalidated (DONE_EMPTY for a free stream). Model's choice: how a row stands for what happens is that of log entries 7, 8, 9. Clauses rest on the model's own choices or readings of log entries 133, 134. (spec/10_measurement_and_echo.md (R304, R308, R311, R312, R313, R316, R321, R330, R331, R332, R333)) -/
def Obligations.MeasurementCommandsComplete : Prop :=
  (∀ (d : Desc) (s : State), Taken infoAdcSeqConfig d s → let c := s.held infoAdcSeqConfig d; ((parseAdc c).seqs.zipIdx.all fun x => seqFits s.start x.2 x.1) = true → 
      exec (.adcSeqConfig d) s = .next (s.completed infoAdcSeqConfig d (fin stDONE) fun m => { m with meas := { m.meas with adc := some (parseAdc c), seqs := List.replicate 4 seqRunInit } }))
    ∧ (∀ (d : Desc) (s : State), Taken infoAdcUrgent d s → let c := s.held infoAdcUrgent d; hostRequests (s.m.core (c.f 0 1)) < 4 → (s.m.core (c.f 0 1)).waiting = [] → 
      exec (.adcUrgent d) s = .next (s.inEffect infoAdcUrgent d fun m => request (c.f 0 1) (urgentReq (.host c.ring c.seq) false 16 (intakeAt m) (16 + m.meas.urgentOrder) ⟨c.f 1 1, c.f 2 1, c.f 4 2, 0⟩) { m with meas := { m.meas with urgentOrder := m.meas.urgentOrder + 1 } }))
    ∧ (∀ (d : Desc) (s : State), Taken infoAdcUrgent d s → let c := s.held infoAdcUrgent d; (4 ≤ hostRequests (s.m.core (c.f 0 1)) ∨ (s.m.core (c.f 0 1)).waiting ≠ []) → 
      exec (.adcUrgent d) s = .next (s.inEffect infoAdcUrgent d fun m => (let m1 := { m with meas := { m.meas with urgentOrder := m.meas.urgentOrder + 1 } }; m1.setCore (c.f 0 1) { m1.core (c.f 0 1) with waiting := (m1.core (c.f 0 1)).waiting ++ [urgentReq (.host c.ring c.seq) false 16 (intakeAt m) (16 + m.meas.urgentOrder) ⟨c.f 1 1, c.f 2 1, c.f 4 2, 0⟩] })))
    ∧ (∀ (d : Desc) (s : State), Taken infoChainConfig d s → let c := s.held infoChainConfig d; s.m.dev.state = .ready → outSlow s.start (parseChain c) = true → bitOf (c.b 0x24 4) 0 = false → 
      exec (.chainConfig d) s = .next (s.completed infoChainConfig d (fin stDONE) fun m => m.setChain (c.b 0 1) { chainInit with cfg := some (parseChain c), sat := (m.chain (c.b 0 1)).sat }))
    ∧ (∀ (d : Desc) (s : State), Taken infoChainBankSwap d s → let c := s.held infoChainBankSwap d; (c.f 0 2 ≠ 0 ∨ c.f 2 2 ≠ 0) → 
      exec (.chainBankSwap d) s = .next (s.completed infoChainBankSwap d (fin stDONE) fun m => { m with meas := { m.meas with chains := (m.meas.chains.zipIdx).map fun p => let x1 := if bitOf (c.f 2 2) p.2 then { p.1 with sat := false } else p.1; if bitOf (c.f 0 2) p.2 then { x1 with swaps := p.1.swaps ++ [(intakeAt m : Int)] } else x1 } }))
    ∧ (∀ (d : Desc) (s : State), Taken infoChainBankSwap d s → let c := s.held infoChainBankSwap d; c.f 0 2 = 0 → c.f 2 2 = 0 → 
      exec (.chainBankSwap d) s = .next (s.completed infoChainBankSwap d (fin stDONEEMPTY) fun m => m))
    ∧ (∀ (d : Desc) (s : State), Taken infoRimConfig d s → let c := s.held infoRimConfig d; 
      exec (.rimConfig d) s = .next (s.completed infoRimConfig d (fin stDONE) fun m => { m with meas := { m.meas with rims := setAt m.meas.rims (c.f 0 1) ⟨bitOf (c.f 1 1) 0, bitOf (c.f 1 1) 1, c.f 4 4, signed 32 (c.f 8 4), signed 32 (c.f 12 4), signed 32 (c.f 16 4), .inside, false, []⟩ } }))
    ∧ (∀ (d : Desc) (s : State), Taken infoSvSubscribe d s → let c := s.held infoSvSubscribe d; portOff (s.accepts infoSvSubscribe d) (c.b 6 1) = false → 
      exec (.svSubscribe d) s = .next (s.completed infoSvSubscribe d (fin stDONE) fun m => m.setStream (c.b 0 1) { svInit with sub := some ⟨c.b 1 1, c.b 2 1, c.b 3 1, c.b 4 2, c.b 6 1, c.b 7 1, c.b 8 6, c.b 0x10 4, (c.buf.drop 0x18).take (c.b 0x14 1)⟩, state := .waiting }))
    ∧ (∀ (d : Desc) (s : State), Taken infoSvUnsubscribe d s → let c := s.held infoSvUnsubscribe d; ∀ (u : SvSub), (s.m.stream (c.f 0 1)).sub = some u → 
      exec (.svUnsubscribe d) s = .next (s.completed infoSvUnsubscribe d (fin stDONE) fun m => (svHold (c.f 0 1) u.nch (m.invalidate (svBase (c.f 0 1)) true)).setStream (c.f 0 1) svInit))
    ∧ (∀ (d : Desc) (s : State), Taken infoSvUnsubscribe d s → let c := s.held infoSvUnsubscribe d; (s.m.stream (c.f 0 1)).sub = none → 
      exec (.svUnsubscribe d) s = .next (s.completed infoSvUnsubscribe d (fin stDONEEMPTY) fun m => m))

/-- ECHO_ARM of a free slot with enough Echo memory arms it; of an armed one it completes with REJECT_STATE. ECHO_TRIGGER triggers every armed slot of its mask, and completes with DONE_EMPTY where none is armed. ECHO_DISARM takes the triggers the slot has met; of a slot that is then armed but not triggered it frees it, of one that is recording it completes the record with TRUNC, of one whose record waits to be posted it leaves the record and arms the slot no more, and of a free slot it completes with DONE_EMPTY. ECHO_READ writes the last record of the slot to the buffer, or completes with DONE_EMPTY. Model's choice: how a row stands for what happens is that of log entries 7, 8, 9. (spec/10_measurement_and_echo.md (R322, R325, R327, R334)) -/
def Obligations.EchoCommandsComplete : Prop :=
  (∀ (d : Desc) (s : State), Taken infoEchoArm d s → let c := s.held infoEchoArm d; (s.m.echo (c.b 0 1)).cfg = none → echoAlloc (parseEcho c) ≤ echoFree s.start → 
      exec (.echoArm d) s = .next (s.completed infoEchoArm d (fin stDONE) fun m => m.setEcho (c.b 0 1) (echoArmed (parseEcho c) (m.echo (c.b 0 1)))))
    ∧ (∀ (d : Desc) (s : State), Taken infoEchoArm d s → let c := s.held infoEchoArm d; ∀ (g : EchoCfg), (s.m.echo (c.b 0 1)).cfg = some g → 
      exec (.echoArm d) s = .next (s.completed infoEchoArm d (fin stSTATE) fun m => m))
    ∧ (∀ (d : Desc) (s : State), Taken infoEchoTrigger d s → let c := s.held infoEchoTrigger d; ((List.range 8).all fun n => !bitOf (c.f 0 1) n || (s.m.echo n).cfg.isNone) = false → 
      exec (.echoTrigger d) s = .next (s.completed infoEchoTrigger d (fin stDONE) fun m => (List.range 8).foldl (fun m n => if bitOf (c.f 0 1) n then echoNote n ⟨0xFF, 5, 0, intakeAt m * 65536, m.tb.k⟩ m else m) m))
    ∧ (∀ (d : Desc) (s : State), Taken infoEchoTrigger d s → let c := s.held infoEchoTrigger d; ((List.range 8).all fun n => !bitOf (c.f 0 1) n || (s.m.echo n).cfg.isNone) = true → 
      exec (.echoTrigger d) s = .next (s.completed infoEchoTrigger d (fin stDONEEMPTY) fun m => m))
    ∧ (∀ (d : Desc) (s : State), Taken infoEchoDisarm d s → let c := s.held infoEchoDisarm d; ∀ (g : EchoCfg), (s.m.echo (c.f 0 1)).cfg = some g → (s.m.echo (c.f 0 1)).waiting = none → ((echoTakeAll (c.f 0 1) (s.accepts infoEchoDisarm d)).echo (c.f 0 1)).trig = none → 
      exec (.echoDisarm d) s = .next (s.completed infoEchoDisarm d (fin stDONE) fun m => m.setEcho (c.f 0 1) { echoInit with last := (m.echo (c.f 0 1)).last }))
    ∧ (∀ (d : Desc) (s : State), Taken infoEchoDisarm d s → let c := s.held infoEchoDisarm d; ∀ (g : EchoCfg), (s.m.echo (c.f 0 1)).cfg = some g → (s.m.echo (c.f 0 1)).waiting = none → ((echoTakeAll (c.f 0 1) (s.accepts infoEchoDisarm d)).echo (c.f 0 1)).trig.isSome = true → 
      exec (.echoDisarm d) s = .next (s.completed infoEchoDisarm d (fin stDONE) fun m => (let m1 := echoTakeAll (c.f 0 1) m; echoComplete (chainTs m) (c.f 0 1) (m1.setEcho (c.f 0 1) { m1.echo (c.f 0 1) with trunc := true }))))
    ∧ (∀ (d : Desc) (s : State), Taken infoEchoDisarm d s → let c := s.held infoEchoDisarm d; ∀ (g : EchoCfg), (s.m.echo (c.f 0 1)).cfg = some g → (s.m.echo (c.f 0 1)).waiting.isSome = true → 
      exec (.echoDisarm d) s = .next (s.completed infoEchoDisarm d (fin stDONE) fun m => m.setEcho (c.f 0 1) { m.echo (c.f 0 1) with cfg := some { g with autoRearm := false } }))
    ∧ (∀ (d : Desc) (s : State), Taken infoEchoDisarm d s → let c := s.held infoEchoDisarm d; (s.m.echo (c.f 0 1)).cfg = none → 
      exec (.echoDisarm d) s = .next (s.completed infoEchoDisarm d (fin stDONEEMPTY) fun m => m))
    ∧ (∀ (d : Desc) (s : State), Taken infoEchoRead d s → let c := s.held infoEchoRead d; ∀ (x : List Byte), (s.m.echo (c.b 0 1)).last = some x → x.length ≤ c.len → 
      exec (.echoRead d) s = .next (s.completed infoEchoRead d (fin stDONE) fun m => m.hostWrite c.addr (x.take c.len)))
    ∧ (∀ (d : Desc) (s : State), Taken infoEchoRead d s → let c := s.held infoEchoRead d; (s.m.echo (c.b 0 1)).last = none → 
      exec (.echoRead d) s = .next (s.completed infoEchoRead d (fin stDONEEMPTY) fun m => m))

/-- Each of the six Ethernet commands, accepted and at its boundary of effect with the conditions of its rule met, answers the next state the rule gives: a publication starts afresh; a subscription waits for its stream; an unsubscribed stream is freed with its entries invalidated (DONE_EMPTY for a free one); a timed frame enters the queue of every port named and stays in effect, or completes with EXPIRED where its launch time is too near; a far channel takes its configuration; a message telegram is queued on its channel and stays in effect. Model's choice: how a row stands for what happens is that of log entries 7, 8, 9. Clauses rest on the model's own choices or readings of log entry 134. (spec/11_station_networks.md (R337, R339, R344, R346, R347, R348, R350, R367, R368)) -/
def Obligations.StationNetworkCommandsComplete : Prop :=
  (∀ (d : Desc) (s : State), Taken infoGoosePublish d s → let c := s.held infoGoosePublish d; portOff (s.accepts infoGoosePublish d) (c.b 2 1) = false → 
      exec (.goosePublish d) s = .next (s.completed infoGoosePublish d (fin stDONE) fun m => { m with net := { m.net with pubs := setAt m.net.pubs (c.b 0 1) { goosePubInit with cfg := some (parseGoose c) } } }))
    ∧ (∀ (d : Desc) (s : State), Taken infoGooseSubscribe d s → let c := s.held infoGooseSubscribe d; portOff (s.accepts infoGooseSubscribe d) (parseGoose c).ports = false → ((parseGoose c).members.all fun x => freeDecl (s.accepts infoGooseSubscribe d) (c.b 0 1 - 32) (x.ref % 2 ^ 20)) = true → 
      exec (.gooseSubscribe d) s = .next (s.completed infoGooseSubscribe d (fin stDONE) fun m => { m with net := { m.net with subs := setAt m.net.subs (c.b 0 1 - 32) { gooseSubInit with cfg := some (parseGoose c), state := .waiting } } }))
    ∧ (∀ (d : Desc) (s : State), Taken infoGooseUnsubscribe d s → let c := s.held infoGooseUnsubscribe d; ∀ (g : GooseCfg), (s.m.gooseSub (c.f 0 1 - 32)).cfg = some g → 
      exec (.gooseUnsubscribe d) s = .next (s.completed infoGooseUnsubscribe d (fin stDONE) fun m => ((List.range 4).foldl (fun m o => m.invalidate (gooseBase (c.f 0 1 - 32 + 32) + o) true) (gooseHold g m)).setGooseSub (c.f 0 1 - 32) gooseSubInit))
    ∧ (∀ (d : Desc) (s : State), Taken infoGooseUnsubscribe d s → let c := s.held infoGooseUnsubscribe d; (s.m.gooseSub (c.f 0 1 - 32)).cfg = none → 
      exec (.gooseUnsubscribe d) s = .next (s.completed infoGooseUnsubscribe d (fin stDONEEMPTY) fun m => m))
    ∧ (∀ (d : Desc) (s : State), Taken infoEthTimedTx d s → let c := s.held infoEthTimedTx d; let t0 := c.b 0 8 * 1000000000 + c.b 8 4;
      let at_ := if t0 = 0 then intakeAt s.start + 1000 else t0
      (∀ p < 2, bitOf (c.b 12 1) p = true → timedCount (s.m.ethPort p) < 64) → intakeAt s.start + 1000 ≤ at_ →
      exec (.ethTimedTx d) s = .next (s.inEffect infoEthTimedTx d fun m =>
        queueFrame (c.b 12 1) (bitOf (c.b 13 1) 0) (fun p rct => ⟨.timed, at_, m.net.txOrder, some (c.ring, c.seq), false, 0, 0, .raw (closeFrame p rct ((c.buf.take c.len).drop 16))⟩)
          { m with net := { m.net with timed := m.net.timed ++ [⟨c.ring, c.seq, c.b 12 1, 0, bitOf (c.b 13 1) 1, false, none, none⟩] } }))
    ∧ (∀ (d : Desc) (s : State), Taken infoEthTimedTx d s → let c := s.held infoEthTimedTx d; let t0 := c.b 0 8 * 1000000000 + c.b 8 4;
      (∀ p < 2, bitOf (c.b 12 1) p = true → timedCount (s.m.ethPort p) < 64) → t0 ≠ 0 → t0 < intakeAt s.start + 1000 →
      exec (.ethTimedTx d) s = .next (s.completed infoEthTimedTx d (fin stEXPIRED) fun m => m))
    ∧ (∀ (d : Desc) (s : State), Taken infoFarConfig d s → let c := s.held infoFarConfig d; ((farReads s.start (c.b 0 1)).any fun x => decide (farFormat (s.m.farCh (c.b 0 1)).cfg x ≠ farFormat (some (parseFar c)) x)) = false → 
      exec (.farConfig d) s = .next (s.completed infoFarConfig d (fin stDONE) fun m => m.setFar (c.b 0 1) { farInit with cfg := some (parseFar c), state := if (parseFar c).rxEn then 1 else 0 }))
    ∧ (∀ (d : Desc) (s : State), Taken infoFarSend d s → let c := s.held infoFarSend d; ∀ (g : FarCfg), (s.m.farCh (c.b 0 1)).cfg = some g → g.txEn = true → 
      exec (.farSend d) s = .next (s.inEffect infoFarSend d fun m => farQueue (c.b 0 1) 2 0 ((c.buf.take c.len).drop 4) (some (c.ring, c.seq)) { m with net := { m.net with timed := m.net.timed ++ [⟨c.ring, c.seq, g.ports, 0, false, false, none, none⟩] } }))

/-- CAN_CONFIG on a channel without a search under way completes every queued frame with SUPERSEDED and puts the channel in its mode with fresh error counters and mailboxes. CAN_AUTOBAUD starts a listening search and stays in effect. CAN_SCHEDULE with none waiting puts the schedule in wait and stays in effect. CAN_TX on a normal channel with room queues the frame and stays in effect. CAN_CANCEL of a queued frame that has not started completes that frame with SUPERSEDED and itself with DONE, whichever channel the frame waits on; of one that is on the bus (stated of channel 0) it stays in effect until the frame ends; of no such frame it completes with DONE_EMPTY. Model's choice: how a row stands for what happens is that of log entries 7, 8, 9. Clauses rest on the model's own choices or readings of log entries 149, 151. (spec/11_station_networks.md (R354, R355, R356, R362, R363, R364, R365, R368)) -/
def Obligations.CanCommandsTakeEffect : Prop :=
  (∀ (d : Desc) (s : State), Taken infoCanConfig d s → let c := s.held infoCanConfig d; (s.m.canCh (c.b 0 1)).auto = none → 
      exec (.canConfig d) s = .next (s.completed infoCanConfig d (fin stDONE) fun m => (let m1 := (m.canCh (c.b 0 1)).txq.foldl (fun m f => canFinish (c.b 0 1) f (fin stSUPERSEDED) (fin stDONE) m) m; let g := parseCan c;
        m1.setCan (c.b 0 1) { m1.canCh (c.b 0 1) with cfg := some g, timing := none, state := if g.mode = 0 then 3 else 0, listen := g.mode == 2, txErr := 0, rxErr := 0, boxes := List.replicate 64 mailboxInit, txq := [], exclusive := none, exclWait := none, auto := none })))
    ∧ (∀ (d : Desc) (s : State), Taken infoCanAutobaud d s → let c := s.held infoCanAutobaud d; (s.m.canCh (c.b 0 1)).auto = none → 
      exec (.canAutobaud d) s = .next (s.inEffect infoCanAutobaud d fun m => m.setCan (c.b 0 1) { m.canCh (c.b 0 1) with
          auto := some ⟨(List.range (c.b 1 1)).map (parseNominal c), (List.range (c.b 2 1)).map (parseData c), c.ring, c.seq, 0, 0, false, 0⟩
          listen := true, exclusive := none, exclWait := none, state := if (m.canCh (c.b 0 1)).state = 3 then 0 else (m.canCh (c.b 0 1)).state
          txq := (m.canCh (c.b 0 1)).txq.map fun f => { f with started := false } }))
    ∧ (∀ (d : Desc) (s : State), Taken infoCanSchedule d s → let c := s.held infoCanSchedule d; (s.m.canCh (c.b 0 1)).schedNext = none → 
      exec (.canSchedule d) s = .next (s.inEffect infoCanSchedule d fun m => m.setCan (c.b 0 1) { m.canCh (c.b 0 1) with schedNext := some (parseSched c, c.ring, c.seq) }))
    ∧ (∀ (d : Desc) (s : State), Taken infoCanTx d s → let c := s.held infoCanTx d; ∀ (g : CanCfg), (s.m.canCh (txField c 0 1)).cfg = some g → g.mode = 1 → (s.m.canCh (txField c 0 1)).listen = false → (bitOf (txField c 4 4) 30 = true → g.fdEn = true) → (s.m.canCh (txField c 0 1)).txq.length < 32 → 
      exec (.canTx d) s = .next (s.inEffect infoCanTx d fun m => m.setCan (txField c 0 1) { m.canCh (txField c 0 1) with txq := (m.canCh (txField c 0 1)).txq ++ [⟨c.ring, c.seq, txField c 4 4, txData c, false, []⟩] }))
    ∧ (∀ (d : Desc) (s : State), Taken infoCanCancel d s → let c := s.held infoCanCancel d; ∀ (f : CanTx), ((s.m.canCh 0).txq.find? fun x => x.ring == c.f 0 1 && x.seq == c.f 8 8) = some f → f.started = false → 
      exec (.canCancel d) s = .next (s.completed infoCanCancel d (fin stDONE) fun m => canFinish 0 f (fin stSUPERSEDED) (fin stDONE) m))
    ∧ (∀ (d : Desc) (s : State), Taken infoCanCancel d s → let c := s.held infoCanCancel d; ∀ (f : CanTx), ((s.m.canCh 0).txq.find? fun x => x.ring == c.f 0 1 && x.seq == c.f 8 8) = none → ((s.m.canCh 1).txq.find? fun x => x.ring == c.f 0 1 && x.seq == c.f 8 8) = some f → f.started = false → 
      exec (.canCancel d) s = .next (s.completed infoCanCancel d (fin stDONE) fun m => canFinish 1 f (fin stSUPERSEDED) (fin stDONE) m))
    ∧ (∀ (d : Desc) (s : State), Taken infoCanCancel d s → let c := s.held infoCanCancel d; ∀ (f : CanTx), ((s.m.canCh 0).txq.find? fun x => x.ring == c.f 0 1 && x.seq == c.f 8 8) = some f → f.started = true → 
      exec (.canCancel d) s = .next (s.inEffect infoCanCancel d fun m => m.setCan 0 { m.canCh 0 with txq := (m.canCh 0).txq.map fun g => if g = f then { g with cancel := g.cancel ++ [(c.ring, c.seq)] } else g }))
    ∧ (∀ (d : Desc) (s : State), Taken infoCanCancel d s → let c := s.held infoCanCancel d; (∀ ch < 2, ((s.m.canCh ch).txq.find? fun x => x.ring == c.f 0 1 && x.seq == c.f 8 8) = none) → (s.accepts infoCanCancel d).findCmd (c.f 0 1) (c.f 8 8) = none → 
      exec (.canCancel d) s = .next (s.completed infoCanCancel d (fin stDONEEMPTY) fun m => m))

/-- PAIR_CONFIG sets ACCEPT_JOIN. PAIR_JOIN of a solo unit that may join, with no other command pending and an agreed set within its limit, sends JOIN_REQ, takes the shadow role at the next boundary and stays in effect. PAIR_LEAVE of a solo unit completes with DONE_EMPTY, and of a shadow it aborts the copy. PAIR_REPORT writes its report. PAIR_SWAP and PAIR_FW_UPDATE outside TWIN complete with REJECT_STATE. In a pair that exchanges, PAIR_LEAVE, PAIR_SWAP and PAIR_FW_UPDATE answer the state in which the descriptor is consumed, the command waits for JACK and JOURNAL is sent; at the boundary of effect that follows the JACK, PAIR_SWAP swaps the roles (the senior sends SWAP), PAIR_LEAVE that names the senior completes with REJECT_STATE, PAIR_LEAVE of the twin that names it leaves the pair, PAIR_FW_UPDATE at the senior that names the twin stays in effect until the twin has left, and at the twin named, with an image staged, activates it. Model's choice: how a row stands for what happens is that of log entries 7, 8, 9. Clauses rest on the model's own choices or readings of log entries 107, 108, 115, 117. (spec/09_morkai_pairing.md (R289, R292, R296, R297, R298)) -/
def Obligations.PairCommandsTakeEffect : Prop :=
  (∀ (d : Desc) (s : State), Taken infoPairConfig d s → let c := s.held infoPairConfig d; 
      exec (.pairConfig d) s = .next (s.completed infoPairConfig d (fin stDONE) fun m => { m with pair := { m.pair with acceptJoin := bitOf (c.f 0 1) 0 } }))
    ∧ (∀ (d : Desc) (s : State), Taken infoPairJoin d s → (s.m.pair.role = .solo ∨ s.m.pair.role = .deposed) → s.m.pair.roleDue = none → s.m.host.accepted = [] → joinable (s.accepts infoPairJoin d) = true → (agreedSet (s.accepts infoPairJoin d)).length ≤ 2048 → 
      exec (.pairJoin d) s = .next (s.inEffect infoPairJoin d fun m => (sendJoinReq m).roleAt .shadow))
    ∧ (∀ (d : Desc) (s : State), Taken infoPairLeave d s → s.m.pair.role = .solo → 
      exec (.pairLeave d) s = .next (s.completed infoPairLeave d (fin stDONEEMPTY) fun m => m))
    ∧ (∀ (d : Desc) (s : State), Taken infoPairLeave d s → s.m.pair.role = .shadow → 
      exec (.pairLeave d) s = .next (s.completed infoPairLeave d (fin stDONE) fun m => copyAbort (Config.unstatedArg 0x0808 5) (sendControl 4 0 0 [] m)))
    ∧ (∀ (d : Desc) (s : State), Taken infoPairSwap d s → s.m.pair.inTwin = false → 
      exec (.pairSwap d) s = .next (s.completed infoPairSwap d (fin stSTATE) fun m => m))
    ∧ (∀ (d : Desc) (s : State), Taken infoPairReport d s → let c := s.held infoPairReport d; 
      exec (.pairReport d) s = .next (s.completed infoPairReport d (fin stDONE) fun m => m.hostWrite c.addr ((pairReport m).take c.len)))
    ∧ (∀ (d : Desc) (s : State), Taken infoPairFwUpdate d s → s.m.pair.inTwin = false → 
      exec (.pairFwUpdate d) s = .next (s.completed infoPairFwUpdate d (fin stSTATE) fun m => m))
    ∧ (∀ (d : Desc) (s : State), Journalled infoPairLeave d s →
      exec (.pairLeave d) s = .next (s.journalled infoPairLeave d))
    ∧ (∀ (d : Desc) (s : State), Journalled infoPairSwap d s →
      exec (.pairSwap d) s = .next (s.journalled infoPairSwap d))
    ∧ (∀ (d : Desc) (s : State), Journalled infoPairFwUpdate d s →
      exec (.pairFwUpdate d) s = .next (s.journalled infoPairFwUpdate d))
    ∧ (∀ (c : Cmd) (m : Mach), expired c = false → m.inState infoPairSwap.states = true → m.pair.inTwin = true → 
      takeEffect infoPairSwap effPairSwap c m = settleEff c (doSwap (if m.pair.role == .senior then sendControl 5 0 (m.pair.epoch + 1) [] m else m), .done (fin stDONE)))
    ∧ (∀ (c : Cmd) (m : Mach), expired c = false → m.inState infoPairLeave.states = true → m.pair.inTwin = true → (c.f 0 1 == m.pair.unit % 2) = (m.pair.role == .senior) → 
      takeEffect infoPairLeave effPairLeave c m = settleEff c (m, .done (fin stSTATE)))
    ∧ (∀ (c : Cmd) (m : Mach), expired c = false → m.inState infoPairLeave.states = true → m.pair.inTwin = true → m.pair.role = .twin → (c.f 0 1 == m.pair.unit % 2) = true → 
      takeEffect infoPairLeave effPairLeave c m = settleEff c (leavePair m, .done (fin stDONE)))
    ∧ (∀ (c : Cmd) (m : Mach), expired c = false → m.inState infoPairFwUpdate.states = true → m.pair.inTwin = true → m.pair.role = .senior → (c.f 0 1 == m.pair.unit % 2) = false → 
      takeEffect infoPairFwUpdate effPairFwUpdate c m = settleEff c (m, .hold))
    ∧ (∀ (c : Cmd) (m : Mach), expired c = false → m.inState infoPairFwUpdate.states = true → m.pair.inTwin = true → m.pair.role = .twin → (c.f 0 1 == m.pair.unit % 2) = true → m.sec.staged.isSome = true → 
      takeEffect infoPairFwUpdate effPairFwUpdate c m = settleEff c (activateStaged (leavePair m), .done (fin stDONE)))

/-- SAFETY_CONFIG with its ports enabled replaces the configuration, de-energises every safe output, marks its inputs for a start test and stays in effect until the self-test. SAFETY_START_TEST marks the inputs of its mask, and with RUN_SELFTEST stays in effect. SAFETY_RESET that no output fails is entered for the next safety cycle and stays in effect; a failing mask completes with REJECT_STATE and the mask in RESULT; with CLEAR_FAULT both are judged as if the latches that may be cleared were. SAFETY_REPORT writes its report. TRIP_CLEAR of an active input completes with REJECT_STATE, and of none latched with DONE_EMPTY. OUTPUT_OVERRIDE of a channel that is not enabled, or is tripped, completes with REJECT_STATE; a release of an override is made at the next carrier start, and of no override completes with DONE_EMPTY; an override takes its sides at the intake, or at the next reload where a reload falls into the PWM clock cycle of the intake; one that asks for both turns neither on, with DETAIL 1, SHOOT_BLOCK and its event. Model's choice: how a row stands for what happens is that of log entries 7, 8, 9. Clauses rest on the model's own choices or readings of log entries 159, 262, 263. (spec/12_bridge_outputs_and_lantern.md (R373, R376, R381, R386, R387), spec/13_safety_functions.md (R398, R407, R410, R411, R412, R413)) -/
def Obligations.SafetyAndOutputCommandsTakeEffect : Prop :=
  (∀ (d : Desc) (s : State), Taken infoSafetyConfig d s → let c := s.held infoSafetyConfig d; ((parseSafety c).tels.any fun t => (t.tx || t.rx) && portOff (s.accepts infoSafetyConfig d) t.ports) = false → s.m.safety.resets = [] → 
      exec (.safetyConfig d) s = .next (s.inEffect infoSafetyConfig d fun m => (List.range 4).foldl (fun m o => outOff false o m) { m with safety := { m.safety with
        cfg := some (parseSafety c)
        ins := (m.safety.ins.zipIdx).map fun x => { x.1 with
          untested := ((parseSafety c).ins.getD x.2 inCfgOff).en && (((parseSafety c).ins.getD x.2 inCfgOff).startTest || x.1.untested)
          disc := none, openFor := 0, closing := none, due := ((parseSafety c).ins.getD x.2 inCfgOff).periodic && x.1.due }
        tels := List.replicate 4 safeTelInit, resets := [], selfTest := m.safety.selfTest ++ [⟨c.ring, c.seq, some (parseSafety c).crc⟩], runFound := m.safety.runFound && !m.safety.selfTest.isEmpty } }))
    ∧ (∀ (d : Desc) (s : State), Taken infoSafetyStartTest d s → let c := s.held infoSafetyStartTest d; c.f 0 1 = 0 → bitOf (c.f 1 1) 0 = false → 
      exec (.safetyStartTest d) s = .next (s.completed infoSafetyStartTest d (fin stDONEEMPTY) fun m => m))
    ∧ (∀ (d : Desc) (s : State), Taken infoSafetyStartTest d s → let c := s.held infoSafetyStartTest d; c.f 0 1 ≠ 0 → bitOf (c.f 1 1) 0 = false → 
      exec (.safetyStartTest d) s = .next (s.completed infoSafetyStartTest d (fin stDONE) fun m => { m with safety := { m.safety with ins := (m.safety.ins.zipIdx).map fun x => if bitOf (c.f 0 1) x.2 && (m.inCfg x.2).en then { x.1 with untested := true, openFor := 0, closing := none } else x.1 } }))
    ∧ (∀ (d : Desc) (s : State), Taken infoSafetyStartTest d s → let c := s.held infoSafetyStartTest d; bitOf (c.f 1 1) 0 = true → 
      exec (.safetyStartTest d) s = .next (s.inEffect infoSafetyStartTest d fun m => { m with safety := { m.safety with ins := (m.safety.ins.zipIdx).map fun x => if bitOf (c.f 0 1) x.2 && (m.inCfg x.2).en then { x.1 with untested := true, openFor := 0, closing := none } else x.1, selfTest := m.safety.selfTest ++ [⟨c.ring, c.seq, none⟩], runFound := m.safety.runFound && !m.safety.selfTest.isEmpty } }))
    ∧ (∀ (d : Desc) (s : State), Taken infoSafetyReset d s → let c := s.held infoSafetyReset d; bitOf (c.f 1 1) 0 = false → resetFails (c.f 0 1) (s.accepts infoSafetyReset d) = 0 → (∃ o < 4, bitOf (c.f 0 1) o = true ∧ (s.m.safeOut o).on = false) → 
      exec (.safetyReset d) s = .next (s.inEffect infoSafetyReset d fun m => { m with safety := { m.safety with resets := m.safety.resets ++ [⟨c.ring, c.seq, c.f 0 1, false⟩] } }))
    ∧ (∀ (d : Desc) (s : State), Taken infoSafetyReset d s → let c := s.held infoSafetyReset d; ∀ (n : Nat), bitOf (c.f 1 1) 0 = false → resetFails (c.f 0 1) (s.accepts infoSafetyReset d) = n → n ≠ 0 → 
      exec (.safetyReset d) s = .next (s.completed infoSafetyReset d (⟨stSTATE, 0, n, 0, []⟩) fun m => m))
    ∧ (∀ (d : Desc) (s : State), Taken infoSafetyReset d s → let c := s.held infoSafetyReset d; bitOf (c.f 1 1) 0 = true → resetFails (c.f 0 1) (clearLatches (s.accepts infoSafetyReset d)) = 0 → faultWord (clearLatches (s.accepts infoSafetyReset d)) ≠ faultWord (s.accepts infoSafetyReset d) → 
      exec (.safetyReset d) s = .next (s.inEffect infoSafetyReset d fun m => { m with safety := { m.safety with resets := m.safety.resets ++ [⟨c.ring, c.seq, c.f 0 1, true⟩] } }))
    ∧ (∀ (d : Desc) (s : State), Taken infoSafetyReset d s → let c := s.held infoSafetyReset d; ∀ (n : Nat), bitOf (c.f 1 1) 0 = true → resetFails (c.f 0 1) (clearLatches (s.accepts infoSafetyReset d)) = n → n ≠ 0 → 
      exec (.safetyReset d) s = .next (s.completed infoSafetyReset d (⟨stSTATE, 0, n, 0, []⟩) fun m => m))
    ∧ (∀ (d : Desc) (s : State), Taken infoSafetyReport d s → let c := s.held infoSafetyReport d; 
      exec (.safetyReport d) s = .next (s.completed infoSafetyReport d (fin stDONE) fun m => m.hostWrite c.addr ((safetyReport m).take c.len)))
    ∧ (∀ (d : Desc) (s : State), Taken infoTripClear d s → let c := s.held infoTripClear d; c.f 0 1 &&& s.m.pwm.active ≠ 0 → 
      exec (.tripClear d) s = .next (s.completed infoTripClear d (fin stSTATE) fun m => m))
    ∧ (∀ (d : Desc) (s : State), Taken infoTripClear d s → let c := s.held infoTripClear d; c.f 0 1 &&& s.m.pwm.active = 0 → c.f 0 1 &&& s.m.pwm.latched = 0 → 
      exec (.tripClear d) s = .next (s.completed infoTripClear d (fin stDONEEMPTY) fun m => m))
    ∧ (∀ (d : Desc) (s : State), Taken infoTripClear d s → let c := s.held infoTripClear d; c.f 0 1 &&& s.m.pwm.active = 0 → c.f 0 1 &&& s.m.pwm.latched ≠ 0 → 
      exec (.tripClear d) s = .next (s.completed infoTripClear d (fin stDONE) fun m => (let m1 : Mach := { m with pwm := { m.pwm with latched := without m.pwm.latched (c.f 0 1) } }
        ((List.range 12).foldl (fun a n => if tripped m n && !tripped m1 n then follow n (16 * intakeAt m) (a.setPwm n { a.pwmCh n with resuming := true }) else a) m1).post 0x0C02 [])))
    ∧ (∀ (d : Desc) (s : State), Taken infoOutputOverride d s → let c := s.held infoOutputOverride d; pwmEnabled (s.accepts infoOutputOverride d) (c.f 0 1) = false → 
      exec (.outputOverride d) s = .next (s.completed infoOutputOverride d (fin stSTATE) fun m => m))
    ∧ (∀ (d : Desc) (s : State), Taken infoOutputOverride d s → let c := s.held infoOutputOverride d; tripped (s.accepts infoOutputOverride d) (c.f 0 1) = true → 
      exec (.outputOverride d) s = .next (s.completed infoOutputOverride d (fin stSTATE) fun m => m))
    ∧ (∀ (d : Desc) (s : State), Taken infoOutputOverride d s → let c := s.held infoOutputOverride d; pwmEnabled (s.accepts infoOutputOverride d) (c.f 0 1) = true → tripped (s.accepts infoOutputOverride d) (c.f 0 1) = false → mayDrive (s.accepts infoOutputOverride d) = true → c.f 1 1 = 0 → (s.m.pwmCh (c.f 0 1)).overridden = true → 
      exec (.outputOverride d) s = .next (s.completed infoOutputOverride d (fin stDONE) fun m => m.setPwm (c.f 0 1) { m.pwmCh (c.f 0 1) with pend := some (16 * intakeAt m / 32, none) }))
    ∧ (∀ (d : Desc) (s : State), Taken infoOutputOverride d s → let c := s.held infoOutputOverride d; pwmEnabled (s.accepts infoOutputOverride d) (c.f 0 1) = true → tripped (s.accepts infoOutputOverride d) (c.f 0 1) = false → mayDrive (s.accepts infoOutputOverride d) = true → c.f 1 1 = 0 → (s.m.pwmCh (c.f 0 1)).overridden = false → 
      exec (.outputOverride d) s = .next (s.completed infoOutputOverride d (fin stDONEEMPTY) fun m => m))
    ∧ (∀ (d : Desc) (s : State), Taken infoOutputOverride d s → let c := s.held infoOutputOverride d; pwmEnabled (s.accepts infoOutputOverride d) (c.f 0 1) = true → tripped (s.accepts infoOutputOverride d) (c.f 0 1) = false → mayDrive (s.accepts infoOutputOverride d) = true → c.f 1 1 = 1 → reloadIn (s.accepts infoOutputOverride d) (c.f 0 1) (16 * intakeAt s.start) = false → (bitOf (c.f 2 1) 0 && bitOf (c.f 2 1) 1) = false → 
      exec (.outputOverride d) s = .next (s.completed infoOutputOverride d (fin stDONE) fun m => follow (c.f 0 1) (16 * intakeAt m) (m.setPwm (c.f 0 1) { m.pwmCh (c.f 0 1) with forced := some (bitOf (c.f 2 1) 0, bitOf (c.f 2 1) 1), pend := none })))
    ∧ (∀ (d : Desc) (s : State), Taken infoOutputOverride d s → let c := s.held infoOutputOverride d; pwmEnabled (s.accepts infoOutputOverride d) (c.f 0 1) = true → tripped (s.accepts infoOutputOverride d) (c.f 0 1) = false → mayDrive (s.accepts infoOutputOverride d) = true → c.f 1 1 = 1 → reloadIn (s.accepts infoOutputOverride d) (c.f 0 1) (16 * intakeAt s.start) = true → (bitOf (c.f 2 1) 0 && bitOf (c.f 2 1) 1) = false → 
      exec (.outputOverride d) s = .next (s.completed infoOutputOverride d (fin stDONE) fun m => m.setPwm (c.f 0 1) { m.pwmCh (c.f 0 1) with pend := some (16 * intakeAt m / 32, some (bitOf (c.f 2 1) 0, bitOf (c.f 2 1) 1)) }))
    ∧ (∀ (d : Desc) (s : State), Taken infoOutputOverride d s → let c := s.held infoOutputOverride d; pwmEnabled (s.accepts infoOutputOverride d) (c.f 0 1) = true → tripped (s.accepts infoOutputOverride d) (c.f 0 1) = false → mayDrive (s.accepts infoOutputOverride d) = true → c.f 1 1 = 1 → reloadIn (s.accepts infoOutputOverride d) (c.f 0 1) (16 * intakeAt s.start) = false → (bitOf (c.f 2 1) 0 && bitOf (c.f 2 1) 1) = true → 
      exec (.outputOverride d) s = .next (s.completed infoOutputOverride d (⟨stDONE, 1, 0, 0, []⟩) fun m => ((follow (c.f 0 1) (16 * intakeAt m) (m.setPwm (c.f 0 1) { m.pwmCh (c.f 0 1) with forced := some (true, true), pend := none })).raise F.pwmStatusShootBlock).post 0x0C03 [c.f 0 1]))

/-- QUOTE with none in progress takes its body and stays in effect. KEY_INSTALL whose image passes its checks puts the key VALID into an EMPTY owner slot with its policy bits; one that fails check n posts AUTH_FAIL and completes with the status of the check. KEY_REVOKE of a slot that is not the last VALID one of its class marks it REVOKED where the image passes its checks, DONE_EMPTY where it is already; a failing check n posts AUTH_FAIL and gives the status. IMAGE_STAGE outside BOOT and a trial, with none in progress, writes the image to the slot not booted and stays in effect. IMAGE_ACTIVATE code 1 activates what is staged, and with nothing staged completes with REJECT_STATE; code 2 ends a trial, with DONE_EMPTY outside one; code 3 raises the smallest permitted SVN to that of the running image and takes a step. DEBUG_UNLOCK code 1 issues a challenge and returns it in the result slot, code 2 ends the level in force (DONE_EMPTY at level 0), and a token takes effect as its checks say; one of a lower level accepted at level 3 completes and ends the session with a reset. Model's choice: how a row stands for what happens is that of log entries 7, 8, 9. Clauses rest on the model's own choices or readings of log entries 171, 174, 175, 186. (spec/15_power_boot_security.md (R448, R451, R452, R453, R454, R456, R457, R458, R459)) -/
def Obligations.SecurityCommandsTakeEffect : Prop :=
  (∀ (d : Desc) (s : State), Taken infoQuote d s → let c := s.held infoQuote d; mirrored c (s.accepts infoQuote d) = false → s.m.sec.quote = none → 
      exec (.quote d) s = .next (s.inEffect infoQuote d fun m => { m with sec := { m.sec with quote := some ⟨c.ring, c.seq, quoteBody c.pay m, false⟩ } }))
    ∧ (∀ (d : Desc) (s : State), Taken infoKeyInstall d s → let c := s.held infoKeyInstall d; ∀ (n : Nat), imgFails 2 (ownerSigners (s.accepts infoKeyInstall d)) c.img (s.accepts infoKeyInstall d) = some n → 
      exec (.keyInstall d) s = .next (s.completed infoKeyInstall d (fin (authStatus n)) fun m => authFail 0x0A02 n m))
    ∧ (∀ (d : Desc) (s : State), Taken infoKeyInstall d s → let c := s.held infoKeyInstall d; let a := s.accepts infoKeyInstall d; let b := imgBody c.img; let policy := fieldLE b 1 1;
      isOwner (fieldLE b 0 1) = true → policy < 16 → allZero (sliceBytes b 2 14) = true → (keySlot a (fieldLE b 0 1)).state = .empty →
      exec (.keyInstall d) s = .next (match imgFails 2 (ownerSigners a) c.img a with
        | some n => s.completed infoKeyInstall d (fin (authStatus n)) (authFail 0x0A02 n)
        | none => s.completed infoKeyInstall d (fin stDONE) fun m =>
            let m1 := putSlot (fieldLE b 0 1) ⟨.valid, sliceBytes b 16 48⟩ m
            { m1 with sec := { m1.sec with ownerCosign := m1.sec.ownerCosign || bitOf policy 0, deny1 := m1.sec.deny1 || bitOf policy 1
                                           deny2 := m1.sec.deny2 || bitOf policy 2, deny3 := m1.sec.deny3 || bitOf policy 3 } }.post 0x0A06 [fieldLE b 0 1, 1]))
    ∧ (∀ (d : Desc) (s : State), Taken infoKeyRevoke d s → let c := s.held infoKeyRevoke d; let a := s.accepts infoKeyRevoke d; let b := imgBody c.img; let k := fieldLE b 0 1;
      (slotIndex k).isSome = true → allZero (sliceBytes b 1 63) = true → (slotValid a k = false ∨ (k < 2 ∧ vendorsValid a ≠ 2 ^ k) ∨ (2 ≤ k ∧ ownersValid a ≠ 2 ^ (k - 0x10))) →
      exec (.keyRevoke d) s = .next (match imgFails 3 (revokeSigners c.img) c.img a with
        | some n => s.completed infoKeyRevoke d (fin (authStatus n)) (authFail 0x0A03 n)
        | none => if (keySlot a k).state = .revoked then s.completed infoKeyRevoke d (fin stDONEEMPTY) fun m => m
            else s.completed infoKeyRevoke d (fin stDONE) fun m => (putSlot k ⟨.revoked, (keySlot m k).key⟩ m).post 0x0A06 [k, 2]))
    ∧ (∀ (d : Desc) (s : State), Taken infoImageStage d s → let c := s.held infoImageStage d; s.m.dev.state ≠ .boot → s.start.onTrial = false → s.m.sec.staging = none → 
      exec (.imageStage d) s = .next (s.inEffect infoImageStage d fun m => { m.send (.flash (slotAddr (stageSlot m)) c.img) with sec := { m.sec with staging := some (c.ring, c.seq, c.img), staged := none } }))
    ∧ (∀ (d : Desc) (s : State), Taken infoImageActivate d s → let c := s.held infoImageActivate d; c.f 0 1 = 1 → (s.m.dev.state = .run ∨ s.m.sec.staged = none) → 
      exec (.imageActivate d) s = .next (s.completed infoImageActivate d (fin stSTATE) fun m => m))
    ∧ (∀ (d : Desc) (s : State), Taken infoImageActivate d s → let c := s.held infoImageActivate d; ∀ (v : Nat), c.f 0 1 = 1 → s.m.dev.state ≠ .run → s.m.sec.staged = some v → 
      exec (.imageActivate d) s = .next (s.completed infoImageActivate d (fin stDONE) fun m => activateStaged m))
    ∧ (∀ (d : Desc) (s : State), Taken infoImageActivate d s → let c := s.held infoImageActivate d; c.f 0 1 = 2 → (s.m.dev.state = .ready ∨ s.m.dev.state = .run) → s.start.onTrial = false → 
      exec (.imageActivate d) s = .next (s.completed infoImageActivate d (fin stDONEEMPTY) fun m => m))
    ∧ (∀ (d : Desc) (s : State), Taken infoImageActivate d s → let c := s.held infoImageActivate d; c.f 0 1 = 2 → (s.m.dev.state = .ready ∨ s.m.dev.state = .run) → s.start.onTrial = true → 
      exec (.imageActivate d) s = .next (s.completed infoImageActivate d (fin stDONE) fun m => updateBcr (fun b => { b with trial := false }) m))
    ∧ (∀ (d : Desc) (s : State), Taken infoImageActivate d s → let c := s.held infoImageActivate d; ∀ (i : RunImage), c.f 0 1 = 3 → (s.m.dev.state = .ready ∨ s.m.dev.state = .run) → s.start.onTrial = false → s.m.sec.image = some i → s.m.sec.svnMin < i.svn → s.m.sec.stepsLeft ≠ 0 → 
      exec (.imageActivate d) s = .next (s.completed infoImageActivate d (fin stDONE) fun m => { m with sec := { m.sec with svnMin := i.svn, stepsLeft := m.sec.stepsLeft - 1 } }))
    ∧ (∀ (d : Desc) (s : State), Taken infoDebugUnlock d s → let c := s.held infoDebugUnlock d; c.ptr = false → c.f 0 1 = 1 →
      exec (.debugUnlock d) s = .next (s.completed infoDebugUnlock d ⟨stDONE, 0, 0, 0, leBytes 32 (Config.challenge s.m.dbg.challengeCount)⟩ fun m =>
        { m with dbg := { m.dbg with challenge := some (leBytes 32 (Config.challenge m.dbg.challengeCount)), shown := leBytes 32 (Config.challenge m.dbg.challengeCount), challengeCount := m.dbg.challengeCount + 1 } }))
    ∧ (∀ (d : Desc) (s : State), Taken infoDebugUnlock d s → let c := s.held infoDebugUnlock d; c.ptr = false → c.f 0 1 ≠ 1 → s.m.dbg.level = 0 → 
      exec (.debugUnlock d) s = .next (s.completed infoDebugUnlock d (fin stDONEEMPTY) fun m => m))
    ∧ (∀ (d : Desc) (s : State), Taken infoDebugUnlock d s → let c := s.held infoDebugUnlock d; c.ptr = false → c.f 0 1 ≠ 1 → s.m.dbg.level ≠ 0 →
      exec (.debugUnlock d) s = .next (s.to (endLevel (complete c (fin stDONE) (s.accepts infoDebugUnlock d)))))
    ∧ (∀ (d : Desc) (s : State), Taken infoDebugUnlock d s → let c := s.held infoDebugUnlock d; let a := s.accepts infoDebugUnlock d; let r := tryToken 0x0A06 c.img a; c.ptr = true →
      exec (.debugUnlock d) s = .next (if endsTest a r.2 = true then s.to (deviceReset .debug (complete c (fin r.1) r.2))
        else s.completed infoDebugUnlock d (fin r.1) fun m => (tryToken 0x0A06 c.img m).2))

/-- NOP completes with DONE and the low word of the boundary number in RESULT and changes nothing else. FENCE with no earlier accepted command in its scope completes with DONE; while one is pending it stays accepted and changes nothing. CANCEL of a command that has not taken effect completes it with SUPERSEDED and itself with DONE; where there is none, or it has taken effect, CANCEL completes with DONE_EMPTY. Model's choice: how a row stands for what happens is that of log entries 7, 8, 9. (spec/08_host_rings.md (R262, R263)) -/
def Obligations.HousekeepingCommandsComplete : Prop :=
  (∀ (d : Desc) (s : State), Taken infoNop d s → 
      exec (.nop d) s = .next (s.completed infoNop d (⟨stDONE, 0, s.m.tb.k % 2 ^ 32, 0, []⟩) fun m => m))
    ∧ (∀ (d : Desc) (s : State), Taken infoFence d s → let c := s.held infoFence d; ((s.accepts infoFence d).host.accepted.any fun p => decide (p.cmd.order < c.order) && (bitOf (c.f 0 1) 0 || p.cmd.ring == c.ring)) = false → 
      exec (.fence d) s = .next (s.completed infoFence d (fin stDONE) fun m => m))
    ∧ (∀ (d : Desc) (s : State), Taken infoFence d s → let c := s.held infoFence d; ((s.accepts infoFence d).host.accepted.any fun p => decide (p.cmd.order < c.order) && (bitOf (c.f 0 1) 0 || p.cmd.ring == c.ring)) = true →
      exec (.fence d) s = .next (s.to (s.accepts infoFence d)))
    ∧ (∀ (d : Desc) (s : State), Taken infoCancel d s → let c := s.held infoCancel d; ∀ (p : Pending), (s.accepts infoCancel d).findCmd (c.f 0 1) (c.f 8 8) = some p → p.inEffect = false → (p.cmd.ring ≠ c.ring ∨ p.cmd.seq ≠ c.seq) → 
      exec (.cancel d) s = .next (s.completed infoCancel d (fin stDONE) fun m => complete p.cmd (fin stSUPERSEDED) m))
    ∧ (∀ (d : Desc) (s : State), Taken infoCancel d s → let c := s.held infoCancel d; ∀ (p : Pending), (s.accepts infoCancel d).findCmd (c.f 0 1) (c.f 8 8) = some p → p.inEffect = true → 
      exec (.cancel d) s = .next (s.completed infoCancel d (fin stDONEEMPTY) fun m => m))
    ∧ (∀ (d : Desc) (s : State), Taken infoCancel d s → let c := s.held infoCancel d; (s.accepts infoCancel d).findCmd (c.f 0 1) (c.f 8 8) = none → 
      exec (.cancel d) s = .next (s.completed infoCancel d (fin stDONEEMPTY) fun m => m))

/-- In a device that is up, the training steps of a lane 0 to 15 answer the next state R180 to R182 give: BLOCK_LOCK_ACQUIRED completes step 1; TRAIN_FRAME_TX sends a TRAIN frame while the lane trains; ZL_TRAIN_FRAME with a good TRAIN frame counts towards 4,096, the last of which completes steps 3 and 4 where the far side is ready and step 3 alone where it is not, and with a bad one clears the count; ZL_TRAIN_TIMEOUT restarts the lane and posts ZL_TRAIN_FAIL at most once per second; HUB_IDENT with a good identity on a lane not BOUND keeps it and completes step 5, and one with a bad protocol or capacity posts ZL_IDENT_BAD before step 5 and changes nothing else; ZL_CAL_RSP adds the sample (T_dt − TURN + 2 ASYM)/2, and the last one of a calibration that passes sets D to the median, writes SIG_HUB_DELAY, sends CONFIG and completes step 7; ZL_CAL_RETRY after a failed calibration makes the lane due for loss. Model's choice: how a row stands for what happens is that of log entries 4, 5, 6, 9. Clauses rest on the model's own choices or readings of log entry 92. (spec/06_zeldlink.md (R180, R181, R182)) -/
def Obligations.LaneTrainingStepsComplete : Prop :=
  (∀ (l : Nat) (s : State), let m := s.start; Up s → l < 16 → (m.lane l).lock = false → 
      exec (.blockLockAcquired (.lane l)) s = .next (s.to (m.setLane l { m.lane l with lock := true, step := max (m.lane l).step 1, trainCount := 0, farReady := false, identReq := false })))
    ∧ (∀ (l : Nat) (s : State), let m := s.start; Up s → l < 16 → (m.lane l).lock = true → laneEnabled m l = true → (m.lane l).step ≤ 4 → 
      exec (.trainFrameTx (.lane l)) s = .next (s.to (m.send (.zlTrain l (plainFrame m 0x06 (4 * b2n (m.lane l).identReq + 8 * b2n (rxReady (m.lane l).trainCount)) (m.fld F.zlTxeqPre + 256 * m.fld F.zlTxeqPost))))))
    ∧ (∀ (l : Nat) (b : List Byte) (s : State), let m := s.start; Up s → l < 16 → (m.lane l).lock = true → laneEnabled m l = true → (m.lane l).step ≤ 4 → (frameOk b && b.length == 36 && bareHead b && fieldLE b 0 1 == 0x90) = false → 
      exec (.zlTrainFrame l b) s = .next (s.to (m.setLane l { m.lane l with trainCount := 0 })))
    ∧ (∀ (l : Nat) (b : List Byte) (s : State), let m := s.start; Up s → l < 16 → (m.lane l).lock = true → laneEnabled m l = true → (m.lane l).step ≤ 4 → frameOk b = true → b.length = 36 → bareHead b = true → fieldLE b 0 1 = 0x90 → (m.lane l).trainCount < 4095 → 
      exec (.zlTrainFrame l b) s = .next (s.to (m.setLane l { m.lane l with trainCount := (m.lane l).trainCount + 1, farReady := bitOf (fieldLE b 1 1) 4, step := max (m.lane l).step 2 })))
    ∧ (∀ (l : Nat) (b : List Byte) (s : State), let m := s.start; Up s → l < 16 → (m.lane l).lock = true → laneEnabled m l = true → (m.lane l).step ≤ 4 → frameOk b = true → b.length = 36 → bareHead b = true → fieldLE b 0 1 = 0x90 → 4095 ≤ (m.lane l).trainCount → bitOf (fieldLE b 1 1) 4 = true → 
      exec (.zlTrainFrame l b) s = .next (s.to (m.setLane l { m.lane l with trainCount := 4096, farReady := true, step := 4, identReq := true })))
    ∧ (∀ (l : Nat) (b : List Byte) (s : State), let m := s.start; Up s → l < 16 → (m.lane l).lock = true → laneEnabled m l = true → (m.lane l).step ≤ 4 → frameOk b = true → b.length = 36 → bareHead b = true → fieldLE b 0 1 = 0x90 → 4095 ≤ (m.lane l).trainCount → bitOf (fieldLE b 1 1) 4 = false → 
      exec (.zlTrainFrame l b) s = .next (s.to (m.setLane l { m.lane l with trainCount := 4096, farReady := false, step := max (m.lane l).step 3 })))
    ∧ (∀ (l : Nat) (s : State), let m := s.start; Up s → l < 16 → laneEnabled m l = true → (m.lane l).step < 5 → oncePerSecond m (m.lane l).trainFailAt = true → 
      exec (.zlTrainTimeout l) s = .next (s.to ((m.setLane l { laneRestart (m.lane l) with trainFailAt := some m.tb.uptime }).post 0x0B01 [l])))
    ∧ (∀ (l : Nat) (b : List Byte) (s : State), let m := s.start; Up s → l < 16 → (m.lane l).lock = true → 4 ≤ (m.lane l).step → (m.lane l).attach = .unbound → identOk b = true → (parseIdent b).proto = 1 → (parseIdent b).smCount ≤ (parseIdent b).cap → 1 ≤ (parseIdent b).smType → (parseIdent b).smType ≤ 3 → 
      exec (.hubIdent l b) s = .next (s.to (m.setLane l { m.lane l with ident := some (parseIdent b), identNew := true, step := 5 })))
    ∧ (∀ (l : Nat) (b : List Byte) (s : State), let m := s.start; Up s → l < 16 → (m.lane l).lock = true → (m.lane l).step = 4 → (m.lane l).attach = .unbound → identOk b = true → ((parseIdent b).proto ≠ 1 ∨ (parseIdent b).cap < (parseIdent b).smCount) → 
      exec (.hubIdent l b) s = .next (s.to (m.post 0x0B02 [l])))
    ∧ (∀ (l dtQ : Nat) (b : List Byte) (s : State), let m := s.start; Up s → l < 16 → (m.lane l).calibrating = true → (m.lane l).calOpen = true → frameOk b = true → bareHead b = true → fieldLE b 0 1 = 0x82 → b.length = 44 → (m.lane l).samples.length + (m.lane l).lost < 63 → 
      exec (.zlCalRsp l b dtQ) s = .next (s.to (m.setLane l { m.lane l with samples := (m.lane l).samples ++ [roundDiv ((dtQ : Int) - fieldLE b 32 4 + 2 * asymOf m l) 2], calOpen := false })))
    ∧ (∀ (l dtQ h : Nat) (b : List Byte) (x : List Int) (s : State), let m := s.start; Up s → l < 16 → (m.lane l).calibrating = true → (m.lane l).calOpen = true → frameOk b = true → bareHead b = true → fieldLE b 0 1 = 0x82 → b.length = 44 → (m.lane l).samples.length + (m.lane l).lost = 63 → x = (m.lane l).samples ++ [roundDiv ((dtQ : Int) - fieldLE b 32 4 + 2 * asymOf m l) 2] → calTest x (m.lane l).lost 1000 = none → (m.lane l).entry = some h → 
      exec (.zlCalRsp l b dtQ) s = .next (s.to (sendConfig l (putHub h 1 (medianOf x).toNat (m.setLane l { m.lane l with samples := x, d := medianOf x, dCal := medianOf x, spread := (spreadOf x).toNat, drifted := false, trackSum := 0, trackCount := 0, calOpen := false, step := 7 })))))
    ∧ (∀ (l : Nat) (s : State), let m := s.start; Up s → l < 16 → (m.lane l).calFailed = true → 
      exec (.zlCalRetry l) s = .next (s.to (m.setLane l { m.lane l with lossDue := true })))

/-- In a device that is up: ZL_BLOCK_LOCK_LOST makes the lane due for loss; ZL_LOCK_LOST sets LOCK_LOST and makes every lane that trains or works due for loss; ZL_LINK_LOSS after LOSS_N silent periods restarts the lane, and of a BOUND one unbinds its entry, takes VALID from its slots, tells Flowstone and posts HUB_LOST, while in TWIN a lane that the partner holds BOUND keeps its entry through the partner instead; LANE_FAULT of a lane in use takes the lane out of LOOP_LANES, enters SAFE with cause 5 and the lane, sets LANE_FAULT and posts its event with the lane; ZL_DELAY_TRACK over the averaged frames keeps D, or moves it by one unit of 0.25 ns up or down, with SIG_HUB_DELAY, where the mean lies more than two units above or below, and starts the average afresh; a D more than 16 units from the calibrated one, on a lane not seen so before, sets DRIFT and posts ZL_DRIFT with both;  ZL_MARGIN_LOW keeps the margin, which a BOUND lane shows in SIG_HUB_MARGIN; one below MARGIN_MIN sets MARGIN_LOW and posts ZL_MARGIN_LOW at most once per second. Model's choice: how a row stands for what happens is that of log entries 4, 5, 6, 9. Clauses rest on the model's own choices or readings of log entries 44, 57, 87, 92. (spec/02_loop_engine.md (R62), spec/06_zeldlink.md (R178, R183, R204, R205, R208), spec/09_morkai_pairing.md (R286)) -/
def Obligations.LaneLinkStepsComplete : Prop :=
  (∀ (l : Nat) (s : State), let m := s.start; Up s → l < 16 → 
      exec (.zlBlockLockLost l) s = .next (s.to (m.setLane l { m.lane l with lock := false, lossDue := true })))
    ∧ (∀ (s : State), let m := s.start; Up s → 
      exec .zlLockLost s = .next (s.to ({ m.raise F.zlStatusLockLost with zl := { m.zl with lanes := m.zl.lanes.map fun x => { x with lossDue := x.lossDue || decide (1 ≤ x.step) } } })))
    ∧ (∀ (l h : Nat) (c : Cdr) (s : State), let m := s.start; Up s → l < 16 → 8 ≤ (m.lane l).step → (m.lane l).heard = false → m.fld F.zlTimingLossN ≤ (m.lane l).silent + 1 → (m.lane l).attach = .bound → (m.lane l).entry = some h → m.conv.active = some c → m.pair.inTwin = false → 
      exec (.zlLinkLoss l) s = .next (s.to ((let m1 := m.setLane l (laneRestart (m.lane l)); (invalidateHub h (c.hub h) true (flowLost (c.hub h) { m1 with conv := { m1.conv with bind := setAt m1.conv.bind h none } })).post 0x0105 []))))
    ∧ (∀ (l h : Nat) (c : Cdr) (s : State), let m := s.start; Up s → l < 16 → 8 ≤ (m.lane l).step → (m.lane l).heard = false → m.fld F.zlTimingLossN ≤ (m.lane l).silent + 1 → (m.lane l).attach = .bound → (m.lane l).entry = some h → m.conv.active = some c → m.pair.inTwin = true → bitOf (theirBound m) l = true → 
      exec (.zlLinkLoss l) s = .next (s.to ((m.setLane l (laneRestart (m.lane l))).modLane l fun y => { y with entry := some h, remote := true })))
    ∧ (∀ (l h : Nat) (c : Cdr) (s : State), let m := s.start; Up s → l < 16 → 8 ≤ (m.lane l).step → (m.lane l).heard = false → m.fld F.zlTimingLossN ≤ (m.lane l).silent + 1 → (m.lane l).attach = .bound → (m.lane l).entry = some h → m.conv.active = some c → m.pair.inTwin = true → bitOf (theirBound m) l = false → 
      exec (.zlLinkLoss l) s = .next (s.to ((let m1 := m.setLane l (laneRestart (m.lane l)); (invalidateHub h (c.hub h) true (flowLost (c.hub h) { m1 with conv := { m1.conv with bind := setAt m1.conv.bind h none } })).post 0x0105 []))))
    ∧ (∀ (l : Nat) (s : State), let m := s.start; Up s → l < 16 → 8 ≤ (m.lane l).step → (m.lane l).heard = false → m.fld F.zlTimingLossN ≤ (m.lane l).silent + 1 → (m.lane l).attach ≠ .bound → 
      exec (.zlLinkLoss l) s = .next (s.to (m.setLane l (laneRestart (m.lane l)))))
    ∧ (∀ (l : Nat) (s : State), let m := s.start; Up s → l < 16 → ((m.lane l).heard = true ∨ (m.lane l).silent + 1 < m.fld F.zlTimingLossN) → 0 < m.fld F.zlTimingLossN → 
      exec (.zlLinkLoss l) s = .next (s.to (m)))
    ∧ (∀ (l : Nat) (s : State), let m := s.start; Up s → l < 16 → 8 ≤ (m.lane l).step → (m.lane l).trackCount ≠ 0 → ((m.lane l).trackSum - 100 * (m.lane l).trackCount * (m.lane l).d).natAbs ≤ 200 * (m.lane l).trackCount → ((m.lane l).d - (m.lane l).dCal).natAbs ≤ 16 → 
      exec (.zlDelayTrack l) s = .next (s.to (m.setLane l { m.lane l with trackSum := 0, trackCount := 0, drifted := false })))
    ∧ (∀ (l h : Nat) (s : State), let m := s.start; Up s → l < 16 → 8 ≤ (m.lane l).step → (m.lane l).trackCount ≠ 0 → 200 * (m.lane l).trackCount < (m.lane l).trackSum - 100 * (m.lane l).trackCount * (m.lane l).d → ((m.lane l).d + 1 - (m.lane l).dCal).natAbs ≤ 16 → (m.lane l).entry = some h → 
      exec (.zlDelayTrack l) s = .next (s.to (putHub h 1 ((m.lane l).d + 1).toNat (m.setLane l { m.lane l with d := (m.lane l).d + 1, trackSum := 0, trackCount := 0, drifted := false }))))
    ∧ (∀ (l h : Nat) (s : State), let m := s.start; Up s → l < 16 → 8 ≤ (m.lane l).step → (m.lane l).trackCount ≠ 0 → (m.lane l).trackSum - 100 * (m.lane l).trackCount * (m.lane l).d < -(200 * (m.lane l).trackCount : Int) → ((m.lane l).d - 1 - (m.lane l).dCal).natAbs ≤ 16 → (m.lane l).entry = some h → 
      exec (.zlDelayTrack l) s = .next (s.to (putHub h 1 ((m.lane l).d - 1).toNat (m.setLane l { m.lane l with d := (m.lane l).d - 1, trackSum := 0, trackCount := 0, drifted := false }))))
    ∧ (∀ (l h : Nat) (s : State), let m := s.start; Up s → l < 16 → 8 ≤ (m.lane l).step → (m.lane l).trackCount ≠ 0 → 200 * (m.lane l).trackCount < (m.lane l).trackSum - 100 * (m.lane l).trackCount * (m.lane l).d → 16 < ((m.lane l).d + 1 - (m.lane l).dCal).natAbs → (m.lane l).drifted = false → (m.lane l).entry = some h → 
      exec (.zlDelayTrack l) s = .next (s.to (((putHub h 1 ((m.lane l).d + 1).toNat (m.setLane l { m.lane l with d := (m.lane l).d + 1, trackSum := 0, trackCount := 0, drifted := true })).raise F.zlStatusDrift).post 0x0B04 [l, unsigned 32 (m.lane l).dCal, unsigned 32 ((m.lane l).d + 1)])))
    ∧ (∀ (l h : Nat) (s : State), let m := s.start; Up s → l < 16 → 8 ≤ (m.lane l).step → (m.lane l).trackCount ≠ 0 → (m.lane l).trackSum - 100 * (m.lane l).trackCount * (m.lane l).d < -(200 * (m.lane l).trackCount : Int) → 16 < ((m.lane l).d - 1 - (m.lane l).dCal).natAbs → (m.lane l).drifted = false → (m.lane l).entry = some h → 
      exec (.zlDelayTrack l) s = .next (s.to (((putHub h 1 ((m.lane l).d - 1).toNat (m.setLane l { m.lane l with d := (m.lane l).d - 1, trackSum := 0, trackCount := 0, drifted := true })).raise F.zlStatusDrift).post 0x0B04 [l, unsigned 32 (m.lane l).dCal, unsigned 32 ((m.lane l).d - 1)])))
    ∧ (∀ (l : Nat) (s : State), let m := s.start; Up s → l < 16 → ((m.lane l).step < 8 ∨ (m.lane l).trackCount = 0) → 
      exec (.zlDelayTrack l) s = .next (s.to (m)))
    ∧ (∀ (l h n : Nat) (s : State), let m := s.start; Up s → l < 16 → n < 256 → m.fld F.zlAdaptMarginMin ≤ n → (m.lane l).attach = .bound → (m.lane l).entry = some h → 
      exec (.zlMarginLow l n) s = .next (s.to (putHub h 6 n (m.setLane l { m.lane l with margin := n }))))
    ∧ (∀ (l h n : Nat) (s : State), let m := s.start; Up s → l < 16 → n < 256 → n < m.fld F.zlAdaptMarginMin → (m.lane l).attach = .bound → (m.lane l).entry = some h → oncePerSecond m (m.lane l).marginAt = true → 
      exec (.zlMarginLow l n) s = .next (s.to ((((putHub h 6 n (m.setLane l { m.lane l with margin := n })).raise F.zlStatusMarginLow).modLane l fun x => { x with marginAt := some m.tb.uptime }).post 0x0B05 [l])))
    ∧ (∀ (l n : Nat) (s : State), let m := s.start; Up s → l < 16 → n < 256 → n < m.fld F.zlAdaptMarginMin → (m.lane l).entry = none → oncePerSecond m (m.lane l).marginAt = false → 
      exec (.zlMarginLow l n) s = .next (s.to ((m.setLane l { m.lane l with margin := n }).raise F.zlStatusMarginLow)))
    ∧ (∀ (l n : Nat) (s : State), let m := s.start; Up s → l < 16 → n < 256 → m.fld F.zlAdaptMarginMin ≤ n → (m.lane l).entry = none → 
      exec (.zlMarginLow l n) s = .next (s.to (m.setLane l { m.lane l with margin := n })))
    ∧ (∀ (l n : Nat) (s : State), let m := s.start; Up s → l < 16 → n < 256 → n < m.fld F.zlAdaptMarginMin → (m.lane l).entry = none → oncePerSecond m (m.lane l).marginAt = true → 
      exec (.zlMarginLow l n) s = .next (s.to ((((m.setLane l { m.lane l with margin := n }).raise F.zlStatusMarginLow).modLane l fun x => { x with marginAt := some m.tb.uptime }).post 0x0B05 [l])))
    ∧ (∀ (l : Nat) (s : State), let m := s.start; Up s → laneInUse l m = true → 
      exec (.laneFault l) s = .next (s.to ((let n := putBits m.lanesOk l 1 0; ((enterSafe 5 l ((m.setF F.loopLanesLaneOkLo n).setF F.loopLanesLaneOkHi (n / 2 ^ 32))).raise F.loopStatusLaneFault).post 0x0202 [l]))))
    ∧ (∀ (l : Nat) (s : State), let m := s.start; Up s → laneInUse l m = false → 
      exec (.laneFault l) s = .next (s.to (m)))

/-- In a device that is up, for a frame received on a BOUND lane, REPORT_FRAME answers: a frame that is not a good REPORT of its entry counts in CRC_ERR of the lane; one whose SEQ is not the present period counts in LATE_CNT; one of the present period whose last block arrives after the deadline counts in LATE_CNT and sets LATE; any other is used: outside TWIN at once, its delay sample taken, the fast slots of its submodules produced (not in SAFE), its alarms posted, its reports and marks kept for the pool, its shares for the slow record gathered, SIG_HUB_CLAIM, SIG_HUB_STATUS and SIG_HUB_DISC produced and its ACC_CLAIM noted; in TWIN a RECEIPT is sent and the frame is kept for the agreement. In TWIN a good frame is forwarded as it arrives where its lane is the lowest one-sided one, whatever then becomes of it. While the Stewards are held a good frame counts for link supervision and in the counters only. On a lane that is not BOUND the frame changes nothing. Model's choice: how a row stands for what happens is that of log entries 4, 5, 6, 9. (spec/06_zeldlink.md (R183, R194, R196, R198, R201, R206, R208), spec/09_morkai_pairing.md (R286), spec/15_power_boot_security.md (R443)) -/
def Obligations.ReportFrameIsUsedOrCounted : Prop :=
  (∀ (l h : Nat) (c : Cdr) (b : List Byte) (a z : Int) (s : State), let m := s.start; Up s → l < 16 → (m.lane l).attach = .bound → (m.lane l).entry = some h → m.conv.active = some c → frameOk b = false → 
      exec (.reportFrame l b a z) s = .next (s.to (m.bump (F.zlLaneCrcErr l) 1)))
    ∧ (∀ (l h : Nat) (c : Cdr) (b : List Byte) (a z : Int) (s : State), let m := s.start; Up s → l < 16 → (m.lane l).attach = .bound → (m.lane l).entry = some h → m.conv.active = some c → reportRes m (c.hub h) b z = .badSeq → 
      exec (.reportFrame l b a z) s = .next (s.to ((forwardReport l b (m.setLane l { m.lane l with heard := true })).bump (F.zlLaneLateCnt l) 1)))
    ∧ (∀ (l h : Nat) (c : Cdr) (b : List Byte) (a z : Int) (s : State), let m := s.start; Up s → l < 16 → (m.lane l).attach = .bound → (m.lane l).entry = some h → m.conv.active = some c → reportRes m (c.hub h) b z = .late → 
      exec (.reportFrame l b a z) s = .next (s.to (((forwardReport l b (m.setLane l { m.lane l with heard := true })).bump (F.zlLaneLateCnt l) 1).raise F.zlStatusLate)))
    ∧ (∀ (l h : Nat) (c : Cdr) (b : List Byte) (a z : Int) (s : State), let m := s.start; Up s → l < 16 → (m.lane l).attach = .bound → (m.lane l).entry = some h → m.conv.active = some c → reportRes m (c.hub h) b z = .used → m.pair.inTwin = false → m.dev.state ≠ .safe → 
      exec (.reportFrame l b a z) s = .next (s.to (let u := ulHead b; let hub := c.hub h; let reps := parseReports b u.count; let share := reps.map fun r => if bitOf r.f 22 then none else some r.s;
        let m1 := trackSample l hub.total a (m.setLane l { m.lane l with heard := true });
        let w := takeAlarms h hub b ((hub.sms.zip reps).foldl (fun m p => fastSlots c h p.1 p.2 m) m1);
        let m2 := w.1.modLane l fun x => { x with used := some ⟨reps, w.2⟩, slow := if m.tb.k % 8 = 0 then [share] else if x.slow.length = m.tb.k % 8 then x.slow ++ [share] else [] };
        claimSeen l u.accClaim (putHubRep h 4 ((u.disc.zipIdx).foldl (fun a d => a + d.1 * 256 ^ d.2) 0) (putHubRep h 3 (u.miss + 256 * u.tmo + 65536 * u.flags) (putHubRep h 2 u.accClaim m2))))))
    ∧ (∀ (l h : Nat) (c : Cdr) (b : List Byte) (a z : Int) (s : State), let m := s.start; Up s → l < 16 → (m.lane l).attach = .bound → (m.lane l).entry = some h → m.conv.active = some c → reportRes m (c.hub h) b z = .used → m.pair.inTwin = false → m.dev.state = .safe → 
      exec (.reportFrame l b a z) s = .next (s.to (let u := ulHead b; let hub := c.hub h; let reps := parseReports b u.count; let share := reps.map fun r => if bitOf r.f 22 then none else some r.s;
        let m1 := trackSample l hub.total a (m.setLane l { m.lane l with heard := true });
        let w := takeAlarms h hub b (m1);
        let m2 := w.1.modLane l fun x => { x with used := some ⟨reps, w.2⟩, slow := if m.tb.k % 8 = 0 then [share] else if x.slow.length = m.tb.k % 8 then x.slow ++ [share] else [] };
        claimSeen l u.accClaim (putHubRep h 4 ((u.disc.zipIdx).foldl (fun a d => a + d.1 * 256 ^ d.2) 0) (putHubRep h 3 (u.miss + 256 * u.tmo + 65536 * u.flags) (putHubRep h 2 u.accClaim m2))))))
    ∧ (∀ (l h : Nat) (c : Cdr) (b : List Byte) (a z : Int) (s : State), let m := s.start; Up s → l < 16 → (m.lane l).attach = .bound → (m.lane l).entry = some h → m.conv.active = some c → reportRes m (c.hub h) b z = .used → m.pair.inTwin = true → 
      exec (.reportFrame l b a z) s = .next (s.to ((sendReceipt l h b (trackSample l (c.hub h).total a (forwardReport l b (m.setLane l { m.lane l with heard := true })))).modLane l fun x => { x with pend := some b })))
    ∧ (∀ (l h : Nat) (c : Cdr) (b : List Byte) (a z : Int) (s : State), let m := s.start; m.alive = true → m.pwr.held = true → l < 16 → (m.lane l).attach = .bound → (m.lane l).entry = some h → m.conv.active = some c → reportRes m (c.hub h) b z = .used → 
      exec (.reportFrame l b a z) s = .next (s.to (m.setLane l { m.lane l with heard := true })))
    ∧ (∀ (l h : Nat) (c : Cdr) (b : List Byte) (a z : Int) (s : State), let m := s.start; m.alive = true → m.pwr.held = true → l < 16 → (m.lane l).attach = .bound → (m.lane l).entry = some h → m.conv.active = some c → reportRes m (c.hub h) b z = .badSeq → 
      exec (.reportFrame l b a z) s = .next (s.to ((m.setLane l { m.lane l with heard := true }).bump (F.zlLaneLateCnt l) 1)))
    ∧ (∀ (l h : Nat) (c : Cdr) (b : List Byte) (a z : Int) (s : State), let m := s.start; m.alive = true → m.pwr.held = true → l < 16 → (m.lane l).attach = .bound → (m.lane l).entry = some h → m.conv.active = some c → frameOk b = false → 
      exec (.reportFrame l b a z) s = .next (s.to (m.bump (F.zlLaneCrcErr l) 1)))
    ∧ (∀ (l : Nat) (b : List Byte) (a z : Int) (s : State), let m := s.start; Up s → l < 16 → (m.lane l).attach ≠ .bound → 
      exec (.reportFrame l b a z) s = .next (s.to (m)))

/-- In a device that is up: a coast timeout while acquiring or locked sets SYNC to coasting at the coast rate and posts its event; an edge on PPSI within 0.9 s of the last one counts as a glitch and is no sample, a first one is kept and gives the servo its distance from the nearest whole second, and one that is too short or of another source changes nothing; PPSO rises within PPSO_WIDTH from a whole second plus PPSO_OFS while the time is valid, and falls outside it, in SAFE and with the Stewards held too; the master of the selected port is dropped and the selection made anew; lock of the synthesizer ends a relock on its entry, whose FMAX holds since the relock began; loss of lock clears TIME_VALID; one differing copy of the counter is replaced by the vote, with VOTE_FIX set and counted, and three differing copies clear TIME_VALID; the band edge sets its flag and posts its event. Model's choice: how a row stands for what happens is that of log entries 4, 5, 6, 9. (spec/07_timebase.md (R211, R222, R223, R225, R229, R232, R234)) -/
def Obligations.TimebaseStepsComplete : Prop :=
  (∀ (s : State), let m := s.start; Up s → (m.tb.sync = .acquiring ∨ m.tb.sync = .locked) → 
      exec .tbCoastTimeout s = .next (s.to (({ m with tb := { m.tb with sync := .coasting, inRun := 0, outRun := 0 }.putY m.tb.i }).post 0x0503 [])))
    ∧ (∀ (at16 w a : Nat) (s : State), let m := s.start; Up s → 100 ≤ w → m.tb.src = .ppsi → m.tb.ppsiAt = some a → ((m.tb.uptime : Int) + (at16 / 65536 : Nat) - m.now).toNat < a + 900000000 → 
      exec (.ppsiEdge at16 w) s = .next (s.to (m.bump F.tbCountPpsGlitch 1)))
    ∧ (∀ (at16 w : Nat) (s : State), let m := s.start; Up s → 100 ≤ w → m.tb.src = .ppsi → m.tb.ppsiAt = none → 
      exec (.ppsiEdge at16 w) s = .next (s.to (let r := ((at16 : Int) - m.sfld F.tbPpsPpsiDelay (-10000) 10000 * 65536) % (1000000000 * 65536); servoSample (if 1000000000 * 65536 < 2 * r then r - 1000000000 * 65536 else r) 1000000000 m.tb.secondsKnown { m with tb := { m.tb with ppsiAt := some ((m.tb.uptime : Int) + (at16 / 65536 : Nat) - m.now).toNat } })))
    ∧ (∀ (at16 w : Nat) (s : State), let m := s.start; Up s → (w < 100 ∨ m.tb.src ≠ .ppsi) → 
      exec (.ppsiEdge at16 w) s = .next (s.to (m)))
    ∧ (∀ (ns : Nat) (s : State), let m := s.start; m.alive = true → m.tb.timeValid = true → ((m.now + ns : Nat) - m.sfld F.tbPpsPpsoOfs (-10000) 10000) % 1000000000 < (1000 * m.fld F.tbPpsPpsoWidth : Nat) → m.tb.ppso = false → 
      exec (.ppsoPulse ns) s = .next (s.to ({ m.send (.ppso true) with tb := { m.tb with ppso := true } })))
    ∧ (∀ (ns : Nat) (s : State), let m := s.start; m.alive = true → (m.tb.timeValid = false ∨ (1000 * m.fld F.tbPpsPpsoWidth : Nat) ≤ ((m.now + ns : Nat) - m.sfld F.tbPpsPpsoOfs (-10000) 10000) % 1000000000) → m.tb.ppso = true → 
      exec (.ppsoPulse ns) s = .next (s.to ({ m.send (.ppso false) with tb := { m.tb with ppso := false } })))
    ∧ (∀ (p : Nat) (s : State), let m := s.start; Up s → m.tb.ptp.sel = some p → 
      exec .ptpPortFailover s = .next (s.to (reselect (m.modPtp p fun x => { x with master := none, sync := none }))))
    ∧ (∀ (n : Nat) (s : State), let m := s.start; Up s → m.tb.relock = some n → 
      exec .pllLockDetected s = .next (s.to ({ m with tb := { m.tb with band := n, relock := none, pllLock := true } })))
    ∧ (∀ (s : State), let m := s.start; Up s → m.tb.relock = none → 
      exec .pllLockDetected s = .next (s.to ({ m with tb := { m.tb with pllLock := true } })))
    ∧ (∀ (s : State), let m := s.start; Up s → 
      exec .pllLockLost s = .next (s.to (clearTimeValid { m with tb := { m.tb with pllLock := false } })))
    ∧ (∀ (a b c : Nat) (s : State), let m := s.start; Up s → ¬(a = b ∧ b = c) → (a = b ∨ a = c ∨ b = c) → 
      exec (.timeCounterDisagree a b c) s = .next (s.to ((({ m with tb := m.tb.setTime (vote a b c) }).raise F.tbStatusVoteFix).bump F.tbCountVoteFixCnt 1)))
    ∧ (∀ (a b c : Nat) (s : State), let m := s.start; Up s → a ≠ b → a ≠ c → b ≠ c → 
      exec (.timeCounterDisagree a b c) s = .next (s.to (clearTimeValid { m with tb := { m.tb with timeA := a, timeB := b, timeC := c } })))
    ∧ (∀ (s : State), let m := s.start; Up s → 
      exec .tbBandEdge s = .next (s.to ((m.raise F.tbStatusBandEdge).post 0x0506 [])))

/-- In a device that is up, on a port in use and for a message of its domain at its own destination, which the port takes: an Announce on a port without a master makes its sender the master of the port, and the selection is made anew; a two-step Sync of the followed master is kept for its Follow_Up, and a one-step Sync gives its sample at once; the Follow_Up gives the sample; a Pdelay_Req is answered by a Pdelay_Resp put into the queue of the port; a matching one-step Pdelay_Resp gives the link delay, a two-step one waits for its follow-up, which gives it. A message of another domain, or one the port does not take, changes nothing. Pdelay_Req enters the queue of its port in use with the next SEQ; Announce and Sync do so while the device is master, and while it is not nothing is queued; on a port not in use nothing changes. Model's choice: how a row stands for what happens is that of log entries 4, 5, 6, 9. Clauses rest on the model's own choices or readings of log entries 100, 210, 255. (spec/07_timebase.md (R228, R229), spec/11_station_networks.md (R337, R339)) -/
def Obligations.PtpMessagesComplete : Prop :=
  (∀ (p x : Nat) (a : Announce) (s : State), let m := s.start; Up s → p < 2 → ptpTakes m p x (.announce (m.fld F.tbCtrlDomain) a) = true → bitOf m.tb.ports p = true → (m.tb.ptp.port p).master = none → 
      exec (.ptpMessage ⟨p, x⟩ (.announce (s.start.fld F.tbCtrlDomain) a)) s = .next (s.to (reselect (m.modPtp p fun x => { x with master := some a }))))
    ∧ (∀ (p x src seq o rx : Nat) (c li : Int) (s : State), let m := s.start; Up s → p < 2 → ptpTakes m p x (.sync (m.fld F.tbCtrlDomain) src seq true o c rx li) = true → bitOf m.tb.ports p = true → followed m p src = true → 
      exec (.ptpMessage ⟨p, x⟩ (.sync (s.start.fld F.tbCtrlDomain) src seq true o c rx li)) s = .next (s.to (m.modPtp p fun x => { x with sync := some ⟨src, seq, rx, c, li⟩ })))
    ∧ (∀ (p x src seq o rx : Nat) (c li : Int) (s : State), let m := s.start; Up s → p < 2 → ptpTakes m p x (.sync (m.fld F.tbCtrlDomain) src seq false o c rx li) = true → bitOf m.tb.ports p = true → followed m p src = true → 
      exec (.ptpMessage ⟨p, x⟩ (.sync (s.start.fld F.tbCtrlDomain) src seq false o c rx li)) s = .next (s.to (ptpSample p ((rx : Int) - o - c) li m)))
    ∧ (∀ (p x src seq o : Nat) (c : Int) (y : SyncPend) (s : State), let m := s.start; Up s → p < 2 → ptpTakes m p x (.followUp (m.fld F.tbCtrlDomain) src seq o c) = true → bitOf m.tb.ports p = true → (m.tb.ptp.port p).sync = some y → y.src = src → y.seq = seq → 
      exec (.ptpMessage ⟨p, x⟩ (.followUp (s.start.fld F.tbCtrlDomain) src seq o c)) s = .next (s.to (ptpSample p ((y.rx : Int) - o - c - y.corr) y.logInterval (m.modPtp p fun x => { x with sync := none }))))
    ∧ (∀ (p x seq rx : Nat) (s : State), let m := s.start; Up s → p < 2 → ptpTakes m p x (.pdelayReq (m.fld F.tbCtrlDomain) seq rx) = true → bitOf m.tb.ports p = true → 
      exec (.ptpMessage ⟨p, x⟩ (.pdelayReq (s.start.fld F.tbCtrlDomain) seq rx)) s = .next (s.to (ptpQueue p (rx / 65536) ⟨.pdelayResp, m.fld F.tbCtrlDomain, seq, none, rx, 0⟩ m)))
    ∧ (∀ (p x seq t2 rx : Nat) (c : Int) (y : PdelayPend) (s : State), let m := s.start; Up s → p < 2 → ptpTakes m p x (.pdelayResp (m.fld F.tbCtrlDomain) seq false t2 c rx) = true → bitOf m.tb.ports p = true → (m.tb.ptp.port p).pdelay = some y → y.seq = seq → 
      exec (.ptpMessage ⟨p, x⟩ (.pdelayResp (s.start.fld F.tbCtrlDomain) seq false t2 c rx)) s = .next (s.to (m.modPtp p fun x => { x with pdelay := none, linkDelay := roundDiv ((rx : Int) - y.t1 - c) 2 })))
    ∧ (∀ (p x seq t2 rx : Nat) (c : Int) (y : PdelayPend) (s : State), let m := s.start; Up s → p < 2 → ptpTakes m p x (.pdelayResp (m.fld F.tbCtrlDomain) seq true t2 c rx) = true → bitOf m.tb.ports p = true → (m.tb.ptp.port p).pdelay = some y → y.seq = seq → 
      exec (.ptpMessage ⟨p, x⟩ (.pdelayResp (s.start.fld F.tbCtrlDomain) seq true t2 c rx)) s = .next (s.to (m.modPtp p fun x => { x with pdelay := some { y with resp := some (rx, t2, c) } })))
    ∧ (∀ (p x seq t2 t3 t4 : Nat) (c d : Int) (y : PdelayPend) (s : State), let m := s.start; Up s → p < 2 → ptpTakes m p x (.pdelayRespFollowUp (m.fld F.tbCtrlDomain) seq t3 c) = true → bitOf m.tb.ports p = true → (m.tb.ptp.port p).pdelay = some y → y.seq = seq → y.resp = some (t4, t2, d) → 
      exec (.ptpMessage ⟨p, x⟩ (.pdelayRespFollowUp (s.start.fld F.tbCtrlDomain) seq t3 c)) s = .next (s.to (m.modPtp p fun x => { x with pdelay := none, linkDelay := roundDiv ((t4 : Int) - y.t1 - ((t3 : Int) - t2) - d - c) 2 })))
    ∧ (∀ (p x : Nat) (a : PtpMsg) (s : State), let m := s.start; Up s → (ptpTakes m p x a = false ∨ a.domain ≠ some (m.fld F.tbCtrlDomain) ∨ bitOf m.tb.ports p = false) → 
      exec (.ptpMessage ⟨p, x⟩ a) s = .next (s.to (m)))
    ∧ (∀ (p a : Nat) (s : State), let m := s.start; Up s → p < 2 → bitOf m.tb.ports p = true → 
      exec (.ptpMessageTx p .pdelayReq a) s = .next (s.to ((let m1 := reselect m; (queueFrame (2 ^ p) false (fun _ _ => ⟨.ptp, a, m1.net.txOrder, none, false, 0, 0, .ptp ⟨.pdelayReq, m1.fld F.tbCtrlDomain, (m1.tb.ptp.port p).txSeq, none, 0, 0⟩⟩) m1).modPtp p fun x => { x with txSeq := (x.txSeq + 1) % 65536 }))))
    ∧ (∀ (p a : Nat) (s : State), let m := s.start; Up s → p < 2 → bitOf m.tb.ports p = true → (reselect m).tb.ptp.isMaster = true → 
      exec (.ptpMessageTx p .announce a) s = .next (s.to ((let m1 := reselect m; (queueFrame (2 ^ p) false (fun _ _ => ⟨.ptp, a, m1.net.txOrder, none, false, 0, 0, .ptp ⟨.announce, m1.fld F.tbCtrlDomain, (m1.tb.ptp.port p).txSeq, some (ownAnnounce m1 p), 0, 0⟩⟩) m1).modPtp p fun x => { x with txSeq := (x.txSeq + 1) % 65536 }))))
    ∧ (∀ (p a : Nat) (s : State), let m := s.start; Up s → p < 2 → bitOf m.tb.ports p = true → (reselect m).tb.ptp.isMaster = true → 
      exec (.ptpMessageTx p .sync a) s = .next (s.to ((let m1 := reselect m; (queueFrame (2 ^ p) false (fun _ _ => ⟨.ptp, a, m1.net.txOrder, none, false, 0, 0, .ptp ⟨.sync, m1.fld F.tbCtrlDomain, (m1.tb.ptp.port p).txSeq, none, 0, 0⟩⟩) m1).modPtp p fun x => { x with txSeq := (x.txSeq + 1) % 65536 }))))
    ∧ (∀ (p a : Nat) (s : State), let m := s.start; Up s → p < 2 → bitOf m.tb.ports p = true → (reselect m).tb.ptp.isMaster = false → 
      exec (.ptpMessageTx p .announce a) s = .next (s.to (reselect m)))
    ∧ (∀ (p a : Nat) (s : State), let m := s.start; Up s → p < 2 → bitOf m.tb.ports p = true → (reselect m).tb.ptp.isMaster = false → 
      exec (.ptpMessageTx p .sync a) s = .next (s.to (reselect m)))
    ∧ (∀ (p a : Nat) (s : State), let m := s.start; Up s → p < 2 → bitOf m.tb.ports p = false → 
      exec (.ptpMessageTx p .pdelayReq a) s = .next (s.to (m)))
    ∧ (∀ (p a : Nat) (s : State), let m := s.start; Up s → p < 2 → bitOf m.tb.ports p = false → 
      exec (.ptpMessageTx p .announce a) s = .next (s.to (m)))
    ∧ (∀ (p a : Nat) (s : State), let m := s.start; Up s → p < 2 → bitOf m.tb.ports p = false → 
      exec (.ptpMessageTx p .sync a) s = .next (s.to (m)))

/-- In a device that is out of reset with no relock in progress, PERIOD_BOUNDARY answers the next state. In READY, RUN and SAFE: a block of all that SAFE owes, what the surroundings show, the servo of VCORE, an image or a role due, time and its band, a swap, the link events, converters, host service, the pair, networks, outputs, breakpoints and the check of the voted fields follow in this order; then the Sump posts, the ring-state block is written, a doorbell read starts where the rings are served, and the next intake opens. In BOOT and RECOVERY it does what the ROM does, and while the Stewards are held what goes on then, the check of the voted fields included. INTAKE answers the next state: in READY, RUN and SAFE the trip inputs, the inputs, the reports, the commands in their order, the snapshot and the start of the period; in BOOT and RECOVERY the commands of the ROM; while the Stewards are held, measurement, the safety subsystem, ageing and Echo; a second INTAKE in the same period changes nothing. Out of operation or in a relock both change nothing. Model's choice: how a row stands for what happens is that of log entries 4, 5, 6, 9. Clauses rest on the model's own choices or readings of log entries 29, 30, 96, 155. (spec/02_loop_engine.md (R53, R54), spec/08_host_rings.md (R246, R267, R272), spec/15_power_boot_security.md (R443, R450)) -/
def Obligations.PeriodStepsComplete : Prop :=
  (∀ (env : BoundaryEnv) (s : State), let m := s.start; m.alive = true → m.tb.relock = none → m.pwr.held = false → m.inState [.boot, .recovery] = false → 
      exec (.periodBoundary env) s = .next (s.to (let m1 := vcoreServo (attnBoundary (boundaryEnv env (flowPeriodEnds (lateBlockAll m)))); let m2 := swapBoundary (roleBoundary (bandBoundary (sourceBoundary (timeBoundary (imageBoundary m1)))));
        let m3 := serviceBoundary (adcBoundary (laneBoundary (linkEvents m2))); let m4 := pairBoundary (mayDrive (flowPeriodEnds (lateBlockAll m))) m3;
        let m5 := bpBoundary (safetyBoundary (pwmBoundary ((List.range 2).foldl canBoundary (netBoundary m4))));
        let m6 := rsUpdate (sumpPost (sleepBoundary (voteBoundary (env.upsets.foldl upsetWord m5)))); let m7 := if m6.service then m6.send (.doorbellRead m6.host.dbAddr) else m6; { m7 with dev := { m7.dev with intakeDone := false } })))
    ∧ (∀ (env : BoundaryEnv) (s : State), let m := s.start; m.alive = true → m.tb.relock = none → m.pwr.held = false → m.inState [.boot, .recovery] = true → 
      exec (.periodBoundary env) s = .next (s.to (let m1 := serviceBoundary (timeBoundary (attnBoundary (boundaryEnv env (flowPeriodEnds (lateBlockAll m))))); let m6 := rsUpdate (sumpPost (voteBoundary (env.upsets.foldl upsetWord m1)));
        let m7 := if m6.service then m6.send (.doorbellRead m6.host.dbAddr) else m6; { m7 with dev := { m7.dev with intakeDone := false } })))
    ∧ (∀ (env : BoundaryEnv) (s : State), let m := s.start; m.alive = true → m.tb.relock = none → m.pwr.held = true → 
      exec (.periodBoundary env) s = .next (s.to (let m1 := adcBoundary (laneBoundary (linkEvents (timeBoundary (boundaryEnv env (flowPeriodEnds (lateBlockAll m)))))); let m6 := voteBoundary (env.upsets.foldl upsetWord m1);
        let m7 := if m6.service then m6.send (.doorbellRead m6.host.dbAddr) else m6; { m7 with dev := { m7.dev with intakeDone := false } })))
    ∧ (∀ (env : BoundaryEnv) (s : State), let m := s.start; (m.alive = false ∨ m.tb.relock.isSome = true) → 
      exec (.periodBoundary env) s = .next (s.to (m)))
    ∧ (∀ (trips q : Nat) (s : State), let m := s.start; m.alive = true → m.tb.relock = none → m.dev.intakeDone = false → m.pwr.held = false → m.inState [.boot, .recovery] = false → 
      exec (.intake trips q) s = .next (s.to (let m1 := haltIntake (finishCommit { m with pwm := { m.pwm with active := trips % 256 } });
        let m2 := deposedStops (slowRecordWrite (agreeReports (takeInputs (swapBoundary (countHeartbeats m1))))); let m3 := expiries (cancels (swapDone (periodDone (abortSafe (mapLaunches m2)))));
        let m4 := settleEffects (effects (engineEvaluates m2)) m3.host.accepted.length [] m3;
        let m5 := startPeriod q (engineEvaluates m2) (echoIntake ((List.range 2).foldl canSnapshot (netSnapshot (noteHalts m4)))); { m5 with dev := { m5.dev with intakeDone := true } })))
    ∧ (∀ (trips q : Nat) (s : State), let m := s.start; m.alive = true → m.tb.relock = none → m.dev.intakeDone = false → m.pwr.held = false → m.inState [.boot, .recovery] = true → 
      exec (.intake trips q) s = .next (s.to (let m1 := expiries (cancels (swapDone (periodDone (abortSafe (mapLaunches m))))); let m2 := settleEffects effectsRom m1.host.accepted.length [] m1;
        { m2 with dev := { m2.dev with intakeDone := true } })))
    ∧ (∀ (trips q : Nat) (s : State), let m := s.start; m.alive = true → m.tb.relock = none → m.dev.intakeDone = false → m.pwr.held = true → 
      exec (.intake trips q) s = .next (s.to (let m1 := closeSafe q (echoIntake (modeIdle (ageGallery (safetyIntake (measIntake m))))); { m1 with dev := { m1.dev with intakeDone := true } })))
    ∧ (∀ (trips q : Nat) (s : State), let m := s.start; (m.alive = false ∨ m.tb.relock.isSome = true ∨ m.dev.intakeDone = true) → 
      exec (.intake trips q) s = .next (s.to (m)))

/-- In a device that is up with a period under evaluation that is not a stepped one: OUTPUT_COMMIT that comes within the graph budget commits the outputs and states of the evaluation at once, then makes the cut of the period and sends its frames; one that comes later abandons the period as LOOP_OVERRUN does. LOOP_OVERRUN abandons the period, its outputs and states kept, and makes the cut as of an abandoned period, unless a second abandoned period in a row has entered SAFE, where the BLOCK_ALL frames go instead. With no period under evaluation OUTPUT_COMMIT ends a stepped commit where one waits, LOOP_OVERRUN does not, and both send the BLOCK_ALL frames that are due in SAFE and change nothing else. Model's choice: how a row stands for what happens is that of log entries 4, 5, 6, 9. Clauses rest on the model's own choices or readings of log entries 86, 177. (spec/02_loop_engine.md (R55, R58, R60), spec/05_arm_energy_and_flowstone.md (R164), spec/06_zeldlink.md (R189)) -/
def Obligations.EvaluationEndsInCommitOrOverrun : Prop :=
  (∀ (ns q : Nat) (s : State), let m := s.start; Up s → evaluating m = true → ns ≤ graphBudget m.tb.p → 
      exec (.outputCommit ns q) s = .next (s.to (closePeriod q false (stepDigest (bpCommit (commitAt ns (keepUndo m)))))))
    ∧ (∀ (ns q : Nat) (s : State), let m := s.start; Up s → evaluating m = true → graphBudget m.tb.p < ns → (abandon true m).inState [.safe] = false → 
      exec (.outputCommit ns q) s = .next (s.to (closePeriod q true (skipDigest (abandon true m)))))
    ∧ (∀ (ns q : Nat) (s : State), let m := s.start; Up s → evaluating m = true → graphBudget m.tb.p < ns → (abandon true m).inState [.safe] = true → 
      exec (.outputCommit ns q) s = .next (s.to (closeSafe q (abandon true m))))
    ∧ (∀ (ns q : Nat) (s : State), let m := s.start; Up s → evaluating m = false → 
      exec (.outputCommit ns q) s = .next (s.to (closeSafe q (finishCommit m))))
    ∧ (∀ (q : Nat) (s : State), let m := s.start; Up s → evaluating m = true → (abandon true m).inState [.safe] = false → 
      exec (.loopOverrun q) s = .next (s.to (closePeriod q true (skipDigest (abandon true m)))))
    ∧ (∀ (q : Nat) (s : State), let m := s.start; Up s → evaluating m = true → (abandon true m).inState [.safe] = true → 
      exec (.loopOverrun q) s = .next (s.to (closeSafe q (abandon true m))))
    ∧ (∀ (q : Nat) (s : State), let m := s.start; Up s → evaluating m = false → 
      exec (.loopOverrun q) s = .next (s.to (closeSafe q m)))

/-- REPLACEMENT_EVAL completes. Where the graph is committed with re-placement enabled, in READY or RUN, and the placement on the measured step times is at most nine tenths of the present one and fits the budget, the next state has the graph at its new places, with the homes and steps of that placement and the count one higher, REPLACED set and its event posted, and BANK_FULL set where a bank was full. Where it gains less, or re-placement is not enabled, nothing changes. In every case the Gallery, the block states, the sticky flags and the staged graph are as before; the committed graph is unchanged, or only its placement, the homes of its entries, its step list and its count of re-placements differ, the count is one higher (saturating), and its worst-case completion time is within the budget of the period. Model's choice: how a row stands for what happens is that of log entries 4, 5, 6, 9. (spec/02_loop_engine.md (R51, R52, R63)) -/
def Obligations.ReplacementMovesBlocksOnly : Prop :=
  (∀ (times : List Nat) (s : State), ∃ t, exec (.replacementEval times) s = .next t ∧ t.pending = s.pending
      ∧ t.m.gal = s.m.gal ∧ t.m.loop.states = s.m.loop.states ∧ t.m.loop.sticky = s.m.loop.sticky ∧ t.m.loop.staged = s.m.loop.staged
      ∧ (t.m.loop.graph = s.m.loop.graph ∨ ∃ g g1, s.m.loop.graph = some g ∧ t.m.loop.graph = some g1 ∧ g1.replacements = incSat 32 g.replacements 1
          ∧ twc g1.steps ≤ graphBudget s.m.tb.p ∧ g1 = { g with places := g1.places, homes := g1.homes, steps := g1.steps, replacements := g1.replacements }))
    ∧ (∀ (times : List Nat) (s : State) (g : Graph) (c : Cdr) (new : List (Nat × Place)), let m := s.start; Up s → m.loop.graph = some g → m.conv.active = some c → g.replaceEn = true → m.inState [.ready, .run] = true →
      runPlacement g.blocks (stepsOf g.blocks g.params fun r => c.blockEnv r m.tb.p) ((g.blocks.zipIdx).map fun x => (x.2, predsOf (writersOf g.blocks) x.1)) g.order m.lanesOk (fun l => times.getD l 1) (remotePorts (homeOf c g.homes)) = .ok new →
      let lanes := (placeList g.blocks.length new).map Place.lane; let h := homeAll c g.blocks (fun i => lanes.getD i 0) g.homes;
      let cur := placeOn c g m.tb.p m.lanesOk (fun l => times.getD l 1) g.homes fun i => (g.places.getD i ⟨0, 0, 0⟩).lane;
      let costed := placeOn c g m.tb.p m.lanesOk (fun _ => 1) h.1 fun i => lanes.getD i 0; let steps := pathLength (fun _ => 1) costed;
      pathLength (fun l => times.getD l 1) new * 10 ≤ pathLength (fun l => times.getD l 1) cur * 9 → twc steps ≤ graphBudget m.tb.p →
      let m1 := ({ m with loop := { m.loop with graph := some { g with places := placeList g.blocks.length costed, homes := h.1, steps := steps, replacements := incSat 32 g.replacements 1 } } }.raise F.loopStatusReplaced).post 0x0203 [];
      exec (.replacementEval times) s = .next (s.to (if h.2 then m1.raise F.flowStatusBankFull else m1)))
    ∧ (∀ (times : List Nat) (s : State) (g : Graph) (c : Cdr) (new : List (Nat × Place)), let m := s.start; Up s → m.loop.graph = some g → m.conv.active = some c → g.replaceEn = true → m.inState [.ready, .run] = true →
      runPlacement g.blocks (stepsOf g.blocks g.params fun r => c.blockEnv r m.tb.p) ((g.blocks.zipIdx).map fun x => (x.2, predsOf (writersOf g.blocks) x.1)) g.order m.lanesOk (fun l => times.getD l 1) (remotePorts (homeOf c g.homes)) = .ok new →
      let lanes := (placeList g.blocks.length new).map Place.lane; let h := homeAll c g.blocks (fun i => lanes.getD i 0) g.homes;
      let cur := placeOn c g m.tb.p m.lanesOk (fun l => times.getD l 1) g.homes fun i => (g.places.getD i ⟨0, 0, 0⟩).lane;
      let costed := placeOn c g m.tb.p m.lanesOk (fun _ => 1) h.1 fun i => lanes.getD i 0; let steps := pathLength (fun _ => 1) costed;
      (pathLength (fun l => times.getD l 1) cur * 9 < pathLength (fun l => times.getD l 1) new * 10 ∨ graphBudget m.tb.p < twc steps) →
      exec (.replacementEval times) s = .next (s.to m))
    ∧ (∀ (times : List Nat) (g : Graph) (s : State), let m := s.start; Up s → m.loop.graph = some g → (g.replaceEn = false ∨ m.inState [.ready, .run] = false) → 
      exec (.replacementEval times) s = .next (s.to (m)))

/-- Where the rings are served: a doorbell page takes the indices of its good words and posts what waited for room; a descriptor fetched from the ring whose turn it is, of an unknown opcode, is rejected with MALFORMED, one that fails a check is rejected with that check, one that the ROM does not serve with STATE, one that passes is journalled with the partner where the pair exchanges, and else is consumed and accepted with F the next boundary plus the periods its transfer is slow; from a ring whose turn it is not nothing is fetched; a read fault sets READ_FAULT, stops the fetching of its ring in the period and posts its event, the first of its run, a further one counts. A loss of the link or of Bus Master Enable, or D3, ends the reach of the host at once; the attention pulse ends. Model's choice: how a row stands for what happens is that of log entries 4, 5, 6, 9, 36. Clauses rest on the model's own choices or readings of log entry 41. (spec/08_host_rings.md (R241, R242, R246, R250, R251, R252, R270), spec/09_morkai_pairing.md (R292)) -/
def Obligations.HostServiceStepsComplete : Prop :=
  (∀ (ws : List Nat) (s : State), let m := s.start; m.service = true → 
      exec (.doorbellRead ws) s = .next (s.to (quoteDrain ((List.range 2).foldl (fun m ch => drainHold ch (m.canCh ch).hold m) (echoPost 16 (doorbellWords ws m))))))
    ∧ (∀ (ws : List Nat) (s : State), let m := s.start; m.service = false → 
      exec (.doorbellRead ws) s = .next (s.to (m)))
    ∧ (∀ (r slow : Nat) (b buf : List Byte) (s : State), let m := s.start; fetchable r m = true → infoOf (fieldLE b 0 2) = none → 
      exec (.descriptorFetch r b buf slow) s = .next (s.to (rejectCmd ((parseDesc r b buf).cmd (fieldLE b 0 2)) stMALFORMED (if fieldLE b 8 8 = (m.ring r).nextSeq then 0 else (m.ring r).nextSeq % 2 ^ 32) { m with host := { m.host with fetched := r :: m.host.fetched } })))
    ∧ (∀ (r slow v w : Nat) (b buf : List Byte) (info : CmdInfo) (s : State), let m := s.start; fetchable r m = true → infoOf (fieldLE b 0 2) = some info → checkCmd info (parseDesc r b buf).resv ((parseDesc r b buf).cmd (fieldLE b 0 2)) { m with host := { m.host with fetched := r :: m.host.fetched } } = some (v, w) → 
      exec (.descriptorFetch r b buf slow) s = .next (s.to (rejectCmd ((parseDesc r b buf).cmd (fieldLE b 0 2)) v w { m with host := { m.host with fetched := r :: m.host.fetched } })))
    ∧ (∀ (r slow : Nat) (b buf : List Byte) (info : CmdInfo) (s : State), let m := s.start; fetchable r m = true → infoOf (fieldLE b 0 2) = some info → checkCmd info (parseDesc r b buf).resv ((parseDesc r b buf).cmd (fieldLE b 0 2)) { m with host := { m.host with fetched := r :: m.host.fetched } } = none → romRefuses ((parseDesc r b buf).cmd (fieldLE b 0 2)) { m with host := { m.host with fetched := r :: m.host.fetched } } = true → 
      exec (.descriptorFetch r b buf slow) s = .next (s.to (rejectCmd ((parseDesc r b buf).cmd (fieldLE b 0 2)) stSTATE 0 { m with host := { m.host with fetched := r :: m.host.fetched } })))
    ∧ (∀ (r slow : Nat) (b buf : List Byte) (info : CmdInfo) (s : State), let m := s.start; fetchable r m = true → infoOf (fieldLE b 0 2) = some info → checkCmd info (parseDesc r b buf).resv ((parseDesc r b buf).cmd (fieldLE b 0 2)) { m with host := { m.host with fetched := r :: m.host.fetched } } = none → romRefuses ((parseDesc r b buf).cmd (fieldLE b 0 2)) { m with host := { m.host with fetched := r :: m.host.fetched } } = false → m.pair.exchanging = true → m.pair.server = true → m.pair.role ≠ .shadow → 
      exec (.descriptorFetch r b buf slow) s = .next (s.to ((let m1 := consume r { m with host := { m.host with fetched := r :: m.host.fetched } }; sendJournal ((parseDesc r b buf).cmd (fieldLE b 0 2)) { m1 with host := { m1.host with jackWait := m1.host.jackWait ++ [((parseDesc r b buf).cmd (fieldLE b 0 2))] } }))))
    ∧ (∀ (r slow : Nat) (b buf : List Byte) (info : CmdInfo) (s : State), let m := s.start; fetchable r m = true → infoOf (fieldLE b 0 2) = some info → checkCmd info (parseDesc r b buf).resv ((parseDesc r b buf).cmd (fieldLE b 0 2)) { m with host := { m.host with fetched := r :: m.host.fetched } } = none → romRefuses ((parseDesc r b buf).cmd (fieldLE b 0 2)) { m with host := { m.host with fetched := r :: m.host.fetched } } = false → m.pair.exchanging = false → 
      exec (.descriptorFetch r b buf slow) s = .next (s.to (acceptCmd ((parseDesc r b buf).cmd (fieldLE b 0 2)) (m.tb.k + 1 + slow) (consume r { m with host := { m.host with fetched := r :: m.host.fetched } }))))
    ∧ (∀ (r slow : Nat) (b buf : List Byte) (s : State), let m := s.start; fetchable r m = false → 
      exec (.descriptorFetch r b buf slow) s = .next (s.to (m)))
    ∧ (∀ (w : HostRead) (a : Nat) (s : State), let m := s.start; Up s → m.service = true → m.host.faultAt = none → m.pair.inTwin = false → 
      exec (.hostReadFault w a) s = .next (s.to ((let m1 := ({ m with host := { m.host with readStuck := w.ring?.toList ++ m.host.readStuck } }.raise F.hostStatusReadFault).post 0x0F01 (w64 a); { m1 with host := { m1.host with faultAt := some m.tb.k }, pair := { m1.pair with readFaults := 1 } }))))
    ∧ (∀ (w : HostRead) (a : Nat) (s : State), let m := s.start; Up s → m.service = true → 0 < m.tb.k → m.host.faultAt = some (m.tb.k - 1) → m.pair.inTwin = false → 
      exec (.hostReadFault w a) s = .next (s.to ((let m1 := { m with host := { m.host with readStuck := w.ring?.toList ++ m.host.readStuck } }.raise F.hostStatusReadFault; { m1 with host := { m1.host with faultAt := some m.tb.k }, pair := { m1.pair with readFaults := m.pair.readFaults + 1 } }))))
    ∧ (∀ (w : HostRead) (a : Nat) (s : State), let m := s.start; Up s → m.service = false → 
      exec (.hostReadFault w a) s = .next (s.to (m)))
    ∧ (∀ (up bm : Bool) (s : State), let m := s.start; 
      exec (.pcieLinkChange up bm) s = .next (s.to ({ m with host := { m.host with linkUp := up, busMaster := bm, reach := m.host.reach && up && bm } })))
    ∧ (∀ (d3 : Bool) (s : State), let m := s.start; 
      exec (.pciePowerState d3) s = .next (s.to ({ m with host := { m.host with d3 := d3, reach := m.host.reach && !d3 } })))
    ∧ (∀ (s : State), let m := s.start; 
      exec .attnPulseEnd s = .next (s.to ({ m with host := { m.host with attnPulse := false } })))

/-- On a path in service of a unit that is up, the first copy of a good message of its type is noted as taken and has its effect: a CUT of the present period is kept, and ends the wait where the downlink is held for it, and outside TWIN its digest is verified; an AGREE before the intake adds its records to the partner stream; a RECEIPT and a FORWARD of the present period are kept; the last JOURNAL segment of a command completes its copy and is answered by JACK, and a change record at a shadow replaces the image to come; a JACK lets the waiting command be accepted where its ACCEPTED can be written, for the present boundary where it comes 100 ns before the intake and else for the next, and where it cannot be written the command waits for room; an ACCEPTED POSTED enters its command with its F, a terminal one marks its SEQ, and what this unit held of its command is dropped; a chunk of a copy is kept by its number. A CUT, AGREE, RECEIPT or FORWARD of another period has no effect. A frame that is not good counts in CRC_ERR of its path; a further copy changes nothing. Model's choice: how a row stands for what happens is that of log entries 4, 5, 6, 9. Clauses rest on the model's own choices or readings of log entries 111, 119. (spec/09_morkai_pairing.md (R277, R278, R279, R284, R285, R286, R289, R292)) -/
def Obligations.PairExchangeMessagesComplete : Prop :=
  (∀ (p : Nat) (b : List Byte) (q : Nat) (s : State), let m := s.start; Up s → p < 2 → (m.path p).inService = true → pairOk b = false → 
      exec (.cut p b q) s = .next (s.to (m.bump (F.pairPathCrcErr p) 1)))
    ∧ (∀ (p : Nat) (b : List Byte) (q : Nat) (s : State), let m := s.start; Up s → p < 2 → (m.path p).inService = true → pairOk b = true → fieldLE b 0 1 = 2 → (m.pair.taken.contains (pairKey 2 b) = true ∨ m.pair.takenPrev.contains (pairKey 2 b) = true) → 
      exec (.cut p b q) s = .next (s.to (m)))
    ∧ (∀ (p : Nat) (b : List Byte) (s : State), let m := s.start; Up s → p < 2 → (m.path p).inService = true → pairOk b = false → 
      exec (.agree p b) s = .next (s.to (m.bump (F.pairPathCrcErr p) 1)))
    ∧ (∀ (p : Nat) (b : List Byte) (s : State), let m := s.start; Up s → p < 2 → (m.path p).inService = true → pairOk b = true → fieldLE b 0 1 = 3 → (m.pair.taken.contains (pairKey 3 b) = true ∨ m.pair.takenPrev.contains (pairKey 3 b) = true) → 
      exec (.agree p b) s = .next (s.to (streamEnds p b m)))
    ∧ (∀ (p : Nat) (b : List Byte) (s : State), let m := s.start; Up s → p < 2 → (m.path p).inService = true → pairOk b = false → 
      exec (.receipt p b) s = .next (s.to (m.bump (F.pairPathCrcErr p) 1)))
    ∧ (∀ (p : Nat) (b : List Byte) (s : State), let m := s.start; Up s → p < 2 → (m.path p).inService = true → pairOk b = true → fieldLE b 0 1 = 4 → (m.pair.taken.contains (pairKey 4 b) = true ∨ m.pair.takenPrev.contains (pairKey 4 b) = true) → 
      exec (.receipt p b) s = .next (s.to (m)))
    ∧ (∀ (p : Nat) (b : List Byte) (a z : Int) (s : State), let m := s.start; Up s → p < 2 → (m.path p).inService = true → pairOk b = false → 
      exec (.forward p b a z) s = .next (s.to (m.bump (F.pairPathCrcErr p) 1)))
    ∧ (∀ (p : Nat) (b : List Byte) (a z : Int) (s : State), let m := s.start; Up s → p < 2 → (m.path p).inService = true → pairOk b = true → fieldLE b 0 1 = 5 → (m.pair.taken.contains (pairKey 5 b) = true ∨ m.pair.takenPrev.contains (pairKey 5 b) = true) → 
      exec (.forward p b a z) s = .next (s.to (m)))
    ∧ (∀ (p : Nat) (b : List Byte) (i : Option Image) (s : State), let m := s.start; Up s → p < 2 → (m.path p).inService = true → pairOk b = false → 
      exec (.journal p ⟨b, i⟩) s = .next (s.to (m.bump (F.pairPathCrcErr p) 1)))
    ∧ (∀ (p : Nat) (b : List Byte) (i : Option Image) (s : State), let m := s.start; Up s → p < 2 → (m.path p).inService = true → pairOk b = true → fieldLE b 0 1 = 6 → (m.pair.taken.contains (pairKey 6 b) = true ∨ m.pair.takenPrev.contains (pairKey 6 b) = true) → 
      exec (.journal p ⟨b, i⟩) s = .next (s.to (m)))
    ∧ (∀ (p : Nat) (b : List Byte) (ns : Nat) (s : State), let m := s.start; Up s → p < 2 → (m.path p).inService = true → pairOk b = false → 
      exec (.jack p ⟨b, ns⟩) s = .next (s.to (m.bump (F.pairPathCrcErr p) 1)))
    ∧ (∀ (p : Nat) (b : List Byte) (ns : Nat) (s : State), let m := s.start; Up s → p < 2 → (m.path p).inService = true → pairOk b = true → fieldLE b 0 1 = 7 → (m.pair.taken.contains (pairKey 7 b) = true ∨ m.pair.takenPrev.contains (pairKey 7 b) = true) → 
      exec (.jack p ⟨b, ns⟩) s = .next (s.to (m)))
    ∧ (∀ (p : Nat) (b : List Byte) (s : State), let m := s.start; Up s → p < 2 → (m.path p).inService = true → pairOk b = false → 
      exec (.posted p b) s = .next (s.to (m.bump (F.pairPathCrcErr p) 1)))
    ∧ (∀ (p : Nat) (b : List Byte) (s : State), let m := s.start; Up s → p < 2 → (m.path p).inService = true → pairOk b = true → fieldLE b 0 1 = 8 → (m.pair.taken.contains (pairKey 8 b) = true ∨ m.pair.takenPrev.contains (pairKey 8 b) = true) → 
      exec (.posted p b) s = .next (s.to (m)))
    ∧ (∀ (p : Nat) (b : List Byte) (i : Option Image) (s : State), let m := s.start; Up s → p < 2 → (m.path p).inService = true → pairOk b = false → 
      exec (.copy p b i) s = .next (s.to (m.bump (F.pairPathCrcErr p) 1)))
    ∧ (∀ (p : Nat) (b : List Byte) (i : Option Image) (s : State), let m := s.start; Up s → p < 2 → (m.path p).inService = true → pairOk b = true → fieldLE b 0 1 = 9 → (m.pair.taken.contains (pairKey 9 b) = true ∨ m.pair.takenPrev.contains (pairKey 9 b) = true) → 
      exec (.copy p b i) s = .next (s.to (m)))
    ∧ (∀ (p : Nat) (b : List Byte) (q : Nat) (s : State), let m := s.noted p 2 b; PairIn p 2 b s → fieldLE b 8 8 = s.m.tb.k → s.m.pair.held = true → 
      exec (.cut p b q) s = .next (s.to (resolveCuts q { m with pair := { m.pair with cutTheirs := some ⟨BitVec.ofNat 64 (fieldLE (pairBody b) 0 8), fieldLE (pairBody b) 8 1 == 1⟩, copy := m.pair.copy.map fun c => { c with lockstep := true } } })))
    ∧ (∀ (p : Nat) (b : List Byte) (q : Nat) (s : State), let m := s.noted p 2 b; PairIn p 2 b s → fieldLE b 8 8 = s.m.tb.k → s.m.pair.held = false → s.m.pair.inTwin = true → 
      exec (.cut p b q) s = .next (s.to ({ m with pair := { m.pair with cutTheirs := some ⟨BitVec.ofNat 64 (fieldLE (pairBody b) 0 8), fieldLE (pairBody b) 8 1 == 1⟩, copy := m.pair.copy.map fun c => { c with lockstep := true } } })))
    ∧ (∀ (p : Nat) (b : List Byte) (q : Nat) (s : State), let m := s.noted p 2 b; PairIn p 2 b s → fieldLE b 8 8 = s.m.tb.k → s.m.pair.held = false → s.m.pair.inTwin = false → 
      exec (.cut p b q) s = .next (s.to (verifyDigest { m with pair := { m.pair with cutTheirs := some ⟨BitVec.ofNat 64 (fieldLE (pairBody b) 0 8), fieldLE (pairBody b) 8 1 == 1⟩, copy := m.pair.copy.map fun c => { c with lockstep := true } } })))
    ∧ (∀ (p : Nat) (b : List Byte) (q : Nat) (s : State), let m := s.noted p 2 b; PairIn p 2 b s → fieldLE b 8 8 ≠ s.m.tb.k → 
      exec (.cut p b q) s = .next (s.to (m)))
    ∧ (∀ (p : Nat) (b : List Byte) (s : State), let m := s.noted p 3 b; PairIn p 3 b s → fieldLE b 8 8 = s.m.tb.k → s.m.dev.intakeDone = false → 
      exec (.agree p b) s = .next (s.to ({ m with pair := { m.pair with theirs := (parseAgree (pairBody b)).foldl (fun a r => streamPut r.1 r.2 a) m.pair.theirs, theirsEnd := m.pair.theirsEnd || bitOf (fieldLE (pairBody b) 2 1) 0 } })))
    ∧ (∀ (p : Nat) (b : List Byte) (s : State), let m := s.noted p 3 b; PairIn p 3 b s → (fieldLE b 8 8 ≠ s.m.tb.k ∨ s.m.dev.intakeDone = true) → 
      exec (.agree p b) s = .next (s.to (m)))
    ∧ (∀ (p : Nat) (b : List Byte) (s : State), let m := s.noted p 4 b; PairIn p 4 b s → fieldLE b 8 8 = s.m.tb.k → 
      exec (.receipt p b) s = .next (s.to ({ m with pair := { m.pair with receiptsTheirs := m.pair.receiptsTheirs ++ [Receipt.mk (fieldLE (pairBody b) 0 1) (fieldLE (pairBody b) 1 1) (fieldLE (pairBody b) 4 4)] } })))
    ∧ (∀ (p : Nat) (b : List Byte) (s : State), let m := s.noted p 4 b; PairIn p 4 b s → fieldLE b 8 8 ≠ s.m.tb.k → 
      exec (.receipt p b) s = .next (s.to (m)))
    ∧ (∀ (p : Nat) (b : List Byte) (a z : Int) (s : State), let m := s.noted p 5 b; PairIn p 5 b s → fieldLE b 8 8 = s.m.tb.k → 
      exec (.forward p b a z) s = .next (s.to ({ m with pair := { m.pair with fwd := some ⟨fieldLE (pairBody b) 0 1, withCrc ((pairBody b).drop 4), a, z⟩ } })))
    ∧ (∀ (p : Nat) (b : List Byte) (a z : Int) (s : State), let m := s.noted p 5 b; PairIn p 5 b s → fieldLE b 8 8 ≠ s.m.tb.k → 
      exec (.forward p b a z) s = .next (s.to (m)))
    ∧ (∀ (p : Nat) (b : List Byte) (s : State), let m := s.noted p 6 b; PairIn p 6 b s → s.m.pair.journal = [] → descPayload (sliceBytes (pairBody b) 8 64) ≤ ((pairBody b).drop 72).length → 
      exec (.journal p ⟨b, none⟩) s = .next (s.to ({ m with pair := { m.pair with journal := [⟨fieldLE (pairBody b) 0 1, sliceBytes (pairBody b) 8 64, (pairBody b).drop 72, true, none⟩] } }.pairSend 0x07
        (leBytes 1 (fieldLE (pairBody b) 0 1) ++ leBytes 7 0 ++ leBytes 8 (fieldLE (sliceBytes (pairBody b) 8 64) 8 8)))))
    ∧ (∀ (p : Nat) (b : List Byte) (i : Image) (c : CopySt) (s : State), let m := s.noted p 6 b; PairIn p 6 b s → s.m.pair.role = .shadow → s.m.pair.copy = some c → c.verified = none → 
      exec (.journal p ⟨b, (some i)⟩) s = .next (s.to ({ m with pair := { m.pair with copy := some { c with changed := some i } } })))
    ∧ (∀ (p : Nat) (b : List Byte) (ns : Nat) (c : Cmd) (s : State), let m := s.noted p 7 b; PairIn p 7 b s → s.m.host.jackWait.find? (fun c => c.ring == fieldLE (pairBody b) 0 1 && c.seq == fieldLE (pairBody b) 8 8) = some c → cplRoom c.ring m = true → 
      exec (.jack p ⟨b, ns⟩) s = .next (s.to (acceptCmd c (if s.m.dev.intakeDone = false ∧ ns + 100 ≤ 1200 then m.tb.k else m.tb.k + 1) { m with host := { m.host with jackWait := m.host.jackWait.filter fun c => !(c.ring == fieldLE (pairBody b) 0 1 && c.seq == fieldLE (pairBody b) 8 8) } })))
    ∧ (∀ (p : Nat) (b : List Byte) (ns : Nat) (c : Cmd) (s : State), let m := s.noted p 7 b; PairIn p 7 b s → s.m.host.jackWait.find? (fun c => c.ring == fieldLE (pairBody b) 0 1 && c.seq == fieldLE (pairBody b) 8 8) = some c → cplRoom c.ring m = false → 
      exec (.jack p ⟨b, ns⟩) s = .next (s.to ({ m with host := { m.host with jackWait := m.host.jackWait.filter (fun c => !(c.ring == fieldLE (pairBody b) 0 1 && c.seq == fieldLE (pairBody b) 8 8)), jacked := m.host.jacked ++ [c] } })))
    ∧ (∀ (p : Nat) (b : List Byte) (j : JournalCopy) (s : State), let m := s.noted p 8 b; PairIn p 8 b s → fieldLE (pairBody b) 16 1 = stACCEPTED → s.m.pair.journal = [j] → j.ring = fieldLE (pairBody b) 0 1 → fieldLE j.desc 8 8 = fieldLE (pairBody b) 8 8 → j.complete = true → 
      exec (.posted p b) s = .next (s.to ((let m1 := acceptCmd ((parseDesc (fieldLE (pairBody b) 0 1) j.desc j.payload).cmd (fieldLE j.desc 0 2)) (fieldLE (pairBody b) 24 8) (m.modPairRing (fieldLE (pairBody b) 0 1) Ring.consumed);
        { m1 with pair := { m1.pair with journal := m1.pair.journal.map fun x => if x.ring == fieldLE (pairBody b) 0 1 && fieldLE x.desc 8 8 == fieldLE (pairBody b) 8 8 then { x with f := some (fieldLE (pairBody b) 24 8) } else x } }))))
    ∧ (∀ (p : Nat) (b : List Byte) (s : State), let m := s.noted p 8 b; PairIn p 8 b s → fieldLE (pairBody b) 16 1 ≠ stACCEPTED → fieldLE (pairBody b) 8 8 ≠ (m.pairRings.getD (fieldLE (pairBody b) 0 1) ringInit).nextSeq → 
      exec (.posted p b) s = .next (s.to ({ m with pair := { m.pair with journal := m.pair.journal.filter fun j => !(j.ring == fieldLE (pairBody b) 0 1 && fieldLE j.desc 8 8 == fieldLE (pairBody b) 8 8) }, host := { m.host with mirror := m.host.mirror.filter fun c => !(c.ring == fieldLE (pairBody b) 0 1 && c.seq == fieldLE (pairBody b) 8 8) } }.modPairRing
        (fieldLE (pairBody b) 0 1) fun x => markTerm (fieldLE (pairBody b) 8 8) { x with held := x.held.filter fun c => c.seq != fieldLE (pairBody b) 8 8 })))
    ∧ (∀ (p : Nat) (b : List Byte) (image : Option Image) (c : CopySt) (s : State), let m := s.noted p 9 b; PairIn p 9 b s → s.m.pair.role = .shadow → s.m.pair.copy = some c → c.chunks = [] → 1 < fieldLE (pairBody b) 4 4 → 
      exec (.copy p b image) s = .next (s.to ({ m with pair := { m.pair with copy := some { c with chunks := [(fieldLE (pairBody b) 0 4, (pairBody b).drop 8)], total := fieldLE (pairBody b) 4 4 } } })))

/-- On a path in service of a unit that is up, the first copy of a control message has its effect: JOIN_REQ at a SOLO unit in READY or RUN that accepts joins and meets the join conditions makes it SENIOR at the next boundary, and where it accepts no join, is in another state or role, or a condition fails, it is answered by JOIN_NAK; at a SENIOR that is not yet in TWIN a repeated JOIN_REQ starts the copy anew with JOIN_ACK where the conditions hold in READY or RUN, and is answered by JOIN_NAK where not; JOIN_ACK at a shadow whose conditions hold starts the copy, and where one fails ends PAIR_JOIN; JOIN_NAK and LEAVE at a shadow end PAIR_JOIN; LEAVE at a senior makes it SOLO at the next boundary with its epoch kept; a SWAP that names the next epoch makes the TWIN the SENIOR under the raised claim, with its events posted and its source of time returned, and any other changes nothing; VERIFIED at a senior with a copy under way forms TWIN; SAFE_NOTE is taken as the loss of the partner, which is known to be in SAFE. Model's choice: how a row stands for what happens is that of log entries 4, 5, 6, 9. Clauses rest on the model's own choices or readings of log entries 107, 108, 115, 117. (spec/09_morkai_pairing.md (R279, R282, R289, R296, R298)) -/
def Obligations.PairControlMessagesComplete : Prop :=
  (∀ (p : Nat) (b : List Byte) (s : State), let m := s.noted p 10 b; PairIn p 10 b s → fieldLE (pairBody b) 0 1 = 1 → s.m.pair.role = .solo → s.m.pair.acceptJoin = true → (s.m.dev.state = .ready ∨ s.m.dev.state = .run) → joinFailing (pairBody b) m = none → 
      exec (.joinReq p b) s = .next (s.to (m.roleAt .senior)))
    ∧ (∀ (p : Nat) (b : List Byte) (s : State), let m := s.noted p 10 b; PairIn p 10 b s → fieldLE (pairBody b) 0 1 = 1 → s.m.pair.role = .solo → s.m.pair.acceptJoin = false → 
      exec (.joinReq p b) s = .next (s.to (sendControl 3 (Config.unstatedArg 0x0808 5 % 256) 0 [] m)))
    ∧ (∀ (p : Nat) (b : List Byte) (s : State), let m := s.noted p 10 b; PairIn p 10 b s → fieldLE (pairBody b) 0 1 = 1 → s.m.pair.role = .solo → s.m.pair.acceptJoin = true → s.m.dev.state ≠ .ready → s.m.dev.state ≠ .run → 
      exec (.joinReq p b) s = .next (s.to (sendControl 3 (Config.unstatedArg 0x0808 7 % 256) 0 [] m)))
    ∧ (∀ (p : Nat) (b : List Byte) (n : Nat) (s : State), let m := s.noted p 10 b; PairIn p 10 b s → fieldLE (pairBody b) 0 1 = 1 → s.m.pair.role = .solo → s.m.pair.acceptJoin = true → (s.m.dev.state = .ready ∨ s.m.dev.state = .run) → joinFailing (pairBody b) m = some n → 
      exec (.joinReq p b) s = .next (s.to (sendControl 3 (Config.unstatedArg 0x0808 n % 256) 0 [] m)))
    ∧ (∀ (p : Nat) (b : List Byte) (s : State), let m := s.noted p 10 b; PairIn p 10 b s → fieldLE (pairBody b) 0 1 = 1 → (s.m.pair.inTwin = true ∨ (s.m.pair.role ≠ .solo ∧ s.m.pair.role ≠ .senior)) → 
      exec (.joinReq p b) s = .next (s.to (sendControl 3 (Config.unstatedArg 0x0808 6 % 256) 0 [] m)))
    ∧ (∀ (p : Nat) (b : List Byte) (s : State), let m := s.noted p 10 b; PairIn p 10 b s → fieldLE (pairBody b) 0 1 = 1 → s.m.pair.role = .senior → s.m.pair.inTwin = false → (s.m.dev.state = .ready ∨ s.m.dev.state = .run) → joinFailing (pairBody b) m = none → 
      exec (.joinReq p b) s = .next (s.to ((let m1 := { m with pair := { m.pair with copy := some ⟨[], 0, none, 0, m.tb.uptime, some 0, none, false⟩ } }; sendCopy (sendControl 2 0 0 (joinDigests m1) m1)))))
    ∧ (∀ (p : Nat) (b : List Byte) (n : Nat) (s : State), let m := s.noted p 10 b; PairIn p 10 b s → fieldLE (pairBody b) 0 1 = 1 → s.m.pair.role = .senior → s.m.pair.inTwin = false → (s.m.dev.state = .ready ∨ s.m.dev.state = .run) → joinFailing (pairBody b) m = some n → 
      exec (.joinReq p b) s = .next (s.to (sendControl 3 (Config.unstatedArg 0x0808 n % 256) 0 [] m)))
    ∧ (∀ (p : Nat) (b : List Byte) (s : State), let m := s.noted p 10 b; PairIn p 10 b s → fieldLE (pairBody b) 0 1 = 1 → s.m.pair.role = .senior → s.m.pair.inTwin = false → s.m.dev.state ≠ .ready → s.m.dev.state ≠ .run → 
      exec (.joinReq p b) s = .next (s.to (sendControl 3 (Config.unstatedArg 0x0808 7 % 256) 0 [] m)))
    ∧ (∀ (p : Nat) (b : List Byte) (s : State), let m := s.noted p 10 b; PairIn p 10 b s → fieldLE (pairBody b) 0 1 = 2 → s.m.pair.role = .shadow → joinFailing (pairBody b) m = none → s.m.pair.copy = none → 
      exec (.joinAck p b) s = .next (s.to ({ m with pair := { m.pair with copy := some ⟨[], 0, none, 0, m.tb.uptime, none, none, false⟩, copyAttempts := m.pair.copyAttempts + 1 } }.post 0x0807 [])))
    ∧ (∀ (p : Nat) (b : List Byte) (n : Nat) (s : State), let m := s.noted p 10 b; PairIn p 10 b s → fieldLE (pairBody b) 0 1 = 2 → s.m.pair.role = .shadow → joinFailing (pairBody b) m = some n → 
      exec (.joinAck p b) s = .next (s.to (copyAbort 4 m)))
    ∧ (∀ (p : Nat) (b : List Byte) (s : State), let m := s.noted p 10 b; PairIn p 10 b s → fieldLE (pairBody b) 0 1 = 3 → s.m.pair.role = .shadow → 
      exec (.joinNak p b) s = .next (s.to (copyAbort 4 m)))
    ∧ (∀ (p : Nat) (b : List Byte) (s : State), let m := s.noted p 10 b; PairIn p 10 b s → fieldLE (pairBody b) 0 1 = 3 → s.m.pair.role ≠ .shadow → s.m.pair.roleDue ≠ some .shadow → 
      exec (.joinNak p b) s = .next (s.to (m)))
    ∧ (∀ (p : Nat) (b : List Byte) (s : State), let m := s.noted p 10 b; PairIn p 10 b s → fieldLE (pairBody b) 0 1 = 4 → s.m.pair.role = .senior → 
      exec (.leave p b) s = .next (s.to ((let m1 := completeOp 0x0806 (fin stDONE) (acceptWaiting m); { m1 with pair := { m1.pair with partner := none, copy := none, takeover := if m1.pair.server then none else some 0, safeSeen := true } }.roleAt .solo))))
    ∧ (∀ (p : Nat) (b : List Byte) (s : State), let m := s.noted p 10 b; PairIn p 10 b s → fieldLE (pairBody b) 0 1 = 4 → s.m.pair.role = .shadow → 
      exec (.leave p b) s = .next (s.to (copyAbort (Config.unstatedArg 0x0808 5) m)))
    ∧ (∀ (p : Nat) (b : List Byte) (s : State), let m := s.noted p 10 b; PairIn p 10 b s → fieldLE (pairBody b) 0 1 = 4 → s.m.pair.role ≠ .senior → s.m.pair.role ≠ .shadow → 
      exec (.leave p b) s = .next (s.to (m)))
    ∧ (∀ (p : Nat) (b : List Byte) (s : State), let m := s.noted p 10 b; PairIn p 10 b s → fieldLE (pairBody b) 0 1 = 5 → s.m.pair.role = .twin → s.m.pair.inTwin = true → fieldLE (pairBody b) 4 4 = s.m.pair.epoch + 1 → s.m.pair.epoch < 0x7FFFFFFF → 
      exec (.swap p b) s = .next (s.to ((let e := s.m.pair.epoch + 1; let c := 2 * e + s.m.pair.unit % 2;
        let m1 : Mach := { m with pair := { m.pair with epoch := e, claim := c, role := .senior, partner := m.pair.partner.map fun q => { q with role := 2 }, takeover := some 0, safeSeen := true } };
        let m2 := returnSource ((m1.post 0x080A []).post 0x0804 [e, c]); { m2 with pair := { m2.pair with takeover := if m2.pair.server then none else some 0 } }))))
    ∧ (∀ (p : Nat) (b : List Byte) (s : State), let m := s.noted p 10 b; PairIn p 10 b s → fieldLE (pairBody b) 0 1 = 5 → (s.m.pair.inTwin = false ∨ fieldLE (pairBody b) 4 4 ≠ s.m.pair.epoch + 1) → 
      exec (.swap p b) s = .next (s.to (m)))
    ∧ (∀ (p : Nat) (b : List Byte) (s : State), let m := s.noted p 10 b; PairIn p 10 b s → fieldLE (pairBody b) 0 1 = 6 → s.m.pair.role = .senior → s.m.pair.copy.isSome = true → 
      exec (.verified p b) s = .next (s.to ({ m with pair := { m.pair with copy := none, twinAt := m.tb.k, partner := m.pair.partner.map fun q => { q with role := 2 }, pairRings := m.pair.server } })))
    ∧ (∀ (p : Nat) (b : List Byte) (s : State), let m := s.noted p 10 b; PairIn p 10 b s → fieldLE (pairBody b) 0 1 = 6 → (s.m.pair.role ≠ .senior ∨ s.m.pair.copy = none) → 
      exec (.verified p b) s = .next (s.to (m)))
    ∧ (∀ (p : Nat) (b : List Byte) (s : State), let m := s.noted p 11 b; PairIn p 11 b s → 
      exec (.safeNote p b) s = .next (s.to ({ partnerLost m with pair := { (partnerLost m).pair with safeSeen := true } })))
    ∧ (∀ (p : Nat) (b : List Byte) (s : State), let m := s.noted p 11 b; PairIn p 11 b s → s.m.pair.role = .solo → 
      exec (.safeNote p b) s = .next (s.to ({ m with pair := { m.pair with partner := none, missed := 0, safeSeen := true } })))

/-- In a unit that is up: a heartbeat of the partner on a path in service is noted with its arrival and what it says; a heartbeat with this unit’s own strap is a claim conflict; HB_MISS boundaries without one lose the partner; a CUT that does not come within its wait is counted and this unit sends its own frames, held ones of an abandoned period as such; a copy not verified in time fails; AGREE_CUT streams the inputs that are ready and ends the stream of the period, once; a unit that may serve and reaches the host becomes the server and rebuilds; block lock, TRAIN frames (a bad one counts in CRC_ERR and ends the run), calibration, its answer and its retry take a path in and out of service; a path leaves service on a lost block lock, on hi_ber, and on four missing heartbeats where the other path carries them. Where nothing waits, is missing or is owed, these change nothing. Model's choice: how a row stands for what happens is that of log entries 4, 5, 6, 9. (spec/09_morkai_pairing.md (R276, R278, R282, R284, R285, R288, R289, R293)) -/
def Obligations.PairPathStepsComplete : Prop :=
  (∀ (p q : Nat) (b : List Byte) (s : State), let m := s.start; Up s → p < 2 → (m.path p).inService = true → pairOk b = true → fieldLE b 0 1 = 1 → fieldLE b 1 1 % 2 ≠ m.pair.unit % 2 → (parsePartner b).devState ≠ 5 → m.pair.role = .solo → m.tb.src ≠ .pair → 
      exec (.heartbeat p b q) s = .next (s.to ((let m1 := m.modPath p fun x => { x with heard := true, missed := 0, rxT := 4 * m.now + q }; { m1 with pair := { m1.pair with partner := some (parsePartner b), heard := m1.pair.heard || !m1.dev.intakeDone, takeover := m1.pair.takeover.map fun _ => 0, yielded := m1.pair.yielded && !(parsePartner b).server } }))))
    ∧ (∀ (p q : Nat) (b : List Byte) (s : State), let m := s.start; Up s → p < 2 → (m.path p).inService = true → pairOk b = true → fieldLE b 0 1 = 1 → fieldLE b 1 1 % 2 = m.pair.unit % 2 → m.pair.role = .solo → 
      exec (.heartbeat p b q) s = .next (s.to (let m1 := (enterSafe 6 0 (m.raise F.pairStatusConflict)).post 0x080C []; if m1.pair.role == .solo then m1 else m1.roleAt .solo)))
    ∧ (∀ (p q : Nat) (b : List Byte) (s : State), let m := s.start; Up s → p < 2 → (m.path p).inService = true → pairOk b = false → 
      exec (.heartbeat p b q) s = .next (s.to (m.bump (F.pairPathCrcErr p) 1)))
    ∧ (∀ (s : State), let m := s.start; Up s → m.pair.partner.isSome = true → m.fld F.pairCtrlHbMiss ≤ (if m.pair.heard then 0 else if m.dev.intakeDone then m.pair.missed else m.pair.missed + 1) → 
      exec .pairPartnerLost s = .next (s.to (partnerLost m)))
    ∧ (∀ (s : State), let m := s.start; Up s → m.pair.partner = none → 
      exec .pairPartnerLost s = .next (s.to (m)))
    ∧ (∀ (q : Nat) (a : CutMsg) (s : State), let m := s.start; Up s → m.pair.held = true → m.pair.cutOwn = some a → 
      exec (.cutWaitTimeout q) s = .next (s.to ((let m1 := { m with pair := { m.pair with held := false, undo := none } }.bump F.pairCountCutMiss 1; if a.abandoned then sendHold q m1 else sendCut q m1))))
    ∧ (∀ (q : Nat) (s : State), let m := s.start; Up s → m.pair.held = false → 
      exec (.cutWaitTimeout q) s = .next (s.to (m)))
    ∧ (∀ (c : CopySt) (s : State), let m := s.start; Up s → m.pair.role = .shadow → m.pair.copy = some c → c.verified = none → c.attempts < m.fld F.pairCtrlCopyRetry → 
      exec .copyTimeout s = .next (s.to ((let m1 := leaveRun (m.raise F.pairStatusCopyFail); sendControl 1 0 0 (joinDigests m1) { m1 with pair := { m1.pair with copy := some ⟨[], 0, none, c.attempts + 1, m1.tb.uptime, none, none, false⟩ } }))))
    ∧ (∀ (c : CopySt) (s : State), let m := s.start; Up s → m.pair.role = .shadow → m.pair.copy = some c → c.verified = none → m.fld F.pairCtrlCopyRetry ≤ c.attempts → 
      exec .copyTimeout s = .next (s.to (copyAbort 2 m)))
    ∧ (∀ (s : State), let m := s.start; Up s → (m.pair.role ≠ .shadow ∨ m.pair.copy = none) → 
      exec .copyTimeout s = .next (s.to (m)))
    ∧ (∀ (s : State), let m := s.start; Up s → m.pair.exchanging = true → m.pair.cutAgree = false → 
      exec .agreeCut s = .next (s.to (agreeCut (streamInputs m))))
    ∧ (∀ (s : State), let m := s.start; Up s → (m.pair.exchanging = false ∨ m.pair.cutAgree = true) → 
      exec .agreeCut s = .next (s.to (m)))
    ∧ (∀ (cells : List Host.Cell) (s : State), let m := s.start; Up s → m.pair.server = false → mayServe m = true → m.hostReach = true → 
      exec (.serverChange cells) s = .next (s.to (let m1 := rebuild true ({ m with hostMem := hostStores m.hostMem cells, pair := { m.pair with server := true, pairRings := true, takeover := none } }.post 0x080B []); if m1.pair.server then echoAfterServer m1 else m1)))
    ∧ (∀ (cells : List Host.Cell) (s : State), let m := s.start; Up s → (m.pair.server = true ∨ mayServe m = false ∨ m.hostReach = false) → 
      exec (.serverChange cells) s = .next (s.to (m)))
    ∧ (∀ (p : Nat) (s : State), let m := s.start; Up s → p < 2 → (m.path p).lock = false → 
      exec (.blockLockAcquired (.path p)) s = .next (s.to (m.setPath p { m.path p with lock := true, step := max (m.path p).step 1, trainCount := 0, farReady := false })))
    ∧ (∀ (p : Nat) (s : State), let m := s.start; Up s → p < 2 → (m.path p).lock = true → (m.path p).inService = false → (m.path p).step < 4 → 
      exec (.trainFrameTx (.path p)) s = .next (s.to ((let f := plainFrame m 0x06 (8 * b2n (rxReady (m.path p).trainCount)) 0; m.send (.pairFrame p (pairFrame m 0x10 (f.take (f.length - 4))))))))
    ∧ (∀ (p : Nat) (b : List Byte) (s : State), let m := s.start; Up s → p < 2 → (m.path p).lock = true → (m.path p).inService = false → pairOk b = true → fieldLE b 0 1 = 0x10 → 4095 ≤ (m.path p).trainCount → 
      exec (.pairTrainFrame p b) s = .next (s.to (m.setPath p { m.path p with trainCount := 4096, farReady := bitOf (fieldLE (pairBody b) 1 1) 3, step := 3 })))
    ∧ (∀ (p : Nat) (b : List Byte) (s : State), let m := s.start; Up s → p < 2 → (m.path p).lock = true → (m.path p).inService = false → pairOk b = true → fieldLE b 0 1 = 0x10 → (m.path p).trainCount < 4095 → 
      exec (.pairTrainFrame p b) s = .next (s.to (m.setPath p { m.path p with trainCount := (m.path p).trainCount + 1, farReady := bitOf (fieldLE (pairBody b) 1 1) 3, step := max (m.path p).step 2 })))
    ∧ (∀ (p : Nat) (b : List Byte) (s : State), let m := s.start; Up s → p < 2 → (m.path p).lock = true → (m.path p).inService = false → pairOk b = true → fieldLE b 0 1 ≠ 0x10 → 
      exec (.pairTrainFrame p b) s = .next (s.to (m.setPath p { m.path p with trainCount := 0 })))
    ∧ (∀ (p : Nat) (b : List Byte) (s : State), let m := s.start; Up s → p < 2 → (m.path p).lock = true → (m.path p).inService = false → pairOk b = false → 
      exec (.pairTrainFrame p b) s = .next (s.to ((m.setPath p { m.path p with trainCount := 0 }).bump (F.pairPathCrcErr p) 1)))
    ∧ (∀ (p : Nat) (l : List Int) (s : State), let m := s.start; Up s → p < 2 → (m.path p).inService = false → (m.path p).step = 3 → (m.path p).farReady = true → (m.path p).calFailed = false → (m.path p).wasUp = false → calTest (l.map fun d => roundDiv (d + 2 * pathAsym m p) 2) (64 - l.length) 400 = none → 
      exec (.pairPathCal p l) s = .next (s.to (m.setPath p { m.path p with step := 4, inService := true, delay := (medianOf (l.map fun d => roundDiv (d + 2 * pathAsym m p) 2)).toNat, missed := 0, heard := false, wasUp := true })))
    ∧ (∀ (p n : Nat) (l : List Int) (s : State), let m := s.start; Up s → p < 2 → (m.path p).inService = false → (m.path p).step = 3 → (m.path p).farReady = true → (m.path p).calFailed = false → calTest (l.map fun d => roundDiv (d + 2 * pathAsym m p) 2) (64 - l.length) 400 = some n → 
      exec (.pairPathCal p l) s = .next (s.to (m.setPath p { m.path p with calFailed := true })))
    ∧ (∀ (p turn : Nat) (b : List Byte) (s : State), let m := s.start; Up s → p < 2 → (m.path p).lock = true → pairOk b = true → fieldLE b 0 1 = 0x0E → 
      exec (.pairCalReq p b turn) s = .next (s.to (m.send (.pairFrame p (pairFrame m 0x0F (leBytes 1 0x82 ++ List.replicate 31 0#8 ++ leBytes 4 turn ++ leBytes 4 0))))))
    ∧ (∀ (p : Nat) (s : State), let m := s.start; Up s → p < 2 → (m.path p).calFailed = true → 
      exec (.pairCalRetry p) s = .next (s.to (pathDown p false m)))
    ∧ (∀ (p : Nat) (s : State), let m := s.start; Up s → p < 2 → (m.path p).calFailed = false → 
      exec (.pairCalRetry p) s = .next (s.to (m)))
    ∧ (∀ (p : Nat) (s : State), let m := s.start; Up s → p < 2 → m.pair.role ≠ .shadow → 
      exec (.pairPathDown p .blockLock) s = .next (s.to (pathDown p true m)))
    ∧ (∀ (p : Nat) (s : State), let m := s.start; Up s → p < 2 → m.pair.role ≠ .shadow → (m.path p).inService = true → 
      exec (.pairPathDown p .hiBer) s = .next (s.to (((m.setPath p { pathInit with lock := (m.path p).lock, step := b2n (m.path p).lock, wasUp := (m.path p).wasUp }).raise F.pairStatusPathDown).post 0x0801 [])))
    ∧ (∀ (p : Nat) (s : State), let m := s.start; Up s → p < 2 → m.pair.role ≠ .shadow → (m.path p).inService = true → (m.path p).heard = false → (m.path (1 - p)).heard = true → 3 ≤ (m.path p).missed → 
      exec (.pairPathDown p .heartbeats) s = .next (s.to (pathDown p false m)))
    ∧ (∀ (p : Nat) (s : State), let m := s.start; Up s → p < 2 → ((m.path p).heard = true ∨ (m.path (1 - p)).heard = false ∨ (m.path p).missed < 3) → 
      exec (.pairPathDown p .heartbeats) s = .next (s.to (m)))

/-- In a device that measures: the end of the conversion that a core makes frees the core for the next one in the order of priority and gives the code of its input: to its sequencer entry, to its urgent slot, or to the ADC_URGENT command that asked for it, which completes; with nothing running or asked for, or where it names another conversion, it changes nothing. A continuous trigger on the grid of its sequencer asks for all its conversions, or skips and counts them where their span has become too long for the interval. A falling edge of a trigger line that the device does not drive, low for 20 ns or more, triggers the urgent slots of the line, and where the input is enabled the Echo records; a shorter one changes nothing. A driven trigger line ends. In a device that works, a Siphon request moves one burst of its channel, the last burst completes the descriptor with its copy, count and event; a request with a descriptor starts an idle channel, a bad one stops the channel with its flag and event; the reserved channels 22 to 31 do nothing. Model's choice: how a row stands for what happens is that of log entries 4, 5, 6, 9. Clauses rest on the model's own choices or readings of log entries 130, 222. (spec/10_measurement_and_echo.md (R303, R304, R306, R307, R308, R310, R323, R324, R329)) -/
def Obligations.ConversionStepsComplete : Prop :=
  (∀ (k vref n e : Nat) (v : Int) (a : AdcRun) (s : State), let m := s.start; m.measures = true → (m.core k).running = some a → a.req.src = .entry n e → 
      exec (.adcConversionDone k (.entry n e) v vref a.sampleQ a.endQ) s = .next (s.to (adcResult (0xC4000 + 16 * n + e) (0x30 + n) (adcCode a.req.entry.input v a.req.entry.gain vref) a.sampleQ a.endQ (some (n, e)) (nextConv k a.endQ (m.setCore k { m.core k with running := none })))))
    ∧ (∀ (k vref u : Nat) (v : Int) (a : AdcRun) (s : State), let m := s.start; m.measures = true → (m.core k).running = some a → a.req.src = .slot u → siphonLost (nextConv k a.endQ (m.setCore k { m.core k with running := none })) 7 = false → 
      exec (.adcConversionDone k (.slot u) v vref a.sampleQ a.endQ) s = .next (s.to (adcResult (0xC4040 + u) (if k = 0 then 0x30 else 0x32) (adcCode a.req.entry.input v a.req.entry.gain vref) a.sampleQ a.endQ none (nextConv k a.endQ (m.setCore k { m.core k with running := none })))))
    ∧ (∀ (k vref r q : Nat) (v : Int) (a : AdcRun) (s : State), let m := s.start; m.measures = true → (m.core k).running = some a → a.req.src = .host r q → 
      exec (.adcConversionDone k (.host r q) v vref a.sampleQ a.endQ) s = .next (s.to (completeLater r q ⟨stDONE, nanosOf (a.sampleQ / 4), unsigned 32 (adcCode a.req.entry.input v a.req.entry.gain vref).1, if (adcCode a.req.entry.input v a.req.entry.gain vref).2 then cfCLAMP else 0, []⟩ (nextConv k a.endQ (m.setCore k { m.core k with running := none })))))
    ∧ (∀ (k vref x y : Nat) (src : AdcSrc) (v : Int) (s : State), let m := s.start; m.measures = true → (m.core k).running = none → (m.seqRun (2 * k)).due = [] → (m.seqRun (2 * k + 1)).due = [] → 
      exec (.adcConversionDone k src v vref x y) s = .next (s.to (m)))
    ∧ (∀ (k vref x y : Nat) (src : AdcSrc) (v : Int) (a : AdcRun) (s : State), let m := s.start; m.measures = true → (m.core k).running = some a → (a.req.src ≠ src ∨ a.sampleQ ≠ x ∨ a.endQ ≠ y) → 
      exec (.adcConversionDone k src v vref x y) s = .next (s.to (m)))
    ∧ (∀ (n a : Nat) (q : AdcSeq) (s : State), let m := s.start; m.measures = true → m.seqCfg n = some q → q.mode = 2 → ((a : Int) - m.tb.anchor) % (q.repeatNs : Int) = 0 → spanQ (m.core (n / 2)).low q.entries ≤ 4 * q.repeatNs → 
      exec (.adcContinuousTrigger n a) s = .next (s.to (skipped n 0 (m.setSeq n { m.seqRun n with due := (m.seqRun n).due ++ q.entries.zipIdx.map fun x => ⟨.entry n x.2, false, 16, a, x.2, x.1, 4 * (a + x.1.tSample)⟩ }))))
    ∧ (∀ (n a : Nat) (q : AdcSeq) (s : State), let m := s.start; m.measures = true → m.seqCfg n = some q → q.mode = 2 → ((a : Int) - m.tb.anchor) % (q.repeatNs : Int) = 0 → 4 * q.repeatNs < spanQ (m.core (n / 2)).low q.entries → 
      exec (.adcContinuousTrigger n a) s = .next (s.to (skipped n q.entries.length (m.setSeq n (m.seqRun n)))))
    ∧ (∀ (n a : Nat) (q : AdcSeq) (s : State), let m := s.start; m.seqCfg n = some q → (q.mode ≠ 2 ∨ ((a : Int) - m.tb.anchor) % (q.repeatNs : Int) ≠ 0) → 
      exec (.adcContinuousTrigger n a) s = .next (s.to (m)))
    ∧ (∀ (l a w : Nat) (s : State), let m := s.start; Up s → 20 ≤ w → m.meas.trgDriven.getD l false = false → m.measures = true → bitOf ((triggerSlots l a m).fld F.echoTrgInEn) l = false → 
      exec (.trgEdge l a w) s = .next (s.to (triggerSlots l a m)))
    ∧ (∀ (l a w : Nat) (s : State), let m := s.start; Up s → 20 ≤ w → m.meas.trgDriven.getD l false = false → m.measures = true → bitOf ((triggerSlots l a m).fld F.echoTrgInEn) l = true → 
      exec (.trgEdge l a w) s = .next (s.to (let m1 := triggerSlots l a m; echoResolveAll (chainTs m1) false (echoEvent (fun d => d.kind == 3 && d.which == l) 3 (a * 65536) m1))))
    ∧ (∀ (l a w : Nat) (s : State), let m := s.start; Up s → (w < 20 ∨ m.meas.trgDriven.getD l false = true) → 
      exec (.trgEdge l a w) s = .next (s.to (m)))
    ∧ (∀ (l : Nat) (s : State), let m := s.start; 
      exec (.trgOutEnd l) s = .next (s.to ({ m with meas := { m.meas with trgDriven := setAt m.meas.trgDriven l false } })))
    ∧ (∀ (c n : Nat) (d : SiphonDesc) (s : State), let m := s.start; m.working = true → c < 22 → c < m.meas.siphon.length → (m.siphonCh c).active = true → (m.siphonCh c).paced = true → (m.siphonCh c).desc = some d → (m.siphonCh c).host = false → (m.siphonCh c).linked = false → (∀ i, i < 32 → i ≠ c → siphonReady m i = none) → max n 1 < (m.siphonCh c).remain → 
      exec (.siphonRequest c n none) s = .next (s.to ({ m with meas := { m.meas with siphonTurn := c, siphon := setAt m.meas.siphon c { (m.siphonCh c) with remain := (m.siphonCh c).remain - max n 1, burst := none } } })))
    ∧ (∀ (c n : Nat) (d : SiphonDesc) (s : State), let m := s.start; m.working = true → c < 22 → c < m.meas.siphon.length → (m.siphonCh c).active = true → (m.siphonCh c).paced = true → (m.siphonCh c).desc = some d → (m.siphonCh c).host = false → (m.siphonCh c).linked = false → (∀ i, i < 32 → i ≠ c → siphonReady m i = none) → (m.siphonCh c).remain ≤ max n 1 → 
      exec (.siphonRequest c n none) s = .next (s.to ((siphonCopy d { m with meas := { m.meas with siphonTurn := c, siphon := setAt m.meas.siphon c { siphonInit with doneCnt := ((m.siphonCh c).doneCnt + 1) % 65536 } } }).send (.siphonEvent c true))))
    ∧ (∀ (c n : Nat) (d : SiphonDesc) (s : State), let m := s.start; m.working = true → c < 22 → c < m.meas.siphon.length → (m.siphonCh c).active = false → 0 < d.count → 
      exec (.siphonRequest c n (some d)) s = .next (s.to (siphonRun 32 (if d.bad then ((m.setSiphon c { siphonInit with stopped := true, doneCnt := (m.siphonCh c).doneCnt }).setF F.siphonStatusBad (putBits (m.reg.raw F.siphonStatusBad) c 1 1)).post 0x060D [c]
          else m.setSiphon c { siphonInit with desc := some d, remain := d.count, prio := siphonPrio c d, active := true, paced := d.paced, host := d.host, linked := d.linked, doneCnt := (m.siphonCh c).doneCnt, burst := if d.paced then some (max n 1) else none }))))
    ∧ (∀ (c n : Nat) (d : Option SiphonDesc) (s : State), let m := s.start; 22 ≤ c → 
      exec (.siphonRequest c n d) s = .next (s.to (m)))

/-- In a device that is up or works: a simulated sampled-value frame counts as unknown, and a good one to an address that the port takes is offered to the 64 streams; an ACTIVE stream without a sample becomes LOST, its entries held, with its flag and event; a GOOSE frame that its port takes is offered to the 128 blocks and a simulated one changes nothing; a retransmission counts sqNum, puts the message into the queues of its ports and lengthens the interval; an expired timeAllowedToLive makes an ACTIVE block LOST; the first telegram of a far channel makes it ACTIVE with its event, and one that is not taken or not well formed changes nothing; LOSS_MS without a telegram makes the channel LOST, its slots held. A stream, block or channel that is not ACTIVE is not lost again. Model's choice: how a row stands for what happens is that of log entries 4, 5, 6, 9. Clauses rest on the model's own choices or readings of log entries 139, 140, 146, 256. (spec/10_measurement_and_echo.md (R318, R321), spec/11_station_networks.md (R337, R339, R342, R343, R345, R346, R349, R351, R352)) -/
def Obligations.StreamAndFrameStepsComplete : Prop :=
  (∀ (f : SvFrame) (s : State), let m := s.start; Up s → portTakes m f.port f.dest = true → m.measures = true → f.sim = true → 
      exec (.svFrame f) s = .next (s.to (m.bump (F.ethCountRxUnknown f.port) 1)))
    ∧ (∀ (f : SvFrame) (s : State), let m := s.start; Up s → portTakes m f.port f.dest = true → m.measures = true → f.sim = false → siphonLost m 4 = false → f.rct = none → f.asdus ≠ [] → f.asdus.length ≤ 8 → (f.asdus.any fun a => decide (f.rate ≤ a.smpCnt)) = false → 0x4000 ≤ f.appid → f.appid ≤ 0x7FFF → 
      exec (.svFrame f) s = .next (s.to ((List.range 64).foldl (svStream f) m)))
    ∧ (∀ (f : SvFrame) (s : State), let m := s.start; Up s → (portTakes m f.port f.dest = false ∨ m.measures = false) → 
      exec (.svFrame f) s = .next (s.to (m)))
    ∧ (∀ (n : Nat) (u : SvSub) (s : State), let m := s.start; Up s → (m.stream n).state = .active → (m.stream n).sub = some u → 
      exec (.svLostTimeout n) s = .next (s.to ((((svHold n u.nch (m.setStream n { m.stream n with state := .lost, sample := none, lateSample := none })).raise F.adcStatusSvLost).post 0x0607 []))))
    ∧ (∀ (n : Nat) (s : State), let m := s.start; Up s → (m.stream n).state ≠ .active → 
      exec (.svLostTimeout n) s = .next (s.to (m)))
    ∧ (∀ (f : GooseFrame) (s : State), let m := s.start; m.working = true → portTakes m f.port f.dest = true → f.sim = false → f.rct = none → 
      exec (.gooseFrame f) s = .next (s.to ((List.range 128).foldl (gooseStream f) m)))
    ∧ (∀ (f : GooseFrame) (s : State), let m := s.start; (portTakes m f.port f.dest = false ∨ f.sim = true) → 
      exec (.gooseFrame f) s = .next (s.to (m)))
    ∧ (∀ (n a : Nat) (x : GoosePub) (g : GooseCfg) (s : State), let m := s.start; m.working = true → m.net.pubs[n]? = some x → x.cfg = some g → x.sent = true → x.due = false → 
      exec (.gooseRetransmit ⟨n, a⟩) s = .next (s.to (let y := { x with sqNum := wrapTo1 x.sqNum, elapsed := x.elapsed + x.interval, interval := min (x.elapsed + x.interval) (1000 * g.tMax) }; let m1 := { m with net := { m.net with pubs := setAt m.net.pubs n y } };
        queueFrame g.ports true (fun _ rct => ⟨.goose, a, m1.net.txOrder, none, false, 0, 0, .goose (gooseOut g y) rct⟩) m1)))
    ∧ (∀ (n a : Nat) (x : GoosePub) (s : State), let m := s.start; m.net.pubs[n]? = some x → (x.cfg = none ∨ x.sent = false ∨ x.due = true) → 
      exec (.gooseRetransmit ⟨n, a⟩) s = .next (s.to (m)))
    ∧ (∀ (n : Nat) (g : GooseCfg) (s : State), let m := s.start; m.working = true → 32 ≤ n → (m.gooseSub (n - 32)).state = .active → (m.gooseSub (n - 32)).cfg = some g → 
      exec (.gooseTalExpiry n) s = .next (s.to (((gooseHold g (m.setGooseSub (n - 32) { (m.gooseSub (n - 32)) with state := .lost, waiting := none })).post 0x0702 []))))
    ∧ (∀ (n : Nat) (s : State), let m := s.start; (n < 32 ∨ (m.gooseSub (n - 32)).state ≠ .active) → 
      exec (.gooseTalExpiry n) s = .next (s.to (m)))
    ∧ (∀ (p x src a : Nat) (b : List Byte) (g : FarCfg) (s : State), let m := s.start; m.working = true → portTakes m p x = true → siphonLost m 14 = false → farOk b = true → fieldLE b 3 1 ≤ 3 → (m.farCh (fieldLE b 3 1)).cfg = some g → g.rxEn = true → g.linkId = fieldLE b 4 4 → (m.farCh (fieldLE b 3 1)).lastSeq = none → (m.farCh (fieldLE b 3 1)).state = 1 → fieldLE b 2 1 = 1 → tooLate m a = false → m.tb.timeValid = false → 
      exec (.farTelegram ⟨p, x⟩ src none b a) s = .next (s.to ((m.setFar (fieldLE b 3 1) { (m.farCh (fieldLE b 3 1)) with state := 2, lastSeq := some (fieldLE b 8 8), loss := incSat 32 (m.farCh (fieldLE b 3 1)).loss 0, lossRun := false, noTime := bitOf (fieldLE b 0x1C 1) 1, heardAt := a, data := some ((List.range (fieldLE b 0x1E 2 / 8)).map fun j => (fieldLE b (0x20 + 8 * j) 4, fieldLE b (0x24 + 8 * j) 1)) }).post 0x0705 [])))
    ∧ (∀ (p x src a : Nat) (r : Option Nat) (b : List Byte) (s : State), let m := s.start; (portTakes m p x = false ∨ farOk b = false) → 
      exec (.farTelegram ⟨p, x⟩ src r b a) s = .next (s.to (m)))
    ∧ (∀ (c : Nat) (g : FarCfg) (s : State), let m := s.start; m.working = true → (m.farCh c).cfg = some g → (m.farCh c).state = 2 → 
      exec (.farLossTimeout c) s = .next (s.to (((List.range g.count).foldl (fun m j => m.invalidate (farBase c + 0x10 + j) true) (m.setFar c { m.farCh c with state := 3, data := none, lateData := none })).post 0x0706 [])))
    ∧ (∀ (c : Nat) (s : State), let m := s.start; (m.farCh c).state ≠ 2 → 
      exec (.farLossTimeout c) s = .next (s.to (m)))

/-- In a device that works: a lost link sets LINK_LOST and posts its event, a link that returns posts its own, and no change changes nothing; an unknown frame to an address that its port takes and a bad frame on an enabled port are counted, others not; in a device that is up the first frame of a port that is ready leaves it, where the unit sends its kind (a safety telegram stamps with its SEND_T the copies of it that wait yet), and a timed frame that is not in the transmit buffer expires; with no frame ready nothing leaves; a supervision frame adds its source to a node table that has room; supervision frames enter the queues of the enabled ports under PRP; a node that falls silent is forgotten. Model's choice: how a row stands for what happens is that of log entries 4, 5, 6, 9. Clauses rest on the model's own choices or readings of log entries 140, 142. (spec/11_station_networks.md (R337, R338, R339, R340, R341, R347, R353, R354, R366)) -/
def Obligations.EthernetPortStepsComplete : Prop :=
  (∀ (p : Nat) (s : State), let m := s.start; m.working = true → p < 2 → (m.ethPort p).link = true → 
      exec (.ethLinkChange p false) s = .next (s.to (((m.setEthPort p { m.ethPort p with link := false }).raise F.ethStatusLinkLost).post 0x0708 [])))
    ∧ (∀ (p : Nat) (s : State), let m := s.start; m.working = true → p < 2 → (m.ethPort p).link = false → 
      exec (.ethLinkChange p true) s = .next (s.to ((m.setEthPort p { m.ethPort p with link := true }).post 0x0709 [])))
    ∧ (∀ (p : Nat) (u : Bool) (s : State), let m := s.start; (m.ethPort p).link = u → 
      exec (.ethLinkChange p u) s = .next (s.to (m)))
    ∧ (∀ (p x : Nat) (s : State), let m := s.start; m.working = true → portTakes m p x = true → 
      exec (.ethUnknownFrame ⟨p, x⟩) s = .next (s.to (m.bump (F.ethCountRxUnknown p) 1)))
    ∧ (∀ (p x : Nat) (s : State), let m := s.start; portTakes m p x = false → 
      exec (.ethUnknownFrame ⟨p, x⟩) s = .next (s.to (m)))
    ∧ (∀ (p : Nat) (s : State), let m := s.start; m.working = true → portEn m p = true → 
      exec (.ethBadFrame p) s = .next (s.to (m.bump (F.ethCountRxBad p) 1)))
    ∧ (∀ (p : Nat) (s : State), let m := s.start; portEn m p = false → 
      exec (.ethBadFrame p) s = .next (s.to (m)))
    ∧ (∀ (p st : Nat) (busy b : Bool) (f : TxFrame) (x : List Byte) (s : State), let m := s.start; Up s → portEn m p = true → (m.ethPort p).queue.find? (fun f => decide (f.at_ * 65536 ≤ st) && !siphonLost m (10 + p) && !siphonLost m (f.kind.channel p)) = some f → f.kind ≠ .timed → f.tsRec = false → f.cmd = none → f.body = .raw x → 
      exec (.ethFrameDeparture p st busy b) s = .next (s.to (let m1 := m.setEthPort p { m.ethPort p with queue := (m.ethPort p).queue.erase f }; if kindLeaves m f.kind then m1.send (.eth p x) else m1)))
    ∧ (∀ (p st : Nat) (busy b : Bool) (f : TxFrame) (o : TelOut) (s : State), let m := s.start; Up s → portEn m p = true → (m.ethPort p).queue.find? (fun f => decide (f.at_ * 65536 ≤ st) && !siphonLost m (10 + p) && !siphonLost m (f.kind.channel p)) = some f → f.kind ≠ .timed → f.tsRec = false → f.cmd = none → f.body = .tel o → 
      exec (.ethFrameDeparture p st busy b) s = .next (s.to (let m1 := stampCopies f (m.setEthPort p { m.ethPort p with queue := (m.ethPort p).queue.erase f }); if kindLeaves m f.kind then m1.send (f.out m p) else m1)))
    ∧ (∀ (p st r q : Nat) (busy : Bool) (f : TxFrame) (x : List Byte) (s : State), let m := s.start; Up s → portEn m p = true → (m.ethPort p).queue.find? (fun f => decide (f.at_ * 65536 ≤ st) && !siphonLost m (10 + p) && !siphonLost m (f.kind.channel p)) = some f → f.kind = .timed → f.cmd = some (r, q) → f.body = .raw x → 
      exec (.ethFrameDeparture p st busy false) s = .next (s.to (let m1 := m.setEthPort p { m.ethPort p with queue := (m.ethPort p).queue.erase f };
        completeLater r q (fin stEXPIRED) { m1 with net := { m1.net with timed := m1.net.timed.filter fun t => !(t.ring == r && t.seq == q) } })))
    ∧ (∀ (p st : Nat) (busy b : Bool) (s : State), let m := s.start; Up s → (portEn m p = false ∨ (m.ethPort p).queue.find? (fun f => decide (f.at_ * 65536 ≤ st) && !siphonLost m (10 + p) && !siphonLost m (f.kind.channel p)) = none) → 
      exec (.ethFrameDeparture p st busy b) s = .next (s.to (m)))
    ∧ (∀ (p x src : Nat) (s : State), let m := s.start; m.working = true → portTakes m p x = true → m.flag F.ethCtrlPrpEn = true → m.net.nodes.any (fun x => x.src == src) = false → m.net.nodes.length < 512 → 
      exec (.prpSupervisionFrame ⟨p, x⟩ src) s = .next (s.to ({ m with net := { m.net with nodes := m.net.nodes ++ [⟨src, []⟩], prpFullRun := false } })))
    ∧ (∀ (p x src : Nat) (s : State), let m := s.start; (portTakes m p x = false ∨ m.flag F.ethCtrlPrpEn = false ∨ m.net.nodes.any (fun x => x.src == src) = true) → 
      exec (.prpSupervisionFrame ⟨p, x⟩ src) s = .next (s.to (m)))
    ∧ (∀ (s : State), let m := s.start; m.working = true → m.flag F.ethCtrlPrpEn = true → 
      exec .prpSupervisionTx s = .next (s.to (queueFrame 3 false (fun _ _ => ⟨.prp, m.now, m.net.txOrder, none, false, 0, 0, .prpSup⟩) m)))
    ∧ (∀ (s : State), let m := s.start; m.flag F.ethCtrlPrpEn = false → 
      exec .prpSupervisionTx s = .next (s.to (m)))
    ∧ (∀ (src : Nat) (s : State), let m := s.start; m.working = true → 
      exec (.prpNodeForget src) s = .next (s.to ({ m with net := { m.net with nodes := m.net.nodes.filter fun x => x.src != src } })))

/-- In a device that works, on channel 0 or 1: a frame received outside a search by a channel that listens only counts, and is kept in the lowest mailbox whose filter takes it, its overwrites and its frames counted; an acknowledged frame completes its command with the retransmissions and the instant of its start, and the next one may start; a bit error as receiver raises the receive error count and sends an error frame, and where the channel listens only, or the device is in SAFE, it changes nothing; recovery from bus-off with AUTO_RECOVER clears the counts and posts its event; a waiting schedule comes into force at the start of its matrix, and a basic cycle of the one in force starts on its grid; an entry ends the window before it, where an EXCLUSIVE frame that has not started by then is missed with its flag, count and event; an ARBITRATING entry opens its window, an EXCLUSIVE one lets its frame start, at once where the bus is idle, and an RX_CHECK looks at its mailbox; a search tries its next nominal set, ends with the found set, or ends with DONE_EMPTY where none is found. A channel with no frame under way, not bus-off, without an entry at the instant, or without a search is as before. Model's choice: how a row stands for what happens is that of log entries 4, 5, 6, 9. Clauses rest on the model's own choices or readings of log entries 147, 148, 150, 257, 258. (spec/11_station_networks.md (R354, R357, R358, R359, R361, R362, R363, R365)) -/
def Obligations.CanStepsComplete : Prop :=
  (∀ (c b : Nat) (f : CanFrame) (g : CanCfg) (s : State), let m := s.start; m.working = true → c < 2 → (m.canCh c).state < 2 → siphonLost m (16 + c) = false → (m.canCh c).auto = none → (m.canCh c).listen = true → (m.canCh c).exclWait = none → canStateOf (m.canCh c) = (m.canCh c).state → f.remote = false → boxFor (m.canCh c) f = some b → ((m.canCh c).boxes.getD b mailboxInit).silent = false → (m.canCh c).cfg = some g → (g.filters.getD b ⟨0, false, false, 0, false⟩).record = false → 
      exec (.canFrameReceived c f) s = .next (s.to (let o := (m.canCh c).boxes.getD b mailboxInit;
        (m.setF (F.canCountRxOk c) ((m.reg.raw (F.canCountRxOk c) + 1) % 65536)).setCan c { m.canCh c with boxes := setAt (m.canCh c).boxes b ⟨some f, if o.frame.isSome then incSat 8 o.overwrite 1 else o.overwrite, o.count + 1, true, false⟩ })))
    ∧ (∀ (c : Nat) (f : CanFrame) (s : State), let m := s.start; (1 < c ∨ 2 ≤ (m.canCh c).state ∨ siphonLost m (16 + c) = true) → 
      exec (.canFrameReceived c f) s = .next (s.to (m)))
    ∧ (∀ (c n sof a : Nat) (f : CanTx) (s : State), let m := s.start; m.working = true → (m.canCh c).exclusive = none → (m.canCh c).txq.any CanTx.started = true → let m1 := canSettle c ((m.setCan c { m.canCh c with txErr := (m.canCh c).txErr - 1 }).setF (F.canCountTxOk c) ((m.reg.raw (F.canCountTxOk c) + 1) % 65536)); (m1.canCh c).exclusive = none ∧ (m1.canCh c).txq.find? CanTx.started = some f → 
      exec (.canTxAck c n sof a) s = .next (s.to (canStart c a (canFinish c f ⟨stDONE, n, sof, 0, []⟩ ⟨stDONEEMPTY, 1, 0, 0, []⟩ (canSettle c ((m.setCan c { m.canCh c with txErr := (m.canCh c).txErr - 1 }).setF (F.canCountTxOk c) ((m.reg.raw (F.canCountTxOk c) + 1) % 65536)))))))
    ∧ (∀ (c n sof a : Nat) (s : State), let m := s.start; (m.canCh c).exclusive = none → (m.canCh c).txq.any CanTx.started = false → 
      exec (.canTxAck c n sof a) s = .next (s.to (m)))
    ∧ (∀ (c w bp a : Nat) (arb col : Bool) (s : State), let m := s.start; m.working = true → c < 2 → (m.canCh c).state < 2 → (m.canCh c).auto = none → (m.canCh c).listen = false → netDrives m = true → m.dev.state ≠ .safe → 
      exec (.canBitError c false w bp a arb col) s = .next (s.to (canSettle c (((m.setCan c { m.canCh c with rxErr := min ((m.canCh c).rxErr + if Config.canException c a then 8 else 1) 255 }).send (.canError c)).bump (F.canErrErrFrames c) 1))))
    ∧ (∀ (c w bp a : Nat) (tx arb col : Bool) (s : State), let m := s.start; (m.canCh c).auto = none → ((m.canCh c).listen = true ∨ netDrives m = false ∨ m.dev.state = .safe) → 
      exec (.canBitError c tx w bp a arb col) s = .next (s.to (m)))
    ∧ (∀ (c : Nat) (s : State), let m := s.start; m.working = true → (m.canCh c).state = 2 → m.flag (if c = 0 then F.canCtrlAutoRecover0 else F.canCtrlAutoRecover1) = true → 
      exec (.canBusRecovery c) s = .next (s.to (canStart c m.now ((m.setCan c { m.canCh c with state := 0, txErr := 0, rxErr := 0 }).post 0x070E []))))
    ∧ (∀ (c : Nat) (s : State), let m := s.start; (m.canCh c).state ≠ 2 → 
      exec (.canBusRecovery c) s = .next (s.to (m)))
    ∧ (∀ (c a r q : Nat) (x : CanSched) (s : State), let m := s.start; m.working = true → (m.canCh c).schedNext = some (x, r, q) → fromAnchor m a % ((1000 * x.len * x.cycles : Nat) : Int) = 0 → 
      exec (.canCycleStart c a) s = .next (s.to (let m1 := slotEnds c m; canStart c a (m1.setCan c { m1.canCh c with sched := some x, schedNext := none, schedDone := some (r, q), base := a, cycle := 0, window := false, checks := List.replicate 64 (none, false), tplData := (m1.canCh c).tplNext, tplNext := [] }))))
    ∧ (∀ (c a : Nat) (x : CanSched) (s : State), let m := s.start; m.working = true → (m.canCh c).schedNext = none → (m.canCh c).sched = some x → fromAnchor m a % ((1000 * x.len : Nat) : Int) = 0 → 
      exec (.canCycleStart c a) s = .next (s.to (let m1 := slotEnds c m; m1.setCan c { m1.canCh c with base := a, cycle := ((fromAnchor m a / ((1000 * x.len : Nat) : Int)) % (x.cycles : Int)).toNat, window := false })))
    ∧ (∀ (c a : Nat) (s : State), let m := s.start; (m.canCh c).schedNext = none → (m.canCh c).sched = none → 
      exec (.canCycleStart c a) s = .next (s.to (m)))
    ∧ (∀ (c i a : Nat) (st : Bool) (e : CanEntry) (s : State), let m := s.start; m.working = true → ((m.canCh c).sched.bind fun x => x.entries[i]?) = some e → (a : Int) - (m.canCh c).base = (1000 * e.ofs : Nat) → bitOf e.cycleMask (m.canCh c).cycle = true → e.kind = 2 → 
      exec (.canScheduleEntry c i a st) s = .next (s.to (let m1 := slotEnds c m; canStart c a (m1.setCan c { m1.canCh c with window := true }))))
    ∧ (∀ (c i a : Nat) (st : Bool) (e : CanEntry) (s : State), let m := s.start; m.working = true → ((m.canCh c).sched.bind fun x => x.entries[i]?) = some e → (a : Int) - (m.canCh c).base = (1000 * e.ofs : Nat) → bitOf e.cycleMask (m.canCh c).cycle = true → e.kind = 1 → 
      exec (.canScheduleEntry c i a st) s = .next (s.to (let m1 := slotEnds c m; let m2 := m1.setCan c { m1.canCh c with window := false, exclWait := some e.which }; if st then canStart c a m2 else m2)))
    ∧ (∀ (c i a : Nat) (st : Bool) (e : CanEntry) (s : State), let m := s.start; m.working = true → ((m.canCh c).sched.bind fun x => x.entries[i]?) = some e → (a : Int) - (m.canCh c).base = (1000 * e.ofs : Nat) → bitOf e.cycleMask (m.canCh c).cycle = true → e.kind = 3 → 
      exec (.canScheduleEntry c i a st) s = .next (s.to (rxCheck c i e.which (slotEnds c m))))
    ∧ (∀ (c i a w : Nat) (st : Bool) (e : CanEntry) (s : State), let m := s.start; m.working = true → ((m.canCh c).sched.bind fun x => x.entries[i]?) = some e → (a : Int) - (m.canCh c).base = (1000 * e.ofs : Nat) → bitOf e.cycleMask (m.canCh c).cycle = true → e.kind = 3 → (m.canCh c).exclWait = some w → (m.canCh c).missRun = false → 
      exec (.canScheduleEntry c i a st) s = .next (s.to (rxCheck c i e.which ((((m.setCan c { m.canCh c with exclWait := none, exclOver := true, missRun := true }).raise F.canStatusSlotMiss).bump (F.canCountSlotMissed c) 1).post 0x070F []))))
    ∧ (∀ (c i a : Nat) (st : Bool) (s : State), let m := s.start; ((m.canCh c).sched.bind fun x => x.entries[i]?) = none → 
      exec (.canScheduleEntry c i a st) s = .next (s.to (m)))
    ∧ (∀ (c : Nat) (g : CanAuto) (s : State), let m := s.start; m.working = true → (m.canCh c).auto = some g → g.found = false → 
      exec (.canAutobaudDwell c) s = .next (s.to (m.setCan c { m.canCh c with auto := some { g with idx := (g.idx + 1) % max g.nominal.length 1, good := 0 } })))
    ∧ (∀ (c : Nat) (g : CanAuto) (s : State), let m := s.start; m.working = true → (m.canCh c).auto = some g → g.found = true → 
      exec (.canAutobaudDwell c) s = .next (s.to (completeLater g.ring g.seq ⟨stDONE, 0xFF, g.idx, 0, []⟩ (m.setCan c { m.canCh c with auto := none }))))
    ∧ (∀ (c : Nat) (g : CanAuto) (s : State), let m := s.start; m.working = true → (m.canCh c).auto = some g → g.found = false → 
      exec (.canAutobaudTimeout c) s = .next (s.to (completeLater g.ring g.seq (fin stDONEEMPTY) (m.setCan c { m.canCh c with auto := none }))))
    ∧ (∀ (c : Nat) (s : State), let m := s.start; (m.canCh c).auto = none → 
      exec (.canAutobaudTimeout c) s = .next (s.to (m)))

/-- In a device that works: the first carrier of an enabled channel starts at its phase after the boundary whose restart is the next and a following one at the end of the last, with its settings reloaded and an override or release that waits for it taken; with ALIGN a restart cuts a running carrier short, with CUT and its event; a channel that is not enabled starts none; a compare match ends the high part of the reference; a dead time that has passed turns its side on; a trigger whose divider comes round triggers the urgent slots of the channel; in a device that is up an enabled trip input latches with the time of its fall and acts on its channels, one latched already only becomes active; a bootstrap under-voltage of a Lantern driver sets its flag and posts its event, its recovery frees the next carrier start, a refresh of a driver whose high side is on begins, is counted, and goes on through its pulse to its end, and a short circuit on a side that is on is counted and flagged. Model's choice: how a row stands for what happens is that of log entries 4, 5, 6, 9. Clauses rest on the model's own choices or readings of log entries 152, 153, 228, 261, 264. (spec/12_bridge_outputs_and_lantern.md (R371, R372, R373, R375, R377, R378, R383, R384, R385)) -/
def Obligations.PwmAndLanternStepsComplete : Prop :=
  (∀ (n : Nat) (b : Nat × Nat) (s : State), let m := s.start; m.working = true → pwmEnabled m n = true → (m.pwmCh n).startAt = none → restartFor m (m.pwmCh n).restartK (carrierPhase m n) = some b → (m.pwmCh n).pend = none → 
      exec (.pwmCarrierStart n true) s = .next (s.to (let t := 16 * b.2 + carrierPhase m n; let e : PwmCh := { reload m n (m.pwmCh n) with startAt := some t, restartK := some b.1, cutRun := false, ref := decide (0 < (reload m n (m.pwmCh n)).cmp), resuming := false }; follow n t { m.setPwm n e with pwm := { (m.setPwm n e).pwm with lan := match m.pwm.lan[n]? with | some x => setAt m.pwm.lan n { x with uvHold := x.uvHold && !x.recovered, recovered := false } | none => m.pwm.lan } })))
    ∧ (∀ (n : Nat) (b : Nat × Nat) (p : Nat × Option (Bool × Bool)) (s : State), let m := s.start; m.working = true → pwmEnabled m n = true → (m.pwmCh n).startAt = none → restartFor m (m.pwmCh n).restartK (carrierPhase m n) = some b → (m.pwmCh n).pend = some p ∧ p.1 < (16 * b.2 + carrierPhase m n) / 32 → 
      exec (.pwmCarrierStart n true) s = .next (s.to (let t := 16 * b.2 + carrierPhase m n; let e : PwmCh := { reload m n (m.pwmCh n) with startAt := some t, restartK := some b.1, cutRun := false, ref := decide (0 < (reload m n (m.pwmCh n)).cmp), resuming := false, forced := p.2, pend := none }; follow n t { m.setPwm n e with pwm := { (m.setPwm n e).pwm with lan := match m.pwm.lan[n]? with | some x => setAt m.pwm.lan n { x with uvHold := x.uvHold && !x.recovered, recovered := false } | none => m.pwm.lan } })))
    ∧ (∀ (n a : Nat) (s : State), let m := s.start; m.working = true → pwmEnabled m n = true → (m.pwmCh n).startAt = some a → (m.pwmCh n).pend = none → 
      exec (.pwmCarrierStart n false) s = .next (s.to (let e : PwmCh := { reload m n (m.pwmCh n) with startAt := some (a + carrierTicks (m.pwmCh n)), ref := decide (0 < (reload m n (m.pwmCh n)).cmp), resuming := false }; follow n (a + carrierTicks (m.pwmCh n)) { m.setPwm n e with pwm := { (m.setPwm n e).pwm with lan := match m.pwm.lan[n]? with | some x => setAt m.pwm.lan n { x with uvHold := x.uvHold && !x.recovered, recovered := false } | none => m.pwm.lan } })))
    ∧ (∀ (n a : Nat) (p : Nat × Option (Bool × Bool)) (s : State), let m := s.start; m.working = true → pwmEnabled m n = true → (m.pwmCh n).startAt = some a → (m.pwmCh n).pend = some p ∧ p.1 < (a + carrierTicks (m.pwmCh n)) / 32 → 
      exec (.pwmCarrierStart n false) s = .next (s.to (let e : PwmCh := { reload m n (m.pwmCh n) with startAt := some (a + carrierTicks (m.pwmCh n)), ref := decide (0 < (reload m n (m.pwmCh n)).cmp), resuming := false, forced := p.2, pend := none }; follow n (a + carrierTicks (m.pwmCh n)) { m.setPwm n e with pwm := { (m.setPwm n e).pwm with lan := match m.pwm.lan[n]? with | some x => setAt m.pwm.lan n { x with uvHold := x.uvHold && !x.recovered, recovered := false } | none => m.pwm.lan } })))
    ∧ (∀ (n a : Nat) (b : Nat × Nat) (s : State), let m := s.start; m.working = true → pwmEnabled m n = true → (m.pwmCh n).startAt = some a → m.flag (F.pwmPerAlign n) = true → restartFor m (m.pwmCh n).restartK (m.pwmCh n).phase = some b → (m.pwmCh n).pend = none → 16 * b.2 + (m.pwmCh n).phase < a + carrierTicks (m.pwmCh n) → (m.pwmCh n).cutRun = false → 
      exec (.pwmCarrierStart n true) s = .next (s.to (let t := 16 * b.2 + (m.pwmCh n).phase; let m1 := (m.raise F.pwmStatusCut).post 0x0C07 []; let e : PwmCh := { reload m n (m.pwmCh n) with startAt := some t, restartK := some b.1, cutRun := true, ref := decide (0 < (reload m n (m.pwmCh n)).cmp), resuming := false }; follow n t { m1.setPwm n e with pwm := { (m1.setPwm n e).pwm with lan := match m.pwm.lan[n]? with | some x => setAt m.pwm.lan n { x with uvHold := x.uvHold && !x.recovered, recovered := false } | none => m.pwm.lan } })))
    ∧ (∀ (n a : Nat) (s : State), let m := s.start; (m.pwmCh n).startAt = some a → m.flag (F.pwmPerAlign n) = false → 
      exec (.pwmCarrierStart n true) s = .next (s.to (m)))
    ∧ (∀ (n : Nat) (r : Bool) (s : State), let m := s.start; pwmEnabled m n = false → 
      exec (.pwmCarrierStart n r) s = .next (s.to (m)))
    ∧ (∀ (n a : Nat) (s : State), let m := s.start; m.working = true → (m.pwmCh n).startAt = some a → (m.pwmCh n).cmp < carrierTicks (m.pwmCh n) → 
      exec (.pwmCompareMatch n) s = .next (s.to (follow n (a + (m.pwmCh n).cmp) (m.setPwm n { m.pwmCh n with ref := false }))))
    ∧ (∀ (n : Nat) (s : State), let m := s.start; ((m.pwmCh n).startAt = none ∨ carrierTicks (m.pwmCh n) ≤ (m.pwmCh n).cmp) → 
      exec (.pwmCompareMatch n) s = .next (s.to (m)))
    ∧ (∀ (n : Nat) (s : State), let m := s.start; m.working = true → (m.pwmCh n).deadH = true → 
      exec (.deadTimeExpiry n .high) s = .next (s.to (m.setPwm n { m.pwmCh n with deadH := false, h := (m.pwmCh n).wantH })))
    ∧ (∀ (n : Nat) (s : State), let m := s.start; m.working = true → (m.pwmCh n).deadL = true → 
      exec (.deadTimeExpiry n .low) s = .next (s.to (m.setPwm n { m.pwmCh n with deadL := false, l := (m.pwmCh n).wantL })))
    ∧ (∀ (n : Nat) (s : State), let m := s.start; (m.pwmCh n).deadH = false → 
      exec (.deadTimeExpiry n .high) s = .next (s.to (m)))
    ∧ (∀ (n : Nat) (s : State), let m := s.start; (m.pwmCh n).deadL = false → 
      exec (.deadTimeExpiry n .low) s = .next (s.to (m)))
    ∧ (∀ (n a : Nat) (s : State), let m := s.start; m.working = true → (m.pwmCh n).startAt = some a → pwmEnabled m n = true → 0 < (m.pwmCh n).trgDiv → (m.pwmCh n).trgCmp < carrierTicks (m.pwmCh n) → 0 < (m.pwmCh n).carriers → (m.pwmCh n).carriers % (m.pwmCh n).trgDiv = 0 → 
      exec (.pwmTrigger n) s = .next (s.to (triggerSlots (4 + n) ((a + (m.pwmCh n).trgCmp) / 16) m)))
    ∧ (∀ (n : Nat) (s : State), let m := s.start; ((m.pwmCh n).startAt = none ∨ pwmEnabled m n = false ∨ (m.pwmCh n).trgDiv = 0) → 
      exec (.pwmTrigger n) s = .next (s.to (m)))
    ∧ (∀ (t ns : Nat) (s : State), let m := s.start; Up s → t < 8 → bitOf (m.fld F.tripCfgTripEn) t = true → bitOf m.pwm.latched t = false → 
      exec (.tripLatch t ns) s = .next (s.to (tripAct (ticksOfNs m ns) { m with pwm := { m.pwm with active := m.pwm.active ||| 2 ^ t, latched := m.pwm.latched ||| 2 ^ t, tripEv := m.pwm.tripEv ++ [(t, ns)] } })))
    ∧ (∀ (t ns : Nat) (s : State), let m := s.start; Up s → t < 8 → bitOf (m.fld F.tripCfgTripEn) t = true → bitOf m.pwm.latched t = true → 
      exec (.tripLatch t ns) s = .next (s.to ({ m with pwm := { m.pwm with active := m.pwm.active ||| 2 ^ t } })))
    ∧ (∀ (t ns : Nat) (s : State), let m := s.start; Up s → (7 < t ∨ bitOf (m.fld F.tripCfgTripEn) t = false) → 
      exec (.tripLatch t ns) s = .next (s.to (m)))
    ∧ (∀ (n : Nat) (x : Lantern) (s : State), let m := s.start; m.working = true → m.pwm.lan[n]? = some x → x.uvHold = false → 
      exec (.bootUv n) s = .next (s.to (({ m with pwm := { m.pwm with lan := setAt m.pwm.lan n ⟨true, false, .none⟩ } }.setF F.lanStatusBootUv (putBits (m.reg.raw F.lanStatusBootUv) n 1 1)).post 0x0C05 [n])))
    ∧ (∀ (n : Nat) (x : Lantern) (s : State), let m := s.start; m.pwm.lan[n]? = some x → x.uvHold = true → x.recovered = false → 
      exec (.bootUv n) s = .next (s.to (m)))
    ∧ (∀ (n : Nat) (x : Lantern) (s : State), let m := s.start; m.working = true → m.pwm.lan[n]? = some x → 
      exec (.bootUvRecover n) s = .next (s.to ({ m with pwm := { m.pwm with lan := setAt m.pwm.lan n { x with recovered := x.uvHold } } })))
    ∧ (∀ (n : Nat) (s : State), let m := s.start; m.working = true → lanLevel m .high n = true → (m.pwm.lan.getD n lanternInit).refresh = .none → 
      exec (.bootstrapRefresh n) s = .next (s.to (let m1 := (m.send (.refresh n (m.fld F.lanBootLsMin))).bump F.lanCountRefreshCnt 1; { m1 with pwm := { m1.pwm with lan := modAt m1.pwm.lan n fun x => { x with refresh := .before } } })))
    ∧ (∀ (n : Nat) (s : State), let m := s.start; m.working = true → (m.pwm.lan.getD n lanternInit).refresh = .before → 
      exec (.bootstrapRefresh n) s = .next (s.to ({ m with pwm := { m.pwm with lan := modAt m.pwm.lan n fun x => { x with refresh := .pulse } } })))
    ∧ (∀ (n : Nat) (s : State), let m := s.start; m.working = true → (m.pwm.lan.getD n lanternInit).refresh = .pulse → 
      exec (.bootstrapRefresh n) s = .next (s.to ({ m with pwm := { m.pwm with lan := modAt m.pwm.lan n fun x => { x with refresh := .after } } })))
    ∧ (∀ (n : Nat) (s : State), let m := s.start; m.working = true → (m.pwm.lan.getD n lanternInit).refresh = .after → 
      exec (.bootstrapRefresh n) s = .next (s.to ({ m with pwm := { m.pwm with lan := modAt m.pwm.lan n fun x => { x with refresh := .none } } })))
    ∧ (∀ (n : Nat) (s : State), let m := s.start; lanLevel m .high n = false → (m.pwm.lan.getD n lanternInit).refresh = .none → 
      exec (.bootstrapRefresh n) s = .next (s.to (m)))
    ∧ (∀ (n ns : Nat) (s : State), let m := s.start; m.working = true → lanLevel m .high n = true → 
      exec (.lanternShort n .high ns) s = .next (s.to (let m1 := (m.setF F.lanStatusScH (putBits (m.reg.raw F.lanStatusScH) n 1 1)).bump F.lanCountScCnt 1; { m1 with pwm := { m1.pwm with shortEv := m1.pwm.shortEv ++ [(n, 0, ns)] } })))
    ∧ (∀ (n ns : Nat) (s : State), let m := s.start; m.working = true → lanLevel m .low n = true → 
      exec (.lanternShort n .low ns) s = .next (s.to (let m1 := (m.setF F.lanStatusScL (putBits (m.reg.raw F.lanStatusScL) n 1 1)).bump F.lanCountScCnt 1; { m1 with pwm := { m1.pwm with shortEv := m1.pwm.shortEv ++ [(n, 1, ns)] } })))
    ∧ (∀ (n ns : Nat) (y : Side) (s : State), let m := s.start; lanLevel m y n = false → 
      exec (.lanternShort n y ns) s = .next (s.to (m)))

/-- In a device that has its supply and is out of reset: a test-pulse window is sent and checked on the eight inputs, and the outputs are evaluated anew; a discrepancy whose timer has reached DISC_T on an enabled input latches, drops the outputs whose function names the input, and posts the event with the input and the channel still closed; a dark test of an energised output switches the channel off for SO_TEST, and one that fails, like a readback fault, latches the fault (not clearable by a self-test already under way), drops the output and posts the event; a test due on a periodic input whose hours have reached TEST_INT sets its flag and posts its event, once; one overdue by TEST_GRACE makes the input untested and drops the outputs that need it. Without a safety configuration, on an input not enabled, not periodic, with hours short of the interval, with no discrepancy that has reached DISC_T or already latched, and for a dark test that finds the output off, the step changes nothing. Model's choice: how a row stands for what happens is that of log entries 4, 5, 6, 9. Clauses rest on the model's own choices or readings of log entries 231, 265, 267. (spec/13_safety_functions.md (R394, R395, R398, R399, R401, R402)) -/
def Obligations.SafetyInputAndOutputStepsComplete : Prop :=
  (∀ (stp sia sib : Nat) (g : SafeCfg) (s : State), let m := s.start; m.alive = true → m.safety.cfg = some g → stp ≤ 3 → 
      exec (.testPulse stp sia sib) s = .next (s.to (evalOuts ((List.range 8).foldl (pulseIn stp sia sib) (m.send (.testPulse stp))))))
    ∧ (∀ (stp sia sib : Nat) (s : State), let m := s.start; m.alive = true → (m.safety.cfg = none ∨ 3 < stp) → 
      exec (.testPulse stp sia sib) s = .next (s.to (m)))
    ∧ (∀ (i n : Nat) (s : State), let m := s.start; m.alive = true → (m.inCfg i).en = true → (m.safeIn i).disc = some n → 20 * (m.inCfg i).discT ≤ n → (m.safeIn i).discLatch = false → 
      exec (.safetyDiscrepancy i) s = .next (s.to (evalOuts (dropFor i true ((m.setIn i { m.safeIn i with discLatch := true, openSeen := false, closedSeen := false }).post 0x0902 [i, (m.safeIn i).discChan])))))
    ∧ (∀ (i : Nat) (s : State), let m := s.start; m.alive = true → ((m.inCfg i).en = false ∨ (m.safeIn i).disc = none ∨ (m.safeIn i).discLatch = true) → 
      exec (.safetyDiscrepancy i) s = .next (s.to (m)))
    ∧ (∀ (i n : Nat) (s : State), let m := s.start; m.alive = true → (m.safeIn i).disc = some n → n < 20 * (m.inCfg i).discT → 
      exec (.safetyDiscrepancy i) s = .next (s.to (m)))
    ∧ (∀ (o : Nat) (b ok : Bool) (s : State), let m := s.start; m.alive = true → (m.safeOut o).on = false → 
      exec (.soDarkTest o b ok) s = .next (s.to (m)))
    ∧ (∀ (o : Nat) (b : Bool) (g : SafeCfg) (s : State), let m := s.start; m.alive = true → m.safety.cfg = some g → (m.safeOut o).on = true → 
      exec (.soDarkTest o b true) s = .next (s.to (m.send (.darkTest o (b2n b) g.soTest))))
    ∧ (∀ (o : Nat) (b : Bool) (g : SafeCfg) (s : State), let m := s.start; m.alive = true → m.safety.cfg = some g → o ≤ 3 → (m.safeOut o).on = true → 
      exec (.soDarkTest o b false) s = .next (s.to (let m1 := m.send (.darkTest o (b2n b) g.soTest); (outOff true o (m1.setOut o { m1.safeOut o with outLatch := true, clearable := false, midRun := !m1.safety.selfTest.isEmpty })).post 0x0904 [o, b2n b])))
    ∧ (∀ (o : Nat) (b : Bool) (s : State), let m := s.start; m.alive = true → o ≤ 3 → 
      exec (.soReadbackFault o b) s = .next (s.to ((outOff true o (m.setOut o { m.safeOut o with outLatch := true, clearable := false, midRun := !m.safety.selfTest.isEmpty })).post 0x0904 [o, b2n b])))
    ∧ (∀ (o : Nat) (b : Bool) (s : State), let m := s.start; m.alive = true → 3 < o → 
      exec (.soReadbackFault o b) s = .next (s.to (m)))
    ∧ (∀ (i : Nat) (g : SafeCfg) (s : State), let m := s.start; m.alive = true → m.safety.cfg = some g → (m.inCfg i).en = true → (m.inCfg i).periodic = true → g.testInt ≤ (m.safeIn i).hours → (m.safeIn i).due = false → 
      exec (.safetyTestDue i) s = .next (s.to (((m.setIn i { m.safeIn i with due := true }).raise F.safeStatusTestDue).post 0x0909 [i])))
    ∧ (∀ (i : Nat) (s : State), let m := s.start; m.alive = true → ((m.inCfg i).en = false ∨ (m.inCfg i).periodic = false ∨ (m.safeIn i).due = true) → 
      exec (.safetyTestDue i) s = .next (s.to (m)))
    ∧ (∀ (i : Nat) (g : SafeCfg) (s : State), let m := s.start; m.alive = true → m.safety.cfg = some g → (m.safeIn i).hours < g.testInt → 
      exec (.safetyTestDue i) s = .next (s.to (m)))
    ∧ (∀ (i : Nat) (g : SafeCfg) (s : State), let m := s.start; m.alive = true → m.safety.cfg = some g → (m.inCfg i).en = true → (m.inCfg i).periodic = true → g.testInt + g.grace ≤ (m.safeIn i).hours → (m.safeIn i).due = true → 
      exec (.safetyTestOverdue i) s = .next (s.to ((dropFor i false (m.setIn i { m.safeIn i with untested := true })).post 0x090A [i])))
    ∧ (∀ (i : Nat) (s : State), let m := s.start; m.alive = true → ((m.inCfg i).en = false ∨ (m.inCfg i).periodic = false ∨ (m.safeIn i).due = false) → 
      exec (.safetyTestOverdue i) s = .next (s.to (m)))
    ∧ (∀ (i : Nat) (g : SafeCfg) (s : State), let m := s.start; m.alive = true → m.safety.cfg = some g → (m.safeIn i).hours < g.testInt + g.grace → 
      exec (.safetyTestOverdue i) s = .next (s.to (m)))

/-- In a device that has its supply and is out of reset: a safety cycle queues the telegrams of changed bits, keeps the levels it read, holds the STP outputs high but the one in its window (all low without a configuration), acts on the inputs and then on the resets that wait, evaluates the outputs and compares its results, where a second difference in a row de-energises every output; a telegram of a receive channel that fails a check of R404 counts in DISC and changes nothing else; a good one older than MAX_AGE counts in LATE only; any other good one is a copy by R405, which a channel on one port accepts at once, and the outputs are evaluated anew; a frame that the port does not take, or without a configuration, changes nothing. A telegram due takes the next SEQ, shown in LAST_SEQ where the channel does not receive, and is queued on its ports. The watchdog of a valid channel invalidates it, its data 0, counts and posts the loss; an expired comparison window takes the copy that has waited longest out of those that wait, drops it where the other link is up and takes it singly where the other link is down. A self-test run with nothing waiting changes nothing; one of a configuration or a command that waits alone completes it, with the event where no output failed and no test pulse of the run found a fault, and makes the latch of an output found correct clearable unless it came during the run. Model's choice: how a row stands for what happens is that of log entries 4, 5, 6, 9. Clauses rest on the model's own choices or readings of log entries 158, 160. (spec/13_safety_functions.md (R391, R400, R403, R404, R405, R406, R407, R412)) -/
def Obligations.SafetyCycleAndTelegramStepsComplete : Prop :=
  (∀ (r : SafetyRead) (s : State), let m := s.start; m.alive = true → r.agree = true → 
      exec (.safetyCycle r) s = .next (s.to (let m0 := telChanges m;
        let m1 : Mach := { m0 with safety := { m0.safety with sia := r.sia % 256, sib := r.sib % 256, soaRb := r.soaRb % 16, sobRb := r.sobRb % 16, stp := match m.safety.cfg with | some _ => 15 - (match r.window with | some w => 2 ^ w | none => 0) | none => 0 } };
        let m2 := (List.range 8).foldl (inCycle r) m1;
        let m3 := m2.safety.resets.foldl resetCycle m2;
        let m4 := evalOuts { m3 with safety := { m3.safety with resets := [] } };
        ({ m4 with safety := { m4.safety with differ := 0 } } : Mach))))
    ∧ (∀ (r : SafetyRead) (s : State), let m := s.start; m.alive = true → r.agree = false → 
      exec (.safetyCycle r) s = .next (s.to (let m0 := telChanges m;
        let m1 : Mach := { m0 with safety := { m0.safety with sia := r.sia % 256, sib := r.sib % 256, soaRb := r.soaRb % 16, sobRb := r.sobRb % 16, stp := match m.safety.cfg with | some _ => 15 - (match r.window with | some w => 2 ^ w | none => 0) | none => 0 } };
        let m2 := (List.range 8).foldl (inCycle r) m1;
        let m3 := m2.safety.resets.foldl resetCycle m2;
        let m4 := evalOuts { m3 with safety := { m3.safety with resets := [] } };
        let m5 : Mach := { m4 with safety := { m4.safety with differ := m4.safety.differ + 1 } };
        if 1 ≤ m4.safety.differ ∧ m4.safety.internal = false then
          ((List.range 4).foldl (fun q o => outOff true o q) ({ m5 with safety := { m5.safety with internal := true } } : Mach)).post 0x0905 []
        else m5)))
    ∧ (∀ (p x a n : Nat) (b : List Byte) (g : SafeCfg) (s : State), let m := s.start; m.alive = true → n = fieldLE b 2 1 → m.safety.cfg = some g → portTakes m p x = true → siphonLost m 12 = false → n ≤ 3 → (m.telCfg n).rx = true → (b.length ≠ 64 ∨ fieldLE b 0x3C 4 ≠ scrc b ∨ sliceBytes b 0x2C 16 ≠ (sliceBytes b 0x1C 16).map (fun y => ~~~y) ∨ fieldLE b 0 2 ≠ 1 ∨ fieldLE b 4 4 ≠ (m.telCfg n).peer ∨ fieldLE b 8 4 ≠ g.ownId ∨ telResvOk (fieldLE b 0x1C 16) = false ∨ newer (m.tel n) (fieldLE b 0x0C 4) = false) → 
      exec (.safetyTelegram ⟨p, x⟩ b a) s = .next (s.to (m.bump (F.safeTelDisc n) 1)))
    ∧ (∀ (p x a n : Nat) (b : List Byte) (g : SafeCfg) (s : State), let m := s.start; m.alive = true → n = fieldLE b 2 1 → m.safety.cfg = some g → portTakes m p x = true → siphonLost m 12 = false → n ≤ 3 → (m.telCfg n).rx = true → b.length = 64 → fieldLE b 0x3C 4 = scrc b → sliceBytes b 0x2C 16 = (sliceBytes b 0x1C 16).map (fun y => ~~~y) → fieldLE b 0 2 = 1 → fieldLE b 4 4 = (m.telCfg n).peer → fieldLE b 8 4 = g.ownId → telResvOk (fieldLE b 0x1C 16) = true → newer (m.tel n) (fieldLE b 0x0C 4) = true → m.tb.timeValid = true → bitOf (fieldLE b 0x1C 16) 18 = false → fieldLE b 0x10 8 * 1000000000 + fieldLE b 0x18 4 + (m.telCfg n).maxAge * 1000000 < a → 
      exec (.safetyTelegram ⟨p, x⟩ b a) s = .next (s.to (m.bump (F.safeTelLate n) 1)))
    ∧ (∀ (p x a n : Nat) (b : List Byte) (g : SafeCfg) (s : State), let m := s.start; m.alive = true → n = fieldLE b 2 1 → m.safety.cfg = some g → portTakes m p x = true → siphonLost m 12 = false → n ≤ 3 → (m.telCfg n).rx = true → b.length = 64 → fieldLE b 0x3C 4 = scrc b → sliceBytes b 0x2C 16 = (sliceBytes b 0x1C 16).map (fun y => ~~~y) → fieldLE b 0 2 = 1 → fieldLE b 4 4 = (m.telCfg n).peer → fieldLE b 8 4 = g.ownId → telResvOk (fieldLE b 0x1C 16) = true → newer (m.tel n) (fieldLE b 0x0C 4) = true → (m.tb.timeValid = false ∨ bitOf (fieldLE b 0x1C 16) 18 = true ∨ a ≤ fieldLE b 0x10 8 * 1000000000 + fieldLE b 0x18 4 + (m.telCfg n).maxAge * 1000000) → 
      exec (.safetyTelegram ⟨p, x⟩ b a) s = .next (s.to (evalOuts (telCopy n p (fieldLE b 0x0C 4) (fieldLE b 0x1C 16) ((b.take 60).set 3 0#8) m))))
    ∧ (∀ (p x a n : Nat) (b : List Byte) (g : SafeCfg) (s : State), let m := s.start; m.alive = true → n = fieldLE b 2 1 → m.safety.cfg = some g → portTakes m p x = true → siphonLost m 12 = false → n ≤ 3 → (m.telCfg n).rx = true → b.length = 64 → fieldLE b 0x3C 4 = scrc b → sliceBytes b 0x2C 16 = (sliceBytes b 0x1C 16).map (fun y => ~~~y) → fieldLE b 0 2 = 1 → fieldLE b 4 4 = (m.telCfg n).peer → fieldLE b 8 4 = g.ownId → telResvOk (fieldLE b 0x1C 16) = true → newer (m.tel n) (fieldLE b 0x0C 4) = true → (m.tb.timeValid = false ∨ bitOf (fieldLE b 0x1C 16) 18 = true ∨ a ≤ fieldLE b 0x10 8 * 1000000000 + fieldLE b 0x18 4 + (m.telCfg n).maxAge * 1000000) → (m.telCfg n).ports ≠ 3 → (m.tel n).copies = [] → 
      exec (.safetyTelegram ⟨p, x⟩ b a) s = .next (s.to (evalOuts ((m.setTel n { m.tel n with valid := true, last := fieldLE b 0x0C 4, data := fieldLE b 0x1C 16, disagree := false, copies := (m.tel n).copies.filter fun f => newer ({ m.tel n with valid := true, last := fieldLE b 0x0C 4, data := fieldLE b 0x1C 16, disagree := false } : SafeTel) f.seq }).setF (F.safeTelLastSeq n) (fieldLE b 0x0C 4)))))
    ∧ (∀ (p x a : Nat) (b : List Byte) (s : State), let m := s.start; m.alive = true → (m.safety.cfg = none ∨ portTakes m p x = false ∨ siphonLost m 12 = true ∨ 3 < fieldLE b 2 1 ∨ (m.telCfg (fieldLE b 2 1)).rx = false) → 
      exec (.safetyTelegram ⟨p, x⟩ b a) s = .next (s.to (m)))
    ∧ (∀ (n : Nat) (g : SafeCfg) (s : State), let m := s.start; m.alive = true → m.safety.cfg = some g → (m.telCfg n).tx = true → (m.telCfg n).rx = true → 
      exec (.safetyTelegramTx n) s = .next (s.to (queueFrame (m.telCfg n).ports false (fun _ _ => ⟨.safety, m.now, m.net.txOrder, none, false, 0, 0, .tel ⟨n, g.ownId, (m.telCfg n).peer, ((m.tel n).txSeq + 1) % 2 ^ 32, telBits m, g.crc, none⟩⟩) (m.setTel n { m.tel n with txSeq := ((m.tel n).txSeq + 1) % 2 ^ 32, sent := telBits m }))))
    ∧ (∀ (n : Nat) (g : SafeCfg) (s : State), let m := s.start; m.alive = true → m.safety.cfg = some g → (m.telCfg n).tx = true → (m.telCfg n).rx = false → 
      exec (.safetyTelegramTx n) s = .next (s.to (queueFrame (m.telCfg n).ports false (fun _ _ => ⟨.safety, m.now, m.net.txOrder, none, false, 0, 0, .tel ⟨n, g.ownId, (m.telCfg n).peer, ((m.tel n).txSeq + 1) % 2 ^ 32, telBits m, g.crc, none⟩⟩) ((m.setTel n { m.tel n with txSeq := ((m.tel n).txSeq + 1) % 2 ^ 32, sent := telBits m }).setF (F.safeTelLastSeq n) (((m.tel n).txSeq + 1) % 2 ^ 32)))))
    ∧ (∀ (n : Nat) (s : State), let m := s.start; m.alive = true → (m.safety.cfg = none ∨ (m.telCfg n).tx = false) → 
      exec (.safetyTelegramTx n) s = .next (s.to (m)))
    ∧ (∀ (n : Nat) (s : State), let m := s.start; m.alive = true → (m.tel n).valid = true → 
      exec (.safetyTelWatchdog n) s = .next (s.to (evalOuts (((m.setTel n { m.tel n with valid := false, data := 0 }).bump F.safeCountTelLost 1).post 0x0906 []))))
    ∧ (∀ (n : Nat) (s : State), let m := s.start; m.alive = true → (m.tel n).valid = false → 
      exec (.safetyTelWatchdog n) s = .next (s.to (m)))
    ∧ (∀ (n : Nat) (f : TelCopy) (l : List TelCopy) (s : State), let m := s.start; m.alive = true → (m.tel n).copies = f :: l → (otherDown m n f.port = false ∨ (m.tel n).disagree = true) → 
      exec (.safetyTelCmpWin n) s = .next (s.to (m.setTel n { m.tel n with copies := l })))
    ∧ (∀ (n : Nat) (f : TelCopy) (l : List TelCopy) (s : State), let m := s.start; m.alive = true → (m.tel n).copies = f :: l → otherDown m n f.port = true → (m.tel n).disagree = false → 
      exec (.safetyTelCmpWin n) s = .next (s.to (evalOuts (telSingle n f.seq f.data (m.setTel n { m.tel n with copies := l })))))
    ∧ (∀ (n : Nat) (s : State), let m := s.start; m.alive = true → (m.tel n).copies = [] → 
      exec (.safetyTelCmpWin n) s = .next (s.to (m)))
    ∧ (∀ (failed : Nat) (s : State), let m := s.start; m.alive = true → m.safety.selfTest = [] → 
      exec (.selftestDone failed) s = .next (s.to (m)))
    ∧ (∀ (t : SelfTest) (s : State), let m := s.start; m.alive = true → m.safety.selfTest = [t] → m.safety.runFound = false → (∀ x ∈ m.safety.outs, x.outLatch = false ∧ x.midRun = false) → 
      exec (.selftestDone 0) s = .next (s.to (completeLater t.ring t.seq (finR (match t.crc with | some c => c | none => 0)) (({ m with safety := { m.safety with selfTest := [], selfTestOk := true } } : Mach).post 0x090C []))))
    ∧ (∀ (f : Nat) (t : SelfTest) (s : State), let m := s.start; m.alive = true → (f % 256 ≠ 0 ∨ m.safety.runFound = true) → m.safety.selfTest = [t] → 
      exec (.selftestDone f) s = .next (s.to (let m1 := (List.range 8).foldl (fun q j => if bitOf f j then outFault (j % 4) (j / 4) q else q) m;
        let outs := (m1.safety.outs.zipIdx).map fun x => if (!bitOf f x.2 && !bitOf f (4 + x.2)) && x.1.outLatch then { x.1 with clearable := x.1.clearable || !x.1.midRun, midRun := false } else { x.1 with midRun := false };
        completeLater t.ring t.seq (finR (match t.crc with | some c => c | none => f % 256)) ({ m1 with safety := { m1.safety with outs := outs, selfTest := [], selfTestOk := false, runFound := false } } : Mach))))

/-- The supply rises only on a device without it, into OFF with the rails up, or DORMANT with WAKE low; the release of reset on good rails loads the reset state with the straps, and posts the end of a debug level that a reset ended; a failing supply, and a thermal shutdown whenever the rails are up, power the device down, the latter to be restarted from hot-off alone; the rails start again, with the reset still held, from hot-off with the cause THERMAL, from DORMANT by WAKE with the cause WAKE, and by the alarm only with a crystal and a SECONDS other than 0, the hours the always-on island counted added to the test intervals; RST_N resets and holds the device; PERST_N resets the PCIe endpoint alone; a lockstep mismatch enters SAFE with cause 0x02 and holds the Stewards, and the reset that follows has the cause LOCKSTEP. In every other state each of them but PERST_N changes nothing. Model's choice: how a row stands for what happens is that of log entries 4, 5, 6, 9. Clauses rest on the model's own choices or readings of log entries 163, 164, 165, 248, 249. (spec/15_power_boot_security.md (R436, R437, R438, R440, R441, R442, R443, R458)) -/
def Obligations.SupplyAndResetStepsComplete : Prop :=
  (∀ (w : Bool) (s : State), let m := s.start; m.pwr.vin = false → 
      exec (.vinRise w) s = .next (s.to ({ m with reg := machInit.reg, safety := safeInit, dev := { m.dev with state := if w then .off else .dormant }, pwr := { m.pwr with vin := true, wake := w, rails := w, inReset := true, hotOff := false } })))
    ∧ (∀ (w : Bool) (s : State), let m := s.start; m.pwr.vin = true → 
      exec (.vinRise w) s = .next (s.to (m)))
    ∧ (∀ (x : Straps) (s : State), let m := s.start; m.pwr.rails = true → m.pwr.inReset = true → 
      exec (.resetRelease x) s = .next (s.to (postEnded (resetContent { m with pwr := { m.pwr with straps := x, crystal := x.crystal, inReset := false } }))))
    ∧ (∀ (x : Straps) (s : State), let m := s.start; (m.pwr.rails = false ∨ m.pwr.inReset = false) → 
      exec (.resetRelease x) s = .next (s.to (m)))
    ∧ (∀ (s : State), let m := s.start; m.pwr.vin = true → 
      exec .vinFail s = .next (s.to (let m1 := powerDown .off (pairSafe m false); { m1 with pwr := { m1.pwr with vin := false, hotOff := false } })))
    ∧ (∀ (s : State), let m := s.start; m.pwr.vin = false → 
      exec .vinFail s = .next (s.to (m)))
    ∧ (∀ (s : State), let m := s.start; m.pwr.rails = true → 
      exec .thermalShutdown s = .next (s.to (let m1 := powerDown .off (pairSafe m false); { m1 with pwr := { m1.pwr with hotOff := true } })))
    ∧ (∀ (s : State), let m := s.start; m.pwr.rails = false → 
      exec .thermalShutdown s = .next (s.to (m)))
    ∧ (∀ (s : State), let m := s.start; m.pwr.hotOff = true → 
      exec .thermalRestart s = .next (s.to ((addHours 0 { m with pwr := { m.pwr with rails := true, inReset := true, hotOff := false } }).setF F.pwrResetCauseThermal 1)))
    ∧ (∀ (s : State), let m := s.start; m.pwr.hotOff = false → 
      exec .thermalRestart s = .next (s.to (m)))
    ∧ (∀ (h : Nat) (s : State), let m := s.start; m.dev.state = .dormant → m.pwr.rails = false → 
      exec (.wake h) s = .next (s.to ((addHours h { m with pwr := { m.pwr with wake := true, rails := true, inReset := true, hotOff := false } }).setF F.pwrResetCauseWake 1)))
    ∧ (∀ (h : Nat) (s : State), let m := s.start; (m.dev.state ≠ .dormant ∨ m.pwr.rails = true) → 
      exec (.wake h) s = .next (s.to (m)))
    ∧ (∀ (h : Nat) (s : State), let m := s.start; m.dev.state = .dormant → m.pwr.rails = false → m.pwr.crystal = true → m.reg.raw F.pwrAlarmSeconds ≠ 0 → 
      exec (.alarmExpiry h) s = .next (s.to ((addHours h { m with pwr := { m.pwr with rails := true, inReset := true, hotOff := false } }).setF F.pwrResetCauseWake 1)))
    ∧ (∀ (h : Nat) (s : State), let m := s.start; (m.dev.state ≠ .dormant ∨ m.pwr.rails = true ∨ m.pwr.crystal = false ∨ m.reg.raw F.pwrAlarmSeconds = 0) → 
      exec (.alarmExpiry h) s = .next (s.to (m)))
    ∧ (∀ (s : State), let m := s.start; m.alive = true → 
      exec .rstN s = .next (s.to (let m1 := resetFrom .rstPin m; { m1 with pwr := { m1.pwr with inReset := true } })))
    ∧ (∀ (s : State), let m := s.start; m.alive = false → 
      exec .rstN s = .next (s.to (m)))
    ∧ (∀ (s : State), let m := s.start; 
      exec .perstN s = .next (s.to ({ m with host := { m.host with linkUp := false, busMaster := false, d3 := false, reach := false } })))
    ∧ (∀ (s : State), let m := s.start; m.alive = true → 
      exec .lockstepMismatch s = .next (s.to (let m1 := enterSafe 2 0 m; { m1 with pwr := { m1.pwr with held := true } })))
    ∧ (∀ (s : State), let m := s.start; m.alive = false → 
      exec .lockstepMismatch s = .next (s.to (m)))
    ∧ (∀ (s : State), let m := s.start; m.pwr.held = true → 
      exec .lockstepReset s = .next (s.to (deviceReset .lockstep m)))
    ∧ (∀ (s : State), let m := s.start; m.pwr.held = false → 
      exec .lockstepReset s = .next (s.to (m)))

/-- In a device that is up: a supply found below VIN_WARN and a die found above T_WARN set their flags and post their events, once per crossing; SLEEP is kept for the next boundary, and one set while a request is pending is a further request; in BOOT from flash the image in the active slot is started where it verifies, else the other slot is tried; a trial with tries left lowers TRIES first, one with none boots the other slot, with FALLBACK; BOOTSEL 0b11 makes RECOVERY; in host boot and in RECOVERY the ROM serves ring 0, with the boot control record read unless it has been; out of BOOT the boot step changes nothing. A staged image read back that verifies completes IMAGE_STAGE and posts its event, one that fails completes it with the status of the check; a due activation resets the device with the cause ACTIVATE; a signed quote is posted and completes when its record is written, the first one after the certificate; the debug level ends at its expiry with its event, level 2 first released as RESUME does, level 3 with a reset, after which the event is posted; a challenge becomes void. With nothing staged, due, to be signed or in force the step changes nothing. Model's choice: how a row stands for what happens is that of log entries 4, 5, 6, 9. Clauses rest on the model's own choices or readings of log entries 166, 168, 171, 176. (spec/15_power_boot_security.md (R436, R439, R445, R448, R449, R450, R451, R452, R455, R456, R457, R458)) -/
def Obligations.BootAndSecurityStepsComplete : Prop :=
  (∀ (mv : Nat) (s : State), let m := s.start; Up s → mv < m.fld F.pwrThreshVinWarn → m.pwr.lowSeen = false → 
      exec (.pwrVinLow mv) s = .next (s.to ((({ m with pwr := { m.pwr with lowSeen := true } } : Mach).raise F.pwrStatusVinLow).post 0x0A01 [mv])))
    ∧ (∀ (mv : Nat) (s : State), let m := s.start; Up s → mv < m.fld F.pwrThreshVinWarn → m.pwr.lowSeen = true → 
      exec (.pwrVinLow mv) s = .next (s.to ({ m with pwr := { m.pwr with lowSeen := true } })))
    ∧ (∀ (mv : Nat) (s : State), let m := s.start; Up s → m.fld F.pwrThreshVinWarn ≤ mv → 
      exec (.pwrVinLow mv) s = .next (s.to ({ m with pwr := { m.pwr with lowSeen := false } })))
    ∧ (∀ (tj : Int) (s : State), let m := s.start; Up s → ((8 * m.fld F.pwrThreshTWarn : Nat) : Int) < tj → m.pwr.hotCtrl = false → 
      exec (.pwrThermal 0 tj) s = .next (s.to ((({ m with pwr := { m.pwr with hotCtrl := true } } : Mach).raise F.pwrStatusHot).post 0x0A02 [0, unsigned 32 tj])))
    ∧ (∀ (d : Nat) (tj : Int) (s : State), let m := s.start; Up s → d ≠ 0 → ((8 * m.fld F.pwrThreshTWarn : Nat) : Int) < tj → m.pwr.hotPwr = false → 
      exec (.pwrThermal d tj) s = .next (s.to ((({ m with pwr := { m.pwr with hotPwr := true } } : Mach).raise F.pwrStatusHot).post 0x0A02 [d, unsigned 32 tj])))
    ∧ (∀ (tj : Int) (s : State), let m := s.start; Up s → (m.pwr.hotCtrl = true ∨ tj ≤ ((8 * m.fld F.pwrThreshTWarn : Nat) : Int)) → 
      exec (.pwrThermal 0 tj) s = .next (s.to ({ m with pwr := { m.pwr with hotCtrl := decide (((8 * m.fld F.pwrThreshTWarn : Nat) : Int) < tj) } })))
    ∧ (∀ (d : Nat) (tj : Int) (s : State), let m := s.start; Up s → d ≠ 0 → (m.pwr.hotPwr = true ∨ tj ≤ ((8 * m.fld F.pwrThreshTWarn : Nat) : Int)) → 
      exec (.pwrThermal d tj) s = .next (s.to ({ m with pwr := { m.pwr with hotPwr := decide (((8 * m.fld F.pwrThreshTWarn : Nat) : Int) < tj) } })))
    ∧ (∀ (s : State), let m := s.start; Up s → m.inState [.boot, .recovery] = false → m.dev.test = false → 
      exec .sleep s = .next (s.to ({ m.setF F.pwrCtrlSleep 1 with pwr := { m.pwr with sleepDue := true, sleepAgain := m.pwr.sleepDue } })))
    ∧ (∀ (s : State), let m := s.start; Up s → (m.inState [.boot, .recovery] = true ∨ m.dev.test = true) → 
      exec .sleep s = .next (s.to (m)))
    ∧ (∀ (f : FlashRead) (x : Bcr) (s : State), let m := s.start; Up s → m.dev.state = .boot → m.sec.romRing = false → (m.pwr.straps.bootSel % 4 = 0 ∨ m.pwr.straps.bootSel % 4 = 2) → readBcr f.recA f.recB = some x → x.trial = false → 
      exec (.bootFromFlash f) s = .next (s.to (match firmwareFails (slotImage f x.active) (romStart f m) with | none => startImage x.active (slotImage f x.active) (romStart f m) | some _ => bootOther f x.active (romStart f m))))
    ∧ (∀ (f : FlashRead) (x : Bcr) (s : State), let m := s.start; Up s → m.dev.state = .boot → m.sec.romRing = false → (m.pwr.straps.bootSel % 4 = 0 ∨ m.pwr.straps.bootSel % 4 = 2) → readBcr f.recA f.recB = some x → x.trial = true → 0 < x.tries → 
      exec (.bootFromFlash f) s = .next (s.to (let m1 := updateBcr (fun b => { b with tries := b.tries - 1 }) (romStart f m);
        match firmwareFails (slotImage f x.active) m1 with | none => startImage x.active (slotImage f x.active) m1 | some _ => bootOther f x.active m1)))
    ∧ (∀ (f : FlashRead) (x : Bcr) (s : State), let m := s.start; Up s → m.dev.state = .boot → m.sec.romRing = false → (m.pwr.straps.bootSel % 4 = 0 ∨ m.pwr.straps.bootSel % 4 = 2) → readBcr f.recA f.recB = some x → x.trial = true → x.tries = 0 → 
      exec (.bootFromFlash f) s = .next (s.to (let m1 := updateBcr (fun b => { b with trial := false }) (romStart f m); let o := 1 - x.active % 2;
        match firmwareFails (slotImage f o) m1 with | none => fellBack o (1 - o) (startImage o (slotImage f o) m1) | some _ => bootOther f o m1)))
    ∧ (∀ (f : FlashRead) (s : State), let m := s.start; Up s → m.dev.state = .boot → m.sec.romRing = false → m.pwr.straps.bootSel % 4 = 3 → 
      exec (.bootFromFlash f) s = .next (s.to (enterRecovery (romStart f m))))
    ∧ (∀ (f : FlashRead) (s : State), let m := s.start; Up s → (m.dev.state ≠ .boot ∨ m.sec.romRing = true ∨ m.pwr.straps.bootSel % 4 = 1) → 
      exec (.bootFromFlash f) s = .next (s.to (m)))
    ∧ (∀ (s : State), let m := s.start; Up s → m.dev.state = .boot → m.pwr.straps.bootSel % 4 = 1 → 
      exec .hostBoot s = .next (s.to ({ m with sec := { m.sec with idKey := leBytes 32 Config.identityKey, romRing := true, bcr := if m.sec.bcr.isSome then m.sec.bcr else readBcr (Config.flashRecord m.pwr.resets 0) (Config.flashRecord m.pwr.resets 1) } })))
    ∧ (∀ (s : State), let m := s.start; Up s → m.dev.state = .recovery → 
      exec .hostBoot s = .next (s.to ({ m with sec := { m.sec with idKey := leBytes 32 Config.identityKey, romRing := true, bcr := if m.sec.bcr.isSome then m.sec.bcr else readBcr (Config.flashRecord m.pwr.resets 0) (Config.flashRecord m.pwr.resets 1) } })))
    ∧ (∀ (s : State), let m := s.start; Up s → m.dev.state ≠ .recovery → (m.dev.state ≠ .boot ∨ m.pwr.straps.bootSel % 4 ≠ 1) → 
      exec .hostBoot s = .next (s.to (m)))
    ∧ (∀ (b w : List Byte) (r q : Nat) (s : State), let m := s.start; Up s → m.sec.staging = some (r, q, w) → 
      exec (.flashWriteDone b) s = .next (s.to (let m1 : Mach := { m with sec := { m.sec with staging := none } }; match firmwareFails b m1 with
        | none => completeLater r q (fin stDONE) (({ m1 with sec := { m1.sec with staged := some (imgSvn b) } } : Mach).post 0x0A05 [stageSlot m1, imgSvn b])
        | some n => completeLater r q (fin (authStatus n)) (authFail 0x0A04 n m1))))
    ∧ (∀ (b : List Byte) (s : State), let m := s.start; Up s → m.sec.staging = none → 
      exec (.flashWriteDone b) s = .next (s.to (m)))
    ∧ (∀ (s : State), let m := s.start; Up s → m.sec.activateDue = true → 
      exec .activateReset s = .next (s.to (deviceReset .activate m)))
    ∧ (∀ (s : State), let m := s.start; Up s → m.sec.activateDue = false → 
      exec .activateReset s = .next (s.to (m)))
    ∧ (∀ (q : QuoteRun) (s : State), let m := s.start; Up s → m.sec.quote = some q → q.signed = false → m.sec.certSent = false → 
      exec .quoteSigned s = .next (s.to (let m2 := postRec 3 0x0A01 (q.seq % 2 ^ 32) (q.body ++ sliceBytes (Config.quoteSignature q.body) 0 17088) (postRec 3 0x0A02 (Config.unstatedArg 0x0A02 0 % 2 ^ 32) Config.certificate m);
        quoteDrain { m2 with sec := { m2.sec with certSent := true, quote := some { q with signed := true } } })))
    ∧ (∀ (q : QuoteRun) (s : State), let m := s.start; Up s → m.sec.quote = some q → q.signed = false → m.sec.certSent = true → 
      exec .quoteSigned s = .next (s.to (let m2 := postRec 3 0x0A01 (q.seq % 2 ^ 32) (q.body ++ sliceBytes (Config.quoteSignature q.body) 0 17088) m;
        quoteDrain { m2 with sec := { m2.sec with certSent := true, quote := some { q with signed := true } } })))
    ∧ (∀ (s : State), let m := s.start; Up s → m.sec.quote = none → 
      exec .quoteSigned s = .next (s.to (m)))
    ∧ (∀ (s : State), let m := s.start; Up s → m.dbg.level = 0 → 
      exec .debugLevelExpiry s = .next (s.to (m)))
    ∧ (∀ (s : State), let m := s.start; Up s → m.dbg.level = 1 → 
      exec .debugLevelExpiry s = .next (s.to (({ m with dbg := { m.dbg with level := 0, remain := 0 } } : Mach).post 0x0A08 [])))
    ∧ (∀ (s : State), let m := s.start; Up s → m.dbg.level = 2 → 
      exec .debugLevelExpiry s = .next (s.to (let m1 := dbgRelease m; ({ m1 with dbg := { m1.dbg with level := 0, remain := 0 } } : Mach).post 0x0A08 [])))
    ∧ (∀ (s : State), let m := s.start; Up s → m.dbg.level = 3 → 
      exec .debugLevelExpiry s = .next (s.to (deviceReset .debug (dbgRelease m))))
    ∧ (∀ (s : State), let m := s.start; Up s → 
      exec .challengeExpiry s = .next (s.to ({ m with dbg := { m.dbg with challenge := none } })))

/-- In a device that is up, with the whole setup window decoded: with level 2 in force HALT on a running engine asks for a halt and stays set until it is complete, STEP_PERIOD and STEP_BLOCK on a halted one are due at the next period, RESUME on a halted one sets it running with nothing due, the rows that name no transition of the engine change nothing, RELEASE_ALL is due at the next intake and RESET resets the device with the cause DEBUG; below level 2 each of HALT, STEP_PERIOD, STEP_BLOCK, RESUME, RELEASE_ALL and RESET is a lock violation and nothing else, and END_LEVEL is one at level 0. NEW_CHALLENGE issues a challenge, which voids the earlier one, and SUBMIT checks the token buffer and shows its result, at any level; END_LEVEL ends the level, level 2 as RESUME does. While the window is not decoded, in BOOT, in RECOVERY and in the test mode of level 3, none of the nine changes anything. A read frame on MDIO that is done gives its data, a write frame none; GO then clears, unless a new request is pending, whose frame starts; with no frame in progress nothing changes; HOLD_MAX halted periods in RUN block the cuts, and on a running engine the expiry changes nothing. Model's choice: how a row stands for what happens is that of log entries 4, 5, 6, 9. Clauses rest on the model's own choices or readings of log entries 177, 178, 180. (spec/14_register_behaviour.md (R421, R426, R427), spec/15_power_boot_security.md (R458), spec/16_luwin_debug.md (R467, R470, R472, R474)) -/
def Obligations.DebugUnitStepsComplete : Prop :=
  (∀ (s : State), let m := s.start; Up s → (m.inState [.boot, .recovery] = true ∨ m.dev.test = true) → 
      exec .halt s = .next (s.to (m)))
    ∧ (∀ (s : State), let m := s.start; Up s → (m.inState [.boot, .recovery] = true ∨ m.dev.test = true) → 
      exec .stepPeriod s = .next (s.to (m)))
    ∧ (∀ (s : State), let m := s.start; Up s → (m.inState [.boot, .recovery] = true ∨ m.dev.test = true) → 
      exec .stepBlock s = .next (s.to (m)))
    ∧ (∀ (s : State), let m := s.start; Up s → (m.inState [.boot, .recovery] = true ∨ m.dev.test = true) → 
      exec .resume s = .next (s.to (m)))
    ∧ (∀ (s : State), let m := s.start; Up s → (m.inState [.boot, .recovery] = true ∨ m.dev.test = true) → 
      exec .releaseAll s = .next (s.to (m)))
    ∧ (∀ (s : State), let m := s.start; Up s → (m.inState [.boot, .recovery] = true ∨ m.dev.test = true) → 
      exec .newChallenge s = .next (s.to (m)))
    ∧ (∀ (s : State), let m := s.start; Up s → (m.inState [.boot, .recovery] = true ∨ m.dev.test = true) → 
      exec .submit s = .next (s.to (m)))
    ∧ (∀ (s : State), let m := s.start; Up s → (m.inState [.boot, .recovery] = true ∨ m.dev.test = true) → 
      exec .endLevel s = .next (s.to (m)))
    ∧ (∀ (s : State), let m := s.start; Up s → (m.inState [.boot, .recovery] = true ∨ m.dev.test = true) → 
      exec .reset s = .next (s.to (m)))
    ∧ (∀ (s : State), let m := s.start; Up s → m.inState [.boot, .recovery] = false → m.dev.test = false → 2 ≤ m.dbg.level → m.dbg.engine = .running → m.dbg.haltDue = none → 
      exec .halt s = .next (s.to (({ m with dbg := { m.dbg with haltDue := some 0 } } : Mach).raise F.dbgCtrlHalt)))
    ∧ (∀ (s : State), let m := s.start; Up s → m.inState [.boot, .recovery] = false → m.dev.test = false → 2 ≤ m.dbg.level → m.dbg.engine = .running → m.dbg.haltDue ≠ none → 
      exec .halt s = .next (s.to (m.raise F.dbgCtrlHalt)))
    ∧ (∀ (s : State), let m := s.start; Up s → m.inState [.boot, .recovery] = false → m.dev.test = false → 2 ≤ m.dbg.level → m.dbg.engine ≠ .running → 
      exec .halt s = .next (s.to (m)))
    ∧ (∀ (s : State), let m := s.start; Up s → m.inState [.boot, .recovery] = false → m.dev.test = false → 2 ≤ m.dbg.level → m.dbg.engine = .halted → 
      exec .stepPeriod s = .next (s.to ({ m with dbg := { m.dbg with stepDue := true } })))
    ∧ (∀ (s : State), let m := s.start; Up s → m.inState [.boot, .recovery] = false → m.dev.test = false → 2 ≤ m.dbg.level → m.dbg.engine = .blockStep → 
      exec .stepPeriod s = .next (s.to (finishPeriod m)))
    ∧ (∀ (s : State), let m := s.start; Up s → m.inState [.boot, .recovery] = false → m.dev.test = false → 2 ≤ m.dbg.level → m.dbg.engine = .running → 
      exec .stepPeriod s = .next (s.to (m)))
    ∧ (∀ (s : State), let m := s.start; Up s → m.inState [.boot, .recovery] = false → m.dev.test = false → 2 ≤ m.dbg.level → m.dbg.engine = .halted → 
      exec .stepBlock s = .next (s.to ({ m with dbg := { m.dbg with blockDue := true } })))
    ∧ (∀ (s : State), let m := s.start; Up s → m.inState [.boot, .recovery] = false → m.dev.test = false → 2 ≤ m.dbg.level → m.dbg.engine = .blockStep → 
      exec .stepBlock s = .next (s.to (nextBlock m)))
    ∧ (∀ (s : State), let m := s.start; Up s → m.inState [.boot, .recovery] = false → m.dev.test = false → 2 ≤ m.dbg.level → m.dbg.engine = .running → 
      exec .stepBlock s = .next (s.to (m)))
    ∧ (∀ (s : State), let m := s.start; Up s → m.inState [.boot, .recovery] = false → m.dev.test = false → 2 ≤ m.dbg.level → m.dbg.engine = .halted → m.dbg.stepRun = none → 
      exec .resume s = .next (s.to (({ m with dbg := { m.dbg with engine := .running, stepRun := none, stepDue := false, blockDue := false, haltBlocked := false } } : Mach).post 0x0D02 [m.dbg.haltedPeriods])))
    ∧ (∀ (s : State), let m := s.start; Up s → m.inState [.boot, .recovery] = false → m.dev.test = false → 2 ≤ m.dbg.level → m.dbg.engine = .blockStep → 
      exec .resume s = .next (s.to (dbgResume evalRest m)))
    ∧ (∀ (s : State), let m := s.start; Up s → m.inState [.boot, .recovery] = false → m.dev.test = false → 2 ≤ m.dbg.level → m.dbg.engine = .running → 
      exec .resume s = .next (s.to (m)))
    ∧ (∀ (s : State), let m := s.start; Up s → m.inState [.boot, .recovery] = false → m.dev.test = false → 2 ≤ m.dbg.level → 
      exec .releaseAll s = .next (s.to ({ m with dbg := { m.dbg with releaseDue := true } })))
    ∧ (∀ (s : State), let m := s.start; Up s → m.inState [.boot, .recovery] = false → m.dev.test = false → 2 ≤ m.dbg.level → 
      exec .reset s = .next (s.to (deviceReset .debug m)))
    ∧ (∀ (s : State), let m := s.start; Up s → m.inState [.boot, .recovery] = false → m.dev.test = false → m.dbg.level < 2 → 
      exec .halt s = .next (s.to (lockViolation 0x4404 m)))
    ∧ (∀ (s : State), let m := s.start; Up s → m.inState [.boot, .recovery] = false → m.dev.test = false → m.dbg.level < 2 → 
      exec .stepPeriod s = .next (s.to (lockViolation 0x4404 m)))
    ∧ (∀ (s : State), let m := s.start; Up s → m.inState [.boot, .recovery] = false → m.dev.test = false → m.dbg.level < 2 → 
      exec .stepBlock s = .next (s.to (lockViolation 0x4404 m)))
    ∧ (∀ (s : State), let m := s.start; Up s → m.inState [.boot, .recovery] = false → m.dev.test = false → m.dbg.level < 2 → 
      exec .resume s = .next (s.to (lockViolation 0x4404 m)))
    ∧ (∀ (s : State), let m := s.start; Up s → m.inState [.boot, .recovery] = false → m.dev.test = false → m.dbg.level < 2 → 
      exec .releaseAll s = .next (s.to (lockViolation 0x4404 m)))
    ∧ (∀ (s : State), let m := s.start; Up s → m.inState [.boot, .recovery] = false → m.dev.test = false → m.dbg.level < 2 → 
      exec .reset s = .next (s.to (lockViolation 0x4404 m)))
    ∧ (∀ (s : State), let m := s.start; Up s → m.inState [.boot, .recovery] = false → m.dev.test = false → 
      exec .newChallenge s = .next (s.to (let c := leBytes 32 (Config.challenge m.dbg.challengeCount); { m with dbg := { m.dbg with challenge := some c, shown := c, challengeCount := m.dbg.challengeCount + 1 } })))
    ∧ (∀ (s : State), let m := s.start; Up s → m.inState [.boot, .recovery] = false → m.dev.test = false → m.dbg.level ≠ 3 → 
      exec .submit s = .next (s.to (let r := tryToken (Config.unstatedArg 0x0A09 0) (tokenBytes m) m; let n := (if r.1 = stDONE then 1 else if r.1 = stMALFORMED then 2 else if r.1 = stAUTH then 3 else 4); { r.2 with dbg := { r.2.dbg with tokenRes := n } })))
    ∧ (∀ (s : State), let m := s.start; Up s → m.inState [.boot, .recovery] = false → m.dev.test = false → m.dbg.level = 0 → 
      exec .endLevel s = .next (s.to (lockViolation 0x4404 m)))
    ∧ (∀ (s : State), let m := s.start; Up s → m.inState [.boot, .recovery] = false → m.dev.test = false → m.dbg.level = 1 → 
      exec .endLevel s = .next (s.to (({ m with dbg := { m.dbg with level := 0, remain := 0 } } : Mach).post 0x0A08 [])))
    ∧ (∀ (s : State), let m := s.start; Up s → m.inState [.boot, .recovery] = false → m.dev.test = false → m.dbg.level = 2 → 
      exec .endLevel s = .next (s.to (let m1 := dbgRelease m; ({ m1 with dbg := { m1.dbg with level := 0, remain := 0 } } : Mach).post 0x0A08 [])))
    ∧ (∀ (v : Nat) (s : State), let m := s.start; Up s → m.dbg.mdioBusy = true → m.dbg.mdioAgain = false → 2 ≤ m.reg.raw F.dbgMdioOp → 
      exec (.mdioFrameDone v) s = .next (s.to (let m1 := m.setF F.dbgMdioData v; { m1.setF F.dbgMdioGo 0 with dbg := { m1.dbg with mdioBusy := false } })))
    ∧ (∀ (v : Nat) (s : State), let m := s.start; Up s → m.dbg.mdioBusy = true → m.dbg.mdioAgain = false → m.reg.raw F.dbgMdioOp < 2 → 
      exec (.mdioFrameDone v) s = .next (s.to ({ m.setF F.dbgMdioGo 0 with dbg := { m.dbg with mdioBusy := false } })))
    ∧ (∀ (v : Nat) (s : State), let m := s.start; Up s → m.dbg.mdioBusy = true → m.dbg.mdioAgain = true → 
      exec (.mdioFrameDone v) s = .next (s.to (mdioStart (if 2 ≤ m.reg.raw F.dbgMdioOp then m.setF F.dbgMdioData v else m))))
    ∧ (∀ (v : Nat) (s : State), let m := s.start; Up s → m.dbg.mdioBusy = false → 
      exec (.mdioFrameDone v) s = .next (s.to (m)))
    ∧ (∀ (s : State), let m := s.start; Up s → m.dbg.engine ≠ .running → m.dev.state = .run → m.flag F.dbgCfgHaltMode = false → m.dbg.haltBlocked = false → m.fld F.dbgCfgHoldMax ≤ m.dbg.haltedPeriods → 
      exec .haltHoldExpiry s = .next (s.to (({ m with dbg := { m.dbg with haltBlocked := true } } : Mach).post 0x0D04 [])))
    ∧ (∀ (s : State), let m := s.start; Up s → (m.dbg.engine = .running ∨ m.dev.state ≠ .run ∨ m.flag F.dbgCfgHaltMode = true ∨ m.dbg.haltBlocked = true ∨ m.dbg.haltedPeriods < m.fld F.dbgCfgHoldMax) → 
      exec .haltHoldExpiry s = .next (s.to (m)))

/-- In a device that has its supply and is out of reset: a register write that is not one aligned word with all byte enables writes nothing, sets BAD_ACCESS and posts its event with the offset; an aligned one with all byte enables, which changes no reserved bit, writes the fields of the word it decodes to; LOCK_SET writes 1 to a LOCK, and nothing at an offset that is none; SNAP takes the device time at its instant; HOST_ENABLE writes HOST_CTRL with the bytes of host memory in place; GO writes DBG_MDIO, and nothing while the window is not decoded; a read of the host votes every voted field after the upsets of its copies, and sends the word that holds its offset; a corrected error of on-chip SRAM counts, keeps its region, sets its flag and posts its event, an uncorrectable one outside the lanes enters SAFE with cause 0x01 and the region, and one in a word of a lane faults that lane, unless the Stewards are held. Model's choice: how a row stands for what happens is that of log entries 4, 5, 6, 9, 22. Clauses rest on the model's own choices or readings of log entries 21, 25, 178, 252. (spec/07_timebase.md (R219), spec/14_register_behaviour.md (R417, R418, R419, R420, R422, R425, R426, R427, R431)) -/
def Obligations.SetupWindowStepsComplete : Prop :=
  (∀ (o be : Nat) (v : Word) (s : State), let m := s.start; m.alive = true → (o % 4 ≠ 0 ∨ be ≠ 15) → 
      exec (.registerWrite o be v) s = .next (s.to ((m.raise F.devStatusBadAccess).post 0x0E04 [o])))
    ∧ (∀ (o : Nat) (v : Word) (s : State), let m := s.start; m.alive = true → o % 4 = 0 → changesReserved o 15 v s.m = false → 
      exec (.registerWrite o 15 v) s = .next (s.to (writeWord (writeNs m) (decodeOff m o) v.toNat m)))
    ∧ (∀ (o : Nat) (s : State), let m := s.start; m.alive = true → isLock (decodeOff m o) = true → 
      exec (.lockSet o) s = .next (s.to (writeWord 0 (decodeOff m o) 1 m)))
    ∧ (∀ (o : Nat) (s : State), let m := s.start; m.alive = true → isLock (decodeOff m o) = false → 
      exec (.lockSet o) s = .next (s.to (m)))
    ∧ (∀ (ns : Nat) (s : State), let m := s.start; m.alive = true → 
      exec (.snap ns) s = .next (s.to (((m.setF F.tbTimeSecondsLo (secsOf (m.now + ns))).setF F.tbTimeSecondsHi (secsOf (m.now + ns) / 2 ^ 32)).setF F.tbTimeNanoseconds (nanosOf (m.now + ns)))))
    ∧ (∀ (v : Word) (l : List Host.Cell) (s : State), let m := s.start; m.alive = true → changesReserved 0x404 15 v s.m = false → 
      exec (.hostEnable v l) s = .next (s.to (writeWord 0 0x404 v.toNat { m with hostMem := hostStores m.hostMem l })))
    ∧ (∀ (v : Word) (s : State), let m := s.start; Up s → m.inState [.boot, .recovery] = false → m.dev.test = false → changesReserved 0x440C 15 v s.m = false → 
      exec (.go v) s = .next (s.to (writeWord 0 0x440C v.toNat m)))
    ∧ (∀ (v : Word) (s : State), let m := s.start; Up s → (m.inState [.boot, .recovery] = true ∨ m.dev.test = true) → changesReserved 0x440C 15 v s.m = false → 
      exec (.go v) s = .next (s.to (m)))
    ∧ (∀ (o : Nat) (u : List (Nat × Nat × Word)) (s : State), let m := s.start; m.alive = true → 
      exec (.votedFieldRead o u) s = .next (s.to (let m1 := voteBoundary (u.foldl upsetWord m); m1.send (.readData (o - o % 4) (regRead m1 (o - o % 4))))))
    ∧ (∀ (r a : Nat) (l : Option Nat) (s : State), let m := s.start; m.alive = true → 
      exec (.sramEccError r a true l) s = .next (s.to ((((m.bump F.devEccCeCnt 1).setF F.devEccLastRegion r).raise F.devStatusEccCe).post 0x0E05 [r, a])))
    ∧ (∀ (r a l : Nat) (s : State), let m := s.start; Up s → 
      exec (.sramEccError r a false (some l)) s = .next (s.to (laneFault l m)))
    ∧ (∀ (r a l : Nat) (s : State), let m := s.start; m.alive = true → m.pwr.held = true → 
      exec (.sramEccError r a false (some l)) s = .next (s.to (m)))
    ∧ (∀ (r a : Nat) (s : State), let m := s.start; m.alive = true → 
      exec (.sramEccError r a false none) s = .next (s.to (enterSafe 1 r m)))

/-- In a device that has its supply and is out of reset, each frame notes that the port has been seen to clock, and: a frame whose check fails is answered BAD_FRAME; one with a word that is refused is answered with the code of its first refused word, a refused write of the window counting as the lock violations R421 and R472 name; one at an address that is no multiple of 4 is answered BARRED; a good read whose every word is permitted reads them in order and is answered DONE with them, and BUSY while the port is busy; a good write whose every word is permitted writes them in order and is answered DONE; a write answered BUSY or BAD_FRAME changes nothing else. An abandoned frame has no response; in a device that is up it notes the clock edges, and changes nothing else. Model's choice: how a row stands for what happens is that of log entries 4, 5, 6, 9. Clauses rest on the model's own choices or readings of log entries 182, 184, 185, 275. (spec/14_register_behaviour.md (R421), spec/16_luwin_debug.md (R462, R463, R464, R465, R466, R472)) -/
def Obligations.LuwinStepsComplete : Prop :=
  (∀ (h a c : Nat) (b : Bool) (s : State), let m := s.start; m.alive = true → lwBad 1 h a [] c = true → 
      exec (.luwinRead h a c b) s = .next (s.to ((lwSeen m).lwSend 0x96 [])))
    ∧ (∀ (h a c n : Nat) (b : Bool) (s : State), let m := s.start; m.alive = true → lwBad 1 h a [] c = false → firstBar ((lwAddrs h a).map (lwReadBar (lwSeen m))) = some n → 
      exec (.luwinRead h a c b) s = .next (s.to ((lwSeen m).lwSend n [])))
    ∧ (∀ (h a c : Nat) (b : Bool) (s : State), let m := s.start; m.alive = true → lwBad 1 h a [] c = false → a % 4 ≠ 0 → firstBar ((lwAddrs h a).map (lwReadBar (lwSeen m))) = none → 
      exec (.luwinRead h a c b) s = .next (s.to ((lwSeen m).lwSend 0x69 [])))
    ∧ (∀ (h a c : Nat) (s : State), let m := s.start; m.alive = true → lwBad 1 h a [] c = false → a % 4 = 0 → firstBar ((lwAddrs h a).map (lwReadBar (lwSeen m))) = none → 
      exec (.luwinRead h a c true) s = .next (s.to ((lwSeen m).lwSend 0x5A [])))
    ∧ (∀ (h a c : Nat) (s : State), let m := s.start; m.alive = true → lwBad 1 h a [] c = false → a % 4 = 0 → firstBar ((lwAddrs h a).map (lwReadBar (lwSeen m))) = none → 
      exec (.luwinRead h a c false) s = .next (s.to (let r := (lwAddrs h a).foldl lwReadWord ([], lwSeen m); r.2.lwSend 0x3C r.1)))
    ∧ (∀ (h a c : Nat) (w : List Word) (b : Bool) (s : State), let m := s.start; m.alive = true → lwBad 2 h a w c = true → 
      exec (.luwinWrite h a w c b) s = .next (s.to ((lwSeen m).lwSend 0x96 [])))
    ∧ (∀ (h a c n : Nat) (w : List Word) (b : Bool) (s : State), let m := s.start; m.alive = true → lwBad 2 h a w c = false → firstBar (((lwAddrs h a).zip w).map fun x => lwWriteBar (lwSeen m) x.1 x.2) = some n → (n = 0x66 ∨ n = 0x69) → 
      exec (.luwinWrite h a w c b) s = .next (s.to ((lwViolations ((lwAddrs h a).zip w) (lwSeen m)).lwSend n [])))
    ∧ (∀ (h a c : Nat) (w : List Word) (b : Bool) (s : State), let m := s.start; m.alive = true → lwBad 2 h a w c = false → a % 4 ≠ 0 → firstBar (((lwAddrs h a).zip w).map fun x => lwWriteBar (lwSeen m) x.1 x.2) = none → 
      exec (.luwinWrite h a w c b) s = .next (s.to ((lwViolations ((lwAddrs h a).zip w) (lwSeen m)).lwSend 0x69 [])))
    ∧ (∀ (h a c : Nat) (w : List Word) (s : State), let m := s.start; m.alive = true → lwBad 2 h a w c = false → a % 4 = 0 → firstBar (((lwAddrs h a).zip w).map fun x => lwWriteBar (lwSeen m) x.1 x.2) = none → 
      exec (.luwinWrite h a w c true) s = .next (s.to ((lwSeen m).lwSend 0x5A [])))
    ∧ (∀ (h a c : Nat) (w : List Word) (s : State), let m := s.start; m.alive = true → lwBad 2 h a w c = false → a % 4 = 0 → firstBar (((lwAddrs h a).zip w).map fun x => lwWriteBar (lwSeen m) x.1 x.2) = none → lwReserved h a w c false s.m = false → 
      exec (.luwinWrite h a w c false) s = .next (s.to ((((lwAddrs h a).zip w).foldl lwWriteWord (lwSeen m)).lwSend 0x3C [])))
    ∧ (∀ (s : State), let m := s.start; Up s → 
      exec .luwinFrameAbandon s = .next (s.to ({ m with dbg := { m.dbg with probeAt := some m.tb.uptime } })))
end

