-- ==== Sys2Proof/Laws/State.lean ====
section
/-! SUPPORT. Laws/State.lean: what each update of the device leaves as it was: one lemma per field per update. -/
set_option Elab.async false
namespace Sys2Proof.Machine

/-! ### Registers -/

@[simp] theorem Mach.setF_dev (m : Mach) (f : FieldRef) (v : Nat) : (m.setF f v).dev = m.dev := rfl
@[simp] theorem Mach.setF_gal (m : Mach) (f : FieldRef) (v : Nat) : (m.setF f v).gal = m.gal := rfl
@[simp] theorem Mach.setF_tb (m : Mach) (f : FieldRef) (v : Nat) : (m.setF f v).tb = m.tb := rfl
@[simp] theorem Mach.setF_conv (m : Mach) (f : FieldRef) (v : Nat) : (m.setF f v).conv = m.conv := rfl
@[simp] theorem Mach.setF_loop (m : Mach) (f : FieldRef) (v : Nat) : (m.setF f v).loop = m.loop := rfl
@[simp] theorem Mach.setF_mode (m : Mach) (f : FieldRef) (v : Nat) : (m.setF f v).mode = m.mode := rfl
@[simp] theorem Mach.setF_flow (m : Mach) (f : FieldRef) (v : Nat) : (m.setF f v).flow = m.flow := rfl
@[simp] theorem Mach.setF_zl (m : Mach) (f : FieldRef) (v : Nat) : (m.setF f v).zl = m.zl := rfl
@[simp] theorem Mach.setF_host (m : Mach) (f : FieldRef) (v : Nat) : (m.setF f v).host = m.host := rfl
@[simp] theorem Mach.setF_pair (m : Mach) (f : FieldRef) (v : Nat) : (m.setF f v).pair = m.pair := rfl
@[simp] theorem Mach.setF_meas (m : Mach) (f : FieldRef) (v : Nat) : (m.setF f v).meas = m.meas := rfl
@[simp] theorem Mach.setF_net (m : Mach) (f : FieldRef) (v : Nat) : (m.setF f v).net = m.net := rfl
@[simp] theorem Mach.setF_pwm (m : Mach) (f : FieldRef) (v : Nat) : (m.setF f v).pwm = m.pwm := rfl
@[simp] theorem Mach.setF_safety (m : Mach) (f : FieldRef) (v : Nat) : (m.setF f v).safety = m.safety := rfl
@[simp] theorem Mach.setF_pwr (m : Mach) (f : FieldRef) (v : Nat) : (m.setF f v).pwr = m.pwr := rfl
@[simp] theorem Mach.setF_sec (m : Mach) (f : FieldRef) (v : Nat) : (m.setF f v).sec = m.sec := rfl
@[simp] theorem Mach.setF_dbg (m : Mach) (f : FieldRef) (v : Nat) : (m.setF f v).dbg = m.dbg := rfl
@[simp] theorem Mach.setF_hostMem (m : Mach) (f : FieldRef) (v : Nat) : (m.setF f v).hostMem = m.hostMem := rfl
@[simp] theorem Mach.setF_pins (m : Mach) (f : FieldRef) (v : Nat) : (m.setF f v).pins = m.pins := rfl
@[simp] theorem Mach.setF_out (m : Mach) (f : FieldRef) (v : Nat) : (m.setF f v).out = m.out := rfl

@[simp] theorem Mach.raise_dev (m : Mach) (f : FieldRef) : (m.raise f).dev = m.dev := rfl
@[simp] theorem Mach.raise_gal (m : Mach) (f : FieldRef) : (m.raise f).gal = m.gal := rfl
@[simp] theorem Mach.raise_tb (m : Mach) (f : FieldRef) : (m.raise f).tb = m.tb := rfl
@[simp] theorem Mach.raise_conv (m : Mach) (f : FieldRef) : (m.raise f).conv = m.conv := rfl
@[simp] theorem Mach.raise_loop (m : Mach) (f : FieldRef) : (m.raise f).loop = m.loop := rfl
@[simp] theorem Mach.raise_mode (m : Mach) (f : FieldRef) : (m.raise f).mode = m.mode := rfl
@[simp] theorem Mach.raise_flow (m : Mach) (f : FieldRef) : (m.raise f).flow = m.flow := rfl
@[simp] theorem Mach.raise_zl (m : Mach) (f : FieldRef) : (m.raise f).zl = m.zl := rfl
@[simp] theorem Mach.raise_host (m : Mach) (f : FieldRef) : (m.raise f).host = m.host := rfl
@[simp] theorem Mach.raise_pair (m : Mach) (f : FieldRef) : (m.raise f).pair = m.pair := rfl
@[simp] theorem Mach.raise_meas (m : Mach) (f : FieldRef) : (m.raise f).meas = m.meas := rfl
@[simp] theorem Mach.raise_net (m : Mach) (f : FieldRef) : (m.raise f).net = m.net := rfl
@[simp] theorem Mach.raise_pwm (m : Mach) (f : FieldRef) : (m.raise f).pwm = m.pwm := rfl
@[simp] theorem Mach.raise_safety (m : Mach) (f : FieldRef) : (m.raise f).safety = m.safety := rfl
@[simp] theorem Mach.raise_pwr (m : Mach) (f : FieldRef) : (m.raise f).pwr = m.pwr := rfl
@[simp] theorem Mach.raise_sec (m : Mach) (f : FieldRef) : (m.raise f).sec = m.sec := rfl
@[simp] theorem Mach.raise_dbg (m : Mach) (f : FieldRef) : (m.raise f).dbg = m.dbg := rfl
@[simp] theorem Mach.raise_hostMem (m : Mach) (f : FieldRef) : (m.raise f).hostMem = m.hostMem := rfl
@[simp] theorem Mach.raise_pins (m : Mach) (f : FieldRef) : (m.raise f).pins = m.pins := rfl
@[simp] theorem Mach.raise_out (m : Mach) (f : FieldRef) : (m.raise f).out = m.out := rfl

@[simp] theorem Mach.bump_dev (m : Mach) (f : FieldRef) (n : Nat) : (m.bump f n).dev = m.dev := rfl
@[simp] theorem Mach.bump_gal (m : Mach) (f : FieldRef) (n : Nat) : (m.bump f n).gal = m.gal := rfl
@[simp] theorem Mach.bump_tb (m : Mach) (f : FieldRef) (n : Nat) : (m.bump f n).tb = m.tb := rfl
@[simp] theorem Mach.bump_conv (m : Mach) (f : FieldRef) (n : Nat) : (m.bump f n).conv = m.conv := rfl
@[simp] theorem Mach.bump_loop (m : Mach) (f : FieldRef) (n : Nat) : (m.bump f n).loop = m.loop := rfl
@[simp] theorem Mach.bump_mode (m : Mach) (f : FieldRef) (n : Nat) : (m.bump f n).mode = m.mode := rfl
@[simp] theorem Mach.bump_flow (m : Mach) (f : FieldRef) (n : Nat) : (m.bump f n).flow = m.flow := rfl
@[simp] theorem Mach.bump_zl (m : Mach) (f : FieldRef) (n : Nat) : (m.bump f n).zl = m.zl := rfl
@[simp] theorem Mach.bump_host (m : Mach) (f : FieldRef) (n : Nat) : (m.bump f n).host = m.host := rfl
@[simp] theorem Mach.bump_pair (m : Mach) (f : FieldRef) (n : Nat) : (m.bump f n).pair = m.pair := rfl
@[simp] theorem Mach.bump_meas (m : Mach) (f : FieldRef) (n : Nat) : (m.bump f n).meas = m.meas := rfl
@[simp] theorem Mach.bump_net (m : Mach) (f : FieldRef) (n : Nat) : (m.bump f n).net = m.net := rfl
@[simp] theorem Mach.bump_pwm (m : Mach) (f : FieldRef) (n : Nat) : (m.bump f n).pwm = m.pwm := rfl
@[simp] theorem Mach.bump_safety (m : Mach) (f : FieldRef) (n : Nat) : (m.bump f n).safety = m.safety := rfl
@[simp] theorem Mach.bump_pwr (m : Mach) (f : FieldRef) (n : Nat) : (m.bump f n).pwr = m.pwr := rfl
@[simp] theorem Mach.bump_sec (m : Mach) (f : FieldRef) (n : Nat) : (m.bump f n).sec = m.sec := rfl
@[simp] theorem Mach.bump_dbg (m : Mach) (f : FieldRef) (n : Nat) : (m.bump f n).dbg = m.dbg := rfl
@[simp] theorem Mach.bump_hostMem (m : Mach) (f : FieldRef) (n : Nat) : (m.bump f n).hostMem = m.hostMem := rfl
@[simp] theorem Mach.bump_pins (m : Mach) (f : FieldRef) (n : Nat) : (m.bump f n).pins = m.pins := rfl
@[simp] theorem Mach.bump_out (m : Mach) (f : FieldRef) (n : Nat) : (m.bump f n).out = m.out := rfl

/-! ### Events and what a step sends -/

@[simp] theorem Mach.post_dev (m : Mach) (c : Nat) (a : List Nat) : (m.post c a).dev = m.dev := rfl
@[simp] theorem Mach.post_gal (m : Mach) (c : Nat) (a : List Nat) : (m.post c a).gal = m.gal := rfl
@[simp] theorem Mach.post_reg (m : Mach) (c : Nat) (a : List Nat) : (m.post c a).reg = m.reg := rfl
@[simp] theorem Mach.post_tb (m : Mach) (c : Nat) (a : List Nat) : (m.post c a).tb = m.tb := rfl
@[simp] theorem Mach.post_conv (m : Mach) (c : Nat) (a : List Nat) : (m.post c a).conv = m.conv := rfl
@[simp] theorem Mach.post_loop (m : Mach) (c : Nat) (a : List Nat) : (m.post c a).loop = m.loop := rfl
@[simp] theorem Mach.post_mode (m : Mach) (c : Nat) (a : List Nat) : (m.post c a).mode = m.mode := rfl
@[simp] theorem Mach.post_flow (m : Mach) (c : Nat) (a : List Nat) : (m.post c a).flow = m.flow := rfl
@[simp] theorem Mach.post_zl (m : Mach) (c : Nat) (a : List Nat) : (m.post c a).zl = m.zl := rfl
@[simp] theorem Mach.post_pair (m : Mach) (c : Nat) (a : List Nat) : (m.post c a).pair = m.pair := rfl
@[simp] theorem Mach.post_meas (m : Mach) (c : Nat) (a : List Nat) : (m.post c a).meas = m.meas := rfl
@[simp] theorem Mach.post_net (m : Mach) (c : Nat) (a : List Nat) : (m.post c a).net = m.net := rfl
@[simp] theorem Mach.post_pwm (m : Mach) (c : Nat) (a : List Nat) : (m.post c a).pwm = m.pwm := rfl
@[simp] theorem Mach.post_safety (m : Mach) (c : Nat) (a : List Nat) : (m.post c a).safety = m.safety := rfl
@[simp] theorem Mach.post_pwr (m : Mach) (c : Nat) (a : List Nat) : (m.post c a).pwr = m.pwr := rfl
@[simp] theorem Mach.post_sec (m : Mach) (c : Nat) (a : List Nat) : (m.post c a).sec = m.sec := rfl
@[simp] theorem Mach.post_dbg (m : Mach) (c : Nat) (a : List Nat) : (m.post c a).dbg = m.dbg := rfl
@[simp] theorem Mach.post_hostMem (m : Mach) (c : Nat) (a : List Nat) : (m.post c a).hostMem = m.hostMem := rfl
@[simp] theorem Mach.post_pins (m : Mach) (c : Nat) (a : List Nat) : (m.post c a).pins = m.pins := rfl
@[simp] theorem Mach.post_out (m : Mach) (c : Nat) (a : List Nat) : (m.post c a).out = m.out := rfl

@[simp] theorem Mach.postSm_dev (m : Mach) (c k : Nat) (a : List Nat) (g : Nat) : (m.postSm c k a g).dev = m.dev := rfl
@[simp] theorem Mach.postSm_gal (m : Mach) (c k : Nat) (a : List Nat) (g : Nat) : (m.postSm c k a g).gal = m.gal := rfl
@[simp] theorem Mach.postSm_reg (m : Mach) (c k : Nat) (a : List Nat) (g : Nat) : (m.postSm c k a g).reg = m.reg := rfl
@[simp] theorem Mach.postSm_tb (m : Mach) (c k : Nat) (a : List Nat) (g : Nat) : (m.postSm c k a g).tb = m.tb := rfl
@[simp] theorem Mach.postSm_conv (m : Mach) (c k : Nat) (a : List Nat) (g : Nat) : (m.postSm c k a g).conv = m.conv := rfl
@[simp] theorem Mach.postSm_loop (m : Mach) (c k : Nat) (a : List Nat) (g : Nat) : (m.postSm c k a g).loop = m.loop := rfl
@[simp] theorem Mach.postSm_mode (m : Mach) (c k : Nat) (a : List Nat) (g : Nat) : (m.postSm c k a g).mode = m.mode := rfl
@[simp] theorem Mach.postSm_flow (m : Mach) (c k : Nat) (a : List Nat) (g : Nat) : (m.postSm c k a g).flow = m.flow := rfl
@[simp] theorem Mach.postSm_zl (m : Mach) (c k : Nat) (a : List Nat) (g : Nat) : (m.postSm c k a g).zl = m.zl := rfl
@[simp] theorem Mach.postSm_pair (m : Mach) (c k : Nat) (a : List Nat) (g : Nat) : (m.postSm c k a g).pair = m.pair := rfl
@[simp] theorem Mach.postSm_meas (m : Mach) (c k : Nat) (a : List Nat) (g : Nat) : (m.postSm c k a g).meas = m.meas := rfl
@[simp] theorem Mach.postSm_net (m : Mach) (c k : Nat) (a : List Nat) (g : Nat) : (m.postSm c k a g).net = m.net := rfl
@[simp] theorem Mach.postSm_pwm (m : Mach) (c k : Nat) (a : List Nat) (g : Nat) : (m.postSm c k a g).pwm = m.pwm := rfl
@[simp] theorem Mach.postSm_safety (m : Mach) (c k : Nat) (a : List Nat) (g : Nat) : (m.postSm c k a g).safety = m.safety := rfl
@[simp] theorem Mach.postSm_pwr (m : Mach) (c k : Nat) (a : List Nat) (g : Nat) : (m.postSm c k a g).pwr = m.pwr := rfl
@[simp] theorem Mach.postSm_sec (m : Mach) (c k : Nat) (a : List Nat) (g : Nat) : (m.postSm c k a g).sec = m.sec := rfl
@[simp] theorem Mach.postSm_dbg (m : Mach) (c k : Nat) (a : List Nat) (g : Nat) : (m.postSm c k a g).dbg = m.dbg := rfl
@[simp] theorem Mach.postSm_hostMem (m : Mach) (c k : Nat) (a : List Nat) (g : Nat) : (m.postSm c k a g).hostMem = m.hostMem := rfl
@[simp] theorem Mach.postSm_pins (m : Mach) (c k : Nat) (a : List Nat) (g : Nat) : (m.postSm c k a g).pins = m.pins := rfl
@[simp] theorem Mach.postSm_out (m : Mach) (c k : Nat) (a : List Nat) (g : Nat) : (m.postSm c k a g).out = m.out := rfl

@[simp] theorem Mach.send_dev (m : Mach) (o : Out) : (m.send o).dev = m.dev := rfl
@[simp] theorem Mach.send_gal (m : Mach) (o : Out) : (m.send o).gal = m.gal := rfl
@[simp] theorem Mach.send_reg (m : Mach) (o : Out) : (m.send o).reg = m.reg := rfl
@[simp] theorem Mach.send_tb (m : Mach) (o : Out) : (m.send o).tb = m.tb := rfl
@[simp] theorem Mach.send_conv (m : Mach) (o : Out) : (m.send o).conv = m.conv := rfl
@[simp] theorem Mach.send_loop (m : Mach) (o : Out) : (m.send o).loop = m.loop := rfl
@[simp] theorem Mach.send_mode (m : Mach) (o : Out) : (m.send o).mode = m.mode := rfl
@[simp] theorem Mach.send_flow (m : Mach) (o : Out) : (m.send o).flow = m.flow := rfl
@[simp] theorem Mach.send_zl (m : Mach) (o : Out) : (m.send o).zl = m.zl := rfl
@[simp] theorem Mach.send_host (m : Mach) (o : Out) : (m.send o).host = m.host := rfl
@[simp] theorem Mach.send_pair (m : Mach) (o : Out) : (m.send o).pair = m.pair := rfl
@[simp] theorem Mach.send_meas (m : Mach) (o : Out) : (m.send o).meas = m.meas := rfl
@[simp] theorem Mach.send_net (m : Mach) (o : Out) : (m.send o).net = m.net := rfl
@[simp] theorem Mach.send_pwm (m : Mach) (o : Out) : (m.send o).pwm = m.pwm := rfl
@[simp] theorem Mach.send_safety (m : Mach) (o : Out) : (m.send o).safety = m.safety := rfl
@[simp] theorem Mach.send_pwr (m : Mach) (o : Out) : (m.send o).pwr = m.pwr := rfl
@[simp] theorem Mach.send_sec (m : Mach) (o : Out) : (m.send o).sec = m.sec := rfl
@[simp] theorem Mach.send_dbg (m : Mach) (o : Out) : (m.send o).dbg = m.dbg := rfl
@[simp] theorem Mach.send_hostMem (m : Mach) (o : Out) : (m.send o).hostMem = m.hostMem := rfl
@[simp] theorem Mach.send_pins (m : Mach) (o : Out) : (m.send o).pins = m.pins := rfl

@[simp] theorem Mach.sendAll_dev (m : Mach) (l : List Out) : (m.sendAll l).dev = m.dev := rfl
@[simp] theorem Mach.sendAll_gal (m : Mach) (l : List Out) : (m.sendAll l).gal = m.gal := rfl
@[simp] theorem Mach.sendAll_reg (m : Mach) (l : List Out) : (m.sendAll l).reg = m.reg := rfl
@[simp] theorem Mach.sendAll_tb (m : Mach) (l : List Out) : (m.sendAll l).tb = m.tb := rfl
@[simp] theorem Mach.sendAll_conv (m : Mach) (l : List Out) : (m.sendAll l).conv = m.conv := rfl
@[simp] theorem Mach.sendAll_loop (m : Mach) (l : List Out) : (m.sendAll l).loop = m.loop := rfl
@[simp] theorem Mach.sendAll_mode (m : Mach) (l : List Out) : (m.sendAll l).mode = m.mode := rfl
@[simp] theorem Mach.sendAll_flow (m : Mach) (l : List Out) : (m.sendAll l).flow = m.flow := rfl
@[simp] theorem Mach.sendAll_zl (m : Mach) (l : List Out) : (m.sendAll l).zl = m.zl := rfl
@[simp] theorem Mach.sendAll_host (m : Mach) (l : List Out) : (m.sendAll l).host = m.host := rfl
@[simp] theorem Mach.sendAll_pair (m : Mach) (l : List Out) : (m.sendAll l).pair = m.pair := rfl
@[simp] theorem Mach.sendAll_meas (m : Mach) (l : List Out) : (m.sendAll l).meas = m.meas := rfl
@[simp] theorem Mach.sendAll_net (m : Mach) (l : List Out) : (m.sendAll l).net = m.net := rfl
@[simp] theorem Mach.sendAll_pwm (m : Mach) (l : List Out) : (m.sendAll l).pwm = m.pwm := rfl
@[simp] theorem Mach.sendAll_safety (m : Mach) (l : List Out) : (m.sendAll l).safety = m.safety := rfl
@[simp] theorem Mach.sendAll_pwr (m : Mach) (l : List Out) : (m.sendAll l).pwr = m.pwr := rfl
@[simp] theorem Mach.sendAll_sec (m : Mach) (l : List Out) : (m.sendAll l).sec = m.sec := rfl
@[simp] theorem Mach.sendAll_dbg (m : Mach) (l : List Out) : (m.sendAll l).dbg = m.dbg := rfl
@[simp] theorem Mach.sendAll_hostMem (m : Mach) (l : List Out) : (m.sendAll l).hostMem = m.hostMem := rfl
@[simp] theorem Mach.sendAll_pins (m : Mach) (l : List Out) : (m.sendAll l).pins = m.pins := rfl

@[simp] theorem Mach.pairSend_dev (m : Mach) (t : Nat) (b : List Byte) : (m.pairSend t b).dev = m.dev := rfl
@[simp] theorem Mach.pairSend_gal (m : Mach) (t : Nat) (b : List Byte) : (m.pairSend t b).gal = m.gal := rfl
@[simp] theorem Mach.pairSend_reg (m : Mach) (t : Nat) (b : List Byte) : (m.pairSend t b).reg = m.reg := rfl
@[simp] theorem Mach.pairSend_tb (m : Mach) (t : Nat) (b : List Byte) : (m.pairSend t b).tb = m.tb := rfl
@[simp] theorem Mach.pairSend_conv (m : Mach) (t : Nat) (b : List Byte) : (m.pairSend t b).conv = m.conv := rfl
@[simp] theorem Mach.pairSend_loop (m : Mach) (t : Nat) (b : List Byte) : (m.pairSend t b).loop = m.loop := rfl
@[simp] theorem Mach.pairSend_mode (m : Mach) (t : Nat) (b : List Byte) : (m.pairSend t b).mode = m.mode := rfl
@[simp] theorem Mach.pairSend_flow (m : Mach) (t : Nat) (b : List Byte) : (m.pairSend t b).flow = m.flow := rfl
@[simp] theorem Mach.pairSend_zl (m : Mach) (t : Nat) (b : List Byte) : (m.pairSend t b).zl = m.zl := rfl
@[simp] theorem Mach.pairSend_host (m : Mach) (t : Nat) (b : List Byte) : (m.pairSend t b).host = m.host := rfl
@[simp] theorem Mach.pairSend_pair (m : Mach) (t : Nat) (b : List Byte) : (m.pairSend t b).pair = m.pair := rfl
@[simp] theorem Mach.pairSend_meas (m : Mach) (t : Nat) (b : List Byte) : (m.pairSend t b).meas = m.meas := rfl
@[simp] theorem Mach.pairSend_net (m : Mach) (t : Nat) (b : List Byte) : (m.pairSend t b).net = m.net := rfl
@[simp] theorem Mach.pairSend_pwm (m : Mach) (t : Nat) (b : List Byte) : (m.pairSend t b).pwm = m.pwm := rfl
@[simp] theorem Mach.pairSend_safety (m : Mach) (t : Nat) (b : List Byte) : (m.pairSend t b).safety = m.safety := rfl
@[simp] theorem Mach.pairSend_pwr (m : Mach) (t : Nat) (b : List Byte) : (m.pairSend t b).pwr = m.pwr := rfl
@[simp] theorem Mach.pairSend_sec (m : Mach) (t : Nat) (b : List Byte) : (m.pairSend t b).sec = m.sec := rfl
@[simp] theorem Mach.pairSend_dbg (m : Mach) (t : Nat) (b : List Byte) : (m.pairSend t b).dbg = m.dbg := rfl
@[simp] theorem Mach.pairSend_hostMem (m : Mach) (t : Nat) (b : List Byte) : (m.pairSend t b).hostMem = m.hostMem := rfl
@[simp] theorem Mach.pairSend_pins (m : Mach) (t : Nat) (b : List Byte) : (m.pairSend t b).pins = m.pins := rfl

/-! ### Gallery -/

@[simp] theorem Mach.gput_dev (m : Mach) (i : Nat) (e : GEntry) : (m.gput i e).dev = m.dev := rfl
@[simp] theorem Mach.gput_reg (m : Mach) (i : Nat) (e : GEntry) : (m.gput i e).reg = m.reg := rfl
@[simp] theorem Mach.gput_tb (m : Mach) (i : Nat) (e : GEntry) : (m.gput i e).tb = m.tb := rfl
@[simp] theorem Mach.gput_conv (m : Mach) (i : Nat) (e : GEntry) : (m.gput i e).conv = m.conv := rfl
@[simp] theorem Mach.gput_loop (m : Mach) (i : Nat) (e : GEntry) : (m.gput i e).loop = m.loop := rfl
@[simp] theorem Mach.gput_mode (m : Mach) (i : Nat) (e : GEntry) : (m.gput i e).mode = m.mode := rfl
@[simp] theorem Mach.gput_flow (m : Mach) (i : Nat) (e : GEntry) : (m.gput i e).flow = m.flow := rfl
@[simp] theorem Mach.gput_zl (m : Mach) (i : Nat) (e : GEntry) : (m.gput i e).zl = m.zl := rfl
@[simp] theorem Mach.gput_host (m : Mach) (i : Nat) (e : GEntry) : (m.gput i e).host = m.host := rfl
@[simp] theorem Mach.gput_pair (m : Mach) (i : Nat) (e : GEntry) : (m.gput i e).pair = m.pair := rfl
@[simp] theorem Mach.gput_meas (m : Mach) (i : Nat) (e : GEntry) : (m.gput i e).meas = m.meas := rfl
@[simp] theorem Mach.gput_net (m : Mach) (i : Nat) (e : GEntry) : (m.gput i e).net = m.net := rfl
@[simp] theorem Mach.gput_pwm (m : Mach) (i : Nat) (e : GEntry) : (m.gput i e).pwm = m.pwm := rfl
@[simp] theorem Mach.gput_safety (m : Mach) (i : Nat) (e : GEntry) : (m.gput i e).safety = m.safety := rfl
@[simp] theorem Mach.gput_pwr (m : Mach) (i : Nat) (e : GEntry) : (m.gput i e).pwr = m.pwr := rfl
@[simp] theorem Mach.gput_sec (m : Mach) (i : Nat) (e : GEntry) : (m.gput i e).sec = m.sec := rfl
@[simp] theorem Mach.gput_dbg (m : Mach) (i : Nat) (e : GEntry) : (m.gput i e).dbg = m.dbg := rfl
@[simp] theorem Mach.gput_hostMem (m : Mach) (i : Nat) (e : GEntry) : (m.gput i e).hostMem = m.hostMem := rfl
@[simp] theorem Mach.gput_pins (m : Mach) (i : Nat) (e : GEntry) : (m.gput i e).pins = m.pins := rfl
@[simp] theorem Mach.gput_out (m : Mach) (i : Nat) (e : GEntry) : (m.gput i e).out = m.out := rfl

@[simp] theorem Mach.galReset_dev (m : Mach) (lo hi : Nat) : (m.galReset lo hi).dev = m.dev := rfl
@[simp] theorem Mach.galReset_reg (m : Mach) (lo hi : Nat) : (m.galReset lo hi).reg = m.reg := rfl
@[simp] theorem Mach.galReset_tb (m : Mach) (lo hi : Nat) : (m.galReset lo hi).tb = m.tb := rfl
@[simp] theorem Mach.galReset_loop (m : Mach) (lo hi : Nat) : (m.galReset lo hi).loop = m.loop := rfl
@[simp] theorem Mach.galReset_mode (m : Mach) (lo hi : Nat) : (m.galReset lo hi).mode = m.mode := rfl
@[simp] theorem Mach.galReset_flow (m : Mach) (lo hi : Nat) : (m.galReset lo hi).flow = m.flow := rfl
@[simp] theorem Mach.galReset_zl (m : Mach) (lo hi : Nat) : (m.galReset lo hi).zl = m.zl := rfl
@[simp] theorem Mach.galReset_host (m : Mach) (lo hi : Nat) : (m.galReset lo hi).host = m.host := rfl
@[simp] theorem Mach.galReset_pair (m : Mach) (lo hi : Nat) : (m.galReset lo hi).pair = m.pair := rfl
@[simp] theorem Mach.galReset_meas (m : Mach) (lo hi : Nat) : (m.galReset lo hi).meas = m.meas := rfl
@[simp] theorem Mach.galReset_net (m : Mach) (lo hi : Nat) : (m.galReset lo hi).net = m.net := rfl
@[simp] theorem Mach.galReset_pwm (m : Mach) (lo hi : Nat) : (m.galReset lo hi).pwm = m.pwm := rfl
@[simp] theorem Mach.galReset_safety (m : Mach) (lo hi : Nat) : (m.galReset lo hi).safety = m.safety := rfl
@[simp] theorem Mach.galReset_pwr (m : Mach) (lo hi : Nat) : (m.galReset lo hi).pwr = m.pwr := rfl
@[simp] theorem Mach.galReset_sec (m : Mach) (lo hi : Nat) : (m.galReset lo hi).sec = m.sec := rfl
@[simp] theorem Mach.galReset_dbg (m : Mach) (lo hi : Nat) : (m.galReset lo hi).dbg = m.dbg := rfl
@[simp] theorem Mach.galReset_hostMem (m : Mach) (lo hi : Nat) : (m.galReset lo hi).hostMem = m.hostMem := rfl
@[simp] theorem Mach.galReset_pins (m : Mach) (lo hi : Nat) : (m.galReset lo hi).pins = m.pins := rfl
@[simp] theorem Mach.galReset_out (m : Mach) (lo hi : Nat) : (m.galReset lo hi).out = m.out := rfl


@[simp] theorem Mach.agreePut_dev (m : Mach) (i : Nat) (e : GEntry) : (m.agreePut i e).dev = m.dev := by unfold Mach.agreePut; dsimp only; split <;> (try split) <;> rfl
@[simp] theorem Mach.agreePut_gal (m : Mach) (i : Nat) (e : GEntry) : (m.agreePut i e).gal = m.gal := by unfold Mach.agreePut; dsimp only; split <;> (try split) <;> rfl
@[simp] theorem Mach.agreePut_tb (m : Mach) (i : Nat) (e : GEntry) : (m.agreePut i e).tb = m.tb := by unfold Mach.agreePut; dsimp only; split <;> (try split) <;> rfl
@[simp] theorem Mach.agreePut_conv (m : Mach) (i : Nat) (e : GEntry) : (m.agreePut i e).conv = m.conv := by unfold Mach.agreePut; dsimp only; split <;> (try split) <;> rfl
@[simp] theorem Mach.agreePut_loop (m : Mach) (i : Nat) (e : GEntry) : (m.agreePut i e).loop = m.loop := by unfold Mach.agreePut; dsimp only; split <;> (try split) <;> rfl
@[simp] theorem Mach.agreePut_mode (m : Mach) (i : Nat) (e : GEntry) : (m.agreePut i e).mode = m.mode := by unfold Mach.agreePut; dsimp only; split <;> (try split) <;> rfl
@[simp] theorem Mach.agreePut_flow (m : Mach) (i : Nat) (e : GEntry) : (m.agreePut i e).flow = m.flow := by unfold Mach.agreePut; dsimp only; split <;> (try split) <;> rfl
@[simp] theorem Mach.agreePut_zl (m : Mach) (i : Nat) (e : GEntry) : (m.agreePut i e).zl = m.zl := by unfold Mach.agreePut; dsimp only; split <;> (try split) <;> rfl
@[simp] theorem Mach.agreePut_meas (m : Mach) (i : Nat) (e : GEntry) : (m.agreePut i e).meas = m.meas := by unfold Mach.agreePut; dsimp only; split <;> (try split) <;> rfl
@[simp] theorem Mach.agreePut_net (m : Mach) (i : Nat) (e : GEntry) : (m.agreePut i e).net = m.net := by unfold Mach.agreePut; dsimp only; split <;> (try split) <;> rfl
@[simp] theorem Mach.agreePut_pwm (m : Mach) (i : Nat) (e : GEntry) : (m.agreePut i e).pwm = m.pwm := by unfold Mach.agreePut; dsimp only; split <;> (try split) <;> rfl
@[simp] theorem Mach.agreePut_safety (m : Mach) (i : Nat) (e : GEntry) : (m.agreePut i e).safety = m.safety := by unfold Mach.agreePut; dsimp only; split <;> (try split) <;> rfl
@[simp] theorem Mach.agreePut_pwr (m : Mach) (i : Nat) (e : GEntry) : (m.agreePut i e).pwr = m.pwr := by unfold Mach.agreePut; dsimp only; split <;> (try split) <;> rfl
@[simp] theorem Mach.agreePut_sec (m : Mach) (i : Nat) (e : GEntry) : (m.agreePut i e).sec = m.sec := by unfold Mach.agreePut; dsimp only; split <;> (try split) <;> rfl
@[simp] theorem Mach.agreePut_dbg (m : Mach) (i : Nat) (e : GEntry) : (m.agreePut i e).dbg = m.dbg := by unfold Mach.agreePut; dsimp only; split <;> (try split) <;> rfl
@[simp] theorem Mach.agreePut_hostMem (m : Mach) (i : Nat) (e : GEntry) : (m.agreePut i e).hostMem = m.hostMem := by unfold Mach.agreePut; dsimp only; split <;> (try split) <;> rfl
@[simp] theorem Mach.agreePut_pins (m : Mach) (i : Nat) (e : GEntry) : (m.agreePut i e).pins = m.pins := by unfold Mach.agreePut; dsimp only; split <;> (try split) <;> rfl

@[simp] theorem Mach.invalidate_dev (m : Mach) (i : Nat) (h : Bool) : (m.invalidate i h).dev = m.dev := by unfold Mach.invalidate; dsimp only; (repeat' split) <;> simp
@[simp] theorem Mach.invalidate_tb (m : Mach) (i : Nat) (h : Bool) : (m.invalidate i h).tb = m.tb := by unfold Mach.invalidate; dsimp only; (repeat' split) <;> simp
@[simp] theorem Mach.invalidate_conv (m : Mach) (i : Nat) (h : Bool) : (m.invalidate i h).conv = m.conv := by unfold Mach.invalidate; dsimp only; (repeat' split) <;> simp
@[simp] theorem Mach.invalidate_loop (m : Mach) (i : Nat) (h : Bool) : (m.invalidate i h).loop = m.loop := by unfold Mach.invalidate; dsimp only; (repeat' split) <;> simp
@[simp] theorem Mach.invalidate_mode (m : Mach) (i : Nat) (h : Bool) : (m.invalidate i h).mode = m.mode := by unfold Mach.invalidate; dsimp only; (repeat' split) <;> simp
@[simp] theorem Mach.invalidate_flow (m : Mach) (i : Nat) (h : Bool) : (m.invalidate i h).flow = m.flow := by unfold Mach.invalidate; dsimp only; (repeat' split) <;> simp
@[simp] theorem Mach.invalidate_zl (m : Mach) (i : Nat) (h : Bool) : (m.invalidate i h).zl = m.zl := by unfold Mach.invalidate; dsimp only; (repeat' split) <;> simp
@[simp] theorem Mach.invalidate_meas (m : Mach) (i : Nat) (h : Bool) : (m.invalidate i h).meas = m.meas := by unfold Mach.invalidate; dsimp only; (repeat' split) <;> simp
@[simp] theorem Mach.invalidate_net (m : Mach) (i : Nat) (h : Bool) : (m.invalidate i h).net = m.net := by unfold Mach.invalidate; dsimp only; (repeat' split) <;> simp
@[simp] theorem Mach.invalidate_pwm (m : Mach) (i : Nat) (h : Bool) : (m.invalidate i h).pwm = m.pwm := by unfold Mach.invalidate; dsimp only; (repeat' split) <;> simp
@[simp] theorem Mach.invalidate_safety (m : Mach) (i : Nat) (h : Bool) : (m.invalidate i h).safety = m.safety := by unfold Mach.invalidate; dsimp only; (repeat' split) <;> simp
@[simp] theorem Mach.invalidate_pwr (m : Mach) (i : Nat) (h : Bool) : (m.invalidate i h).pwr = m.pwr := by unfold Mach.invalidate; dsimp only; (repeat' split) <;> simp
@[simp] theorem Mach.invalidate_sec (m : Mach) (i : Nat) (h : Bool) : (m.invalidate i h).sec = m.sec := by unfold Mach.invalidate; dsimp only; (repeat' split) <;> simp
@[simp] theorem Mach.invalidate_dbg (m : Mach) (i : Nat) (h : Bool) : (m.invalidate i h).dbg = m.dbg := by unfold Mach.invalidate; dsimp only; (repeat' split) <;> simp
@[simp] theorem Mach.invalidate_hostMem (m : Mach) (i : Nat) (h : Bool) : (m.invalidate i h).hostMem = m.hostMem := by unfold Mach.invalidate; dsimp only; (repeat' split) <;> simp
@[simp] theorem Mach.invalidate_pins (m : Mach) (i : Nat) (h : Bool) : (m.invalidate i h).pins = m.pins := by unfold Mach.invalidate; dsimp only; (repeat' split) <;> simp
theorem Mach.invalidate_out (m : Mach) (i : Nat) (h : Bool) (x : m.pair.exchanging = false) : (m.invalidate i h).out = m.out := by unfold Mach.invalidate; simp only [x, Bool.false_and]; (repeat' split) <;> simp_all

@[simp] theorem Mach.produce_dev (m : Mach) (fr : Bool) (i : Nat) (v : Word) (q : Byte) (src : Nat) : (m.produce fr i v q src).dev = m.dev := by unfold Mach.produce; split <;> simp
@[simp] theorem Mach.produce_tb (m : Mach) (fr : Bool) (i : Nat) (v : Word) (q : Byte) (src : Nat) : (m.produce fr i v q src).tb = m.tb := by unfold Mach.produce; split <;> simp
@[simp] theorem Mach.produce_conv (m : Mach) (fr : Bool) (i : Nat) (v : Word) (q : Byte) (src : Nat) : (m.produce fr i v q src).conv = m.conv := by unfold Mach.produce; split <;> simp
@[simp] theorem Mach.produce_loop (m : Mach) (fr : Bool) (i : Nat) (v : Word) (q : Byte) (src : Nat) : (m.produce fr i v q src).loop = m.loop := by unfold Mach.produce; split <;> simp
@[simp] theorem Mach.produce_mode (m : Mach) (fr : Bool) (i : Nat) (v : Word) (q : Byte) (src : Nat) : (m.produce fr i v q src).mode = m.mode := by unfold Mach.produce; split <;> simp
@[simp] theorem Mach.produce_flow (m : Mach) (fr : Bool) (i : Nat) (v : Word) (q : Byte) (src : Nat) : (m.produce fr i v q src).flow = m.flow := by unfold Mach.produce; split <;> simp
@[simp] theorem Mach.produce_zl (m : Mach) (fr : Bool) (i : Nat) (v : Word) (q : Byte) (src : Nat) : (m.produce fr i v q src).zl = m.zl := by unfold Mach.produce; split <;> simp
@[simp] theorem Mach.produce_meas (m : Mach) (fr : Bool) (i : Nat) (v : Word) (q : Byte) (src : Nat) : (m.produce fr i v q src).meas = m.meas := by unfold Mach.produce; split <;> simp
@[simp] theorem Mach.produce_net (m : Mach) (fr : Bool) (i : Nat) (v : Word) (q : Byte) (src : Nat) : (m.produce fr i v q src).net = m.net := by unfold Mach.produce; split <;> simp
@[simp] theorem Mach.produce_pwm (m : Mach) (fr : Bool) (i : Nat) (v : Word) (q : Byte) (src : Nat) : (m.produce fr i v q src).pwm = m.pwm := by unfold Mach.produce; split <;> simp
@[simp] theorem Mach.produce_safety (m : Mach) (fr : Bool) (i : Nat) (v : Word) (q : Byte) (src : Nat) : (m.produce fr i v q src).safety = m.safety := by unfold Mach.produce; split <;> simp
@[simp] theorem Mach.produce_pwr (m : Mach) (fr : Bool) (i : Nat) (v : Word) (q : Byte) (src : Nat) : (m.produce fr i v q src).pwr = m.pwr := by unfold Mach.produce; split <;> simp
@[simp] theorem Mach.produce_sec (m : Mach) (fr : Bool) (i : Nat) (v : Word) (q : Byte) (src : Nat) : (m.produce fr i v q src).sec = m.sec := by unfold Mach.produce; split <;> simp
@[simp] theorem Mach.produce_dbg (m : Mach) (fr : Bool) (i : Nat) (v : Word) (q : Byte) (src : Nat) : (m.produce fr i v q src).dbg = m.dbg := by unfold Mach.produce; split <;> simp
@[simp] theorem Mach.produce_hostMem (m : Mach) (fr : Bool) (i : Nat) (v : Word) (q : Byte) (src : Nat) : (m.produce fr i v q src).hostMem = m.hostMem := by unfold Mach.produce; split <;> simp
@[simp] theorem Mach.produce_pins (m : Mach) (fr : Bool) (i : Nat) (v : Word) (q : Byte) (src : Nat) : (m.produce fr i v q src).pins = m.pins := by unfold Mach.produce; split <;> simp
theorem Mach.produce_out (m : Mach) (fr : Bool) (i : Nat) (v : Word) (q : Byte) (src : Nat) (h : m.pair.exchanging = false) : (m.produce fr i v q src).out = m.out := by simp [Mach.produce, h]

@[simp] theorem Mach.produceValid_dev (m : Mach) (i v src : Nat) : (m.produceValid i v src).dev = m.dev := by simp [Mach.produceValid]
@[simp] theorem Mach.produceValid_tb (m : Mach) (i v src : Nat) : (m.produceValid i v src).tb = m.tb := by simp [Mach.produceValid]
@[simp] theorem Mach.produceValid_conv (m : Mach) (i v src : Nat) : (m.produceValid i v src).conv = m.conv := by simp [Mach.produceValid]
@[simp] theorem Mach.produceValid_loop (m : Mach) (i v src : Nat) : (m.produceValid i v src).loop = m.loop := by simp [Mach.produceValid]
@[simp] theorem Mach.produceValid_mode (m : Mach) (i v src : Nat) : (m.produceValid i v src).mode = m.mode := by simp [Mach.produceValid]
@[simp] theorem Mach.produceValid_flow (m : Mach) (i v src : Nat) : (m.produceValid i v src).flow = m.flow := by simp [Mach.produceValid]
@[simp] theorem Mach.produceValid_zl (m : Mach) (i v src : Nat) : (m.produceValid i v src).zl = m.zl := by simp [Mach.produceValid]
@[simp] theorem Mach.produceValid_meas (m : Mach) (i v src : Nat) : (m.produceValid i v src).meas = m.meas := by simp [Mach.produceValid]
@[simp] theorem Mach.produceValid_net (m : Mach) (i v src : Nat) : (m.produceValid i v src).net = m.net := by simp [Mach.produceValid]
@[simp] theorem Mach.produceValid_pwm (m : Mach) (i v src : Nat) : (m.produceValid i v src).pwm = m.pwm := by simp [Mach.produceValid]
@[simp] theorem Mach.produceValid_safety (m : Mach) (i v src : Nat) : (m.produceValid i v src).safety = m.safety := by simp [Mach.produceValid]
@[simp] theorem Mach.produceValid_pwr (m : Mach) (i v src : Nat) : (m.produceValid i v src).pwr = m.pwr := by simp [Mach.produceValid]
@[simp] theorem Mach.produceValid_sec (m : Mach) (i v src : Nat) : (m.produceValid i v src).sec = m.sec := by simp [Mach.produceValid]
@[simp] theorem Mach.produceValid_dbg (m : Mach) (i v src : Nat) : (m.produceValid i v src).dbg = m.dbg := by simp [Mach.produceValid]
@[simp] theorem Mach.produceValid_hostMem (m : Mach) (i v src : Nat) : (m.produceValid i v src).hostMem = m.hostMem := by simp [Mach.produceValid]
@[simp] theorem Mach.produceValid_pins (m : Mach) (i v src : Nat) : (m.produceValid i v src).pins = m.pins := by simp [Mach.produceValid]

/-! ### Elements of a subsystem -/

@[simp] theorem Mach.setLane_dev (m : Mach) (l : Nat) (x : Lane) : (m.setLane l x).dev = m.dev := rfl
@[simp] theorem Mach.setLane_gal (m : Mach) (l : Nat) (x : Lane) : (m.setLane l x).gal = m.gal := rfl
@[simp] theorem Mach.setLane_reg (m : Mach) (l : Nat) (x : Lane) : (m.setLane l x).reg = m.reg := rfl
@[simp] theorem Mach.setLane_tb (m : Mach) (l : Nat) (x : Lane) : (m.setLane l x).tb = m.tb := rfl
@[simp] theorem Mach.setLane_conv (m : Mach) (l : Nat) (x : Lane) : (m.setLane l x).conv = m.conv := rfl
@[simp] theorem Mach.setLane_loop (m : Mach) (l : Nat) (x : Lane) : (m.setLane l x).loop = m.loop := rfl
@[simp] theorem Mach.setLane_mode (m : Mach) (l : Nat) (x : Lane) : (m.setLane l x).mode = m.mode := rfl
@[simp] theorem Mach.setLane_flow (m : Mach) (l : Nat) (x : Lane) : (m.setLane l x).flow = m.flow := rfl
@[simp] theorem Mach.setLane_host (m : Mach) (l : Nat) (x : Lane) : (m.setLane l x).host = m.host := rfl
@[simp] theorem Mach.setLane_pair (m : Mach) (l : Nat) (x : Lane) : (m.setLane l x).pair = m.pair := rfl
@[simp] theorem Mach.setLane_meas (m : Mach) (l : Nat) (x : Lane) : (m.setLane l x).meas = m.meas := rfl
@[simp] theorem Mach.setLane_net (m : Mach) (l : Nat) (x : Lane) : (m.setLane l x).net = m.net := rfl
@[simp] theorem Mach.setLane_pwm (m : Mach) (l : Nat) (x : Lane) : (m.setLane l x).pwm = m.pwm := rfl
@[simp] theorem Mach.setLane_safety (m : Mach) (l : Nat) (x : Lane) : (m.setLane l x).safety = m.safety := rfl
@[simp] theorem Mach.setLane_pwr (m : Mach) (l : Nat) (x : Lane) : (m.setLane l x).pwr = m.pwr := rfl
@[simp] theorem Mach.setLane_sec (m : Mach) (l : Nat) (x : Lane) : (m.setLane l x).sec = m.sec := rfl
@[simp] theorem Mach.setLane_dbg (m : Mach) (l : Nat) (x : Lane) : (m.setLane l x).dbg = m.dbg := rfl
@[simp] theorem Mach.setLane_hostMem (m : Mach) (l : Nat) (x : Lane) : (m.setLane l x).hostMem = m.hostMem := rfl
@[simp] theorem Mach.setLane_pins (m : Mach) (l : Nat) (x : Lane) : (m.setLane l x).pins = m.pins := rfl
@[simp] theorem Mach.setLane_out (m : Mach) (l : Nat) (x : Lane) : (m.setLane l x).out = m.out := rfl

@[simp] theorem Mach.setPath_dev (m : Mach) (p : Nat) (x : PathSt) : (m.setPath p x).dev = m.dev := rfl
@[simp] theorem Mach.setPath_gal (m : Mach) (p : Nat) (x : PathSt) : (m.setPath p x).gal = m.gal := rfl
@[simp] theorem Mach.setPath_reg (m : Mach) (p : Nat) (x : PathSt) : (m.setPath p x).reg = m.reg := rfl
@[simp] theorem Mach.setPath_tb (m : Mach) (p : Nat) (x : PathSt) : (m.setPath p x).tb = m.tb := rfl
@[simp] theorem Mach.setPath_conv (m : Mach) (p : Nat) (x : PathSt) : (m.setPath p x).conv = m.conv := rfl
@[simp] theorem Mach.setPath_loop (m : Mach) (p : Nat) (x : PathSt) : (m.setPath p x).loop = m.loop := rfl
@[simp] theorem Mach.setPath_mode (m : Mach) (p : Nat) (x : PathSt) : (m.setPath p x).mode = m.mode := rfl
@[simp] theorem Mach.setPath_flow (m : Mach) (p : Nat) (x : PathSt) : (m.setPath p x).flow = m.flow := rfl
@[simp] theorem Mach.setPath_zl (m : Mach) (p : Nat) (x : PathSt) : (m.setPath p x).zl = m.zl := rfl
@[simp] theorem Mach.setPath_host (m : Mach) (p : Nat) (x : PathSt) : (m.setPath p x).host = m.host := rfl
@[simp] theorem Mach.setPath_meas (m : Mach) (p : Nat) (x : PathSt) : (m.setPath p x).meas = m.meas := rfl
@[simp] theorem Mach.setPath_net (m : Mach) (p : Nat) (x : PathSt) : (m.setPath p x).net = m.net := rfl
@[simp] theorem Mach.setPath_pwm (m : Mach) (p : Nat) (x : PathSt) : (m.setPath p x).pwm = m.pwm := rfl
@[simp] theorem Mach.setPath_safety (m : Mach) (p : Nat) (x : PathSt) : (m.setPath p x).safety = m.safety := rfl
@[simp] theorem Mach.setPath_pwr (m : Mach) (p : Nat) (x : PathSt) : (m.setPath p x).pwr = m.pwr := rfl
@[simp] theorem Mach.setPath_sec (m : Mach) (p : Nat) (x : PathSt) : (m.setPath p x).sec = m.sec := rfl
@[simp] theorem Mach.setPath_dbg (m : Mach) (p : Nat) (x : PathSt) : (m.setPath p x).dbg = m.dbg := rfl
@[simp] theorem Mach.setPath_hostMem (m : Mach) (p : Nat) (x : PathSt) : (m.setPath p x).hostMem = m.hostMem := rfl
@[simp] theorem Mach.setPath_pins (m : Mach) (p : Nat) (x : PathSt) : (m.setPath p x).pins = m.pins := rfl
@[simp] theorem Mach.setPath_out (m : Mach) (p : Nat) (x : PathSt) : (m.setPath p x).out = m.out := rfl

@[simp] theorem Mach.setSm_dev (m : Mach) (g : Nat) (x : Sm) : (m.setSm g x).dev = m.dev := rfl
@[simp] theorem Mach.setSm_gal (m : Mach) (g : Nat) (x : Sm) : (m.setSm g x).gal = m.gal := rfl
@[simp] theorem Mach.setSm_reg (m : Mach) (g : Nat) (x : Sm) : (m.setSm g x).reg = m.reg := rfl
@[simp] theorem Mach.setSm_tb (m : Mach) (g : Nat) (x : Sm) : (m.setSm g x).tb = m.tb := rfl
@[simp] theorem Mach.setSm_conv (m : Mach) (g : Nat) (x : Sm) : (m.setSm g x).conv = m.conv := rfl
@[simp] theorem Mach.setSm_loop (m : Mach) (g : Nat) (x : Sm) : (m.setSm g x).loop = m.loop := rfl
@[simp] theorem Mach.setSm_mode (m : Mach) (g : Nat) (x : Sm) : (m.setSm g x).mode = m.mode := rfl
@[simp] theorem Mach.setSm_zl (m : Mach) (g : Nat) (x : Sm) : (m.setSm g x).zl = m.zl := rfl
@[simp] theorem Mach.setSm_host (m : Mach) (g : Nat) (x : Sm) : (m.setSm g x).host = m.host := rfl
@[simp] theorem Mach.setSm_pair (m : Mach) (g : Nat) (x : Sm) : (m.setSm g x).pair = m.pair := rfl
@[simp] theorem Mach.setSm_meas (m : Mach) (g : Nat) (x : Sm) : (m.setSm g x).meas = m.meas := rfl
@[simp] theorem Mach.setSm_net (m : Mach) (g : Nat) (x : Sm) : (m.setSm g x).net = m.net := rfl
@[simp] theorem Mach.setSm_pwm (m : Mach) (g : Nat) (x : Sm) : (m.setSm g x).pwm = m.pwm := rfl
@[simp] theorem Mach.setSm_safety (m : Mach) (g : Nat) (x : Sm) : (m.setSm g x).safety = m.safety := rfl
@[simp] theorem Mach.setSm_pwr (m : Mach) (g : Nat) (x : Sm) : (m.setSm g x).pwr = m.pwr := rfl
@[simp] theorem Mach.setSm_sec (m : Mach) (g : Nat) (x : Sm) : (m.setSm g x).sec = m.sec := rfl
@[simp] theorem Mach.setSm_dbg (m : Mach) (g : Nat) (x : Sm) : (m.setSm g x).dbg = m.dbg := rfl
@[simp] theorem Mach.setSm_hostMem (m : Mach) (g : Nat) (x : Sm) : (m.setSm g x).hostMem = m.hostMem := rfl
@[simp] theorem Mach.setSm_pins (m : Mach) (g : Nat) (x : Sm) : (m.setSm g x).pins = m.pins := rfl
@[simp] theorem Mach.setSm_out (m : Mach) (g : Nat) (x : Sm) : (m.setSm g x).out = m.out := rfl

@[simp] theorem Mach.setArm_dev (m : Mach) (a : Nat) (x : Arm) : (m.setArm a x).dev = m.dev := rfl
@[simp] theorem Mach.setArm_gal (m : Mach) (a : Nat) (x : Arm) : (m.setArm a x).gal = m.gal := rfl
@[simp] theorem Mach.setArm_reg (m : Mach) (a : Nat) (x : Arm) : (m.setArm a x).reg = m.reg := rfl
@[simp] theorem Mach.setArm_tb (m : Mach) (a : Nat) (x : Arm) : (m.setArm a x).tb = m.tb := rfl
@[simp] theorem Mach.setArm_conv (m : Mach) (a : Nat) (x : Arm) : (m.setArm a x).conv = m.conv := rfl
@[simp] theorem Mach.setArm_loop (m : Mach) (a : Nat) (x : Arm) : (m.setArm a x).loop = m.loop := rfl
@[simp] theorem Mach.setArm_mode (m : Mach) (a : Nat) (x : Arm) : (m.setArm a x).mode = m.mode := rfl
@[simp] theorem Mach.setArm_zl (m : Mach) (a : Nat) (x : Arm) : (m.setArm a x).zl = m.zl := rfl
@[simp] theorem Mach.setArm_host (m : Mach) (a : Nat) (x : Arm) : (m.setArm a x).host = m.host := rfl
@[simp] theorem Mach.setArm_pair (m : Mach) (a : Nat) (x : Arm) : (m.setArm a x).pair = m.pair := rfl
@[simp] theorem Mach.setArm_meas (m : Mach) (a : Nat) (x : Arm) : (m.setArm a x).meas = m.meas := rfl
@[simp] theorem Mach.setArm_net (m : Mach) (a : Nat) (x : Arm) : (m.setArm a x).net = m.net := rfl
@[simp] theorem Mach.setArm_pwm (m : Mach) (a : Nat) (x : Arm) : (m.setArm a x).pwm = m.pwm := rfl
@[simp] theorem Mach.setArm_safety (m : Mach) (a : Nat) (x : Arm) : (m.setArm a x).safety = m.safety := rfl
@[simp] theorem Mach.setArm_pwr (m : Mach) (a : Nat) (x : Arm) : (m.setArm a x).pwr = m.pwr := rfl
@[simp] theorem Mach.setArm_sec (m : Mach) (a : Nat) (x : Arm) : (m.setArm a x).sec = m.sec := rfl
@[simp] theorem Mach.setArm_dbg (m : Mach) (a : Nat) (x : Arm) : (m.setArm a x).dbg = m.dbg := rfl
@[simp] theorem Mach.setArm_hostMem (m : Mach) (a : Nat) (x : Arm) : (m.setArm a x).hostMem = m.hostMem := rfl
@[simp] theorem Mach.setArm_pins (m : Mach) (a : Nat) (x : Arm) : (m.setArm a x).pins = m.pins := rfl
@[simp] theorem Mach.setArm_out (m : Mach) (a : Nat) (x : Arm) : (m.setArm a x).out = m.out := rfl

@[simp] theorem Mach.setRing_dev (m : Mach) (r : Nat) (x : Ring) : (m.setRing r x).dev = m.dev := rfl
@[simp] theorem Mach.setRing_gal (m : Mach) (r : Nat) (x : Ring) : (m.setRing r x).gal = m.gal := rfl
@[simp] theorem Mach.setRing_reg (m : Mach) (r : Nat) (x : Ring) : (m.setRing r x).reg = m.reg := rfl
@[simp] theorem Mach.setRing_tb (m : Mach) (r : Nat) (x : Ring) : (m.setRing r x).tb = m.tb := rfl
@[simp] theorem Mach.setRing_conv (m : Mach) (r : Nat) (x : Ring) : (m.setRing r x).conv = m.conv := rfl
@[simp] theorem Mach.setRing_loop (m : Mach) (r : Nat) (x : Ring) : (m.setRing r x).loop = m.loop := rfl
@[simp] theorem Mach.setRing_mode (m : Mach) (r : Nat) (x : Ring) : (m.setRing r x).mode = m.mode := rfl
@[simp] theorem Mach.setRing_flow (m : Mach) (r : Nat) (x : Ring) : (m.setRing r x).flow = m.flow := rfl
@[simp] theorem Mach.setRing_zl (m : Mach) (r : Nat) (x : Ring) : (m.setRing r x).zl = m.zl := rfl
@[simp] theorem Mach.setRing_pair (m : Mach) (r : Nat) (x : Ring) : (m.setRing r x).pair = m.pair := rfl
@[simp] theorem Mach.setRing_meas (m : Mach) (r : Nat) (x : Ring) : (m.setRing r x).meas = m.meas := rfl
@[simp] theorem Mach.setRing_net (m : Mach) (r : Nat) (x : Ring) : (m.setRing r x).net = m.net := rfl
@[simp] theorem Mach.setRing_pwm (m : Mach) (r : Nat) (x : Ring) : (m.setRing r x).pwm = m.pwm := rfl
@[simp] theorem Mach.setRing_safety (m : Mach) (r : Nat) (x : Ring) : (m.setRing r x).safety = m.safety := rfl
@[simp] theorem Mach.setRing_pwr (m : Mach) (r : Nat) (x : Ring) : (m.setRing r x).pwr = m.pwr := rfl
@[simp] theorem Mach.setRing_sec (m : Mach) (r : Nat) (x : Ring) : (m.setRing r x).sec = m.sec := rfl
@[simp] theorem Mach.setRing_dbg (m : Mach) (r : Nat) (x : Ring) : (m.setRing r x).dbg = m.dbg := rfl
@[simp] theorem Mach.setRing_hostMem (m : Mach) (r : Nat) (x : Ring) : (m.setRing r x).hostMem = m.hostMem := rfl
@[simp] theorem Mach.setRing_pins (m : Mach) (r : Nat) (x : Ring) : (m.setRing r x).pins = m.pins := rfl
@[simp] theorem Mach.setRing_out (m : Mach) (r : Nat) (x : Ring) : (m.setRing r x).out = m.out := rfl

@[simp] theorem Mach.setRecRing_dev (m : Mach) (n : Nat) (x : RecRing) : (m.setRecRing n x).dev = m.dev := rfl
@[simp] theorem Mach.setRecRing_gal (m : Mach) (n : Nat) (x : RecRing) : (m.setRecRing n x).gal = m.gal := rfl
@[simp] theorem Mach.setRecRing_reg (m : Mach) (n : Nat) (x : RecRing) : (m.setRecRing n x).reg = m.reg := rfl
@[simp] theorem Mach.setRecRing_tb (m : Mach) (n : Nat) (x : RecRing) : (m.setRecRing n x).tb = m.tb := rfl
@[simp] theorem Mach.setRecRing_conv (m : Mach) (n : Nat) (x : RecRing) : (m.setRecRing n x).conv = m.conv := rfl
@[simp] theorem Mach.setRecRing_loop (m : Mach) (n : Nat) (x : RecRing) : (m.setRecRing n x).loop = m.loop := rfl
@[simp] theorem Mach.setRecRing_mode (m : Mach) (n : Nat) (x : RecRing) : (m.setRecRing n x).mode = m.mode := rfl
@[simp] theorem Mach.setRecRing_flow (m : Mach) (n : Nat) (x : RecRing) : (m.setRecRing n x).flow = m.flow := rfl
@[simp] theorem Mach.setRecRing_zl (m : Mach) (n : Nat) (x : RecRing) : (m.setRecRing n x).zl = m.zl := rfl
@[simp] theorem Mach.setRecRing_pair (m : Mach) (n : Nat) (x : RecRing) : (m.setRecRing n x).pair = m.pair := rfl
@[simp] theorem Mach.setRecRing_meas (m : Mach) (n : Nat) (x : RecRing) : (m.setRecRing n x).meas = m.meas := rfl
@[simp] theorem Mach.setRecRing_net (m : Mach) (n : Nat) (x : RecRing) : (m.setRecRing n x).net = m.net := rfl
@[simp] theorem Mach.setRecRing_pwm (m : Mach) (n : Nat) (x : RecRing) : (m.setRecRing n x).pwm = m.pwm := rfl
@[simp] theorem Mach.setRecRing_safety (m : Mach) (n : Nat) (x : RecRing) : (m.setRecRing n x).safety = m.safety := rfl
@[simp] theorem Mach.setRecRing_pwr (m : Mach) (n : Nat) (x : RecRing) : (m.setRecRing n x).pwr = m.pwr := rfl
@[simp] theorem Mach.setRecRing_sec (m : Mach) (n : Nat) (x : RecRing) : (m.setRecRing n x).sec = m.sec := rfl
@[simp] theorem Mach.setRecRing_dbg (m : Mach) (n : Nat) (x : RecRing) : (m.setRecRing n x).dbg = m.dbg := rfl
@[simp] theorem Mach.setRecRing_hostMem (m : Mach) (n : Nat) (x : RecRing) : (m.setRecRing n x).hostMem = m.hostMem := rfl
@[simp] theorem Mach.setRecRing_pins (m : Mach) (n : Nat) (x : RecRing) : (m.setRecRing n x).pins = m.pins := rfl
@[simp] theorem Mach.setRecRing_out (m : Mach) (n : Nat) (x : RecRing) : (m.setRecRing n x).out = m.out := rfl

/-! ### Host memory and attention -/

@[simp] theorem Mach.hostWrite_dev (m : Mach) (a : Nat) (bs : List Byte) : (m.hostWrite a bs).dev = m.dev := rfl
@[simp] theorem Mach.hostWrite_gal (m : Mach) (a : Nat) (bs : List Byte) : (m.hostWrite a bs).gal = m.gal := rfl
@[simp] theorem Mach.hostWrite_reg (m : Mach) (a : Nat) (bs : List Byte) : (m.hostWrite a bs).reg = m.reg := rfl
@[simp] theorem Mach.hostWrite_tb (m : Mach) (a : Nat) (bs : List Byte) : (m.hostWrite a bs).tb = m.tb := rfl
@[simp] theorem Mach.hostWrite_conv (m : Mach) (a : Nat) (bs : List Byte) : (m.hostWrite a bs).conv = m.conv := rfl
@[simp] theorem Mach.hostWrite_loop (m : Mach) (a : Nat) (bs : List Byte) : (m.hostWrite a bs).loop = m.loop := rfl
@[simp] theorem Mach.hostWrite_mode (m : Mach) (a : Nat) (bs : List Byte) : (m.hostWrite a bs).mode = m.mode := rfl
@[simp] theorem Mach.hostWrite_flow (m : Mach) (a : Nat) (bs : List Byte) : (m.hostWrite a bs).flow = m.flow := rfl
@[simp] theorem Mach.hostWrite_zl (m : Mach) (a : Nat) (bs : List Byte) : (m.hostWrite a bs).zl = m.zl := rfl
@[simp] theorem Mach.hostWrite_host (m : Mach) (a : Nat) (bs : List Byte) : (m.hostWrite a bs).host = m.host := rfl
@[simp] theorem Mach.hostWrite_pair (m : Mach) (a : Nat) (bs : List Byte) : (m.hostWrite a bs).pair = m.pair := rfl
@[simp] theorem Mach.hostWrite_meas (m : Mach) (a : Nat) (bs : List Byte) : (m.hostWrite a bs).meas = m.meas := rfl
@[simp] theorem Mach.hostWrite_net (m : Mach) (a : Nat) (bs : List Byte) : (m.hostWrite a bs).net = m.net := rfl
@[simp] theorem Mach.hostWrite_pwm (m : Mach) (a : Nat) (bs : List Byte) : (m.hostWrite a bs).pwm = m.pwm := rfl
@[simp] theorem Mach.hostWrite_safety (m : Mach) (a : Nat) (bs : List Byte) : (m.hostWrite a bs).safety = m.safety := rfl
@[simp] theorem Mach.hostWrite_pwr (m : Mach) (a : Nat) (bs : List Byte) : (m.hostWrite a bs).pwr = m.pwr := rfl
@[simp] theorem Mach.hostWrite_sec (m : Mach) (a : Nat) (bs : List Byte) : (m.hostWrite a bs).sec = m.sec := rfl
@[simp] theorem Mach.hostWrite_dbg (m : Mach) (a : Nat) (bs : List Byte) : (m.hostWrite a bs).dbg = m.dbg := rfl
@[simp] theorem Mach.hostWrite_pins (m : Mach) (a : Nat) (bs : List Byte) : (m.hostWrite a bs).pins = m.pins := rfl
@[simp] theorem Mach.hostWrite_out (m : Mach) (a : Nat) (bs : List Byte) : (m.hostWrite a bs).out = m.out := rfl

@[simp] theorem Mach.oweAttention_dev (m : Mach) (c : Bool) : (m.oweAttention c).dev = m.dev := by unfold Mach.oweAttention; split <;> rfl
@[simp] theorem Mach.oweAttention_gal (m : Mach) (c : Bool) : (m.oweAttention c).gal = m.gal := by unfold Mach.oweAttention; split <;> rfl
@[simp] theorem Mach.oweAttention_reg (m : Mach) (c : Bool) : (m.oweAttention c).reg = m.reg := by unfold Mach.oweAttention; split <;> rfl
@[simp] theorem Mach.oweAttention_tb (m : Mach) (c : Bool) : (m.oweAttention c).tb = m.tb := by unfold Mach.oweAttention; split <;> rfl
@[simp] theorem Mach.oweAttention_conv (m : Mach) (c : Bool) : (m.oweAttention c).conv = m.conv := by unfold Mach.oweAttention; split <;> rfl
@[simp] theorem Mach.oweAttention_loop (m : Mach) (c : Bool) : (m.oweAttention c).loop = m.loop := by unfold Mach.oweAttention; split <;> rfl
@[simp] theorem Mach.oweAttention_mode (m : Mach) (c : Bool) : (m.oweAttention c).mode = m.mode := by unfold Mach.oweAttention; split <;> rfl
@[simp] theorem Mach.oweAttention_flow (m : Mach) (c : Bool) : (m.oweAttention c).flow = m.flow := by unfold Mach.oweAttention; split <;> rfl
@[simp] theorem Mach.oweAttention_zl (m : Mach) (c : Bool) : (m.oweAttention c).zl = m.zl := by unfold Mach.oweAttention; split <;> rfl
@[simp] theorem Mach.oweAttention_pair (m : Mach) (c : Bool) : (m.oweAttention c).pair = m.pair := by unfold Mach.oweAttention; split <;> rfl
@[simp] theorem Mach.oweAttention_meas (m : Mach) (c : Bool) : (m.oweAttention c).meas = m.meas := by unfold Mach.oweAttention; split <;> rfl
@[simp] theorem Mach.oweAttention_net (m : Mach) (c : Bool) : (m.oweAttention c).net = m.net := by unfold Mach.oweAttention; split <;> rfl
@[simp] theorem Mach.oweAttention_pwm (m : Mach) (c : Bool) : (m.oweAttention c).pwm = m.pwm := by unfold Mach.oweAttention; split <;> rfl
@[simp] theorem Mach.oweAttention_safety (m : Mach) (c : Bool) : (m.oweAttention c).safety = m.safety := by unfold Mach.oweAttention; split <;> rfl
@[simp] theorem Mach.oweAttention_pwr (m : Mach) (c : Bool) : (m.oweAttention c).pwr = m.pwr := by unfold Mach.oweAttention; split <;> rfl
@[simp] theorem Mach.oweAttention_sec (m : Mach) (c : Bool) : (m.oweAttention c).sec = m.sec := by unfold Mach.oweAttention; split <;> rfl
@[simp] theorem Mach.oweAttention_dbg (m : Mach) (c : Bool) : (m.oweAttention c).dbg = m.dbg := by unfold Mach.oweAttention; split <;> rfl
@[simp] theorem Mach.oweAttention_hostMem (m : Mach) (c : Bool) : (m.oweAttention c).hostMem = m.hostMem := by unfold Mach.oweAttention; split <;> rfl
@[simp] theorem Mach.oweAttention_pins (m : Mach) (c : Bool) : (m.oweAttention c).pins = m.pins := by unfold Mach.oweAttention; split <;> rfl
@[simp] theorem Mach.oweAttention_out (m : Mach) (c : Bool) : (m.oweAttention c).out = m.out := by unfold Mach.oweAttention; split <;> rfl

/-! ### The output balls -/

@[simp] theorem settle_dev (m : Mach) : (settle m).dev = m.dev := rfl
@[simp] theorem settle_gal (m : Mach) : (settle m).gal = m.gal := rfl
@[simp] theorem settle_reg (m : Mach) : (settle m).reg = m.reg := rfl
@[simp] theorem settle_tb (m : Mach) : (settle m).tb = m.tb := rfl
@[simp] theorem settle_conv (m : Mach) : (settle m).conv = m.conv := rfl
@[simp] theorem settle_loop (m : Mach) : (settle m).loop = m.loop := rfl
@[simp] theorem settle_mode (m : Mach) : (settle m).mode = m.mode := rfl
@[simp] theorem settle_flow (m : Mach) : (settle m).flow = m.flow := rfl
@[simp] theorem settle_zl (m : Mach) : (settle m).zl = m.zl := rfl
@[simp] theorem settle_host (m : Mach) : (settle m).host = m.host := rfl
@[simp] theorem settle_pair (m : Mach) : (settle m).pair = m.pair := rfl
@[simp] theorem settle_meas (m : Mach) : (settle m).meas = m.meas := rfl
@[simp] theorem settle_net (m : Mach) : (settle m).net = m.net := rfl
@[simp] theorem settle_pwm (m : Mach) : (settle m).pwm = m.pwm := rfl
@[simp] theorem settle_safety (m : Mach) : (settle m).safety = m.safety := rfl
@[simp] theorem settle_pwr (m : Mach) : (settle m).pwr = m.pwr := rfl
@[simp] theorem settle_sec (m : Mach) : (settle m).sec = m.sec := rfl
@[simp] theorem settle_dbg (m : Mach) : (settle m).dbg = m.dbg := rfl
@[simp] theorem settle_hostMem (m : Mach) : (settle m).hostMem = m.hostMem := rfl
@[simp] theorem settle_out (m : Mach) : (settle m).out = m.out := rfl

@[simp] theorem State.run_pending (f : Mach → Mach) (s : State) : (s.run f).pending = s.pending := rfl
@[simp] theorem State.run_m (f : Mach → Mach) (s : State) : (s.run f).m = settle (f { s.m with out := [] }) := rfl

end Sys2Proof.Machine
end

