-- ==== Sys2Proof/Laws/Post.lean ====
section
/-! SUPPORT. Laws/Post.lean: what posting a completion and accepting a command leave as it was (R251–R258). -/
set_option Elab.async false
namespace Sys2Proof.Machine

/-- Bytes of buffers written one after the other touch host memory alone. -/
theorem writes_dev (l : List BufWrite) : ∀ m : Mach, (l.foldl (fun m w => m.hostWrite w.addr w.bytes) m).dev = m.dev := by
  induction l with
  | nil => intro m; rfl
  | cons w l ih => intro m; rw [List.foldl_cons, ih]; rfl
theorem writes_gal (l : List BufWrite) : ∀ m : Mach, (l.foldl (fun m w => m.hostWrite w.addr w.bytes) m).gal = m.gal := by
  induction l with
  | nil => intro m; rfl
  | cons w l ih => intro m; rw [List.foldl_cons, ih]; rfl
theorem writes_reg (l : List BufWrite) : ∀ m : Mach, (l.foldl (fun m w => m.hostWrite w.addr w.bytes) m).reg = m.reg := by
  induction l with
  | nil => intro m; rfl
  | cons w l ih => intro m; rw [List.foldl_cons, ih]; rfl
theorem writes_tb (l : List BufWrite) : ∀ m : Mach, (l.foldl (fun m w => m.hostWrite w.addr w.bytes) m).tb = m.tb := by
  induction l with
  | nil => intro m; rfl
  | cons w l ih => intro m; rw [List.foldl_cons, ih]; rfl
theorem writes_conv (l : List BufWrite) : ∀ m : Mach, (l.foldl (fun m w => m.hostWrite w.addr w.bytes) m).conv = m.conv := by
  induction l with
  | nil => intro m; rfl
  | cons w l ih => intro m; rw [List.foldl_cons, ih]; rfl
theorem writes_loop (l : List BufWrite) : ∀ m : Mach, (l.foldl (fun m w => m.hostWrite w.addr w.bytes) m).loop = m.loop := by
  induction l with
  | nil => intro m; rfl
  | cons w l ih => intro m; rw [List.foldl_cons, ih]; rfl
theorem writes_mode (l : List BufWrite) : ∀ m : Mach, (l.foldl (fun m w => m.hostWrite w.addr w.bytes) m).mode = m.mode := by
  induction l with
  | nil => intro m; rfl
  | cons w l ih => intro m; rw [List.foldl_cons, ih]; rfl
theorem writes_flow (l : List BufWrite) : ∀ m : Mach, (l.foldl (fun m w => m.hostWrite w.addr w.bytes) m).flow = m.flow := by
  induction l with
  | nil => intro m; rfl
  | cons w l ih => intro m; rw [List.foldl_cons, ih]; rfl
theorem writes_zl (l : List BufWrite) : ∀ m : Mach, (l.foldl (fun m w => m.hostWrite w.addr w.bytes) m).zl = m.zl := by
  induction l with
  | nil => intro m; rfl
  | cons w l ih => intro m; rw [List.foldl_cons, ih]; rfl
theorem writes_pair (l : List BufWrite) : ∀ m : Mach, (l.foldl (fun m w => m.hostWrite w.addr w.bytes) m).pair = m.pair := by
  induction l with
  | nil => intro m; rfl
  | cons w l ih => intro m; rw [List.foldl_cons, ih]; rfl
theorem writes_meas (l : List BufWrite) : ∀ m : Mach, (l.foldl (fun m w => m.hostWrite w.addr w.bytes) m).meas = m.meas := by
  induction l with
  | nil => intro m; rfl
  | cons w l ih => intro m; rw [List.foldl_cons, ih]; rfl
theorem writes_net (l : List BufWrite) : ∀ m : Mach, (l.foldl (fun m w => m.hostWrite w.addr w.bytes) m).net = m.net := by
  induction l with
  | nil => intro m; rfl
  | cons w l ih => intro m; rw [List.foldl_cons, ih]; rfl
theorem writes_pwm (l : List BufWrite) : ∀ m : Mach, (l.foldl (fun m w => m.hostWrite w.addr w.bytes) m).pwm = m.pwm := by
  induction l with
  | nil => intro m; rfl
  | cons w l ih => intro m; rw [List.foldl_cons, ih]; rfl
theorem writes_safety (l : List BufWrite) : ∀ m : Mach, (l.foldl (fun m w => m.hostWrite w.addr w.bytes) m).safety = m.safety := by
  induction l with
  | nil => intro m; rfl
  | cons w l ih => intro m; rw [List.foldl_cons, ih]; rfl
theorem writes_pwr (l : List BufWrite) : ∀ m : Mach, (l.foldl (fun m w => m.hostWrite w.addr w.bytes) m).pwr = m.pwr := by
  induction l with
  | nil => intro m; rfl
  | cons w l ih => intro m; rw [List.foldl_cons, ih]; rfl
theorem writes_sec (l : List BufWrite) : ∀ m : Mach, (l.foldl (fun m w => m.hostWrite w.addr w.bytes) m).sec = m.sec := by
  induction l with
  | nil => intro m; rfl
  | cons w l ih => intro m; rw [List.foldl_cons, ih]; rfl
theorem writes_dbg (l : List BufWrite) : ∀ m : Mach, (l.foldl (fun m w => m.hostWrite w.addr w.bytes) m).dbg = m.dbg := by
  induction l with
  | nil => intro m; rfl
  | cons w l ih => intro m; rw [List.foldl_cons, ih]; rfl
theorem writes_pins (l : List BufWrite) : ∀ m : Mach, (l.foldl (fun m w => m.hostWrite w.addr w.bytes) m).pins = m.pins := by
  induction l with
  | nil => intro m; rfl
  | cons w l ih => intro m; rw [List.foldl_cons, ih]; rfl
theorem writes_out (l : List BufWrite) : ∀ m : Mach, (l.foldl (fun m w => m.hostWrite w.addr w.bytes) m).out = m.out := by
  induction l with
  | nil => intro m; rfl
  | cons w l ih => intro m; rw [List.foldl_cons, ih]; rfl
theorem writes_host (l : List BufWrite) : ∀ m : Mach, (l.foldl (fun m w => m.hostWrite w.addr w.bytes) m).host = m.host := by
  induction l with
  | nil => intro m; rfl
  | cons w l ih => intro m; rw [List.foldl_cons, ih]; rfl

@[simp] theorem writeBufs_dev (c : Cpl) (m : Mach) : (writeBufs c m).dev = m.dev := by unfold writeBufs; simp [writes_dev]
@[simp] theorem writeBufs_gal (c : Cpl) (m : Mach) : (writeBufs c m).gal = m.gal := by unfold writeBufs; simp [writes_gal]
@[simp] theorem writeBufs_reg (c : Cpl) (m : Mach) : (writeBufs c m).reg = m.reg := by unfold writeBufs; simp [writes_reg]
@[simp] theorem writeBufs_tb (c : Cpl) (m : Mach) : (writeBufs c m).tb = m.tb := by unfold writeBufs; simp [writes_tb]
@[simp] theorem writeBufs_conv (c : Cpl) (m : Mach) : (writeBufs c m).conv = m.conv := by unfold writeBufs; simp [writes_conv]
@[simp] theorem writeBufs_loop (c : Cpl) (m : Mach) : (writeBufs c m).loop = m.loop := by unfold writeBufs; simp [writes_loop]
@[simp] theorem writeBufs_mode (c : Cpl) (m : Mach) : (writeBufs c m).mode = m.mode := by unfold writeBufs; simp [writes_mode]
@[simp] theorem writeBufs_flow (c : Cpl) (m : Mach) : (writeBufs c m).flow = m.flow := by unfold writeBufs; simp [writes_flow]
@[simp] theorem writeBufs_zl (c : Cpl) (m : Mach) : (writeBufs c m).zl = m.zl := by unfold writeBufs; simp [writes_zl]
@[simp] theorem writeBufs_pair (c : Cpl) (m : Mach) : (writeBufs c m).pair = m.pair := by unfold writeBufs; simp [writes_pair]
@[simp] theorem writeBufs_meas (c : Cpl) (m : Mach) : (writeBufs c m).meas = m.meas := by unfold writeBufs; simp [writes_meas]
@[simp] theorem writeBufs_net (c : Cpl) (m : Mach) : (writeBufs c m).net = m.net := by unfold writeBufs; simp [writes_net]
@[simp] theorem writeBufs_pwm (c : Cpl) (m : Mach) : (writeBufs c m).pwm = m.pwm := by unfold writeBufs; simp [writes_pwm]
@[simp] theorem writeBufs_safety (c : Cpl) (m : Mach) : (writeBufs c m).safety = m.safety := by unfold writeBufs; simp [writes_safety]
@[simp] theorem writeBufs_pwr (c : Cpl) (m : Mach) : (writeBufs c m).pwr = m.pwr := by unfold writeBufs; simp [writes_pwr]
@[simp] theorem writeBufs_sec (c : Cpl) (m : Mach) : (writeBufs c m).sec = m.sec := by unfold writeBufs; simp [writes_sec]
@[simp] theorem writeBufs_dbg (c : Cpl) (m : Mach) : (writeBufs c m).dbg = m.dbg := by unfold writeBufs; simp [writes_dbg]
@[simp] theorem writeBufs_pins (c : Cpl) (m : Mach) : (writeBufs c m).pins = m.pins := by unfold writeBufs; simp [writes_pins]
@[simp] theorem writeBufs_out (c : Cpl) (m : Mach) : (writeBufs c m).out = m.out := by unfold writeBufs; simp [writes_out]
@[simp] theorem writeBufs_accepted (c : Cpl) (m : Mach) : (writeBufs c m).host.accepted = m.host.accepted := by unfold writeBufs; simp [writes_host]

@[simp] theorem writeCpl_dev (c : Cpl) (m : Mach) : (writeCpl c m).dev = m.dev := by unfold writeCpl; cases c.slot.isEmpty <;> simp
@[simp] theorem writeCpl_gal (c : Cpl) (m : Mach) : (writeCpl c m).gal = m.gal := by unfold writeCpl; cases c.slot.isEmpty <;> simp
@[simp] theorem writeCpl_reg (c : Cpl) (m : Mach) : (writeCpl c m).reg = m.reg := by unfold writeCpl; cases c.slot.isEmpty <;> simp
@[simp] theorem writeCpl_tb (c : Cpl) (m : Mach) : (writeCpl c m).tb = m.tb := by unfold writeCpl; cases c.slot.isEmpty <;> simp
@[simp] theorem writeCpl_conv (c : Cpl) (m : Mach) : (writeCpl c m).conv = m.conv := by unfold writeCpl; cases c.slot.isEmpty <;> simp
@[simp] theorem writeCpl_loop (c : Cpl) (m : Mach) : (writeCpl c m).loop = m.loop := by unfold writeCpl; cases c.slot.isEmpty <;> simp
@[simp] theorem writeCpl_mode (c : Cpl) (m : Mach) : (writeCpl c m).mode = m.mode := by unfold writeCpl; cases c.slot.isEmpty <;> simp
@[simp] theorem writeCpl_flow (c : Cpl) (m : Mach) : (writeCpl c m).flow = m.flow := by unfold writeCpl; cases c.slot.isEmpty <;> simp
@[simp] theorem writeCpl_zl (c : Cpl) (m : Mach) : (writeCpl c m).zl = m.zl := by unfold writeCpl; cases c.slot.isEmpty <;> simp
@[simp] theorem writeCpl_pair (c : Cpl) (m : Mach) : (writeCpl c m).pair = m.pair := by unfold writeCpl; cases c.slot.isEmpty <;> simp
@[simp] theorem writeCpl_meas (c : Cpl) (m : Mach) : (writeCpl c m).meas = m.meas := by unfold writeCpl; cases c.slot.isEmpty <;> simp
@[simp] theorem writeCpl_net (c : Cpl) (m : Mach) : (writeCpl c m).net = m.net := by unfold writeCpl; cases c.slot.isEmpty <;> simp
@[simp] theorem writeCpl_pwm (c : Cpl) (m : Mach) : (writeCpl c m).pwm = m.pwm := by unfold writeCpl; cases c.slot.isEmpty <;> simp
@[simp] theorem writeCpl_safety (c : Cpl) (m : Mach) : (writeCpl c m).safety = m.safety := by unfold writeCpl; cases c.slot.isEmpty <;> simp
@[simp] theorem writeCpl_pwr (c : Cpl) (m : Mach) : (writeCpl c m).pwr = m.pwr := by unfold writeCpl; cases c.slot.isEmpty <;> simp
@[simp] theorem writeCpl_sec (c : Cpl) (m : Mach) : (writeCpl c m).sec = m.sec := by unfold writeCpl; cases c.slot.isEmpty <;> simp
@[simp] theorem writeCpl_dbg (c : Cpl) (m : Mach) : (writeCpl c m).dbg = m.dbg := by unfold writeCpl; cases c.slot.isEmpty <;> simp
@[simp] theorem writeCpl_pins (c : Cpl) (m : Mach) : (writeCpl c m).pins = m.pins := by unfold writeCpl; cases c.slot.isEmpty <;> simp
@[simp] theorem writeCpl_out (c : Cpl) (m : Mach) : (writeCpl c m).out = m.out := by unfold writeCpl; cases c.slot.isEmpty <;> simp

@[simp] theorem sendPosted_dev (r q s x : Nat) (m : Mach) : (sendPosted r q s x m).dev = m.dev := by unfold sendPosted; split <;> simp
@[simp] theorem sendPosted_gal (r q s x : Nat) (m : Mach) : (sendPosted r q s x m).gal = m.gal := by unfold sendPosted; split <;> simp
@[simp] theorem sendPosted_reg (r q s x : Nat) (m : Mach) : (sendPosted r q s x m).reg = m.reg := by unfold sendPosted; split <;> simp
@[simp] theorem sendPosted_tb (r q s x : Nat) (m : Mach) : (sendPosted r q s x m).tb = m.tb := by unfold sendPosted; split <;> simp
@[simp] theorem sendPosted_conv (r q s x : Nat) (m : Mach) : (sendPosted r q s x m).conv = m.conv := by unfold sendPosted; split <;> simp
@[simp] theorem sendPosted_loop (r q s x : Nat) (m : Mach) : (sendPosted r q s x m).loop = m.loop := by unfold sendPosted; split <;> simp
@[simp] theorem sendPosted_mode (r q s x : Nat) (m : Mach) : (sendPosted r q s x m).mode = m.mode := by unfold sendPosted; split <;> simp
@[simp] theorem sendPosted_flow (r q s x : Nat) (m : Mach) : (sendPosted r q s x m).flow = m.flow := by unfold sendPosted; split <;> simp
@[simp] theorem sendPosted_zl (r q s x : Nat) (m : Mach) : (sendPosted r q s x m).zl = m.zl := by unfold sendPosted; split <;> simp
@[simp] theorem sendPosted_host (r q s x : Nat) (m : Mach) : (sendPosted r q s x m).host = m.host := by unfold sendPosted; split <;> simp
@[simp] theorem sendPosted_pair (r q s x : Nat) (m : Mach) : (sendPosted r q s x m).pair = m.pair := by unfold sendPosted; split <;> simp
@[simp] theorem sendPosted_meas (r q s x : Nat) (m : Mach) : (sendPosted r q s x m).meas = m.meas := by unfold sendPosted; split <;> simp
@[simp] theorem sendPosted_net (r q s x : Nat) (m : Mach) : (sendPosted r q s x m).net = m.net := by unfold sendPosted; split <;> simp
@[simp] theorem sendPosted_pwm (r q s x : Nat) (m : Mach) : (sendPosted r q s x m).pwm = m.pwm := by unfold sendPosted; split <;> simp
@[simp] theorem sendPosted_safety (r q s x : Nat) (m : Mach) : (sendPosted r q s x m).safety = m.safety := by unfold sendPosted; split <;> simp
@[simp] theorem sendPosted_pwr (r q s x : Nat) (m : Mach) : (sendPosted r q s x m).pwr = m.pwr := by unfold sendPosted; split <;> simp
@[simp] theorem sendPosted_sec (r q s x : Nat) (m : Mach) : (sendPosted r q s x m).sec = m.sec := by unfold sendPosted; split <;> simp
@[simp] theorem sendPosted_dbg (r q s x : Nat) (m : Mach) : (sendPosted r q s x m).dbg = m.dbg := by unfold sendPosted; split <;> simp
@[simp] theorem sendPosted_hostMem (r q s x : Nat) (m : Mach) : (sendPosted r q s x m).hostMem = m.hostMem := by unfold sendPosted; split <;> simp
@[simp] theorem sendPosted_pins (r q s x : Nat) (m : Mach) : (sendPosted r q s x m).pins = m.pins := by unfold sendPosted; split <;> simp
@[simp] theorem postedOf_dev (c : Cpl) (m : Mach) : (postedOf c m).dev = m.dev := by unfold postedOf; split <;> simp
@[simp] theorem postedOf_gal (c : Cpl) (m : Mach) : (postedOf c m).gal = m.gal := by unfold postedOf; split <;> simp
@[simp] theorem postedOf_reg (c : Cpl) (m : Mach) : (postedOf c m).reg = m.reg := by unfold postedOf; split <;> simp
@[simp] theorem postedOf_tb (c : Cpl) (m : Mach) : (postedOf c m).tb = m.tb := by unfold postedOf; split <;> simp
@[simp] theorem postedOf_conv (c : Cpl) (m : Mach) : (postedOf c m).conv = m.conv := by unfold postedOf; split <;> simp
@[simp] theorem postedOf_loop (c : Cpl) (m : Mach) : (postedOf c m).loop = m.loop := by unfold postedOf; split <;> simp
@[simp] theorem postedOf_mode (c : Cpl) (m : Mach) : (postedOf c m).mode = m.mode := by unfold postedOf; split <;> simp
@[simp] theorem postedOf_flow (c : Cpl) (m : Mach) : (postedOf c m).flow = m.flow := by unfold postedOf; split <;> simp
@[simp] theorem postedOf_zl (c : Cpl) (m : Mach) : (postedOf c m).zl = m.zl := by unfold postedOf; split <;> simp
@[simp] theorem postedOf_host (c : Cpl) (m : Mach) : (postedOf c m).host = m.host := by unfold postedOf; split <;> simp
@[simp] theorem postedOf_pair (c : Cpl) (m : Mach) : (postedOf c m).pair = m.pair := by unfold postedOf; split <;> simp
@[simp] theorem postedOf_meas (c : Cpl) (m : Mach) : (postedOf c m).meas = m.meas := by unfold postedOf; split <;> simp
@[simp] theorem postedOf_net (c : Cpl) (m : Mach) : (postedOf c m).net = m.net := by unfold postedOf; split <;> simp
@[simp] theorem postedOf_pwm (c : Cpl) (m : Mach) : (postedOf c m).pwm = m.pwm := by unfold postedOf; split <;> simp
@[simp] theorem postedOf_safety (c : Cpl) (m : Mach) : (postedOf c m).safety = m.safety := by unfold postedOf; split <;> simp
@[simp] theorem postedOf_pwr (c : Cpl) (m : Mach) : (postedOf c m).pwr = m.pwr := by unfold postedOf; split <;> simp
@[simp] theorem postedOf_sec (c : Cpl) (m : Mach) : (postedOf c m).sec = m.sec := by unfold postedOf; split <;> simp
@[simp] theorem postedOf_dbg (c : Cpl) (m : Mach) : (postedOf c m).dbg = m.dbg := by unfold postedOf; split <;> simp
@[simp] theorem postedOf_hostMem (c : Cpl) (m : Mach) : (postedOf c m).hostMem = m.hostMem := by unfold postedOf; split <;> simp
@[simp] theorem postedOf_pins (c : Cpl) (m : Mach) : (postedOf c m).pins = m.pins := by unfold postedOf; split <;> simp
/-- A unit that exchanges with no partner sends no POSTED. -/
theorem postedOf_alone {c : Cpl} {m : Mach} (h : m.pair.exchanging = false) : postedOf c m = m := by unfold postedOf sendPosted; simp [h]
@[simp] theorem modPairRing_dev (r : Nat) (g : Ring → Ring) (m : Mach) : (m.modPairRing r g).dev = m.dev := by unfold Mach.modPairRing; split <;> rfl
@[simp] theorem modPairRing_gal (r : Nat) (g : Ring → Ring) (m : Mach) : (m.modPairRing r g).gal = m.gal := by unfold Mach.modPairRing; split <;> rfl
@[simp] theorem modPairRing_tb (r : Nat) (g : Ring → Ring) (m : Mach) : (m.modPairRing r g).tb = m.tb := by unfold Mach.modPairRing; split <;> rfl
@[simp] theorem modPairRing_conv (r : Nat) (g : Ring → Ring) (m : Mach) : (m.modPairRing r g).conv = m.conv := by unfold Mach.modPairRing; split <;> rfl
@[simp] theorem modPairRing_loop (r : Nat) (g : Ring → Ring) (m : Mach) : (m.modPairRing r g).loop = m.loop := by unfold Mach.modPairRing; split <;> rfl
@[simp] theorem modPairRing_mode (r : Nat) (g : Ring → Ring) (m : Mach) : (m.modPairRing r g).mode = m.mode := by unfold Mach.modPairRing; split <;> rfl
@[simp] theorem modPairRing_flow (r : Nat) (g : Ring → Ring) (m : Mach) : (m.modPairRing r g).flow = m.flow := by unfold Mach.modPairRing; split <;> rfl
@[simp] theorem modPairRing_zl (r : Nat) (g : Ring → Ring) (m : Mach) : (m.modPairRing r g).zl = m.zl := by unfold Mach.modPairRing; split <;> rfl
@[simp] theorem modPairRing_meas (r : Nat) (g : Ring → Ring) (m : Mach) : (m.modPairRing r g).meas = m.meas := by unfold Mach.modPairRing; split <;> rfl
@[simp] theorem modPairRing_net (r : Nat) (g : Ring → Ring) (m : Mach) : (m.modPairRing r g).net = m.net := by unfold Mach.modPairRing; split <;> rfl
@[simp] theorem modPairRing_pwm (r : Nat) (g : Ring → Ring) (m : Mach) : (m.modPairRing r g).pwm = m.pwm := by unfold Mach.modPairRing; split <;> rfl
@[simp] theorem modPairRing_safety (r : Nat) (g : Ring → Ring) (m : Mach) : (m.modPairRing r g).safety = m.safety := by unfold Mach.modPairRing; split <;> rfl
@[simp] theorem modPairRing_pwr (r : Nat) (g : Ring → Ring) (m : Mach) : (m.modPairRing r g).pwr = m.pwr := by unfold Mach.modPairRing; split <;> rfl
@[simp] theorem modPairRing_sec (r : Nat) (g : Ring → Ring) (m : Mach) : (m.modPairRing r g).sec = m.sec := by unfold Mach.modPairRing; split <;> rfl
@[simp] theorem modPairRing_dbg (r : Nat) (g : Ring → Ring) (m : Mach) : (m.modPairRing r g).dbg = m.dbg := by unfold Mach.modPairRing; split <;> rfl
@[simp] theorem modPairRing_pins (r : Nat) (g : Ring → Ring) (m : Mach) : (m.modPairRing r g).pins = m.pins := by unfold Mach.modPairRing; split <;> rfl
@[simp] theorem modPairRing_reg (r : Nat) (g : Ring → Ring) (m : Mach) : (m.modPairRing r g).reg = m.reg := by unfold Mach.modPairRing; split <;> rfl
@[simp] theorem modPairRing_hostMem (r : Nat) (g : Ring → Ring) (m : Mach) : (m.modPairRing r g).hostMem = m.hostMem := by unfold Mach.modPairRing; split <;> rfl
@[simp] theorem modPairRing_out (r : Nat) (g : Ring → Ring) (m : Mach) : (m.modPairRing r g).out = m.out := by unfold Mach.modPairRing; split <;> rfl
@[simp] theorem modPairRing_accepted (r : Nat) (g : Ring → Ring) (m : Mach) : (m.modPairRing r g).host.accepted = m.host.accepted := by unfold Mach.modPairRing; split <;> rfl
@[simp] theorem mirrorCpl_dev (c : Cpl) (m : Mach) : (mirrorCpl c m).dev = m.dev := by unfold mirrorCpl; dsimp only; split <;> simp
@[simp] theorem mirrorCpl_gal (c : Cpl) (m : Mach) : (mirrorCpl c m).gal = m.gal := by unfold mirrorCpl; dsimp only; split <;> simp
@[simp] theorem mirrorCpl_tb (c : Cpl) (m : Mach) : (mirrorCpl c m).tb = m.tb := by unfold mirrorCpl; dsimp only; split <;> simp
@[simp] theorem mirrorCpl_conv (c : Cpl) (m : Mach) : (mirrorCpl c m).conv = m.conv := by unfold mirrorCpl; dsimp only; split <;> simp
@[simp] theorem mirrorCpl_loop (c : Cpl) (m : Mach) : (mirrorCpl c m).loop = m.loop := by unfold mirrorCpl; dsimp only; split <;> simp
@[simp] theorem mirrorCpl_mode (c : Cpl) (m : Mach) : (mirrorCpl c m).mode = m.mode := by unfold mirrorCpl; dsimp only; split <;> simp
@[simp] theorem mirrorCpl_flow (c : Cpl) (m : Mach) : (mirrorCpl c m).flow = m.flow := by unfold mirrorCpl; dsimp only; split <;> simp
@[simp] theorem mirrorCpl_zl (c : Cpl) (m : Mach) : (mirrorCpl c m).zl = m.zl := by unfold mirrorCpl; dsimp only; split <;> simp
@[simp] theorem mirrorCpl_meas (c : Cpl) (m : Mach) : (mirrorCpl c m).meas = m.meas := by unfold mirrorCpl; dsimp only; split <;> simp
@[simp] theorem mirrorCpl_net (c : Cpl) (m : Mach) : (mirrorCpl c m).net = m.net := by unfold mirrorCpl; dsimp only; split <;> simp
@[simp] theorem mirrorCpl_pwm (c : Cpl) (m : Mach) : (mirrorCpl c m).pwm = m.pwm := by unfold mirrorCpl; dsimp only; split <;> simp
@[simp] theorem mirrorCpl_safety (c : Cpl) (m : Mach) : (mirrorCpl c m).safety = m.safety := by unfold mirrorCpl; dsimp only; split <;> simp
@[simp] theorem mirrorCpl_pwr (c : Cpl) (m : Mach) : (mirrorCpl c m).pwr = m.pwr := by unfold mirrorCpl; dsimp only; split <;> simp
@[simp] theorem mirrorCpl_sec (c : Cpl) (m : Mach) : (mirrorCpl c m).sec = m.sec := by unfold mirrorCpl; dsimp only; split <;> simp
@[simp] theorem mirrorCpl_dbg (c : Cpl) (m : Mach) : (mirrorCpl c m).dbg = m.dbg := by unfold mirrorCpl; dsimp only; split <;> simp
@[simp] theorem mirrorCpl_pins (c : Cpl) (m : Mach) : (mirrorCpl c m).pins = m.pins := by unfold mirrorCpl; dsimp only; split <;> simp
@[simp] theorem mirrorCpl_reg (c : Cpl) (m : Mach) : (mirrorCpl c m).reg = m.reg := by unfold mirrorCpl; dsimp only; split <;> simp
@[simp] theorem mirrorCpl_hostMem (c : Cpl) (m : Mach) : (mirrorCpl c m).hostMem = m.hostMem := by unfold mirrorCpl; dsimp only; split <;> simp
@[simp] theorem mirrorCpl_out (c : Cpl) (m : Mach) : (mirrorCpl c m).out = m.out := by unfold mirrorCpl; dsimp only; split <;> simp
@[simp] theorem mirrorCpl_accepted (c : Cpl) (m : Mach) : (mirrorCpl c m).host.accepted = m.host.accepted := by unfold mirrorCpl; dsimp only; split <;> simp

@[simp] theorem drainCpls_dev (r : Nat) (l : List Cpl) : ∀ m : Mach, (drainCpls r l m).dev = m.dev := by
  induction l with
  | nil => intro m; simp [drainCpls]
  | cons c cs ih => intro m; unfold drainCpls; split <;> simp [ih]
@[simp] theorem drainCpls_gal (r : Nat) (l : List Cpl) : ∀ m : Mach, (drainCpls r l m).gal = m.gal := by
  induction l with
  | nil => intro m; simp [drainCpls]
  | cons c cs ih => intro m; unfold drainCpls; split <;> simp [ih]
@[simp] theorem drainCpls_tb (r : Nat) (l : List Cpl) : ∀ m : Mach, (drainCpls r l m).tb = m.tb := by
  induction l with
  | nil => intro m; simp [drainCpls]
  | cons c cs ih => intro m; unfold drainCpls; split <;> simp [ih]
@[simp] theorem drainCpls_conv (r : Nat) (l : List Cpl) : ∀ m : Mach, (drainCpls r l m).conv = m.conv := by
  induction l with
  | nil => intro m; simp [drainCpls]
  | cons c cs ih => intro m; unfold drainCpls; split <;> simp [ih]
@[simp] theorem drainCpls_loop (r : Nat) (l : List Cpl) : ∀ m : Mach, (drainCpls r l m).loop = m.loop := by
  induction l with
  | nil => intro m; simp [drainCpls]
  | cons c cs ih => intro m; unfold drainCpls; split <;> simp [ih]
@[simp] theorem drainCpls_mode (r : Nat) (l : List Cpl) : ∀ m : Mach, (drainCpls r l m).mode = m.mode := by
  induction l with
  | nil => intro m; simp [drainCpls]
  | cons c cs ih => intro m; unfold drainCpls; split <;> simp [ih]
@[simp] theorem drainCpls_flow (r : Nat) (l : List Cpl) : ∀ m : Mach, (drainCpls r l m).flow = m.flow := by
  induction l with
  | nil => intro m; simp [drainCpls]
  | cons c cs ih => intro m; unfold drainCpls; split <;> simp [ih]
@[simp] theorem drainCpls_zl (r : Nat) (l : List Cpl) : ∀ m : Mach, (drainCpls r l m).zl = m.zl := by
  induction l with
  | nil => intro m; simp [drainCpls]
  | cons c cs ih => intro m; unfold drainCpls; split <;> simp [ih]
@[simp] theorem drainCpls_pair (r : Nat) (l : List Cpl) : ∀ m : Mach, (drainCpls r l m).pair = m.pair := by
  induction l with
  | nil => intro m; simp [drainCpls]
  | cons c cs ih => intro m; unfold drainCpls; split <;> simp [ih]
@[simp] theorem drainCpls_meas (r : Nat) (l : List Cpl) : ∀ m : Mach, (drainCpls r l m).meas = m.meas := by
  induction l with
  | nil => intro m; simp [drainCpls]
  | cons c cs ih => intro m; unfold drainCpls; split <;> simp [ih]
@[simp] theorem drainCpls_net (r : Nat) (l : List Cpl) : ∀ m : Mach, (drainCpls r l m).net = m.net := by
  induction l with
  | nil => intro m; simp [drainCpls]
  | cons c cs ih => intro m; unfold drainCpls; split <;> simp [ih]
@[simp] theorem drainCpls_pwm (r : Nat) (l : List Cpl) : ∀ m : Mach, (drainCpls r l m).pwm = m.pwm := by
  induction l with
  | nil => intro m; simp [drainCpls]
  | cons c cs ih => intro m; unfold drainCpls; split <;> simp [ih]
@[simp] theorem drainCpls_safety (r : Nat) (l : List Cpl) : ∀ m : Mach, (drainCpls r l m).safety = m.safety := by
  induction l with
  | nil => intro m; simp [drainCpls]
  | cons c cs ih => intro m; unfold drainCpls; split <;> simp [ih]
@[simp] theorem drainCpls_pwr (r : Nat) (l : List Cpl) : ∀ m : Mach, (drainCpls r l m).pwr = m.pwr := by
  induction l with
  | nil => intro m; simp [drainCpls]
  | cons c cs ih => intro m; unfold drainCpls; split <;> simp [ih]
@[simp] theorem drainCpls_sec (r : Nat) (l : List Cpl) : ∀ m : Mach, (drainCpls r l m).sec = m.sec := by
  induction l with
  | nil => intro m; simp [drainCpls]
  | cons c cs ih => intro m; unfold drainCpls; split <;> simp [ih]
@[simp] theorem drainCpls_dbg (r : Nat) (l : List Cpl) : ∀ m : Mach, (drainCpls r l m).dbg = m.dbg := by
  induction l with
  | nil => intro m; simp [drainCpls]
  | cons c cs ih => intro m; unfold drainCpls; split <;> simp [ih]
@[simp] theorem drainCpls_pins (r : Nat) (l : List Cpl) : ∀ m : Mach, (drainCpls r l m).pins = m.pins := by
  induction l with
  | nil => intro m; simp [drainCpls]
  | cons c cs ih => intro m; unfold drainCpls; split <;> simp [ih]
@[simp] theorem postHeld_dev (r : Nat) (m : Mach) : (postHeld r m).dev = m.dev := by unfold postHeld; split <;> simp
@[simp] theorem postHeld_gal (r : Nat) (m : Mach) : (postHeld r m).gal = m.gal := by unfold postHeld; split <;> simp
@[simp] theorem postHeld_tb (r : Nat) (m : Mach) : (postHeld r m).tb = m.tb := by unfold postHeld; split <;> simp
@[simp] theorem postHeld_conv (r : Nat) (m : Mach) : (postHeld r m).conv = m.conv := by unfold postHeld; split <;> simp
@[simp] theorem postHeld_loop (r : Nat) (m : Mach) : (postHeld r m).loop = m.loop := by unfold postHeld; split <;> simp
@[simp] theorem postHeld_mode (r : Nat) (m : Mach) : (postHeld r m).mode = m.mode := by unfold postHeld; split <;> simp
@[simp] theorem postHeld_flow (r : Nat) (m : Mach) : (postHeld r m).flow = m.flow := by unfold postHeld; split <;> simp
@[simp] theorem postHeld_zl (r : Nat) (m : Mach) : (postHeld r m).zl = m.zl := by unfold postHeld; split <;> simp
@[simp] theorem postHeld_pair (r : Nat) (m : Mach) : (postHeld r m).pair = m.pair := by unfold postHeld; split <;> simp
@[simp] theorem postHeld_meas (r : Nat) (m : Mach) : (postHeld r m).meas = m.meas := by unfold postHeld; split <;> simp
@[simp] theorem postHeld_net (r : Nat) (m : Mach) : (postHeld r m).net = m.net := by unfold postHeld; split <;> simp
@[simp] theorem postHeld_pwm (r : Nat) (m : Mach) : (postHeld r m).pwm = m.pwm := by unfold postHeld; split <;> simp
@[simp] theorem postHeld_safety (r : Nat) (m : Mach) : (postHeld r m).safety = m.safety := by unfold postHeld; split <;> simp
@[simp] theorem postHeld_pwr (r : Nat) (m : Mach) : (postHeld r m).pwr = m.pwr := by unfold postHeld; split <;> simp
@[simp] theorem postHeld_sec (r : Nat) (m : Mach) : (postHeld r m).sec = m.sec := by unfold postHeld; split <;> simp
@[simp] theorem postHeld_dbg (r : Nat) (m : Mach) : (postHeld r m).dbg = m.dbg := by unfold postHeld; split <;> simp
@[simp] theorem postHeld_pins (r : Nat) (m : Mach) : (postHeld r m).pins = m.pins := by unfold postHeld; split <;> simp

@[simp] theorem postCpl_dev (c : Cpl) (m : Mach) : (postCpl c m).dev = m.dev := by simp [postCpl]
@[simp] theorem postCpl_gal (c : Cpl) (m : Mach) : (postCpl c m).gal = m.gal := by simp [postCpl]
@[simp] theorem postCpl_tb (c : Cpl) (m : Mach) : (postCpl c m).tb = m.tb := by simp [postCpl]
@[simp] theorem postCpl_conv (c : Cpl) (m : Mach) : (postCpl c m).conv = m.conv := by simp [postCpl]
@[simp] theorem postCpl_loop (c : Cpl) (m : Mach) : (postCpl c m).loop = m.loop := by simp [postCpl]
@[simp] theorem postCpl_mode (c : Cpl) (m : Mach) : (postCpl c m).mode = m.mode := by simp [postCpl]
@[simp] theorem postCpl_flow (c : Cpl) (m : Mach) : (postCpl c m).flow = m.flow := by simp [postCpl]
@[simp] theorem postCpl_zl (c : Cpl) (m : Mach) : (postCpl c m).zl = m.zl := by simp [postCpl]
@[simp] theorem postCpl_pair (c : Cpl) (m : Mach) : (postCpl c m).pair = m.pair := by simp [postCpl]
@[simp] theorem postCpl_meas (c : Cpl) (m : Mach) : (postCpl c m).meas = m.meas := by simp [postCpl]
@[simp] theorem postCpl_net (c : Cpl) (m : Mach) : (postCpl c m).net = m.net := by simp [postCpl]
@[simp] theorem postCpl_pwm (c : Cpl) (m : Mach) : (postCpl c m).pwm = m.pwm := by simp [postCpl]
@[simp] theorem postCpl_safety (c : Cpl) (m : Mach) : (postCpl c m).safety = m.safety := by simp [postCpl]
@[simp] theorem postCpl_pwr (c : Cpl) (m : Mach) : (postCpl c m).pwr = m.pwr := by simp [postCpl]
@[simp] theorem postCpl_sec (c : Cpl) (m : Mach) : (postCpl c m).sec = m.sec := by simp [postCpl]
@[simp] theorem postCpl_dbg (c : Cpl) (m : Mach) : (postCpl c m).dbg = m.dbg := by simp [postCpl]
@[simp] theorem postCpl_pins (c : Cpl) (m : Mach) : (postCpl c m).pins = m.pins := by simp [postCpl]



/-- What a completion of a command does: nothing where it is in memory already, else the other unit's is kept, or this unit's is posted (R261, R292). -/
theorem postFor_cases (c : Cmd) (f : Fin) (x : Nat) (m : Mach) :
    postFor c f x m = m ∨ (∃ y, mirrored c m = true ∧ postFor c f x m = mirrorCpl y m) ∨ (∃ y, mirrored c m = false ∧ postFor c f x m = postCpl y m) := by
  have two : ∀ (b : Bool) (y : Mach), (if b then m else y) = m ∨ (if b then m else y) = y := by intro b y; cases b <;> simp
  cases h : mirrored c m
  · rcases two _ (postCpl _ m) with e | e
    · exact .inl (by unfold postFor; simp only [h]; exact e)
    · exact .inr (.inr ⟨_, rfl, by unfold postFor; simp only [h]; exact e⟩)
  · rcases two _ (mirrorCpl _ m) with e | e
    · exact .inl (by unfold postFor; simp only [h]; exact e)
    · exact .inr (.inl ⟨_, rfl, by unfold postFor; simp only [h]; exact e⟩)

/-- A unit that exchanges with no partner posts its completions itself. -/
theorem mirrored_alone {c : Cmd} {m : Mach} (h : m.pair.exchanging = false) : mirrored c m = false := by
  have h1 : m.pair.inTwin = false := by
    simp only [PairSt.exchanging, Bool.or_eq_false_iff] at h
    exact h.1
  simp [mirrored, h, h1]

@[simp] theorem postFor_dev (c : Cmd) (f : Fin) (x : Nat) (m : Mach) : (postFor c f x m).dev = m.dev := by
  rcases postFor_cases c f x m with h | ⟨y, -, h⟩ | ⟨y, -, h⟩ <;> rw [h] <;> simp
@[simp] theorem postFor_gal (c : Cmd) (f : Fin) (x : Nat) (m : Mach) : (postFor c f x m).gal = m.gal := by
  rcases postFor_cases c f x m with h | ⟨y, -, h⟩ | ⟨y, -, h⟩ <;> rw [h] <;> simp
@[simp] theorem postFor_tb (c : Cmd) (f : Fin) (x : Nat) (m : Mach) : (postFor c f x m).tb = m.tb := by
  rcases postFor_cases c f x m with h | ⟨y, -, h⟩ | ⟨y, -, h⟩ <;> rw [h] <;> simp
@[simp] theorem postFor_conv (c : Cmd) (f : Fin) (x : Nat) (m : Mach) : (postFor c f x m).conv = m.conv := by
  rcases postFor_cases c f x m with h | ⟨y, -, h⟩ | ⟨y, -, h⟩ <;> rw [h] <;> simp
@[simp] theorem postFor_loop (c : Cmd) (f : Fin) (x : Nat) (m : Mach) : (postFor c f x m).loop = m.loop := by
  rcases postFor_cases c f x m with h | ⟨y, -, h⟩ | ⟨y, -, h⟩ <;> rw [h] <;> simp
@[simp] theorem postFor_mode (c : Cmd) (f : Fin) (x : Nat) (m : Mach) : (postFor c f x m).mode = m.mode := by
  rcases postFor_cases c f x m with h | ⟨y, -, h⟩ | ⟨y, -, h⟩ <;> rw [h] <;> simp
@[simp] theorem postFor_flow (c : Cmd) (f : Fin) (x : Nat) (m : Mach) : (postFor c f x m).flow = m.flow := by
  rcases postFor_cases c f x m with h | ⟨y, -, h⟩ | ⟨y, -, h⟩ <;> rw [h] <;> simp
@[simp] theorem postFor_zl (c : Cmd) (f : Fin) (x : Nat) (m : Mach) : (postFor c f x m).zl = m.zl := by
  rcases postFor_cases c f x m with h | ⟨y, -, h⟩ | ⟨y, -, h⟩ <;> rw [h] <;> simp
@[simp] theorem postFor_meas (c : Cmd) (f : Fin) (x : Nat) (m : Mach) : (postFor c f x m).meas = m.meas := by
  rcases postFor_cases c f x m with h | ⟨y, -, h⟩ | ⟨y, -, h⟩ <;> rw [h] <;> simp
@[simp] theorem postFor_net (c : Cmd) (f : Fin) (x : Nat) (m : Mach) : (postFor c f x m).net = m.net := by
  rcases postFor_cases c f x m with h | ⟨y, -, h⟩ | ⟨y, -, h⟩ <;> rw [h] <;> simp
@[simp] theorem postFor_pwm (c : Cmd) (f : Fin) (x : Nat) (m : Mach) : (postFor c f x m).pwm = m.pwm := by
  rcases postFor_cases c f x m with h | ⟨y, -, h⟩ | ⟨y, -, h⟩ <;> rw [h] <;> simp
@[simp] theorem postFor_safety (c : Cmd) (f : Fin) (x : Nat) (m : Mach) : (postFor c f x m).safety = m.safety := by
  rcases postFor_cases c f x m with h | ⟨y, -, h⟩ | ⟨y, -, h⟩ <;> rw [h] <;> simp
@[simp] theorem postFor_pwr (c : Cmd) (f : Fin) (x : Nat) (m : Mach) : (postFor c f x m).pwr = m.pwr := by
  rcases postFor_cases c f x m with h | ⟨y, -, h⟩ | ⟨y, -, h⟩ <;> rw [h] <;> simp
@[simp] theorem postFor_sec (c : Cmd) (f : Fin) (x : Nat) (m : Mach) : (postFor c f x m).sec = m.sec := by
  rcases postFor_cases c f x m with h | ⟨y, -, h⟩ | ⟨y, -, h⟩ <;> rw [h] <;> simp
@[simp] theorem postFor_dbg (c : Cmd) (f : Fin) (x : Nat) (m : Mach) : (postFor c f x m).dbg = m.dbg := by
  rcases postFor_cases c f x m with h | ⟨y, -, h⟩ | ⟨y, -, h⟩ <;> rw [h] <;> simp
@[simp] theorem postFor_pins (c : Cmd) (f : Fin) (x : Nat) (m : Mach) : (postFor c f x m).pins = m.pins := by
  rcases postFor_cases c f x m with h | ⟨y, -, h⟩ | ⟨y, -, h⟩ <;> rw [h] <;> simp
/-- In a unit that exchanges with no partner, posting leaves the pair as it was. -/
@[simp] theorem postFor_pair (c : Cmd) (f : Fin) (x : Nat) (m : Mach) (h : m.pair.exchanging = false) : (postFor c f x m).pair = m.pair := by
  rcases postFor_cases c f x m with h1 | ⟨y, h1, -⟩ | ⟨y, -, h1⟩
  · rw [h1]
  · rw [mirrored_alone h] at h1; cases h1
  · rw [h1]; simp

@[simp] theorem complete_dev (c : Cmd) (f : Fin) (m : Mach) : (complete c f m).dev = m.dev := by simp [complete]
@[simp] theorem complete_gal (c : Cmd) (f : Fin) (m : Mach) : (complete c f m).gal = m.gal := by simp [complete]
@[simp] theorem complete_tb (c : Cmd) (f : Fin) (m : Mach) : (complete c f m).tb = m.tb := by simp [complete]
@[simp] theorem complete_conv (c : Cmd) (f : Fin) (m : Mach) : (complete c f m).conv = m.conv := by simp [complete]
@[simp] theorem complete_loop (c : Cmd) (f : Fin) (m : Mach) : (complete c f m).loop = m.loop := by simp [complete]
@[simp] theorem complete_mode (c : Cmd) (f : Fin) (m : Mach) : (complete c f m).mode = m.mode := by simp [complete]
@[simp] theorem complete_flow (c : Cmd) (f : Fin) (m : Mach) : (complete c f m).flow = m.flow := by simp [complete]
@[simp] theorem complete_zl (c : Cmd) (f : Fin) (m : Mach) : (complete c f m).zl = m.zl := by simp [complete]
@[simp] theorem complete_pair (c : Cmd) (f : Fin) (m : Mach) (h : m.pair.exchanging = false) : (complete c f m).pair = m.pair := by simp [complete, h]
@[simp] theorem complete_meas (c : Cmd) (f : Fin) (m : Mach) : (complete c f m).meas = m.meas := by simp [complete]
@[simp] theorem complete_net (c : Cmd) (f : Fin) (m : Mach) : (complete c f m).net = m.net := by simp [complete]
@[simp] theorem complete_pwm (c : Cmd) (f : Fin) (m : Mach) : (complete c f m).pwm = m.pwm := by simp [complete]
@[simp] theorem complete_safety (c : Cmd) (f : Fin) (m : Mach) : (complete c f m).safety = m.safety := by simp [complete]
@[simp] theorem complete_pwr (c : Cmd) (f : Fin) (m : Mach) : (complete c f m).pwr = m.pwr := by simp [complete]
@[simp] theorem complete_sec (c : Cmd) (f : Fin) (m : Mach) : (complete c f m).sec = m.sec := by simp [complete]
@[simp] theorem complete_dbg (c : Cmd) (f : Fin) (m : Mach) : (complete c f m).dbg = m.dbg := by simp [complete]
@[simp] theorem complete_pins (c : Cmd) (f : Fin) (m : Mach) : (complete c f m).pins = m.pins := by simp [complete]

@[simp] theorem rejectCmd_dev (c : Cmd) (s r : Nat) (m : Mach) : (rejectCmd c s r m).dev = m.dev := by simp [rejectCmd]
@[simp] theorem rejectCmd_gal (c : Cmd) (s r : Nat) (m : Mach) : (rejectCmd c s r m).gal = m.gal := by simp [rejectCmd]
@[simp] theorem rejectCmd_tb (c : Cmd) (s r : Nat) (m : Mach) : (rejectCmd c s r m).tb = m.tb := by simp [rejectCmd]
@[simp] theorem rejectCmd_conv (c : Cmd) (s r : Nat) (m : Mach) : (rejectCmd c s r m).conv = m.conv := by simp [rejectCmd]
@[simp] theorem rejectCmd_loop (c : Cmd) (s r : Nat) (m : Mach) : (rejectCmd c s r m).loop = m.loop := by simp [rejectCmd]
@[simp] theorem rejectCmd_mode (c : Cmd) (s r : Nat) (m : Mach) : (rejectCmd c s r m).mode = m.mode := by simp [rejectCmd]
@[simp] theorem rejectCmd_flow (c : Cmd) (s r : Nat) (m : Mach) : (rejectCmd c s r m).flow = m.flow := by simp [rejectCmd]
@[simp] theorem rejectCmd_zl (c : Cmd) (s r : Nat) (m : Mach) : (rejectCmd c s r m).zl = m.zl := by simp [rejectCmd]
@[simp] theorem rejectCmd_pair (c : Cmd) (s r : Nat) (m : Mach) (h : m.pair.exchanging = false) : (rejectCmd c s r m).pair = m.pair := by simp [rejectCmd, h]
@[simp] theorem rejectCmd_meas (c : Cmd) (s r : Nat) (m : Mach) : (rejectCmd c s r m).meas = m.meas := by simp [rejectCmd]
@[simp] theorem rejectCmd_net (c : Cmd) (s r : Nat) (m : Mach) : (rejectCmd c s r m).net = m.net := by simp [rejectCmd]
@[simp] theorem rejectCmd_pwm (c : Cmd) (s r : Nat) (m : Mach) : (rejectCmd c s r m).pwm = m.pwm := by simp [rejectCmd]
@[simp] theorem rejectCmd_safety (c : Cmd) (s r : Nat) (m : Mach) : (rejectCmd c s r m).safety = m.safety := by simp [rejectCmd]
@[simp] theorem rejectCmd_pwr (c : Cmd) (s r : Nat) (m : Mach) : (rejectCmd c s r m).pwr = m.pwr := by simp [rejectCmd]
@[simp] theorem rejectCmd_sec (c : Cmd) (s r : Nat) (m : Mach) : (rejectCmd c s r m).sec = m.sec := by simp [rejectCmd]
@[simp] theorem rejectCmd_dbg (c : Cmd) (s r : Nat) (m : Mach) : (rejectCmd c s r m).dbg = m.dbg := by simp [rejectCmd]
@[simp] theorem rejectCmd_pins (c : Cmd) (s r : Nat) (m : Mach) : (rejectCmd c s r m).pins = m.pins := by simp [rejectCmd]

@[simp] theorem acceptCmd_dev (c : Cmd) (f : Nat) (m : Mach) : (acceptCmd c f m).dev = m.dev := by simp [acceptCmd]
@[simp] theorem acceptCmd_gal (c : Cmd) (f : Nat) (m : Mach) : (acceptCmd c f m).gal = m.gal := by simp [acceptCmd]
@[simp] theorem acceptCmd_tb (c : Cmd) (f : Nat) (m : Mach) : (acceptCmd c f m).tb = m.tb := by simp [acceptCmd]
@[simp] theorem acceptCmd_conv (c : Cmd) (f : Nat) (m : Mach) : (acceptCmd c f m).conv = m.conv := by simp [acceptCmd]
@[simp] theorem acceptCmd_loop (c : Cmd) (f : Nat) (m : Mach) : (acceptCmd c f m).loop = m.loop := by simp [acceptCmd]
@[simp] theorem acceptCmd_mode (c : Cmd) (f : Nat) (m : Mach) : (acceptCmd c f m).mode = m.mode := by simp [acceptCmd]
@[simp] theorem acceptCmd_flow (c : Cmd) (f : Nat) (m : Mach) : (acceptCmd c f m).flow = m.flow := by simp [acceptCmd]
@[simp] theorem acceptCmd_zl (c : Cmd) (f : Nat) (m : Mach) : (acceptCmd c f m).zl = m.zl := by simp [acceptCmd]
@[simp] theorem acceptCmd_pair (c : Cmd) (f : Nat) (m : Mach) (h : m.pair.exchanging = false) : (acceptCmd c f m).pair = m.pair := by simp [acceptCmd, h]
@[simp] theorem acceptCmd_meas (c : Cmd) (f : Nat) (m : Mach) : (acceptCmd c f m).meas = m.meas := by simp [acceptCmd]
@[simp] theorem acceptCmd_net (c : Cmd) (f : Nat) (m : Mach) : (acceptCmd c f m).net = m.net := by simp [acceptCmd]
@[simp] theorem acceptCmd_pwm (c : Cmd) (f : Nat) (m : Mach) : (acceptCmd c f m).pwm = m.pwm := by simp [acceptCmd]
@[simp] theorem acceptCmd_safety (c : Cmd) (f : Nat) (m : Mach) : (acceptCmd c f m).safety = m.safety := by simp [acceptCmd]
@[simp] theorem acceptCmd_pwr (c : Cmd) (f : Nat) (m : Mach) : (acceptCmd c f m).pwr = m.pwr := by simp [acceptCmd]
@[simp] theorem acceptCmd_sec (c : Cmd) (f : Nat) (m : Mach) : (acceptCmd c f m).sec = m.sec := by simp [acceptCmd]
@[simp] theorem acceptCmd_dbg (c : Cmd) (f : Nat) (m : Mach) : (acceptCmd c f m).dbg = m.dbg := by simp [acceptCmd]
@[simp] theorem acceptCmd_pins (c : Cmd) (f : Nat) (m : Mach) : (acceptCmd c f m).pins = m.pins := by simp [acceptCmd]

@[simp] theorem consume_dev (r : Nat) (m : Mach) : (consume r m).dev = m.dev := rfl
@[simp] theorem consume_gal (r : Nat) (m : Mach) : (consume r m).gal = m.gal := rfl
@[simp] theorem consume_reg (r : Nat) (m : Mach) : (consume r m).reg = m.reg := rfl
@[simp] theorem consume_tb (r : Nat) (m : Mach) : (consume r m).tb = m.tb := rfl
@[simp] theorem consume_conv (r : Nat) (m : Mach) : (consume r m).conv = m.conv := rfl
@[simp] theorem consume_loop (r : Nat) (m : Mach) : (consume r m).loop = m.loop := rfl
@[simp] theorem consume_mode (r : Nat) (m : Mach) : (consume r m).mode = m.mode := rfl
@[simp] theorem consume_flow (r : Nat) (m : Mach) : (consume r m).flow = m.flow := rfl
@[simp] theorem consume_zl (r : Nat) (m : Mach) : (consume r m).zl = m.zl := rfl
@[simp] theorem consume_pair (r : Nat) (m : Mach) : (consume r m).pair = m.pair := rfl
@[simp] theorem consume_meas (r : Nat) (m : Mach) : (consume r m).meas = m.meas := rfl
@[simp] theorem consume_net (r : Nat) (m : Mach) : (consume r m).net = m.net := rfl
@[simp] theorem consume_pwm (r : Nat) (m : Mach) : (consume r m).pwm = m.pwm := rfl
@[simp] theorem consume_safety (r : Nat) (m : Mach) : (consume r m).safety = m.safety := rfl
@[simp] theorem consume_pwr (r : Nat) (m : Mach) : (consume r m).pwr = m.pwr := rfl
@[simp] theorem consume_sec (r : Nat) (m : Mach) : (consume r m).sec = m.sec := rfl
@[simp] theorem consume_dbg (r : Nat) (m : Mach) : (consume r m).dbg = m.dbg := rfl
@[simp] theorem consume_hostMem (r : Nat) (m : Mach) : (consume r m).hostMem = m.hostMem := rfl
@[simp] theorem consume_pins (r : Nat) (m : Mach) : (consume r m).pins = m.pins := rfl
@[simp] theorem consume_out (r : Nat) (m : Mach) : (consume r m).out = m.out := rfl


/-- The commands accepted and not terminal are no concern of what writes completions. -/
@[simp] theorem setRing_accepted (r : Nat) (x : Ring) (m : Mach) : (m.setRing r x).host.accepted = m.host.accepted := rfl
@[simp] theorem oweAttention_accepted (c : Bool) (m : Mach) : (m.oweAttention c).host.accepted = m.host.accepted := by
  unfold Mach.oweAttention; split <;> rfl
@[simp] theorem writeCpl_accepted (c : Cpl) (m : Mach) : (writeCpl c m).host.accepted = m.host.accepted := by
  unfold writeCpl; cases c.slot.isEmpty <;> simp
@[simp] theorem drainCpls_accepted (r : Nat) (l : List Cpl) : ∀ m : Mach, (drainCpls r l m).host.accepted = m.host.accepted := by
  induction l with
  | nil => intro m; simp [drainCpls]
  | cons c cs ih => intro m; unfold drainCpls; split <;> simp [ih]
@[simp] theorem postHeld_accepted (r : Nat) (m : Mach) : (postHeld r m).host.accepted = m.host.accepted := by
  unfold postHeld; split <;> simp
@[simp] theorem postCpl_accepted (c : Cpl) (m : Mach) : (postCpl c m).host.accepted = m.host.accepted := by
  simp [postCpl]
@[simp] theorem postFor_accepted (c : Cmd) (f : Fin) (x : Nat) (m : Mach) : (postFor c f x m).host.accepted = m.host.accepted := by
  rcases postFor_cases c f x m with h | ⟨y, -, h⟩ | ⟨y, -, h⟩ <;> rw [h] <;> simp

/-- Writing buffers, posting completions and telling the partner leave the service of the rings as it was. -/
theorem writes_service (l : List BufWrite) : ∀ m : Mach, (l.foldl (fun m w => m.hostWrite w.addr w.bytes) m).service = m.service := by
  induction l with
  | nil => intro m; rfl
  | cons w l ih => intro m; rw [List.foldl_cons, ih]; rfl
@[simp] theorem writeBufs_service (c : Cpl) (m : Mach) : (writeBufs c m).service = m.service := by
  unfold writeBufs; rw [writes_service]; rfl
@[simp] theorem setRing_service (r : Nat) (x : Ring) (m : Mach) : (m.setRing r x).service = m.service := rfl
@[simp] theorem hostWrite_service (a : Nat) (b : List Byte) (m : Mach) : (m.hostWrite a b).service = m.service := rfl
@[simp] theorem send_service (o : Out) (m : Mach) : (m.send o).service = m.service := rfl
@[simp] theorem raise_service (f : FieldRef) (m : Mach) : (m.raise f).service = m.service := rfl
@[simp] theorem oweAttention_service (c : Bool) (m : Mach) : (m.oweAttention c).service = m.service := by
  unfold Mach.oweAttention; split <;> rfl
@[simp] theorem writeCpl_service (c : Cpl) (m : Mach) : (writeCpl c m).service = m.service := by
  unfold writeCpl; cases c.slot.isEmpty <;> simp
@[simp] theorem pairSend_service (t : Nat) (b : List Byte) (m : Mach) : (m.pairSend t b).service = m.service := rfl
@[simp] theorem sendPosted_service (r q s x : Nat) (m : Mach) : (sendPosted r q s x m).service = m.service := by
  unfold sendPosted; split <;> simp
@[simp] theorem postedOf_service (c : Cpl) (m : Mach) : (postedOf c m).service = m.service := by
  unfold postedOf; split <;> simp
@[simp] theorem modPairRing_service (r : Nat) (g : Ring → Ring) (m : Mach) : (m.modPairRing r g).service = m.service := by
  unfold Mach.modPairRing; split <;> rfl
@[simp] theorem mirrorCpl_service (c : Cpl) (m : Mach) : (mirrorCpl c m).service = m.service := by
  unfold mirrorCpl; dsimp only; split
  · simp
  · exact modPairRing_service _ _ _
@[simp] theorem drainCpls_service (r : Nat) (l : List Cpl) : ∀ m : Mach, (drainCpls r l m).service = m.service := by
  induction l with
  | nil => intro m; simp [drainCpls]
  | cons c cs ih => intro m; unfold drainCpls; split <;> simp [ih]
@[simp] theorem postHeld_service (r : Nat) (m : Mach) : (postHeld r m).service = m.service := by
  unfold postHeld; split <;> simp
@[simp] theorem postCpl_service (c : Cpl) (m : Mach) : (postCpl c m).service = m.service := by
  simp [postCpl]
@[simp] theorem postFor_service (c : Cmd) (f : Fin) (x : Nat) (m : Mach) : (postFor c f x m).service = m.service := by
  rcases postFor_cases c f x m with h | ⟨y, -, h⟩ | ⟨y, -, h⟩ <;> rw [h] <;> simp
@[simp] theorem consume_service (r : Nat) (m : Mach) : (consume r m).service = m.service := rfl
@[simp] theorem acceptCmd_service (c : Cmd) (f : Nat) (m : Mach) : (acceptCmd c f m).service = m.service := by
  unfold acceptCmd; dsimp only; rw [sendPosted_service, postFor_service]; rfl

/-- A completion leaves no entry of its command among the accepted ones (R256). -/
@[simp] theorem complete_accepted (c : Cmd) (f : Fin) (m : Mach) :
    (complete c f m).host.accepted = m.host.accepted.filter fun p => !(p.cmd.ring == c.ring && p.cmd.seq == c.seq) := by
  simp [complete]

end Sys2Proof.Machine
end

