-- ==== Sys2Proof/Laws/Command.lean ====
section
/-! SUPPORT. Laws/Command.lean: a host command from its descriptor to its effect, said once for every row. -/
set_option Elab.async false
namespace Sys2Proof.Machine
open Sys2Proof

@[simp] theorem acceptNow_dev (c : Cmd) (m : Mach) : (acceptNow c m).dev = m.dev := by simp [acceptNow]
@[simp] theorem acceptNow_gal (c : Cmd) (m : Mach) : (acceptNow c m).gal = m.gal := by simp [acceptNow]
@[simp] theorem acceptNow_tb (c : Cmd) (m : Mach) : (acceptNow c m).tb = m.tb := by simp [acceptNow]
@[simp] theorem acceptNow_conv (c : Cmd) (m : Mach) : (acceptNow c m).conv = m.conv := by simp [acceptNow]
@[simp] theorem acceptNow_loop (c : Cmd) (m : Mach) : (acceptNow c m).loop = m.loop := by simp [acceptNow]
@[simp] theorem acceptNow_mode (c : Cmd) (m : Mach) : (acceptNow c m).mode = m.mode := by simp [acceptNow]
@[simp] theorem acceptNow_flow (c : Cmd) (m : Mach) : (acceptNow c m).flow = m.flow := by simp [acceptNow]
@[simp] theorem acceptNow_zl (c : Cmd) (m : Mach) : (acceptNow c m).zl = m.zl := by simp [acceptNow]
@[simp] theorem acceptNow_pair (c : Cmd) (m : Mach) (h : m.pair.exchanging = false) : (acceptNow c m).pair = m.pair := by simp [acceptNow, h]
@[simp] theorem acceptNow_meas (c : Cmd) (m : Mach) : (acceptNow c m).meas = m.meas := by simp [acceptNow]
@[simp] theorem acceptNow_net (c : Cmd) (m : Mach) : (acceptNow c m).net = m.net := by simp [acceptNow]
@[simp] theorem acceptNow_pwm (c : Cmd) (m : Mach) : (acceptNow c m).pwm = m.pwm := by simp [acceptNow]
@[simp] theorem acceptNow_safety (c : Cmd) (m : Mach) : (acceptNow c m).safety = m.safety := by simp [acceptNow]
@[simp] theorem acceptNow_pwr (c : Cmd) (m : Mach) : (acceptNow c m).pwr = m.pwr := by simp [acceptNow]
@[simp] theorem acceptNow_sec (c : Cmd) (m : Mach) : (acceptNow c m).sec = m.sec := by simp [acceptNow]
@[simp] theorem acceptNow_dbg (c : Cmd) (m : Mach) : (acceptNow c m).dbg = m.dbg := by simp [acceptNow]
@[simp] theorem acceptNow_pins (c : Cmd) (m : Mach) : (acceptNow c m).pins = m.pins := by simp [acceptNow]

@[simp] theorem State.start_dev (s : State) : s.start.dev = s.m.dev := rfl
@[simp] theorem State.start_gal (s : State) : s.start.gal = s.m.gal := rfl
@[simp] theorem State.start_reg (s : State) : s.start.reg = s.m.reg := rfl
@[simp] theorem State.start_tb (s : State) : s.start.tb = s.m.tb := rfl
@[simp] theorem State.start_conv (s : State) : s.start.conv = s.m.conv := rfl
@[simp] theorem State.start_loop (s : State) : s.start.loop = s.m.loop := rfl
@[simp] theorem State.start_mode (s : State) : s.start.mode = s.m.mode := rfl
@[simp] theorem State.start_flow (s : State) : s.start.flow = s.m.flow := rfl
@[simp] theorem State.start_zl (s : State) : s.start.zl = s.m.zl := rfl
@[simp] theorem State.start_host (s : State) : s.start.host = s.m.host := rfl
@[simp] theorem State.start_pair (s : State) : s.start.pair = s.m.pair := rfl
@[simp] theorem State.start_meas (s : State) : s.start.meas = s.m.meas := rfl
@[simp] theorem State.start_net (s : State) : s.start.net = s.m.net := rfl
@[simp] theorem State.start_pwm (s : State) : s.start.pwm = s.m.pwm := rfl
@[simp] theorem State.start_safety (s : State) : s.start.safety = s.m.safety := rfl
@[simp] theorem State.start_pwr (s : State) : s.start.pwr = s.m.pwr := rfl
@[simp] theorem State.start_sec (s : State) : s.start.sec = s.m.sec := rfl
@[simp] theorem State.start_dbg (s : State) : s.start.dbg = s.m.dbg := rfl
@[simp] theorem State.start_hostMem (s : State) : s.start.hostMem = s.m.hostMem := rfl
@[simp] theorem State.start_pins (s : State) : s.start.pins = s.m.pins := rfl

@[simp] theorem State.fetching_dev (s : State) (r : Nat) : (s.fetching r).dev = s.start.dev := rfl
@[simp] theorem State.fetching_gal (s : State) (r : Nat) : (s.fetching r).gal = s.start.gal := rfl
@[simp] theorem State.fetching_reg (s : State) (r : Nat) : (s.fetching r).reg = s.start.reg := rfl
@[simp] theorem State.fetching_tb (s : State) (r : Nat) : (s.fetching r).tb = s.start.tb := rfl
@[simp] theorem State.fetching_conv (s : State) (r : Nat) : (s.fetching r).conv = s.start.conv := rfl
@[simp] theorem State.fetching_loop (s : State) (r : Nat) : (s.fetching r).loop = s.start.loop := rfl
@[simp] theorem State.fetching_mode (s : State) (r : Nat) : (s.fetching r).mode = s.start.mode := rfl
@[simp] theorem State.fetching_flow (s : State) (r : Nat) : (s.fetching r).flow = s.start.flow := rfl
@[simp] theorem State.fetching_zl (s : State) (r : Nat) : (s.fetching r).zl = s.start.zl := rfl
@[simp] theorem State.fetching_pair (s : State) (r : Nat) : (s.fetching r).pair = s.start.pair := rfl
@[simp] theorem State.fetching_meas (s : State) (r : Nat) : (s.fetching r).meas = s.start.meas := rfl
@[simp] theorem State.fetching_net (s : State) (r : Nat) : (s.fetching r).net = s.start.net := rfl
@[simp] theorem State.fetching_pwm (s : State) (r : Nat) : (s.fetching r).pwm = s.start.pwm := rfl
@[simp] theorem State.fetching_safety (s : State) (r : Nat) : (s.fetching r).safety = s.start.safety := rfl
@[simp] theorem State.fetching_pwr (s : State) (r : Nat) : (s.fetching r).pwr = s.start.pwr := rfl
@[simp] theorem State.fetching_sec (s : State) (r : Nat) : (s.fetching r).sec = s.start.sec := rfl
@[simp] theorem State.fetching_dbg (s : State) (r : Nat) : (s.fetching r).dbg = s.start.dbg := rfl
@[simp] theorem State.fetching_hostMem (s : State) (r : Nat) : (s.fetching r).hostMem = s.start.hostMem := rfl
@[simp] theorem State.fetching_pins (s : State) (r : Nat) : (s.fetching r).pins = s.start.pins := rfl
@[simp] theorem State.fetching_out (s : State) (r : Nat) : (s.fetching r).out = s.start.out := rfl
@[simp] theorem State.fetching_accepted (s : State) (r : Nat) : (s.fetching r).host.accepted = s.m.host.accepted := rfl
@[simp] theorem State.fetching_acceptCount (s : State) (r : Nat) : (s.fetching r).host.acceptCount = s.m.host.acceptCount := rfl

@[simp] theorem State.accepts_dev (s : State) (i : CmdInfo) (d : Desc) : (s.accepts i d).dev = s.m.dev := by simp [State.accepts]
@[simp] theorem State.accepts_gal (s : State) (i : CmdInfo) (d : Desc) : (s.accepts i d).gal = s.m.gal := by simp [State.accepts]
@[simp] theorem State.accepts_tb (s : State) (i : CmdInfo) (d : Desc) : (s.accepts i d).tb = s.m.tb := by simp [State.accepts]
@[simp] theorem State.accepts_conv (s : State) (i : CmdInfo) (d : Desc) : (s.accepts i d).conv = s.m.conv := by simp [State.accepts]
@[simp] theorem State.accepts_loop (s : State) (i : CmdInfo) (d : Desc) : (s.accepts i d).loop = s.m.loop := by simp [State.accepts]
@[simp] theorem State.accepts_mode (s : State) (i : CmdInfo) (d : Desc) : (s.accepts i d).mode = s.m.mode := by simp [State.accepts]
@[simp] theorem State.accepts_flow (s : State) (i : CmdInfo) (d : Desc) : (s.accepts i d).flow = s.m.flow := by simp [State.accepts]
@[simp] theorem State.accepts_zl (s : State) (i : CmdInfo) (d : Desc) : (s.accepts i d).zl = s.m.zl := by simp [State.accepts]
@[simp] theorem State.accepts_pair (s : State) (i : CmdInfo) (d : Desc) (h : s.m.pair.exchanging = false) : (s.accepts i d).pair = s.m.pair := by simp [State.accepts, h]
@[simp] theorem State.accepts_meas (s : State) (i : CmdInfo) (d : Desc) : (s.accepts i d).meas = s.m.meas := by simp [State.accepts]
@[simp] theorem State.accepts_net (s : State) (i : CmdInfo) (d : Desc) : (s.accepts i d).net = s.m.net := by simp [State.accepts]
@[simp] theorem State.accepts_pwm (s : State) (i : CmdInfo) (d : Desc) : (s.accepts i d).pwm = s.m.pwm := by simp [State.accepts]
@[simp] theorem State.accepts_safety (s : State) (i : CmdInfo) (d : Desc) : (s.accepts i d).safety = s.m.safety := by simp [State.accepts]
@[simp] theorem State.accepts_pwr (s : State) (i : CmdInfo) (d : Desc) : (s.accepts i d).pwr = s.m.pwr := by simp [State.accepts]
@[simp] theorem State.accepts_sec (s : State) (i : CmdInfo) (d : Desc) : (s.accepts i d).sec = s.m.sec := by simp [State.accepts]
@[simp] theorem State.accepts_dbg (s : State) (i : CmdInfo) (d : Desc) : (s.accepts i d).dbg = s.m.dbg := by simp [State.accepts]
@[simp] theorem State.accepts_pins (s : State) (i : CmdInfo) (d : Desc) : (s.accepts i d).pins = s.m.pins := by simp [State.accepts]

@[simp] theorem State.accepts_now (s : State) (i : CmdInfo) (d : Desc) : (s.accepts i d).now = s.m.now := by simp [Mach.now]
@[simp] theorem State.accepts_inState (s : State) (i : CmdInfo) (d : Desc) (x : List DevState) : (s.accepts i d).inState x = s.m.inState x := by simp [Mach.inState]
@[simp] theorem State.accepts_alive (s : State) (i : CmdInfo) (d : Desc) : (s.accepts i d).alive = s.m.alive := by simp [Mach.alive, Mach.inState]
@[simp] theorem State.accepts_measures (s : State) (i : CmdInfo) (d : Desc) : (s.accepts i d).measures = s.m.measures := by simp [Mach.measures, Mach.inState]
@[simp] theorem State.accepts_g (s : State) (i : CmdInfo) (d : Desc) (x : Nat) : (s.accepts i d).g x = s.m.g x := by simp [Mach.g]
@[simp] theorem State.accepts_gv (s : State) (i : CmdInfo) (d : Desc) (x : Nat) : (s.accepts i d).gv x = s.m.gv x := by simp [Mach.gv, Mach.g]
@[simp] theorem State.accepts_lane (s : State) (i : CmdInfo) (d : Desc) (x : Nat) : (s.accepts i d).lane x = s.m.lane x := by simp [Mach.lane]
@[simp] theorem State.accepts_path (s : State) (i : CmdInfo) (d : Desc) (x : Nat) (h : s.m.pair.exchanging = false) : (s.accepts i d).path x = s.m.path x := by simp [Mach.path, h]
@[simp] theorem State.accepts_sm (s : State) (i : CmdInfo) (d : Desc) (x : Nat) : (s.accepts i d).sm x = s.m.sm x := by simp [Mach.sm]
@[simp] theorem State.accepts_arm (s : State) (i : CmdInfo) (d : Desc) (x : Nat) : (s.accepts i d).arm x = s.m.arm x := by simp [Mach.arm]
@[simp] theorem State.accepts_safeIn (s : State) (i : CmdInfo) (d : Desc) (x : Nat) : (s.accepts i d).safeIn x = s.m.safeIn x := by simp [Mach.safeIn]
@[simp] theorem State.accepts_safeOut (s : State) (i : CmdInfo) (d : Desc) (x : Nat) : (s.accepts i d).safeOut x = s.m.safeOut x := by simp [Mach.safeOut]
@[simp] theorem State.accepts_tel (s : State) (i : CmdInfo) (d : Desc) (x : Nat) : (s.accepts i d).tel x = s.m.tel x := by simp [Mach.tel]
@[simp] theorem State.accepts_inCfg (s : State) (i : CmdInfo) (d : Desc) (x : Nat) : (s.accepts i d).inCfg x = s.m.inCfg x := by simp [Mach.inCfg]
@[simp] theorem State.accepts_outCfg (s : State) (i : CmdInfo) (d : Desc) (x : Nat) : (s.accepts i d).outCfg x = s.m.outCfg x := by simp [Mach.outCfg]
@[simp] theorem State.accepts_telCfg (s : State) (i : CmdInfo) (d : Desc) (x : Nat) : (s.accepts i d).telCfg x = s.m.telCfg x := by simp [Mach.telCfg]
@[simp] theorem State.accepts_pwmCh (s : State) (i : CmdInfo) (d : Desc) (x : Nat) : (s.accepts i d).pwmCh x = s.m.pwmCh x := by simp [Mach.pwmCh]
@[simp] theorem State.accepts_canCh (s : State) (i : CmdInfo) (d : Desc) (x : Nat) : (s.accepts i d).canCh x = s.m.canCh x := by simp [Mach.canCh]
@[simp] theorem State.accepts_laneOf (s : State) (i : CmdInfo) (d : Desc) (x : Nat) : (s.accepts i d).laneOf x = s.m.laneOf x := by simp [Mach.laneOf]
@[simp] theorem State.accepts_echo (s : State) (i : CmdInfo) (d : Desc) (x : Nat) : (s.accepts i d).echo x = s.m.echo x := by simp [Mach.echo]
@[simp] theorem State.accepts_chain (s : State) (i : CmdInfo) (d : Desc) (x : Nat) : (s.accepts i d).chain x = s.m.chain x := by simp [Mach.chain]
@[simp] theorem State.accepts_core (s : State) (i : CmdInfo) (d : Desc) (x : Nat) : (s.accepts i d).core x = s.m.core x := by simp [Mach.core]
@[simp] theorem State.accepts_seqCfg (s : State) (i : CmdInfo) (d : Desc) (x : Nat) : (s.accepts i d).seqCfg x = s.m.seqCfg x := by simp [Mach.seqCfg]
@[simp] theorem State.accepts_seqRun (s : State) (i : CmdInfo) (d : Desc) (x : Nat) : (s.accepts i d).seqRun x = s.m.seqRun x := by simp [Mach.seqRun]
@[simp] theorem State.accepts_stream (s : State) (i : CmdInfo) (d : Desc) (x : Nat) : (s.accepts i d).stream x = s.m.stream x := by simp [Mach.stream]
@[simp] theorem State.accepts_slot (s : State) (i : CmdInfo) (d : Desc) (x : Nat) : (s.accepts i d).slot x = s.m.slot x := by simp [Mach.slot]
@[simp] theorem State.accepts_ethPort (s : State) (i : CmdInfo) (d : Desc) (x : Nat) : (s.accepts i d).ethPort x = s.m.ethPort x := by simp [Mach.ethPort]
@[simp] theorem State.accepts_gooseSub (s : State) (i : CmdInfo) (d : Desc) (x : Nat) : (s.accepts i d).gooseSub x = s.m.gooseSub x := by simp [Mach.gooseSub]
@[simp] theorem State.accepts_farCh (s : State) (i : CmdInfo) (d : Desc) (x : Nat) : (s.accepts i d).farCh x = s.m.farCh x := by simp [Mach.farCh]
@[simp] theorem State.accepts_pq (s : State) (i : CmdInfo) (d : Desc) : (s.accepts i d).pq = s.m.pq := by simp [Mach.pq]
@[simp] theorem State.accepts_working (s : State) (i : CmdInfo) (d : Desc) : (s.accepts i d).working = s.m.working := by simp [Mach.working, Mach.inState]
@[simp] theorem State.start_now (s : State) : s.start.now = s.m.now := rfl
@[simp] theorem State.start_inState (s : State) (x : List DevState) : s.start.inState x = s.m.inState x := rfl
@[simp] theorem State.start_alive (s : State) : s.start.alive = s.m.alive := rfl
@[simp] theorem State.start_measures (s : State) : s.start.measures = s.m.measures := rfl
@[simp] theorem State.start_g (s : State) (x : Nat) : s.start.g x = s.m.g x := rfl
@[simp] theorem State.start_gv (s : State) (x : Nat) : s.start.gv x = s.m.gv x := rfl
@[simp] theorem State.start_lane (s : State) (x : Nat) : s.start.lane x = s.m.lane x := rfl
@[simp] theorem State.start_path (s : State) (x : Nat) : s.start.path x = s.m.path x := rfl
@[simp] theorem State.start_sm (s : State) (x : Nat) : s.start.sm x = s.m.sm x := rfl
@[simp] theorem State.start_arm (s : State) (x : Nat) : s.start.arm x = s.m.arm x := rfl
@[simp] theorem State.start_safeIn (s : State) (x : Nat) : s.start.safeIn x = s.m.safeIn x := rfl
@[simp] theorem State.start_safeOut (s : State) (x : Nat) : s.start.safeOut x = s.m.safeOut x := rfl
@[simp] theorem State.start_tel (s : State) (x : Nat) : s.start.tel x = s.m.tel x := rfl
@[simp] theorem State.start_inCfg (s : State) (x : Nat) : s.start.inCfg x = s.m.inCfg x := rfl
@[simp] theorem State.start_outCfg (s : State) (x : Nat) : s.start.outCfg x = s.m.outCfg x := rfl
@[simp] theorem State.start_telCfg (s : State) (x : Nat) : s.start.telCfg x = s.m.telCfg x := rfl
@[simp] theorem State.start_pwmCh (s : State) (x : Nat) : s.start.pwmCh x = s.m.pwmCh x := rfl
@[simp] theorem State.start_canCh (s : State) (x : Nat) : s.start.canCh x = s.m.canCh x := rfl
@[simp] theorem State.start_laneOf (s : State) (x : Nat) : s.start.laneOf x = s.m.laneOf x := rfl
@[simp] theorem State.start_echo (s : State) (x : Nat) : s.start.echo x = s.m.echo x := rfl
@[simp] theorem State.start_chain (s : State) (x : Nat) : s.start.chain x = s.m.chain x := rfl
@[simp] theorem State.start_core (s : State) (x : Nat) : s.start.core x = s.m.core x := rfl
@[simp] theorem State.start_seqCfg (s : State) (x : Nat) : s.start.seqCfg x = s.m.seqCfg x := rfl
@[simp] theorem State.start_seqRun (s : State) (x : Nat) : s.start.seqRun x = s.m.seqRun x := rfl
@[simp] theorem State.start_stream (s : State) (x : Nat) : s.start.stream x = s.m.stream x := rfl
@[simp] theorem State.start_slot (s : State) (x : Nat) : s.start.slot x = s.m.slot x := rfl
@[simp] theorem State.start_ethPort (s : State) (x : Nat) : s.start.ethPort x = s.m.ethPort x := rfl
@[simp] theorem State.start_gooseSub (s : State) (x : Nat) : s.start.gooseSub x = s.m.gooseSub x := rfl
@[simp] theorem State.start_farCh (s : State) (x : Nat) : s.start.farCh x = s.m.farCh x := rfl
@[simp] theorem State.start_pq (s : State) : s.start.pq = s.m.pq := rfl
@[simp] theorem State.start_working (s : State) : s.start.working = s.m.working := rfl
@[simp] theorem State.start_onTrial (s : State) : s.start.onTrial = s.m.onTrial := rfl
@[simp] theorem State.start_bcr (s : State) : s.start.bcr = s.m.bcr := rfl
@[simp] theorem State.accepts_bcr (s : State) (i : CmdInfo) (d : Desc) : (s.accepts i d).bcr = s.m.bcr := by simp [Mach.bcr]
@[simp] theorem State.accepts_sourceTs (s : State) (i : CmdInfo) (d : Desc) (x : ChainCfg) : sourceTs (s.accepts i d) x = sourceTs s.start x := by simp [sourceTs]
@[simp] theorem State.accepts_tsFrac (s : State) (i : CmdInfo) (d : Desc) (x : ChainCfg) : tsFrac (s.accepts i d) x = tsFrac s.start x := by simp [tsFrac]
@[simp] theorem State.accepts_onTrial (s : State) (i : CmdInfo) (d : Desc) : (s.accepts i d).onTrial = s.m.onTrial := by simp [Mach.onTrial]
@[simp] theorem State.accepts_intakeAt (s : State) (i : CmdInfo) (d : Desc) : intakeAt (s.accepts i d) = intakeAt s.start := by simp [intakeAt]
@[simp] theorem State.accepts_periodOk (s : State) (i : CmdInfo) (d : Desc) (x : Nat) : periodOk (s.accepts i d) x = periodOk s.start x := by simp [periodOk]
@[simp] theorem State.accepts_seqFits (s : State) (i : CmdInfo) (d : Desc) (n : Nat) (x : AdcSeq) : seqFits (s.accepts i d) n x = seqFits s.start n x := by simp [seqFits]; rfl
@[simp] theorem State.accepts_outSlow (s : State) (i : CmdInfo) (d : Desc) (x : ChainCfg) : outSlow (s.accepts i d) x = outSlow s.start x := by simp [outSlow]; rfl
@[simp] theorem State.accepts_gooseEntries (s : State) (i : CmdInfo) (d : Desc) : gooseEntries (s.accepts i d) = gooseEntries s.m := by simp [gooseEntries]
@[simp] theorem State.accepts_echoFree (s : State) (i : CmdInfo) (d : Desc) : echoFree (s.accepts i d) = echoFree s.start := by simp [echoFree]
@[simp] theorem State.accepts_farReads (s : State) (i : CmdInfo) (d : Desc) (x : Nat) : farReads (s.accepts i d) x = farReads s.start x := by simp [farReads]

/-- A command as acceptance lists it (R252, R253). -/
def listedCmd (c : Cmd) (m : Mach) : Cmd := { c with first := m.tb.k, own := ownOf c m.tb.k m, order := m.host.acceptCount }

/-- The accepted commands after acceptance: the one accepted comes last. -/
theorem acceptNow_accepted (c : Cmd) (m : Mach) :
    (acceptNow c m).host.accepted = m.host.accepted ++ [(⟨listedCmd c m, false⟩ : Pending)] := by
  unfold acceptNow acceptCmd
  simp only [sendPosted_host, postFor_accepted]
  rfl

/-- A search past elements that fail it. -/
theorem find_append_skip {α : Type} (p : α → Bool) (l : List α) (a : α) (hl : ∀ x ∈ l, p x = false) (ha : p a = true) : (l ++ [a]).find? p = some a := by
  rw [List.find?_append, List.find?_eq_none.2 (by simpa using hl)]
  simp [ha]

/-- An accepted command is found as the device holds it, where no other of its ring has its SEQ. -/
theorem accCmd_accepts {info : CmdInfo} {d : Desc} {s : State} (h : Taken info d s) :
    (acceptNow (d.cmd info.op) (s.fetching d.ring)).accCmd (d.cmd info.op) = s.held info d := by
  obtain ⟨-, -, -, -, -, hown, hr, -⟩ := h
  unfold Mach.accCmd Mach.findCmd
  rw [acceptNow_accepted, find_append_skip]
  · simp [State.held, listedCmd, hown]
  · intro p hp
    have hne := hr p hp
    have e1 : (d.cmd info.op).ring = d.ring := rfl
    have e2 : (d.cmd info.op).seq = d.seq := rfl
    by_cases h1 : p.cmd.ring = d.ring
    · simp [e1, e2, h1, (hne h1).1]
    · simp [e1, h1]
  · simp [listedCmd]

/-- Nothing of the ring stands before the command. -/
theorem ringBlocked_accepts {info : CmdInfo} {d : Desc} {s : State} (h : Taken info d s) :
    ringBlocked (s.held info d) (acceptNow (d.cmd info.op) (s.fetching d.ring)) = false := by
  obtain ⟨-, -, -, -, -, -, hr, -⟩ := h
  have e0 : (s.held info d).op = info.op := rfl
  unfold ringBlocked
  rw [acceptNow_accepted, e0]
  by_cases hop : info.op = 0x0F03
  · simp [hop]
  · rw [Bool.and_eq_false_iff]
    right
    rw [List.any_eq_false]
    intro p hp
    have e1 : (d.cmd info.op).ring = d.ring := rfl
    have e2 : (d.cmd info.op).seq = d.seq := rfl
    have e3 : (s.held info d).ring = d.ring := rfl
    have e4 : (s.held info d).seq = d.seq := rfl
    rcases List.mem_append.1 hp with hp | hp
    · have hne := hr p hp
      by_cases h1 : p.cmd.ring = d.ring
      · have := hne h1
        simp [e3, e4, h1]
        simp [hop] at this
        omega
      · simp [e3, h1]
    · have : p = _ := List.mem_singleton.1 hp
      subst this
      simp [listedCmd, e1, e2, e3, e4]

/-- What a command row does when its command is accepted and takes effect in the step: the effect of its row on the accepted command (R251–R256). -/
theorem hostCommand_taken {info : CmdInfo} {eff : Cmd → Mach → Mach × Eff} {d : Desc} {s : State} (h : Taken info d s) :
    hostCommand info eff d s.start = settleEff (s.held info d) (eff (s.held info d) (s.accepts info d)) := by
  have ha := accCmd_accepts h
  have hb := ringBlocked_accepts h
  obtain ⟨hf, hp, href, hst, hchk, hown, hr, hw⟩ := h
  have e1 : fetchable (d.cmd info.op).ring s.start = true := hf
  have e3 : haltWaits (s.held info d) (acceptNow (d.cmd info.op) (s.fetching d.ring)) = false := by
    simpa [haltWaits, State.held, Desc.cmd] using hw
  have e4 : expired (s.held info d) = false := by simp [expired, State.held]
  have e5 : (acceptNow (d.cmd info.op) (s.fetching d.ring)).inState info.states = true := by
    simpa [Mach.inState] using hst
  have e6 : (s.held info d).own.isNone = false := rfl
  have e7 : lateCmd (s.held info d) = s.held info d := by simp [lateCmd, e4]
  unfold hostCommand
  simp only [e1, Bool.not_true, Bool.false_eq_true, if_false]
  change takeDesc (some info) d.resv (d.cmd info.op) (actNow info eff (d.cmd info.op)) s.start = _
  have e8 : takeDesc (some info) d.resv (d.cmd info.op) (actNow info eff (d.cmd info.op)) s.start = actNow info eff (d.cmd info.op) (s.fetching d.ring) := by
    unfold takeDesc
    change (match checkCmd info d.resv (d.cmd info.op) (s.fetching d.ring) with
      | some (a, v) => rejectCmd (d.cmd info.op) a v (s.fetching d.ring)
      | none => if romRefuses (d.cmd info.op) (s.fetching d.ring) = true then rejectCmd (d.cmd info.op) stSTATE 0 (s.fetching d.ring)
          else if ((s.fetching d.ring).pair.exchanging && (s.fetching d.ring).pair.server && (s.fetching d.ring).pair.role != Role.shadow) = true then _
          else actNow info eff (d.cmd info.op) (s.fetching d.ring)) = _
    rw [hchk]
    simp only [href, Bool.false_eq_true, if_false]
    rw [if_neg]
    simp [hp]
  rw [e8]
  unfold actNow
  simp only [ha, hb, e3, e6, Bool.or_false, Bool.false_eq_true, if_false, takeEffect, e4, Bool.false_and, e7, inStates, e5, if_true]
  rfl

/-- What a command row does in a unit that journals: the descriptor is consumed and the command waits for JACK (R292). -/
theorem hostCommand_journalled {info : CmdInfo} {eff : Cmd → Mach → Mach × Eff} {d : Desc} {s : State} (h : Journalled info d s) :
    s.run (hostCommand info eff d) = s.journalled info d := by
  obtain ⟨hf, hj, href, hchk⟩ := h
  have e1 : fetchable (d.cmd info.op).ring s.start = true := hf
  have e2 : ((s.fetching d.ring).pair.exchanging && (s.fetching d.ring).pair.server && (s.fetching d.ring).pair.role != Role.shadow) = true := hj
  unfold State.run State.journalled hostCommand takeDesc
  change ({ s with m := settle (if (!fetchable (d.cmd info.op).ring s.start) = true then s.start else
    match checkCmd info d.resv (d.cmd info.op) (s.fetching d.ring) with
      | some (a, v) => rejectCmd (d.cmd info.op) a v (s.fetching d.ring)
      | none => if romRefuses (d.cmd info.op) (s.fetching d.ring) = true then rejectCmd (d.cmd info.op) stSTATE 0 (s.fetching d.ring)
          else if ((s.fetching d.ring).pair.exchanging && (s.fetching d.ring).pair.server && (s.fetching d.ring).pair.role != Role.shadow) = true then _
          else _) } : State) = _
  simp only [e1, hchk, href, e2, Bool.not_true, Bool.false_eq_true, if_false, if_true]
  rfl

/-- What accepting a command leaves of the reach of the host (R239, R242). -/
@[simp] theorem State.accepts_service (s : State) (i : CmdInfo) (d : Desc) : (s.accepts i d).service = s.m.service := by
  have h : (acceptNow (d.cmd i.op) (s.fetching d.ring)).service = (acceptCmd (d.cmd i.op) (s.fetching d.ring).tb.k (consume d.ring (s.fetching d.ring))).service := rfl
  exact h.trans ((acceptCmd_service _ _ _).trans rfl)

/-- A unit that takes a command of its own posts its completions itself (R291). -/
theorem mirrored_taken {info : CmdInfo} {d : Desc} {s : State} (h : Taken info d s) : mirrored (s.held info d) (s.accepts info d) = false := by
  have hx := h.2.1
  have h2 : s.m.pair.inTwin = false := by
    simp only [PairSt.exchanging, Bool.or_eq_false_iff] at hx
    exact hx.1
  simp [mirrored, hx, h2]

/-- A unit that takes a command serves its rings (R250). -/
theorem service_taken {info : CmdInfo} {d : Desc} {s : State} (h : Taken info d s) : s.m.service = true := by
  have hf := h.1
  simp only [fetchable, Bool.and_eq_true] at hf
  exact hf.1.1.2

/-- The host buffer of a command that takes effect at once is written at once (R249). -/
theorem writeBufAt_taken {info : CmdInfo} {d : Desc} {s : State} (h : Taken info d s) (n : Nat) (bs : List Byte) :
    writeBufAt (s.held info d) n bs (s.accepts info d) = (s.accepts info d).hostWrite ((s.held info d).addr + n) (bs.take ((s.held info d).len - n)) := by
  simp [writeBufAt, mirrored_taken h, service_taken h]

end Sys2Proof.Machine
end

