-- ==== Sys2Proof/Laws/Loop.lean ====
section
/-! SUPPORT. Laws/Loop.lean: what holding outputs and abandoning a period leave of the device state (R58, R60, R64). -/
set_option Elab.async false
namespace Sys2Proof.Machine
open Sys2Proof

theorem holdPorts_dev (l : List Port) : ∀ m : Mach, (l.foldl (fun m o =>
      let e := m.g o.index
      if qBit e.quality qFORCED then m else m.gput o.index { e with quality := qPut e.quality qHELD true }) m).dev = m.dev := by
  induction l with
  | nil => intro m; rfl
  | cons o l ih => intro m; rw [List.foldl_cons, ih]; dsimp only; split <;> simp

theorem holdBlocks_dev (sel : Nat → Bool) (l : List (Block × Nat)) : ∀ m : Mach, (l.foldl (fun m p => if sel p.2 then p.1.outs.foldl (fun m o =>
      let e := m.g o.index
      if qBit e.quality qFORCED then m else m.gput o.index { e with quality := qPut e.quality qHELD true }) m else m) m).dev = m.dev := by
  induction l with
  | nil => intro m; rfl
  | cons p l ih => intro m; rw [List.foldl_cons, ih]; split <;> first | exact holdPorts_dev _ _ | rfl

@[simp] theorem holdOutputs_dev (sel : Nat → Bool) (m : Mach) : (holdOutputs sel m).dev = m.dev := by
  unfold holdOutputs; split
  · rfl
  · exact holdBlocks_dev sel _ m

@[simp] theorem vcoreCeiling_dev (x : Int) (m : Mach) : (vcoreCeiling x m).dev = m.dev := by
  unfold vcoreCeiling; split
  · rfl
  · dsimp only; split <;> simp

@[simp] theorem recordSlack_dev (x : Int) (m : Mach) : (recordSlack x m).dev = m.dev := by simp [recordSlack]

/-- A first overrun leaves the device state (R58). -/
theorem abandon_stays (m : Mach) (h : m.loop.overrunLast = false) : (abandon true m).dev = m.dev := by simp [abandon, h]

/-- A second one in a row enters SAFE (R60). -/
theorem abandon_safe (m : Mach) (h : m.loop.overrunLast = true) (hs : m.inState [.ready, .run] = true) : (abandon true m).inState [.safe] = true := by
  have e : ∀ c n (x : Mach), x.inState [.ready, .run] = true → (enterSafe c n x).inState [.safe] = true := by
    intro c n x hx
    unfold enterSafe; rw [if_pos hx]; rfl
  unfold abandon
  simp only [h, ↓reduceIte]
  apply e
  simpa [Mach.inState] using hs

end Sys2Proof.Machine
end

