-- ==== Sys2Proof/Laws/Memory.lean ====
section
/-! SUPPORT. Laws/Memory.lean: sparse tables and host memory: a write gives its value back, leaves every other key alone, and keeps the canonical form. -/
set_option Elab.async false
namespace Sys2Proof.Machine

/-- Every key of a table in canonical form from a bound is above the bound. -/
theorem swfFrom_mono {α : Type} [DecidableEq α] (d : Nat → α) {b k : Nat} (h : b < k) :
    ∀ {l : List (Nat × α)}, swfFrom d (some k) l = true → swfFrom d (some b) l = true
  | [], _ => rfl
  | (j, a) :: t, w => by
    simp only [swfFrom, Bool.and_eq_true, decide_eq_true_eq] at w ⊢
    exact ⟨⟨Nat.lt_trans h w.1.1, w.1.2⟩, w.2⟩

theorem swfFrom_none {α : Type} [DecidableEq α] (d : Nat → α) {k : Nat} :
    ∀ {l : List (Nat × α)}, swfFrom d (some k) l = true → swfFrom d none l = true
  | [], _ => rfl
  | (j, a) :: t, w => by
    simp only [swfFrom, Bool.and_eq_true, decide_eq_true_eq] at w ⊢
    exact ⟨⟨trivial, w.1.2⟩, w.2⟩

/-- A key at or below the bound of a table in canonical form is not listed. -/
theorem sget_below {α : Type} [DecidableEq α] (d : Nat → α) {b k : Nat} (h : k ≤ b) :
    ∀ {l : List (Nat × α)}, swfFrom d (some b) l = true → sget d l k = d k
  | [], _ => rfl
  | (j, a) :: t, w => by
    simp only [swfFrom, Bool.and_eq_true, decide_eq_true_eq] at w
    have h1 : k < j := Nat.lt_of_le_of_lt h w.1.1
    simp [sget, Nat.ne_of_lt h1, h1]

theorem sput_swfFrom {α : Type} [DecidableEq α] (d : Nat → α) (k : Nat) (a : α) :
    ∀ {lo : Option Nat} {l : List (Nat × α)}, (∀ b, lo = some b → b < k) → swfFrom d lo l = true → swfFrom d lo (sput d k a l) = true
  | lo, [], hb, _ => by
    unfold sput
    split
    · rfl
    · cases lo with
      | none => simpa [swfFrom]
      | some b => simpa [swfFrom] using ⟨hb b rfl, by assumption⟩
  | lo, (j, c) :: t, hb, w => by
    have w' := w
    simp only [swfFrom, Bool.and_eq_true, decide_eq_true_eq] at w
    unfold sput
    split
    · rename_i hk
      split
      · exact w'
      · simp only [swfFrom, Bool.and_eq_true, decide_eq_true_eq]
        refine ⟨⟨?_, by assumption⟩, ⟨hk, w.1.2⟩, w.2⟩
        cases lo with
        | none => trivial
        | some b => simpa using hb b rfl
    · split
      · rename_i hk
        subst hk
        split
        · cases lo with
          | none => exact swfFrom_none d w.2
          | some b => exact swfFrom_mono d (hb b rfl) w.2
        · simp only [swfFrom, Bool.and_eq_true, decide_eq_true_eq]
          exact ⟨⟨w.1.1, by assumption⟩, w.2⟩
      · rename_i h1 h2
        simp only [swfFrom, Bool.and_eq_true, decide_eq_true_eq]
        exact ⟨w.1, sput_swfFrom d k a (by rintro b ⟨⟩; omega) w.2⟩

/-- A write keeps the canonical form. -/
theorem sput_swf {α : Type} [DecidableEq α] (d : Nat → α) (k : Nat) (a : α) {l : List (Nat × α)} (w : swf d l = true) : swf d (sput d k a l) = true :=
  sput_swfFrom d k a (by rintro b ⟨⟩) w

theorem sget_sput_from {α : Type} [DecidableEq α] (d : Nat → α) (k : Nat) (a : α) (i : Nat) :
    ∀ {lo : Option Nat} {l : List (Nat × α)}, swfFrom d lo l = true → sget d (sput d k a l) i = if i = k then a else sget d l i
  | lo, [], _ => by
    unfold sput
    split <;> by_cases hi : i = k <;> simp_all [sget]
  | lo, (j, c) :: t, w => by
    simp only [swfFrom, Bool.and_eq_true, decide_eq_true_eq] at w
    unfold sput
    split
    · rename_i hk
      split
      · by_cases hi : i = k
        · subst hi; simp [sget, Nat.ne_of_lt hk, *]
        · simp [hi]
      · by_cases hi : i = k
        · simp [hi, sget]
        · by_cases h1 : i < k
          · have : i < j := Nat.lt_trans h1 hk
            simp [sget, hi, h1, this, Nat.ne_of_lt this]
          · simp [sget, hi, h1]
    · split
      · rename_i hk
        subst hk
        split
        · by_cases hi : i = k
          · subst hi; simp [*, sget_below d (Nat.le_refl i) w.2]
          · by_cases h1 : i < k
            · simp [sget, hi, h1, sget_below d (Nat.le_of_lt h1) w.2]
            · simp [sget, hi, h1]
        · by_cases hi : i = k <;> simp [sget, hi]
      · rename_i h1 h2
        simp only [sget]
        by_cases hi : i = k
        · subst hi
          simp [h2, h1, sget_sput_from d i a i w.2]
        · rw [sget_sput_from d k a i w.2]
          simp [hi]

/-- Reading after a write: the value written at its key, every other key as before. -/
theorem sget_sput {α : Type} [DecidableEq α] (d : Nat → α) (k : Nat) (a : α) (i : Nat) {l : List (Nat × α)} (w : swf d l = true) :
    sget d (sput d k a l) i = if i = k then a else sget d l i := sget_sput_from d k a i w

/-! ### Host memory -/

theorem Memory.put_wf (a : Nat) (b : Byte) {l : List Host.Cell} (w : Memory.wf l = true) : Memory.wf (Memory.put l a b) = true := sput_swf _ a b w

theorem Memory.get_put (a : Nat) (b : Byte) (i : Nat) {l : List Host.Cell} (w : Memory.wf l = true) :
    Memory.get (Memory.put l a b) i = if i = a then b else Memory.get l i := sget_sput _ a b i w

theorem Memory.write_wf : ∀ (bs : List Byte) (a : Nat) {l : List Host.Cell}, Memory.wf l = true → Memory.wf (Memory.write l a bs) = true
  | [], _, _, w => w
  | b :: bs, a, _, w => Memory.write_wf bs (a + 1) (Memory.put_wf a b w)

theorem hostStores_wf : ∀ (cells : List Host.Cell) {l : List Host.Cell}, Memory.wf l = true → Memory.wf (hostStores l cells) = true
  | [], _, w => w
  | c :: cs, _, w => hostStores_wf cs (Memory.put_wf c.1 c.2 w)

theorem Mach.hostWrite_wf (m : Mach) (a : Nat) (bs : List Byte) (w : Memory.wf m.hostMem = true) : Memory.wf (m.hostWrite a bs).hostMem = true :=
  Memory.write_wf bs a w

/-- The host memory of the state after reset lists nothing. -/
theorem reset_hostMem_wf : Memory.wf State.reset.m.hostMem = true := rfl

end Sys2Proof.Machine
end

