-- ==== Sys2Proof/Tests/Slice0.lean ====
section
/-! SUPPORT. Tests/Slice0.lean: small states, the tests of the model against the text of the spec, and a witness for the hypotheses of every statement. -/
set_option Elab.async false
namespace Sys2Proof.Tests
open Sys2Proof Sys2Proof.Machine
set_option linter.unusedVariables false

/-- The device after reset in READY, with device time 5 s after the epoch and boundary 7. -/
def tM : Mach := { machInit with dev := { machInit.dev with state := .ready }, host := { machInit.host with reach := true, linkUp := true, busMaster := true, enabled := true, rings := setAt machInit.host.rings 0 { ringInit with cmdE := 16, cmdPi := 1, cplE := 16, cplAddr := 0x1000, resAddr := 0x2000 } }, pair := { machInit.pair with server := true }, tb := { machInit.tb with k := 7, timeA := 5000000000, timeB := 5000000000, timeC := 5000000000, timeValid := true } }
/-- A small state: that device changed by `f`, with no command waiting. -/
def tS (f : Mach → Mach) : State := ⟨f tM, []⟩
/-- A first descriptor of ring 0 with an inline payload. -/
def tD (pay : List Byte) : Desc := ⟨0, 1, 0, 32, 0, 0, 0, pay ++ List.replicate (32 - pay.length) 0#8, []⟩
/-- One with a host buffer at 0x100000. -/
def tB (buf : List Byte) : Desc := ⟨0, 1, 1, 16, 0, 0, 0, leBytes 8 0x100000 ++ leBytes 4 buf.length ++ List.replicate 20 0#8, buf⟩
/-- A record of three arms of four submodules, its first hub entry covering the first arm. -/
def tCdr : Cdr :=
  { topology := 2, armCount := 3, hubCount := 1, flags := 0, sBase := 1000, vBaseAc := 100, vBaseDc := 100, fBase := 50000, lArm := 1000, rArm := 0
    configId := 3, ageFast := 1, ageSlow := 8, arms := List.replicate 3 ⟨4, 2, 4, 100, 1000, 0⟩, hubs := [⟨0xAB, 1, 0xFF, [⟨4, 0, 0⟩]⟩] }
/-- A graph of one LIMIT block from entry 0xE0000 to 0xE0001. -/
def tGraph : Graph :=
  { digest := [], graphId := 9, configId := 3, replaceEn := false, blocks := [⟨0x0401, 0, 2, 0xFF, 1, 0, [⟨0xE0000, false, false⟩], [⟨0xE0001, false, false⟩]⟩]
    params := [0#32, 5#32], decls := [⟨0xE0000, 1, 1, false, 0#32⟩, ⟨0xE0001, 1, 1, false, 0#32⟩], order := [0], places := [⟨0, 16, 17⟩], homes := []
    steps := 20, lanesAt := 64, startAt := 1, lastNs := 0, minSlack := 100, overruns := 0, replacements := 0 }
/-- The small state with the record active and the graph committed. -/
def tR (m : Mach) : Mach := { m with conv := { m.conv with active := some tCdr }, loop := { m.loop with graph := some tGraph, states := [[]], sticky := [0#32] } }
def tA (f : Mach → Mach) : State := tS fun m => f (tR m)
/-- The same graph as a descriptor, by R40 to R43. -/
def tGraphBytes : List Byte :=
  leBytes 2 1 ++ leBytes 2 64 ++ leBytes 4 144 ++ leBytes 4 9 ++ leBytes 4 3 ++ leBytes 2 1 ++ leBytes 2 0 ++ leBytes 4 64 ++ leBytes 4 40 ++ leBytes 4 104
    ++ leBytes 4 2 ++ leBytes 4 112 ++ leBytes 4 2 ++ List.replicate 20 0#8
    ++ (leBytes 2 0x0401 ++ leBytes 2 40 ++ leBytes 2 0 ++ leBytes 1 1 ++ leBytes 1 1 ++ leBytes 4 0 ++ leBytes 2 2 ++ leBytes 1 0xFF ++ leBytes 1 1
      ++ List.replicate 16 0#8 ++ leBytes 4 0xE0000 ++ leBytes 4 0xE0001)
    ++ (leBytes 4 0 ++ leBytes 4 5)
    ++ (leBytes 4 0xE0000 ++ [1#8, 1#8, 0#8, 0#8] ++ leBytes 8 0) ++ (leBytes 4 0xE0001 ++ [1#8, 1#8, 0#8, 0#8] ++ leBytes 8 0)
/-- The graph of that descriptor as it is placed. -/
def tPlaced : Graph × Bool := match checkGraph tGraphBytes tCdr (tM.net.far.map FarCh.cfg) (gooseEntries tM) tM.tb.p tM.lanesOk 8 with | .ok x => x | .error _ => (tGraph, false)
theorem tPlaced_ok : checkGraph tGraphBytes tCdr (tM.net.far.map FarCh.cfg) (gooseEntries tM) tM.tb.p tM.lanesOk 8 = .ok (tPlaced.1, tPlaced.2) := by
  have h : (checkGraph tGraphBytes tCdr (tM.net.far.map FarCh.cfg) (gooseEntries tM) tM.tb.p tM.lanesOk 8).isOk = true := by decide +kernel
  unfold tPlaced
  split <;> simp_all [Except.isOk, Except.toBool]
/-- Frames of the links with their CRC. -/
def tIdent (proto : Nat) : List Byte := withCrc ([0x83#8] ++ List.replicate 31 0#8 ++ leBytes 8 0xAB ++ leBytes 2 4 ++ leBytes 1 1 ++ leBytes 1 proto ++ leBytes 2 8 ++ List.replicate 18 0#8)
def tReport (k : Nat) : List Byte := withCrc ([0x81#8, 0#8] ++ leBytes 2 4 ++ leBytes 4 0 ++ leBytes 8 k ++ List.replicate 40 0#8)
def tPair (typ flags : Nat) (body : List Byte) : List Byte := withCrc (leBytes 1 typ ++ leBytes 1 flags ++ leBytes 2 (body.length / 4) ++ leBytes 4 0 ++ leBytes 8 7 ++ body)
/-- The small state with path P in service. -/
def tPath (f : Mach → Mach) : State := tA fun m => f (m.setPath 0 { pathInit with inService := true, lock := true })
def tPartner : Partner := ⟨2, 0, false, 3, 0, 0, 0, 0, 0⟩
/-- The placement of a graph on measured step times, and that it is one. -/
def tRun (times : List Nat) (m : Mach) (g : Graph) : Except Nat (List (Nat × Place)) :=
  runPlacement g.blocks (stepsOf g.blocks g.params fun r => tCdr.blockEnv r m.tb.p) ((g.blocks.zipIdx).map fun x => (x.2, predsOf (writersOf g.blocks) x.1)) g.order m.lanesOk
    (fun l => times.getD l 1) (remotePorts (homeOf tCdr g.homes))
def tNew (times : List Nat) (m : Mach) (g : Graph) : List (Nat × Place) := match tRun times m g with | .ok x => x | .error _ => []
theorem tNew_ok (times : List Nat) (m : Mach) (g : Graph) (h : (tRun times m g).isOk = true) : tRun times m g = .ok (tNew times m g) := by
  unfold tNew
  split <;> simp_all [Except.isOk, Except.toBool]

/-! ### Ill-formed operands are refused -/

theorem test_wf_accepts : ([.zlTrainTimeout 15, .laneFault 63, .agree 1 [], .ethBadFrame 1, .canBusRecovery 1, .pwmTrigger 11, .bootUv 5, .nop (tD []), .lockSet 0x3FC, .gooseTalExpiry 159] : List Instr).all Instr.wf = true := by decide
theorem test_wf_refuses_a_lane : ([.zlTrainTimeout 16, .blockLockAcquired (.lane 16), .laneFault 64, .sramEccError 0 0 false (some 64)] : List Instr).any Instr.wf = false := by decide
theorem test_wf_refuses_a_path : ([.agree 2 [], .trainFrameTx (.path 2), .pairPathCal 0 []] : List Instr).any Instr.wf = false := by decide
theorem test_wf_refuses_a_port : ([.ethBadFrame 2, .canBusRecovery 2, .canScheduleEntry 0 64 0 false] : List Instr).any Instr.wf = false := by decide
theorem test_wf_refuses_an_output : ([.pwmTrigger 12, .tripLatch 8 0, .bootUv 6] : List Instr).any Instr.wf = false := by decide
theorem test_wf_refuses_a_descriptor : ([{ tD [] with ring := 16 }, { tD [] with seq := 2 ^ 64 }, { tD [] with flags := 65536 }, { tD [] with plen := 65536 }, { tD [] with secs := 2 ^ 64 },
    { tD [] with nanos := 2 ^ 32 }, { tD [] with pay := [] }] : List Desc).any Desc.wf = false := by decide
theorem test_wf_refuses_an_offset : ([.lockSet 2, .lockSet 0x10000, .registerWrite 0x10000 15 0#32, .registerWrite 0 16 0#32, .votedFieldRead 0 [(0, 3, 0#32)], .periodBoundary ⟨true, [(2, 0, 0#32)], 0, 0, none⟩] : List Instr).any Instr.wf = false := by decide
theorem test_wf_refuses_a_measurement : ([.adcConversionDone 2 (.slot 0) 0 0 0 0, .adcContinuousTrigger 4 0, .svLostTimeout 64, .trgEdge 4 0 20, .trgOutEnd 4, .siphonRequest 32 0 none] : List Instr).any Instr.wf = false := by decide
theorem test_wf_refuses_a_stream : ([.gooseRetransmit ⟨32, 0⟩, .gooseTalExpiry 31, .gooseTalExpiry 160, .farLossTimeout 4] : List Instr).any Instr.wf = false := by decide
theorem test_wf_refuses_a_safety_item : ([.safetyCycle ⟨256, 0, none, 0, 0, true⟩, .safetyCycle ⟨0, 256, none, 0, 0, true⟩, .safetyCycle ⟨0, 0, some 4, 0, 0, true⟩, .safetyCycle ⟨0, 0, none, 16, 0, true⟩,
    .safetyCycle ⟨0, 0, none, 0, 16, true⟩, .testPulse 4 0 0, .testPulse 0 256 0, .testPulse 0 0 256, .safetyDiscrepancy 8, .soDarkTest 4 false true, .safetyTelWatchdog 4] : List Instr).any Instr.wf = false := by decide
theorem test_wf_refuses_a_word : ([.intake 256 0, .doorbellRead [2 ^ 32], .mdioFrameDone 65536, .luwinRead 256 0 0 false, .luwinRead 0 (2 ^ 32) 0 false, .luwinWrite 0 0 [] 65536 false, .pwrThermal 2 0] : List Instr).any Instr.wf = false := by decide

/-! ### Steps and functions against the text of the spec -/

/-- The device of an outcome that is a next state. -/
def tNext (o : Host.Outcome State Fault Refusal) : Mach := match o with | .next t => t.m | _ => machInit

/-- The queue is first in, first out. -/
theorem test_step_takes_the_front : (match step ⟨tM, [.attnPulseEnd, .pcieLinkChange true true]⟩ with | .next t => t.pending | _ => []) = [.pcieLinkChange true true] := by decide +kernel
/-- R262: NOP completes with bits [31:0] of k in RESULT, after ACCEPTED with FIRST (R252, R256). -/
theorem test_nop_returns_k : (tNext (exec (.nop (tD [])) (tS id))).out
    = [.completion ⟨0, 1, 0x0F01, 0, 1, 0, 7, 0, []⟩, .completion ⟨0, 1, 0x0F01, 1, 0, 0, 7, 7, []⟩] := by decide +kernel
/-- R418: an access that is not a whole aligned word is BAD_ACCESS with its offset. -/
theorem test_unaligned_write : (tNext (exec (.registerWrite 0x406 15 0#32) (tS id))).host.evNew.map Ev.args = [[0x406]] := by decide +kernel
/-- R422: a write that changes a reserved bit in READY. -/
theorem test_reserved_bit_faults : exec (.registerWrite 0x404 15 0xFFFFFFFF#32) (tS id) = .fault .reservedBitChanged := by
  simp only [exec, execRegisterWrite]; rw [if_pos (by decide +kernel)]
/-- R37: STATE_REQUEST RUN without a committed graph is refused. -/
theorem test_run_needs_a_graph : (tNext (exec (.stateRequest (tD [4#8])) (tS id))).dev.state = .ready := by decide +kernel
/-- R212, R430: three different time counters clear the validity of time, and in RUN enter SAFE with cause 9. -/
theorem test_time_counters_enter_safe :
    let r := tNext (exec (.timeCounterDisagree 1 2 3) (tS fun m => { m with dev := { m.dev with state := .run } }))
    r.tb.timeValid = false ∧ r.dev.state = .safe ∧ r.fld F.devSafeCauseCause = 9 ∧ (tNext (exec (.timeCounterDisagree 1 2 3) (tS id))).dev.state = .ready := by decide +kernel
/-- The example of R49 to R52: L of 563 steps takes 3,378 ns, B at 10 µs is 7,500 ns, and the smallest period is 5,878 ns. -/
theorem test_admission_example : twc 563 = 3378 ∧ graphBudget 10000 = 7500 ∧ twc 563 ≤ graphBudget 5878 ∧ ¬twc 563 ≤ graphBudget 5877 ∧ ¬twc 563 ≤ graphBudget 5000 := by decide
/-- R83: SWITCH with bit CTRL_BIT set takes X1. -/
theorem test_switch : ((genExec 0x0009 [3#32] [⟨8#32, 1#8, true, false⟩, ⟨5#32, 1#8, true, false⟩, ⟨6#32, 1#8, true, false⟩] [] 0 false).outs.map BOut.value) = [6#32] := by decide +kernel
/-- R101: HYST keeps its bit between OFF and ON, and sets it at ON. -/
theorem test_hyst : ((genExec 0x0507 [10#32, 4#32] [⟨7#32, 1#8, true, false⟩] [1] 0 false).outs.map BOut.value) = [1#32]
    ∧ ((genExec 0x0507 [10#32, 4#32] [⟨10#32, 1#8, true, false⟩] [0] 0 false).outs.map BOut.value) = [1#32] := by decide +kernel
/-- R441: a power-on reset leaves POR set. -/
theorem test_reset_cause : State.reset.m.flag F.pwrResetCausePor = true ∧ State.reset.m.dev.state = .boot := by decide +kernel
/-- No word spells a command: no row of the table gives bits. -/
theorem test_no_word_spells_a_command : decodeTableWord 8 5 = none ∧ State.reset.withFetchWord 8 5 = State.reset := ⟨rfl, rfl⟩

/-! ### Witnesses: states and operands that meet the hypotheses of each statement, clause by clause -/

theorem witness_ExecLeavesTheQueue :
    ∃ (c : Instr) (s t : State), exec c s = .next t :=
  ⟨.attnPulseEnd, tS id, _, rfl⟩


theorem witness_OnlyReservedBitWritesStop :
    (∃ s : State, changesReserved 0x404 15 0xFFFFFFFF#32 s.m = true ∧ exec (.registerWrite 0x404 15 0xFFFFFFFF#32) s = .fault .reservedBitChanged)
    ∧ (∃ s : State, changesReserved 0x440C 15 0xFFFFFFFF#32 s.m = true) ∧ ∃ s : State, s.m.alive = true ∧ lwReserved 0x80 0x4408 [0x640002#32] (lwCrc 0x80 0x4408 [0x640002#32]) false s.m = true :=
  ⟨⟨tS id, by decide +kernel, by simp only [exec, execRegisterWrite]; rw [if_pos (by decide +kernel)]⟩, ⟨tS id, by decide +kernel⟩, ⟨tA (fun m => { m with dbg := { m.dbg with level := 2 } }), by decide +kernel⟩⟩


theorem witness_RunsWithoutWordWritesNeverStop :
    ∃ s : State, s.pending ≠ [] ∧ ∀ c ∈ s.pending, c.writesWord = false :=
  ⟨⟨tM, [.attnPulseEnd, .serverChange []]⟩, by decide +kernel⟩


theorem witness_EveryStepKeepsTheBallsOk :
    ∃ s t : State, s.m.BallsOk ∧ step s = .next t :=
  by
  refine ⟨⟨tM, [.attnPulseEnd]⟩, _, ⟨?_, ?_, ?_, ?_, ?_, ?_⟩, rfl⟩
  · intro n; simp [tM, machInit, pinsInit, bitOf]
  · intro _; decide +kernel
  · intro n _; simp [tM, machInit, pinsInit, bitOf]
  · decide +kernel
  · decide +kernel
  · decide +kernel


theorem witness_DeviceWithoutSupplyIgnoresCommands :
    ∃ (c : Instr) (s : State), (s.m.dev.state = .off ∨ s.m.dev.state = .dormant) ∧ c.actsUnsupplied = false :=
  ⟨.nop (tD []), tS fun m => { m with dev := { m.dev with state := .off } }, by decide +kernel⟩


theorem witness_PostingStaysInItsRing :
    ∃ (c : Cmd) (m : Mach) (x : Nat), Memory.wf m.hostMem = true ∧ (∀ x ∈ (m.ring c.ring).held, x.ring = c.ring)
    ∧ ∀ i, i < (m.ring c.ring).cplE → (x < (m.ring c.ring).cplAddr + 32 * i ∨ (m.ring c.ring).cplAddr + 32 * i + 32 ≤ x)
        ∧ (x < (m.ring c.ring).resAddr + 64 * i ∨ (m.ring c.ring).resAddr + 64 * i + 64 ≤ x) ∧ ∀ w ∈ m.host.bufHeld, x < w.addr ∨ w.addr + w.bytes.length ≤ x :=
  ⟨(tD []).cmd 0x0F01, (fun m => m.setRing 0 { ringInit with cmdE := 16, cplE := 16, cplAddr := 0x1000, resAddr := 0x2000 }) tM, 0x1200, by decide +kernel⟩


theorem witness_PostingLeavesTheDeviceAlone :
    ∃ (info : CmdInfo) (d : Desc) (upd : Mach → Mach) (s : State), (upd (s.accepts info d)).pair.exchanging = false ∧ s.m.pair.exchanging = false :=
  ⟨infoNop, tD [], id, tS id, by decide +kernel⟩


theorem witness_WrongSeqIsConsumedAndRejected :
    (∃ (d : Desc) (s : State), fetchable d.ring s.start = true ∧ d.ring < s.m.host.rings.length ∧ d.seq ≠ (s.m.ring d.ring).nextSeq)
    ∧ ∃ (c : Cmd) (m : Mach), c.ring < m.host.rings.length ∧ c.seq = (m.ring c.ring).nextSeq :=
  ⟨⟨{ tD [] with seq := 2 }, tS id, by decide +kernel⟩, ⟨(tD []).cmd 0x0F01, tM, by decide +kernel⟩⟩


theorem witness_FirstFailingCheckRejects :
    (∃ (d : Desc) (s : State), fetchable d.ring s.start = false)
    ∧ (∃ (d : Desc) (s : State), fetchable d.ring s.start = true ∧ checkCmd infoNop d.resv (d.cmd infoNop.op) (s.fetching d.ring) = some (stMALFORMED, 0))
    ∧ (∃ (d : Desc) (s : State), fetchable d.ring s.start = true ∧ checkCmd infoNop d.resv (d.cmd infoNop.op) (s.fetching d.ring) = none ∧ romRefuses (d.cmd infoNop.op) (s.fetching d.ring) = true)
    ∧ ∃ (d : Desc) (s : State), fetchable d.ring s.start = true ∧ romRefuses (d.cmd infoNop.op) (s.fetching d.ring) = false ∧ checkCmd infoNop d.resv (d.cmd infoNop.op) (s.fetching d.ring) = none
        ∧ s.m.pair.exchanging = false ∧ ownOf (d.cmd infoNop.op) s.m.tb.k (s.fetching d.ring) = some s.m.tb.k ∧ (∀ p ∈ s.m.host.accepted, p.cmd.ring = d.ring → p.cmd.seq ≠ d.seq ∧ (infoNop.op = 0x0F03 ∨ d.seq < p.cmd.seq))
        ∧ haltWaits (d.cmd infoNop.op) s.start = false ∧ s.m.inState infoCdrLoad.states = false :=
  ⟨⟨{ tD [] with ring := 3 }, tS id, by decide +kernel⟩, ⟨tD [1#8], tS id, by decide +kernel⟩, ⟨tD [], tS fun m => { m with dev := { m.dev with state := .boot }, sec := { m.sec with romRing := true } }, by decide +kernel⟩, ⟨tD [], tS fun m => { m with dev := { m.dev with state := .run } }, by decide +kernel⟩⟩


theorem witness_CommandsOfARingWaitTheirTurn :
    (∃ (d : Desc) (s : State), fetchable d.ring s.start = true ∧ romRefuses (d.cmd infoNop.op) (s.fetching d.ring) = false ∧ checkCmd infoNop d.resv (d.cmd infoNop.op) (s.fetching d.ring) = none ∧ s.m.pair.exchanging = false ∧ (∀ p ∈ s.m.host.accepted, p.cmd.ring = d.ring → p.cmd.seq ≠ d.seq)
        ∧ infoNop.op ≠ 0x0F03 ∧ ∃ p ∈ s.m.host.accepted, p.cmd.ring = d.ring ∧ p.cmd.seq < d.seq ∧ actedNow p s.start = false)
    ∧ (∃ (d : Desc) (s : State), fetchable d.ring s.start = true ∧ romRefuses (d.cmd infoNop.op) (s.fetching d.ring) = false ∧ checkCmd infoNop d.resv (d.cmd infoNop.op) (s.fetching d.ring) = none ∧ s.m.pair.exchanging = false ∧ (∀ p ∈ s.m.host.accepted, p.cmd.ring = d.ring → p.cmd.seq ≠ d.seq)
        ∧ ownOf (d.cmd infoNop.op) s.m.tb.k (s.fetching d.ring) = none)
    ∧ (∃ (d : Desc) (s : State), fetchable d.ring s.start = true ∧ romRefuses (d.cmd infoModeRequest.op) (s.fetching d.ring) = false ∧ checkCmd infoModeRequest d.resv (d.cmd infoModeRequest.op) (s.fetching d.ring) = none ∧ s.m.pair.exchanging = false ∧ (∀ p ∈ s.m.host.accepted, p.cmd.ring = d.ring → p.cmd.seq ≠ d.seq)
        ∧ haltWaits (d.cmd infoModeRequest.op) s.start = true)
    ∧ ∃ (d : Desc) (s : State), Journalled infoNop d s :=
  ⟨⟨{ tD [] with seq := 2 }, tS (fun m => { (m.setRing 0 { m.ring 0 with nextSeq := 2 }) with host := { (m.setRing 0 { m.ring 0 with nextSeq := 2 }).host with accepted := [⟨(tD []).cmd 0x0F02, false⟩] } }), by decide +kernel⟩, ⟨{ tD [] with secs := 6 }, tS id, by decide +kernel⟩, ⟨tD [1#8], tA fun m => { m with dbg := { m.dbg with engine := .halted } }, by decide +kernel⟩, ⟨tD [], tS fun m => { m with pair := { m.pair with role := .senior, partner := some ⟨2, 0, false, 3, 0, 0, 0, 0, 0⟩ } }, by decide +kernel⟩⟩


theorem witness_LateCommandsExpireUnlessTheyMayBeLate :
    (∃ (d : Desc) (s : State) (b : Nat), fetchable d.ring s.start = true ∧ romRefuses (d.cmd infoNop.op) (s.fetching d.ring) = false ∧ checkCmd infoNop d.resv (d.cmd infoNop.op) (s.fetching d.ring) = none ∧ s.m.pair.exchanging = false ∧ (d.cmd infoNop.op).timed = true
        ∧ s.m.tb.mapped (d.cmd infoNop.op).launchNs = some b ∧ b < s.m.tb.k ∧ (∀ p ∈ s.m.host.accepted, p.cmd.ring = d.ring → p.cmd.seq ≠ d.seq ∧ (infoNop.op = 0x0F03 ∨ d.seq < p.cmd.seq))
        ∧ haltWaits (d.cmd infoNop.op) s.start = false ∧ bitOf d.flags 1 = false)
    ∧ (∃ (d : Desc) (s : State) (b : Nat), fetchable d.ring s.start = true ∧ romRefuses (d.cmd infoNop.op) (s.fetching d.ring) = false ∧ checkCmd infoNop d.resv (d.cmd infoNop.op) (s.fetching d.ring) = none ∧ s.m.pair.exchanging = false ∧ (d.cmd infoNop.op).timed = true
        ∧ s.m.tb.mapped (d.cmd infoNop.op).launchNs = some b ∧ b < s.m.tb.k ∧ (∀ p ∈ s.m.host.accepted, p.cmd.ring = d.ring → p.cmd.seq ≠ d.seq ∧ (infoNop.op = 0x0F03 ∨ d.seq < p.cmd.seq))
        ∧ haltWaits (d.cmd infoNop.op) s.start = false ∧ bitOf d.flags 1 = true ∧ s.m.inState infoNop.states = true) :=
  ⟨⟨{ tD [] with secs := 1, flags := 0 }, tS fun m => { m with tb := { m.tb with hist := [(6, 4999990000)] } }, 6, by decide +kernel⟩, ⟨{ tD [] with secs := 1, flags := 2 }, tS fun m => { m with tb := { m.tb with hist := [(6, 4999990000)] } }, 6, by decide +kernel⟩⟩


theorem witness_ReservedOffsetsReadZeroAndIgnoreWrites :
    ∃ (off : Nat) (s : State), off % 4 = 0 ∧ fieldsAt (decodeOff s.m off) = [] :=
  ⟨0x3F8, tS id, by decide +kernel⟩


theorem witness_VotedFieldsHoldTheMajority :
    (∃ (m : Mach) (r : FieldRow), let g := fun t => sget (fun _ => r.reset) t r.ref.key; g m.reg.a = g m.reg.b ∧ g m.reg.b = g m.reg.c)
    ∧ (∃ (m : Mach) (r : FieldRow), let g := fun t => sget (fun _ => r.reset) t r.ref.key; ¬(g m.reg.a = g m.reg.b ∧ g m.reg.b = g m.reg.c) ∧ g m.reg.a = 40000 ∧ g m.reg.c = 40000)
    ∧ ∃ (m : Mach) (r : FieldRow), let g := fun t => sget (fun _ => r.reset) t r.ref.key; g m.reg.a ≠ g m.reg.b ∧ g m.reg.a ≠ g m.reg.c ∧ g m.reg.b ≠ g m.reg.c :=
  ⟨⟨tM, ⟨0x3C0C, 0, 0, 0, 17, .rw, true, 34000⟩, by decide +kernel⟩, ⟨{ tM with reg := ⟨[(8 * 0x3C0C, 40000)], [(8 * 0x3C0C, 33000)], [(8 * 0x3C0C, 40000)]⟩ }, ⟨0x3C0C, 0, 0, 0, 17, .rw, true, 34000⟩, by decide +kernel⟩, ⟨{ tM with reg := ⟨[(8 * 0x3C0C, 40000)], [(8 * 0x3C0C, 33000)], [(8 * 0x3C0C, 32000)]⟩ }, ⟨0x3C0C, 0, 0, 0, 17, .rw, true, 34000⟩, by decide +kernel⟩⟩


theorem witness_EntryIntoSafeIsLatchedAndTold :
    (∃ m : Mach, m.dev.state = .ready ∨ m.dev.state = .run) ∧ ∃ m : Mach, m.dev.state ≠ .ready ∧ m.dev.state ≠ .run :=
  ⟨⟨tM, Or.inl rfl⟩, ⟨machInit, by decide +kernel⟩⟩


theorem witness_GalleryHoldsResetContentUntilWritten :
    (∃ i, galReserved i = false) ∧ (∃ t : List (Nat × GEntry), t ≠ [] ∧ swf (fun _ => gReset) t = true) ∧ (∃ i, galReserved i = true)
    ∧ ∃ (t : List (Nat × GEntry)) (i : Nat), swf (fun _ => gReset) t = true ∧ qBit (galGet t i).quality qFORCED = true :=
  ⟨⟨0xE0000, by decide +kernel⟩, ⟨[(5, ⟨1#32, 0#16, 1#8, 1#8, false⟩)], by decide +kernel⟩, ⟨0xDFFFF, by decide +kernel⟩, ⟨[(0xE0000, ⟨1#32, 0#16, 0x41#8, 1#8, false⟩)], 0xE0000, by decide +kernel⟩⟩


theorem witness_LanternBitChoosesTheOutputs :
    (∃ m : Mach, bitOf (m.fld F.lanCtrlLanEn) 5 = true ∧ pwmEnabled m 5 = true ∧ driving m = true ∧ bitOf (tripMask m true) 5 = false ∧ (m.pwm.lan.getD 5 lanternInit).refresh = .none)
    ∧ (∃ m : Mach, bitOf (m.fld F.lanCtrlLanEn) 5 = true ∧ pwmEnabled m 5 = true ∧ driving m = true ∧ bitOf (tripMask m true) 5 = false ∧ (m.pwm.lan.getD 5 lanternInit).refresh = .none ∧ (m.pwm.lan.getD 5 lanternInit).uvHold = false)
    ∧ (∃ m : Mach, bitOf (m.fld F.lanCtrlLanEn) 5 = true ∧ pwmEnabled m 5 = true ∧ driving m = true ∧ bitOf (tripMask m true) 5 = false ∧ (m.pwm.lan.getD 5 lanternInit).refresh ≠ .none)
    ∧ ∃ m : Mach, bitOf (m.fld F.lanCtrlLanEn) 5 = false :=
  ⟨⟨{ ((tM.setF F.pwmCtrlChEn 32).setF F.lanCtrlLanEn 32) with dev := { tM.dev with state := .run }, pair := { tM.pair with outputsOn := true } }, by decide +kernel⟩, ⟨{ ((tM.setF F.pwmCtrlChEn 32).setF F.lanCtrlLanEn 32) with dev := { tM.dev with state := .run }, pair := { tM.pair with outputsOn := true }, pwm := { tM.pwm with lan := List.replicate 6 { lanternInit with uvHold := false } } }, by decide +kernel⟩, ⟨{ ((tM.setF F.pwmCtrlChEn 32).setF F.lanCtrlLanEn 32) with dev := { tM.dev with state := .run }, pair := { tM.pair with outputsOn := true }, pwm := { tM.pwm with lan := List.replicate 6 { lanternInit with refresh := .pulse } } }, by decide +kernel⟩, ⟨tM, by decide +kernel⟩⟩


theorem witness_LaneMapRecordsAreRightBytes :
    ∃ (ls : List Lane) (l : Nat), ls.length = 16 ∧ l < 16 ∧ ∀ h ∈ ls.filterMap Lane.entry, h < 256 :=
  ⟨List.replicate 16 { laneInit with entry := some 255 }, 15, by decide +kernel⟩


theorem witness_LogicBlocksWorkBitByBit :
    ∃ i, i < 32 ∧ 31 ≤ i :=
  ⟨31, by decide⟩


theorem witness_ServoStaysWithinItsClamps :
    ∃ (theta : Int) (m : Mach) (i : Int), i = m.tb.i - gainTerm (m.fld F.tbServoKi) theta m.tb.ts ∧ -(200000 * 65536) ≤ i ∧ i ≤ 200000 * 65536 :=
  ⟨65536, { tM with tb := { tM.tb with ts := 125000000 } }, _, rfl, by decide +kernel⟩


theorem witness_RecordAndHubCommandsComplete :
    (∃ (d : Desc) (s : State), (Taken infoCdrLoad d s))
    ∧ (∃ (d : Desc) (s : State) (b : List Byte), (Taken infoCdrCommit d s) ∧ (s.m.conv.staged = some b) ∧ (s.m.loop.graph = none) ∧ (cdrCheck b s.m.tb.p = none))
    ∧ (∃ (d : Desc) (s : State) (cd : Cdr), (Taken infoCdrRead d s) ∧ let c := s.held infoCdrRead d; (s.m.conv.active = some cd))
    ∧ (∃ (d : Desc) (s : State), (Taken infoCdrRead d s) ∧ (s.m.conv.active = none))
    ∧ (∃ (d : Desc) (s : State) (cd : Cdr), (Taken infoHubAdd d s) ∧ let c := s.held infoHubAdd d; (s.m.conv.active = some cd) ∧ ((cd.hub (c.f 0xA 1)).used = false) ∧ ((cd.hubs.any fun y => y.uid == (parseHub c.pay).uid) = false) ∧ ((parseHub c.pay).segs.all (segFits cd.arms) = true) ∧ (pairFree segOverlap ((parseHub c.pay).segs ++ (cd.hubs.filter HubRec.used).flatMap HubRec.segs) = true))
    ∧ (∃ (d : Desc) (s : State) (cd : Cdr), (Taken infoHubForget d s) ∧ let c := s.held infoHubForget d; (s.m.conv.active = some cd) ∧ ((cd.hub (c.f 0 1)).used = true) ∧ (s.m.laneOf (c.f 0 1) = none))
    ∧ (∃ (d : Desc) (s : State) (cd : Cdr), (Taken infoHubForget d s) ∧ let c := s.held infoHubForget d; (s.m.conv.active = some cd) ∧ ((cd.hub (c.f 0 1)).used = false))
    ∧ (∃ (d : Desc) (s : State), (Taken infoGalleryForce d s) ∧ let c := s.held infoGalleryForce d; (forceBarred (c.f 0 4) = false) ∧ (isForced (s.accepts infoGalleryForce d) (c.f 0 4) = true ∨ forcedCount (s.accepts infoGalleryForce d) < 64))
    ∧ (∃ (d : Desc) (s : State), (Taken infoGalleryRelease d s) ∧ let c := s.held infoGalleryRelease d; (isForced (s.accepts infoGalleryRelease d) (c.f 0 4) = true))
    ∧ (∃ (d : Desc) (s : State), (Taken infoGalleryRelease d s) ∧ let c := s.held infoGalleryRelease d; (isForced (s.accepts infoGalleryRelease d) (c.f 0 4) = false)) :=
  ⟨⟨tB (List.replicate 672 0#8), tS id, by decide +kernel⟩,
   ⟨tD [], tS fun m => { m with conv := { m.conv with staged := some (cdrBytes tCdr) } }, cdrBytes tCdr, by decide +kernel⟩,
   ⟨tB (List.replicate 672 0#8), tA id, tCdr, by decide +kernel⟩,
   ⟨tB (List.replicate 672 0#8), tS id, by decide +kernel⟩,
   ⟨tD (hubBytes 1 ⟨0xCD, 1, 0xFF, [⟨4, 0, 1⟩]⟩), tA id, tCdr, by decide +kernel⟩,
   ⟨tD [0#8], tA id, tCdr, by decide +kernel⟩,
   ⟨tD [5#8], tA id, tCdr, by decide +kernel⟩,
   ⟨tD (leBytes 4 0xE0000 ++ leBytes 4 5), tA id, by decide +kernel⟩,
   ⟨tD (leBytes 4 0xE0000), tA (forceEntry 0xE0000 5#32 false), by decide +kernel⟩,
   ⟨tD (leBytes 4 0xE0000), tA id, by decide +kernel⟩⟩

theorem witness_StateRequestMovesTheDevice :
    (∃ (d : Desc) (s : State), (Taken infoStateRequest d s) ∧ let c := s.held infoStateRequest d; (s.m.dev.state = .ready) ∧ (c.f 0 1 = 4) ∧ (runFail (s.accepts infoStateRequest d) = none))
    ∧ (∃ (d : Desc) (s : State) (n : Nat), (Taken infoStateRequest d s) ∧ let c := s.held infoStateRequest d; (s.m.dev.state = .ready) ∧ (c.f 0 1 = 4) ∧ (runFail (s.accepts infoStateRequest d) = some n))
    ∧ (∃ (d : Desc) (s : State), (Taken infoStateRequest d s) ∧ let c := s.held infoStateRequest d; (s.m.dev.state = .run) ∧ (c.f 0 1 = 3))
    ∧ (∃ (d : Desc) (s : State), (Taken infoStateRequest d s) ∧ let c := s.held infoStateRequest d; (s.m.dev.state = .safe) ∧ (c.f 0 1 = 3) ∧ (safetyLatch (s.accepts infoStateRequest d) = false) ∧ (safeHolds (s.accepts infoStateRequest d) = false))
    ∧ (∃ (d : Desc) (s : State), (Taken infoStateRequest d s) ∧ let c := s.held infoStateRequest d; (s.m.dev.state = .safe) ∧ (c.f 0 1 = 3) ∧ (safetyLatch (s.accepts infoStateRequest d) = true))
    ∧ (∃ (d : Desc) (s : State), (Taken infoStateRequest d s) ∧ let c := s.held infoStateRequest d; ((s.m.dev.state = .ready ∧ c.f 0 1 = 3) ∨ (s.m.dev.state = .run ∧ c.f 0 1 = 4))) :=
  ⟨⟨tD [4#8], tA id, by decide +kernel⟩,
   ⟨tD [4#8], tS id, 2, by decide +kernel⟩,
   ⟨tD [3#8], tA (fun m => { m with dev := { m.dev with state := .run } }), by decide +kernel⟩,
   ⟨tD [3#8], tA (fun m => { m with dev := { m.dev with state := .safe } }), by decide +kernel⟩,
   ⟨tD [3#8], tA fun m => { m with dev := { m.dev with state := .safe }, safety := { m.safety with internal := true } }, by decide +kernel⟩,
   ⟨tD [3#8], tS id, by decide +kernel⟩⟩

theorem witness_LoopGraphCommandsComplete :
    (∃ (d : Desc) (s : State), (Taken infoGraphLoad d s))
    ∧ (∃ (d : Desc) (s : State) (b : List Byte) (cd : Cdr) (g : Graph) (full : Bool), (Taken infoGraphCommit d s) ∧ (s.m.dev.state = .ready) ∧ (s.m.loop.staged = some b) ∧ (s.m.loop.graph = none) ∧ (s.m.conv.active = some cd) ∧ ((parseHead b).configId = cd.configId) ∧ (s.m.pair.inTwin = false) ∧ (checkGraph b cd (s.m.net.far.map FarCh.cfg) (gooseEntries s.m) s.m.tb.p (s.accepts infoGraphCommit d).lanesOk (s.m.tb.k + 1) = .ok (g, full)))
    ∧ (∃ (d : Desc) (s : State) (g : Graph), (Taken infoGraphWithdraw d s) ∧ (s.m.loop.graph = some g))
    ∧ (∃ (d : Desc) (s : State), (Taken infoGraphWithdraw d s) ∧ (s.m.loop.graph = none))
    ∧ (∃ (d : Desc) (s : State) (g : Graph), (Taken infoGraphReport d s) ∧ let c := s.held infoGraphReport d; (s.m.loop.graph = some g) ∧ ((graphReport g s.m.tb.p).length ≤ c.len))
    ∧ (∃ (d : Desc) (s : State) (g : Graph) (cd : Cdr) (b : Block), (Taken infoParamWrite d s) ∧ let c := s.held infoParamWrite d; (s.m.loop.graph = some g) ∧ (s.m.conv.active = some cd) ∧ (c.pf 4 2 ≠ 0) ∧ (g.blocks[c.pf 0 2]? = some b) ∧ (c.pf 2 2 + c.pf 4 2 ≤ b.paramCount) ∧ (paramsOk b.typ b.ins.length (cd.blockEnv b.rateDiv s.m.tb.p) (putParams (blockParams g.params b) (c.pf 2 2) ((List.range (c.pf 4 2)).map fun i => BitVec.ofNat 32 (c.pf (8 + 4 * i) 4))) = true) ∧ (((List.range b.paramCount).any fun i => structuralWord b.typ i && (blockParams g.params b)[i]? != (putParams (blockParams g.params b) (c.pf 2 2) ((List.range (c.pf 4 2)).map fun i => BitVec.ofNat 32 (c.pf (8 + 4 * i) 4)))[i]?) = false))
    ∧ (∃ (d : Desc) (s : State) (g : Graph) (b : Block), (Taken infoParamRead d s) ∧ let c := s.held infoParamRead d; (s.m.loop.graph = some g) ∧ (c.b 4 2 ≠ 0) ∧ (g.blocks[c.b 0 2]? = some b) ∧ (c.b 2 2 + c.b 4 2 ≤ b.paramCount))
    ∧ (∃ (d : Desc) (s : State) (g : Graph), (Taken infoFlagClear d s) ∧ let c := s.held infoFlagClear d; (s.m.loop.graph = some g) ∧ (c.f 2 2 ≠ 0) ∧ (c.f 4 4 ≠ 0) ∧ (c.f 0 2 + c.f 2 2 ≤ g.blocks.length))
    ∧ (∃ (d : Desc) (s : State), (Taken infoFlagClear d s) ∧ (s.m.loop.graph = none))
    ∧ (∃ (d : Desc) (s : State) (g : Graph), (Taken infoFlagClear d s) ∧ let c := s.held infoFlagClear d; (s.m.loop.graph = some g) ∧ (c.f 2 2 = 0 ∨ c.f 4 4 = 0)) :=
  ⟨⟨tB tGraphBytes, tS id, by decide +kernel⟩,
   ⟨tD [], tS fun m => { m with conv := { m.conv with active := some tCdr }, loop := { m.loop with staged := some tGraphBytes } }, tGraphBytes, tCdr, tPlaced.1, tPlaced.2, by decide +kernel, rfl, rfl, rfl, rfl, by decide +kernel, rfl, tPlaced_ok⟩,
   ⟨tD [], tA id, tGraph, by decide +kernel⟩,
   ⟨tD [], tS id, by decide +kernel⟩,
   ⟨tB (List.replicate 4096 0#8), tA id, tGraph, by decide +kernel⟩,
   ⟨tD (leBytes 2 0 ++ leBytes 2 1 ++ leBytes 2 1 ++ leBytes 2 0 ++ leBytes 4 7), tA id, tGraph, tCdr, ⟨0x0401, 0, 2, 0xFF, 1, 0, [⟨0xE0000, false, false⟩], [⟨0xE0001, false, false⟩]⟩, by decide +kernel⟩,
   ⟨tB (leBytes 2 0 ++ leBytes 2 1 ++ leBytes 2 1 ++ leBytes 2 0 ++ leBytes 4 0), tA id, tGraph, ⟨0x0401, 0, 2, 0xFF, 1, 0, [⟨0xE0000, false, false⟩], [⟨0xE0001, false, false⟩]⟩, by decide +kernel⟩,
   ⟨tD (leBytes 2 0 ++ leBytes 2 1 ++ leBytes 4 3), tA id, tGraph, by decide +kernel⟩,
   ⟨tD (leBytes 2 0 ++ leBytes 2 1 ++ leBytes 4 3), tS id, by decide +kernel⟩,
   ⟨tD (leBytes 2 0 ++ leBytes 2 0 ++ leBytes 4 3), tA id, tGraph, by decide +kernel⟩⟩

theorem witness_ModeAndSetpointCommandsComplete :
    (∃ (d : Desc) (s : State) (g : Graph), (Taken infoModeConfig d s) ∧ let c := s.held infoModeConfig d; (s.m.loop.graph = some g) ∧ (s.m.pair.inTwin = false) ∧ ((((List.range 5).map fun i => parseRef (c.f (4 * i) 4)).all fun b => match b.ref with | none => true | some (i, _) => decide (i < 0xE0000) || declared (s.accepts infoModeConfig d) i) = true))
    ∧ (∃ (d : Desc) (s : State) (t n : Mode), (Taken infoModeRequest d s) ∧ let c := s.held infoModeRequest d; (modeOfCode (c.f 0 1) = some t) ∧ (s.m.mode.configured = true ∨ t = .blocked) ∧ (modeRequestTo s.m.mode.mode t (modeIn ((readBits (s.accepts infoModeRequest d)).map Prod.fst)) = .to n))
    ∧ (∃ (d : Desc) (s : State) (t : Mode), (Taken infoModeRequest d s) ∧ let c := s.held infoModeRequest d; (modeOfCode (c.f 0 1) = some t) ∧ (s.m.mode.configured = true ∨ t = .blocked) ∧ (modeRequestTo s.m.mode.mode t (modeIn ((readBits (s.accepts infoModeRequest d)).map Prod.fst)) = .refuse))
    ∧ (∃ (d : Desc) (s : State) (t : Mode), (Taken infoModeRequest d s) ∧ let c := s.held infoModeRequest d; (modeOfCode (c.f 0 1) = some t) ∧ (s.m.mode.configured = true ∨ t = .blocked) ∧ (modeRequestTo s.m.mode.mode t (modeIn ((readBits (s.accepts infoModeRequest d)).map Prod.fst)) = .same))
    ∧ (∃ (d : Desc) (s : State) (g : Graph) (x : SpSlot), (Taken infoSpBind d s) ∧ let c := s.held infoSpBind d; (s.m.loop.graph = some g) ∧ (bitOf (c.f 1 1) 0 = true) ∧ (s.m.slot (c.f 0 1) = some x))
    ∧ (∃ (d : Desc) (s : State) (g : Graph), (Taken infoSpBind d s) ∧ let c := s.held infoSpBind d; (s.m.loop.graph = some g) ∧ (bitOf (c.f 1 1) 0 = true) ∧ (s.m.slot (c.f 0 1) = none))
    ∧ (∃ (d : Desc) (s : State) (g : Graph), (Taken infoSpBind d s) ∧ let c := s.held infoSpBind d; let a := s.accepts infoSpBind d; (s.m.loop.graph = some g) ∧ (bitOf (c.f 1 1) 0 = false) ∧ (bindable a (c.f 0 1) (c.f 4 4) = true) ∧ (s.m.slot (c.f 0 1) = none))
    ∧ (∃ (d : Desc) (s : State), (Taken infoSetpoint d s) ∧ let c := s.held infoSetpoint d; (8 ≤ c.plen) ∧ (∀ j < c.plen / 8, (s.m.slot (c.f (8 * j) 1)).isSome = true))
    ∧ (∃ (d : Desc) (s : State), (Taken infoSetpoint d s) ∧ let c := s.held infoSetpoint d; (∃ j < c.plen / 8, s.m.slot (c.f (8 * j) 1) = none)) :=
  ⟨⟨tD (List.replicate 32 0#8), tA id, tGraph, by decide +kernel⟩,
   ⟨tD [1#8], tA (fun m => { m with dev := { m.dev with state := .run }, mode := { m.mode with configured := true, bits := List.replicate 5 ⟨none, none, false⟩ } }), .precharge, .precharge, by decide +kernel⟩,
   ⟨tD [3#8], tA (fun m => { m with dev := { m.dev with state := .run }, mode := { m.mode with configured := true, bits := List.replicate 5 ⟨none, none, false⟩ } }), .gridForming, by decide +kernel⟩,
   ⟨tD [0#8], tA (fun m => { m with dev := { m.dev with state := .run }, mode := { m.mode with configured := true, bits := List.replicate 5 ⟨none, none, false⟩ } }), .blocked, by decide +kernel⟩,
   ⟨tD [0#8, 1#8], tA (fun m => { m with mode := { m.mode with slots := some ⟨0xE0000, 0, 5, 1, false⟩ :: List.replicate 31 none } }), tGraph, ⟨0xE0000, 0, 5, 1, false⟩, by decide +kernel⟩,
   ⟨tD [1#8, 1#8], tA (fun m => { m with mode := { m.mode with slots := some ⟨0xE0000, 0, 5, 1, false⟩ :: List.replicate 31 none } }), tGraph, by decide +kernel⟩,
   ⟨tD (leBytes 4 0 ++ leBytes 4 0xE0000 ++ leBytes 4 0 ++ leBytes 4 5), tA id, tGraph, by decide +kernel⟩,
   ⟨{ tD (leBytes 8 0) with plen := 8 }, tA (fun m => { m with mode := { m.mode with slots := some ⟨0xE0000, 0, 5, 1, false⟩ :: List.replicate 31 none } }), by decide +kernel⟩,
   ⟨{ tD (leBytes 8 1) with plen := 8 }, tA (fun m => { m with mode := { m.mode with slots := some ⟨0xE0000, 0, 5, 1, false⟩ :: List.replicate 31 none } }), by decide +kernel⟩⟩

theorem witness_PoolCommandsComplete :
    (∃ (d : Desc) (s : State) (cd : Cdr), (Taken infoSmExclude d s) ∧ let c := s.held infoSmExclude d; (s.m.conv.active = some cd) ∧ (cd.exists_ (c.f 0 4) = true) ∧ ((s.m.sm (c.f 0 4)).pool ≠ .uncovered) ∧ ((s.m.sm (c.f 0 4)).pool ≠ .retired) ∧ ((s.m.sm (c.f 0 4)).pool ≠ .excluded) ∧ ((s.m.sm (c.f 0 4)).pool ≠ .available ∨ bitOf (c.f 5 1) 0 = true))
    ∧ (∃ (d : Desc) (s : State) (cd : Cdr), (Taken infoSmExclude d s) ∧ let c := s.held infoSmExclude d; (s.m.conv.active = some cd) ∧ (cd.exists_ (c.f 0 4) = true) ∧ ((s.m.sm (c.f 0 4)).pool = .retired ∨ (s.m.sm (c.f 0 4)).pool = .excluded))
    ∧ (∃ (d : Desc) (s : State) (cd : Cdr), (Taken infoSmRestore d s) ∧ let c := s.held infoSmRestore d; (s.m.conv.active = some cd) ∧ (cd.exists_ (c.f 0 4) = true) ∧ ((s.m.sm (c.f 0 4)).pool = .excluded ∨ ((s.m.sm (c.f 0 4)).pool = .retired ∧ s.m.dev.state = .ready)))
    ∧ (∃ (d : Desc) (s : State), (Taken infoPoolReport d s))
    ∧ (∃ (d : Desc) (s : State), (Taken infoWearRead d s) ∧ let c := s.held infoWearRead d; (c.b 4 4 ≠ 0))
    ∧ (∃ (d : Desc) (s : State), (Taken infoWearRead d s) ∧ let c := s.held infoWearRead d; (c.b 4 4 = 0))
    ∧ (∃ (d : Desc) (s : State) (cd : Cdr), (Taken infoWearWrite d s) ∧ let c := s.held infoWearWrite d; (s.m.conv.active = some cd) ∧ (c.b 4 4 ≠ 0) ∧ ((((List.range (c.b 4 4)).map fun i => (c.b 0 4 + i, c.b (8 + 4 * i) 4)).any fun x => !cd.exists_ x.1 && x.2 != 0) = false))
    ∧ (∃ (d : Desc) (s : State) (cd : Cdr), (Taken infoFswTarget d s) ∧ let c := s.held infoFswTarget d; (s.m.conv.active = some cd))
    ∧ (∃ (d : Desc) (s : State) (cd : Cdr), (Taken infoArmFlagClear d s) ∧ let c := s.held infoArmFlagClear d; (s.m.conv.active = some cd) ∧ (c.f 0 1 ≠ 0))
    ∧ (∃ (d : Desc) (s : State) (cd : Cdr), (Taken infoArmFlagClear d s) ∧ let c := s.held infoArmFlagClear d; (s.m.conv.active = some cd) ∧ (c.f 0 1 = 0))
    ∧ (∃ (d : Desc) (s : State), (Taken infoLaneMapRead d s)) :=
  ⟨⟨tD (leBytes 4 0 ++ [0x83#8]), tA (fun m => m.setSm 0 { smReset with pool := .joining }), tCdr, by decide +kernel⟩,
   ⟨tD (leBytes 4 0 ++ [0x83#8]), tA (fun m => m.setSm 0 { smReset with pool := .excluded }), tCdr, by decide +kernel⟩,
   ⟨tD (leBytes 4 0), tA (fun m => m.setSm 0 { smReset with pool := .excluded }), tCdr, by decide +kernel⟩,
   ⟨tB (List.replicate 65536 0#8), tA id, by decide +kernel⟩,
   ⟨tB (leBytes 4 0 ++ leBytes 4 1 ++ leBytes 4 0), tA id, by decide +kernel⟩,
   ⟨tB (leBytes 4 0 ++ leBytes 4 0), tA id, by decide +kernel⟩,
   ⟨tB (leBytes 4 0 ++ leBytes 4 1 ++ leBytes 4 9), tA id, tCdr, by decide +kernel⟩,
   ⟨tD ([0xFF#8, 0#8, 0#8, 0#8] ++ leBytes 4 200000), tA id, tCdr, by decide +kernel⟩,
   ⟨tD [1#8], tA id, tCdr, by decide +kernel⟩,
   ⟨tD [0#8], tA id, tCdr, by decide +kernel⟩,
   ⟨tB (List.replicate 256 0#8), tS id, by decide +kernel⟩⟩

theorem witness_TimebaseCommandsComplete :
    (∃ (d : Desc) (s : State), (Taken infoTbPeriod d s) ∧ let c := s.held infoTbPeriod d; (c.f 0 4 ≠ s.m.tb.p ∨ s.m.tb.pNext ≠ none) ∧ (periodOk s.start (c.f 0 4) = true))
    ∧ (∃ (d : Desc) (s : State), (Taken infoTbPeriod d s) ∧ let c := s.held infoTbPeriod d; (c.f 0 4 = s.m.tb.p) ∧ (s.m.tb.pNext = none))
    ∧ (∃ (d : Desc) (s : State), (Taken infoTbSource d s) ∧ let c := s.held infoTbSource d; (s.m.tb.src ≠ .pair) ∧ (c.f 0 1 ≠ 1))
    ∧ (∃ (d : Desc) (s : State), (Taken infoTbSource d s) ∧ let c := s.held infoTbSource d; (s.m.tb.src ≠ .pair) ∧ (c.f 0 1 = 1) ∧ (bitOf (c.f 1 1) 0 = true → (s.accepts infoTbSource d).flag F.ethCtrlEnA = true) ∧ (bitOf (c.f 1 1) 1 = true → (s.accepts infoTbSource d).flag F.ethCtrlEnB = true))
    ∧ (∃ (d : Desc) (s : State), (Taken infoTbConverge d s) ∧ let c := s.held infoTbConverge d; (c.f 0 1 = 1 ∨ s.m.dev.state ≠ .run) ∧ (s.m.tb.refusedRun = true))
    ∧ (∃ (d : Desc) (s : State), (Taken infoTbSet d s) ∧ let c := s.held infoTbSet d; (s.m.tb.src ≠ .ptp) ∧ (s.m.tb.src ≠ .pair))
    ∧ (∃ (d : Desc) (s : State), (Taken infoTbBand d s) ∧ let c := s.held infoTbBand d; (usable (s.accepts infoTbBand d) (c.f 0 1) = true) ∧ (c.f 0 1 ≠ s.m.tb.band))
    ∧ (∃ (d : Desc) (s : State), (Taken infoTbReport d s)) :=
  ⟨⟨tD (leBytes 4 20000), tS id, by decide +kernel⟩,
   ⟨tD (leBytes 4 10000), tS id, by decide +kernel⟩,
   ⟨tD [2#8], tS id, by decide +kernel⟩,
   ⟨tD [1#8, 1#8], tA (fun m => m.setF F.ethCtrlEnA 1), by decide +kernel⟩,
   ⟨tD (leBytes 4 1 ++ leBytes 4 500), tA (fun m => { m with tb := { m.tb with refusedRun := true } }), by decide +kernel⟩,
   ⟨tD (leBytes 8 9 ++ leBytes 4 5), tS id, by decide +kernel⟩,
   ⟨tD [1#8], tA (fun m => ((m.setF (F.tbBandValid 1) 1).setF (F.tbBandFmin 1) 39000).setF (F.tbBandFmax 1) 41000), by decide +kernel⟩,
   ⟨tB (List.replicate 96 0#8), tS id, by decide +kernel⟩⟩

theorem witness_MeasurementCommandsComplete :
    (∃ (d : Desc) (s : State), (Taken infoAdcSeqConfig d s) ∧ let c := s.held infoAdcSeqConfig d; (((parseAdc c).seqs.zipIdx.all fun x => seqFits s.start x.2 x.1) = true))
    ∧ (∃ (d : Desc) (s : State), (Taken infoAdcUrgent d s) ∧ let c := s.held infoAdcUrgent d; (hostRequests (s.m.core (c.f 0 1)) < 4) ∧ ((s.m.core (c.f 0 1)).waiting = []))
    ∧ (∃ (d : Desc) (s : State), (Taken infoAdcUrgent d s) ∧ let c := s.held infoAdcUrgent d; (4 ≤ hostRequests (s.m.core (c.f 0 1)) ∨ (s.m.core (c.f 0 1)).waiting ≠ []))
    ∧ (∃ (d : Desc) (s : State), (Taken infoChainConfig d s) ∧ let c := s.held infoChainConfig d; (s.m.dev.state = .ready) ∧ (outSlow s.start (parseChain c) = true) ∧ (bitOf (c.b 0x24 4) 0 = false))
    ∧ (∃ (d : Desc) (s : State), (Taken infoChainBankSwap d s) ∧ let c := s.held infoChainBankSwap d; (c.f 0 2 ≠ 0 ∨ c.f 2 2 ≠ 0))
    ∧ (∃ (d : Desc) (s : State), (Taken infoChainBankSwap d s) ∧ let c := s.held infoChainBankSwap d; (c.f 0 2 = 0) ∧ (c.f 2 2 = 0))
    ∧ (∃ (d : Desc) (s : State), (Taken infoRimConfig d s))
    ∧ (∃ (d : Desc) (s : State), (Taken infoSvSubscribe d s) ∧ let c := s.held infoSvSubscribe d; (portOff (s.accepts infoSvSubscribe d) (c.b 6 1) = false))
    ∧ (∃ (d : Desc) (s : State) (u : SvSub), (Taken infoSvUnsubscribe d s) ∧ let c := s.held infoSvUnsubscribe d; ((s.m.stream (c.f 0 1)).sub = some u))
    ∧ (∃ (d : Desc) (s : State), (Taken infoSvUnsubscribe d s) ∧ let c := s.held infoSvUnsubscribe d; ((s.m.stream (c.f 0 1)).sub = none)) :=
  ⟨⟨tB ([1#8] ++ List.replicate 15 0#8 ++ (List.range 4).flatMap (fun _ => ([0#8, 1#8, 1#8, 0#8] ++ leBytes 4 0 ++ [3#8, 1#8, 4#8, 0#8] ++ leBytes 4 100 ++ List.replicate 120 0#8)) ++ List.replicate 128 0#8), tS id, by decide +kernel⟩,
   ⟨tD [1#8, 3#8, 1#8, 0#8, 4#8, 0#8], tS id, by decide +kernel⟩,
   ⟨tD [1#8, 3#8, 1#8, 0#8, 4#8, 0#8], tA (fun m => m.setCore 1 { coreInit with waiting := [⟨.host 0 9, false, 0, 0, 0, ⟨3, 1, 4, 0⟩, 0⟩] }), by decide +kernel⟩,
   ⟨tB ((fun k : Nat => [0#8, 0#8, 1#8, 2#8] ++ List.replicate 4 0#8 ++ leBytes 4 65536 ++ leBytes 2 1 ++ [1#8, 0#8] ++ List.replicate 8 0#8 ++ [0#8, 1#8, 0#8, 0#8] ++ leBytes 4 0 ++ leBytes 4 0 ++ leBytes 4 0 ++ List.replicate (88 + k) 0#8) 0), tS id, by decide +kernel⟩,
   ⟨tD [1#8], tS id, by decide +kernel⟩,
   ⟨tD [], tS id, by decide +kernel⟩,
   ⟨tD ([1#8, 1#8, 0#8, 0#8] ++ leBytes 4 0xE0000 ++ leBytes 4 3 ++ leBytes 4 9 ++ leBytes 4 1), tS id, by decide +kernel⟩,
   ⟨tB ([0#8, 8#8, 1#8, 1#8] ++ leBytes 2 0x4000 ++ [1#8, 5#8] ++ leBytes 6 7 ++ leBytes 2 0 ++ leBytes 4 1 ++ [1#8, 0#8, 0#8, 0#8] ++ [65#8] ++ List.replicate 39 0#8), tA (fun m => m.setF F.ethCtrlEnA 1), by decide +kernel⟩,
   ⟨tD [2#8], tA (fun m => m.setStream 2 { svInit with sub := some ⟨8, 1, 1, 0x4000, 1, 5, 7, 1, [65#8]⟩, state := .waiting }), ⟨8, 1, 1, 0x4000, 1, 5, 7, 1, [65#8]⟩, by decide +kernel⟩,
   ⟨tD [2#8], tS id, by decide +kernel⟩⟩

theorem witness_EchoCommandsComplete :
    (∃ (d : Desc) (s : State), (Taken infoEchoArm d s) ∧ let c := s.held infoEchoArm d; ((s.m.echo (c.b 0 1)).cfg = none) ∧ (echoAlloc (parseEcho c) ≤ echoFree s.start))
    ∧ (∃ (d : Desc) (s : State) (g : EchoCfg), (Taken infoEchoArm d s) ∧ let c := s.held infoEchoArm d; ((s.m.echo (c.b 0 1)).cfg = some g))
    ∧ (∃ (d : Desc) (s : State), (Taken infoEchoTrigger d s) ∧ let c := s.held infoEchoTrigger d; (((List.range 8).all fun n => !bitOf (c.f 0 1) n || (s.m.echo n).cfg.isNone) = false))
    ∧ (∃ (d : Desc) (s : State), (Taken infoEchoTrigger d s) ∧ let c := s.held infoEchoTrigger d; (((List.range 8).all fun n => !bitOf (c.f 0 1) n || (s.m.echo n).cfg.isNone) = true))
    ∧ (∃ (d : Desc) (s : State) (g : EchoCfg), (Taken infoEchoDisarm d s) ∧ let c := s.held infoEchoDisarm d; ((s.m.echo (c.f 0 1)).cfg = some g) ∧ ((s.m.echo (c.f 0 1)).waiting = none) ∧ (((echoTakeAll (c.f 0 1) (s.accepts infoEchoDisarm d)).echo (c.f 0 1)).trig = none))
    ∧ (∃ (d : Desc) (s : State) (g : EchoCfg), (Taken infoEchoDisarm d s) ∧ let c := s.held infoEchoDisarm d; ((s.m.echo (c.f 0 1)).cfg = some g) ∧ ((s.m.echo (c.f 0 1)).waiting = none) ∧ (((echoTakeAll (c.f 0 1) (s.accepts infoEchoDisarm d)).echo (c.f 0 1)).trig.isSome = true))
    ∧ (∃ (d : Desc) (s : State) (g : EchoCfg), (Taken infoEchoDisarm d s) ∧ let c := s.held infoEchoDisarm d; ((s.m.echo (c.f 0 1)).cfg = some g) ∧ ((s.m.echo (c.f 0 1)).waiting.isSome = true))
    ∧ (∃ (d : Desc) (s : State), (Taken infoEchoDisarm d s) ∧ let c := s.held infoEchoDisarm d; ((s.m.echo (c.f 0 1)).cfg = none))
    ∧ (∃ (d : Desc) (s : State) (x : List Byte), (Taken infoEchoRead d s) ∧ let c := s.held infoEchoRead d; ((s.m.echo (c.b 0 1)).last = some x) ∧ (x.length ≤ c.len))
    ∧ (∃ (d : Desc) (s : State), (Taken infoEchoRead d s) ∧ let c := s.held infoEchoRead d; ((s.m.echo (c.b 0 1)).last = none)) :=
  ⟨⟨tB ([0#8, 1#8, 0#8, 1#8, 0#8, 0#8, 0#8, 0#8] ++ leBytes 4 10 ++ leBytes 4 20 ++ List.replicate 48 0#8 ++ leBytes 4 0xE0000), tS id, by decide +kernel⟩,
   ⟨tB ([0#8, 1#8, 0#8, 1#8, 0#8, 0#8, 0#8, 0#8] ++ leBytes 4 10 ++ leBytes 4 20 ++ List.replicate 48 0#8 ++ leBytes 4 0xE0000), tA (fun m => m.setEcho 0 { echoInit with cfg := some ⟨0, 1, false, false, 0, 2, 3, [], [5], 0, 1⟩ }), ⟨0, 1, false, false, 0, 2, 3, [], [5], 0, 1⟩, by decide +kernel⟩,
   ⟨tD [1#8], tA (fun m => m.setEcho 0 { echoInit with cfg := some ⟨0, 1, false, false, 0, 2, 3, [], [5], 0, 1⟩ }), by decide +kernel⟩,
   ⟨tD [1#8], tS id, by decide +kernel⟩,
   ⟨tD [0#8], tA (fun m => m.setEcho 0 { echoInit with cfg := some ⟨0, 1, false, false, 0, 2, 3, [], [5], 0, 1⟩ }), ⟨0, 1, false, false, 0, 2, 3, [], [5], 0, 1⟩, by decide +kernel⟩,
   ⟨tD [0#8], tA (fun m => m.setEcho 0 { echoInit with cfg := some ⟨0, 1, false, false, 0, 2, 3, [], [5], 0, 1⟩, trig := some ⟨0xFF, 5, 0, 0, 7⟩ }), ⟨0, 1, false, false, 0, 2, 3, [], [5], 0, 1⟩, by decide +kernel⟩,
   ⟨tD [0#8], tA (fun m => m.setEcho 0 { echoInit with cfg := some ⟨0, 1, false, false, 0, 2, 3, [], [5], 0, 1⟩, waiting := some [1#8] }), ⟨0, 1, false, false, 0, 2, 3, [], [5], 0, 1⟩, by decide +kernel⟩,
   ⟨tD [0#8], tS id, by decide +kernel⟩,
   ⟨tB [0#8, 0#8, 0#8, 0#8], tA (fun m => m.setEcho 0 { echoInit with last := some [1#8, 2#8] }), [1#8, 2#8], by decide +kernel⟩,
   ⟨tB [0#8, 0#8, 0#8, 0#8], tS id, by decide +kernel⟩⟩

theorem witness_StationNetworkCommandsComplete :
    (∃ (d : Desc) (s : State), (Taken infoGoosePublish d s) ∧ let c := s.held infoGoosePublish d; (portOff (s.accepts infoGoosePublish d) (c.b 2 1) = false))
    ∧ (∃ (d : Desc) (s : State), (Taken infoGooseSubscribe d s) ∧ let c := s.held infoGooseSubscribe d; (portOff (s.accepts infoGooseSubscribe d) (parseGoose c).ports = false) ∧ (((parseGoose c).members.all fun x => freeDecl (s.accepts infoGooseSubscribe d) (c.b 0 1 - 32) (x.ref % 2 ^ 20)) = true))
    ∧ (∃ (d : Desc) (s : State) (g : GooseCfg), (Taken infoGooseUnsubscribe d s) ∧ let c := s.held infoGooseUnsubscribe d; ((s.m.gooseSub (c.f 0 1 - 32)).cfg = some g))
    ∧ (∃ (d : Desc) (s : State), (Taken infoGooseUnsubscribe d s) ∧ let c := s.held infoGooseUnsubscribe d; ((s.m.gooseSub (c.f 0 1 - 32)).cfg = none))
    ∧ (∃ (d : Desc) (s : State), (Taken infoEthTimedTx d s) ∧ let c := s.held infoEthTimedTx d; let t0 := c.b 0 8 * 1000000000 + c.b 8 4; let at_ := if t0 = 0 then intakeAt s.start + 1000 else t0; (∀ p < 2, bitOf (c.b 12 1) p = true → timedCount (s.m.ethPort p) < 64) ∧ (intakeAt s.start + 1000 ≤ at_))
    ∧ (∃ (d : Desc) (s : State), (Taken infoEthTimedTx d s) ∧ let c := s.held infoEthTimedTx d; let t0 := c.b 0 8 * 1000000000 + c.b 8 4; (∀ p < 2, bitOf (c.b 12 1) p = true → timedCount (s.m.ethPort p) < 64) ∧ (t0 ≠ 0) ∧ (t0 < intakeAt s.start + 1000))
    ∧ (∃ (d : Desc) (s : State), (Taken infoFarConfig d s) ∧ let c := s.held infoFarConfig d; (((farReads s.start (c.b 0 1)).any fun x => decide (farFormat (s.m.farCh (c.b 0 1)).cfg x ≠ farFormat (some (parseFar c)) x)) = false))
    ∧ (∃ (d : Desc) (s : State) (g : FarCfg), (Taken infoFarSend d s) ∧ let c := s.held infoFarSend d; ((s.m.farCh (c.b 0 1)).cfg = some g) ∧ (g.txEn = true)) :=
  ⟨⟨tB ([0#8, 1#8, 1#8, 0#8] ++ leBytes 2 0x1000 ++ leBytes 2 0 ++ leBytes 6 7 ++ leBytes 2 0 ++ leBytes 4 1 ++ leBytes 4 500 ++ leBytes 4 10 ++ leBytes 4 0 ++ List.replicate 192 65#8 ++ leBytes 4 0xE0001 ++ [1#8, 0#8, 0#8, 0#8] ++ List.replicate 248 0#8), tA (fun m => m.setF F.ethCtrlEnA 1), by decide +kernel⟩,
   ⟨tB ([33#8, 1#8, 1#8, 0#8] ++ leBytes 2 0x1000 ++ leBytes 2 0 ++ leBytes 6 7 ++ leBytes 2 0 ++ leBytes 4 1 ++ leBytes 4 0 ++ leBytes 4 9 ++ leBytes 4 0 ++ List.replicate 192 65#8 ++ leBytes 4 0xE0000 ++ [1#8, 0#8, 0#8, 0#8] ++ List.replicate 248 0#8), tA (fun m => m.setF F.ethCtrlEnA 1), by decide +kernel⟩,
   ⟨tD [33#8], tA (fun m => m.setGooseSub 1 { gooseSubInit with cfg := some ⟨1, 0, 0x1000, 0, 7, 1, 0, 9, [], [], [], [⟨0xE0000, 1, false⟩]⟩, state := .waiting }), ⟨1, 0, 0x1000, 0, 7, 1, 0, 9, [], [], [], [⟨0xE0000, 1, false⟩]⟩, by decide +kernel⟩,
   ⟨tD [33#8], tS id, by decide +kernel⟩,
   ⟨tB (List.replicate 12 0#8 ++ [1#8, 0#8, 0#8, 0#8] ++ List.replicate 60 0xAA#8), tS id, by decide +kernel⟩,
   ⟨tB (leBytes 8 1 ++ leBytes 4 0 ++ [1#8, 0#8, 0#8, 0#8] ++ List.replicate 60 0xAA#8), tS id, by decide +kernel⟩,
   ⟨tB ([1#8, 1#8, 1#8, 1#8] ++ leBytes 4 5 ++ leBytes 6 7 ++ leBytes 2 10 ++ leBytes 2 100 ++ [9#8, 0#8] ++ leBytes 2 0 ++ leBytes 2 0 ++ List.replicate 24 0#8 ++ leBytes 4 0xE0001 ++ List.replicate 252 0#8), tA id, by decide +kernel⟩,
   ⟨tB [1#8, 0#8, 0#8, 0#8, 0xAA#8], tA (fun m => m.setFar 1 { farInit with cfg := some ⟨true, false, false, false, 1, 1, 5, 7, 10, 100, 9, 0, [0xE0001], [1]⟩ }), ⟨true, false, false, false, 1, 1, 5, 7, 10, 100, 9, 0, [0xE0001], [1]⟩, by decide +kernel⟩⟩

theorem witness_CanCommandsTakeEffect :
    (∃ (d : Desc) (s : State), (Taken infoCanConfig d s) ∧ let c := s.held infoCanConfig d; ((s.m.canCh (c.b 0 1)).auto = none))
    ∧ (∃ (d : Desc) (s : State), (Taken infoCanAutobaud d s) ∧ let c := s.held infoCanAutobaud d; ((s.m.canCh (c.b 0 1)).auto = none))
    ∧ (∃ (d : Desc) (s : State), (Taken infoCanSchedule d s) ∧ let c := s.held infoCanSchedule d; ((s.m.canCh (c.b 0 1)).schedNext = none))
    ∧ (∃ (d : Desc) (s : State) (g : CanCfg), (Taken infoCanTx d s) ∧ let c := s.held infoCanTx d; ((s.m.canCh (txField c 0 1)).cfg = some g) ∧ (g.mode = 1) ∧ ((s.m.canCh (txField c 0 1)).listen = false) ∧ (bitOf (txField c 4 4) 30 = true → g.fdEn = true) ∧ ((s.m.canCh (txField c 0 1)).txq.length < 32))
    ∧ (∃ (d : Desc) (s : State) (f : CanTx), (Taken infoCanCancel d s) ∧ let c := s.held infoCanCancel d; (((s.m.canCh 0).txq.find? fun x => x.ring == c.f 0 1 && x.seq == c.f 8 8) = some f) ∧ (f.started = false))
    ∧ (∃ (d : Desc) (s : State) (f : CanTx), (Taken infoCanCancel d s) ∧ let c := s.held infoCanCancel d; (((s.m.canCh 0).txq.find? fun x => x.ring == c.f 0 1 && x.seq == c.f 8 8) = none) ∧ (((s.m.canCh 1).txq.find? fun x => x.ring == c.f 0 1 && x.seq == c.f 8 8) = some f) ∧ (f.started = false))
    ∧ (∃ (d : Desc) (s : State) (f : CanTx), (Taken infoCanCancel d s) ∧ let c := s.held infoCanCancel d; (((s.m.canCh 0).txq.find? fun x => x.ring == c.f 0 1 && x.seq == c.f 8 8) = some f) ∧ (f.started = true))
    ∧ (∃ (d : Desc) (s : State), (Taken infoCanCancel d s) ∧ let c := s.held infoCanCancel d; (∀ ch < 2, ((s.m.canCh ch).txq.find? fun x => x.ring == c.f 0 1 && x.seq == c.f 8 8) = none) ∧ ((s.accepts infoCanCancel d).findCmd (c.f 0 1) (c.f 8 8) = none)) :=
  ⟨⟨tB ([0#8, 1#8, 1#8, 9#8] ++ [2#8, 1#8] ++ leBytes 2 70 ++ [20#8, 1#8, 10#8, 5#8, 1#8, 0#8] ++ List.replicate 530 0#8), tS id, by decide +kernel⟩,
   ⟨tB ([0#8, 1#8, 0#8, 0#8] ++ leBytes 2 100 ++ leBytes 2 1000 ++ List.replicate 8 0#8 ++ [2#8, 1#8] ++ leBytes 2 70 ++ [20#8] ++ List.replicate 123 0#8), tS id, by decide +kernel⟩,
   ⟨{ tB ([0#8, 1#8, 0#8, 0#8] ++ leBytes 4 1000 ++ leBytes 4 10) with pay := leBytes 8 0x100000 ++ leBytes 4 2192 ++ List.replicate 20 0#8 }, tS id, by decide +kernel⟩,
   ⟨tD ([0#8, 2#8, 0#8, 0#8] ++ leBytes 4 0x123 ++ [1#8, 2#8]), tA (fun m => m.setCan 0 { canInit with cfg := some ⟨1, true, false, 9, ⟨2, 1, 70, 20, 1, 10, 5, 1, 0⟩, []⟩ }), ⟨1, true, false, 9, ⟨2, 1, 70, 20, 1, 10, 5, 1, 0⟩, []⟩, by decide +kernel⟩,
   ⟨tD ([3#8] ++ List.replicate 7 0#8 ++ leBytes 8 5), tA (fun m => m.setCan 0 { canInit with txq := [(⟨3, 5, 0x123, [1#8], false, []⟩ : CanTx)] }), (⟨3, 5, 0x123, [1#8], false, []⟩ : CanTx), by decide +kernel⟩,
   ⟨tD ([3#8] ++ List.replicate 7 0#8 ++ leBytes 8 5), tA (fun m => m.setCan 1 { canInit with txq := [(⟨3, 5, 0x123, [1#8], false, []⟩ : CanTx)] }), (⟨3, 5, 0x123, [1#8], false, []⟩ : CanTx), by decide +kernel⟩,
   ⟨tD ([3#8] ++ List.replicate 7 0#8 ++ leBytes 8 5), tA (fun m => m.setCan 0 { canInit with txq := [(⟨3, 5, 0x123, [1#8], true, []⟩ : CanTx)] }), (⟨3, 5, 0x123, [1#8], true, []⟩ : CanTx), by decide +kernel⟩,
   ⟨tD ([3#8] ++ List.replicate 7 0#8 ++ leBytes 8 5), tS id, by decide +kernel⟩⟩

theorem witness_PairCommandsTakeEffect :
    (∃ (d : Desc) (s : State), (Taken infoPairConfig d s))
    ∧ (∃ (d : Desc) (s : State), (Taken infoPairJoin d s) ∧ (s.m.pair.role = .solo ∨ s.m.pair.role = .deposed) ∧ (s.m.pair.roleDue = none) ∧ (s.m.host.accepted = []) ∧ (joinable (s.accepts infoPairJoin d) = true) ∧ ((agreedSet (s.accepts infoPairJoin d)).length ≤ 2048))
    ∧ (∃ (d : Desc) (s : State), (Taken infoPairLeave d s) ∧ (s.m.pair.role = .solo))
    ∧ (∃ (d : Desc) (s : State), (Taken infoPairLeave d s) ∧ (s.m.pair.role = .shadow))
    ∧ (∃ (d : Desc) (s : State), (Taken infoPairSwap d s) ∧ (s.m.pair.inTwin = false))
    ∧ (∃ (d : Desc) (s : State), (Taken infoPairReport d s))
    ∧ (∃ (d : Desc) (s : State), (Taken infoPairFwUpdate d s) ∧ (s.m.pair.inTwin = false))
    ∧ (∃ (d : Desc) (s : State), (Journalled infoPairLeave d s))
    ∧ (∃ (d : Desc) (s : State), (Journalled infoPairSwap d s))
    ∧ (∃ (d : Desc) (s : State), (Journalled infoPairFwUpdate d s))
    ∧ (∃ (c : Cmd) (m : Mach), (expired c = false) ∧ (m.inState infoPairSwap.states = true) ∧ (m.pair.inTwin = true))
    ∧ (∃ (c : Cmd) (m : Mach), (expired c = false) ∧ (m.inState infoPairLeave.states = true) ∧ (m.pair.inTwin = true) ∧ (c.f 0 1 == m.pair.unit % 2) = (m.pair.role == .senior))
    ∧ (∃ (c : Cmd) (m : Mach), (expired c = false) ∧ (m.inState infoPairLeave.states = true) ∧ (m.pair.inTwin = true) ∧ (m.pair.role = .twin) ∧ ((c.f 0 1 == m.pair.unit % 2) = true))
    ∧ (∃ (c : Cmd) (m : Mach), (expired c = false) ∧ (m.inState infoPairFwUpdate.states = true) ∧ (m.pair.inTwin = true) ∧ (m.pair.role = .senior) ∧ ((c.f 0 1 == m.pair.unit % 2) = false))
    ∧ (∃ (c : Cmd) (m : Mach), (expired c = false) ∧ (m.inState infoPairFwUpdate.states = true) ∧ (m.pair.inTwin = true) ∧ (m.pair.role = .twin) ∧ ((c.f 0 1 == m.pair.unit % 2) = true) ∧ (m.sec.staged.isSome = true)) :=
  ⟨⟨tD [1#8], tS id, by decide +kernel⟩,
   ⟨tD [], tA (fun m => { m with pair := { m.pair with partner := some ⟨0, 0, false, 3, ownCompat m, 0, 0, (ownTags m).1, (ownTags m).2⟩, paths := [{ pathInit with inService := true }, pathInit] } }), by decide +kernel⟩,
   ⟨tD [0#8], tS id, by decide +kernel⟩,
   ⟨tD [0#8], tA (fun m => { m with dev := { m.dev with state := .run }, pair := { m.pair with role := .shadow } }), by decide +kernel⟩,
   ⟨tD [], tA (fun m => { m with dev := { m.dev with state := .run }, pair := { m.pair with role := .solo } }), by decide +kernel⟩,
   ⟨tB (List.replicate 128 0#8), tS id, by decide +kernel⟩,
   ⟨tD [0#8], tA (fun m => { m with dev := { m.dev with state := .run }, pair := { m.pair with role := .solo } }), by decide +kernel⟩,
   ⟨tD [0#8], tA (fun m => { m with dev := { m.dev with state := .run }, pair := { m.pair with role := .senior, server := true, epoch := 3, partner := some ⟨2, 0, false, 3, 0, 0, 0, 0, 0⟩ } }), by decide +kernel⟩,
   ⟨tD [], tA (fun m => { m with dev := { m.dev with state := .run }, pair := { m.pair with role := .senior, server := true, epoch := 3, partner := some ⟨2, 0, false, 3, 0, 0, 0, 0, 0⟩ } }), by decide +kernel⟩,
   ⟨tD [0#8], tA (fun m => { m with dev := { m.dev with state := .run }, pair := { m.pair with role := .senior, server := true, epoch := 3, partner := some ⟨2, 0, false, 3, 0, 0, 0, 0, 0⟩ } }), by decide +kernel⟩,
   ⟨(tD []).cmd 0x0804, (tA (fun m => { m with dev := { m.dev with state := .run }, pair := { m.pair with role := .senior, server := true, epoch := 3, partner := some ⟨2, 0, false, 3, 0, 0, 0, 0, 0⟩ } })).m, by decide +kernel⟩,
   ⟨(tD [0#8]).cmd 0x0803, (tA (fun m => { m with dev := { m.dev with state := .run }, pair := { m.pair with role := .senior, server := true, epoch := 3, partner := some ⟨2, 0, false, 3, 0, 0, 0, 0, 0⟩ } })).m, by decide +kernel⟩,
   ⟨(tD [0#8]).cmd 0x0803, (tA (fun m => { m with dev := { m.dev with state := .run }, pair := { m.pair with role := .twin, partner := some ⟨2, 0, false, 3, 0, 0, 0, 0, 0⟩ } })).m, by decide +kernel⟩,
   ⟨(tD [1#8]).cmd 0x0806, (tA (fun m => { m with dev := { m.dev with state := .run }, pair := { m.pair with role := .senior, server := true, epoch := 3, partner := some ⟨2, 0, false, 3, 0, 0, 0, 0, 0⟩ } })).m, by decide +kernel⟩,
   ⟨(tD [0#8]).cmd 0x0806, { (tA (fun m => { m with dev := { m.dev with state := .run }, pair := { m.pair with role := .twin, partner := some ⟨2, 0, false, 3, 0, 0, 0, 0, 0⟩ } })).m with sec := { machInit.sec with staged := some 4 } }, by decide +kernel⟩⟩

theorem witness_SafetyAndOutputCommandsTakeEffect :
    (∃ (d : Desc) (s : State), (Taken infoSafetyConfig d s) ∧ let c := s.held infoSafetyConfig d; (((parseSafety c).tels.any fun t => (t.tx || t.rx) && portOff (s.accepts infoSafetyConfig d) t.ports) = false) ∧ (s.m.safety.resets = []))
    ∧ (∃ (d : Desc) (s : State), (Taken infoSafetyStartTest d s) ∧ let c := s.held infoSafetyStartTest d; (c.f 0 1 = 0) ∧ (bitOf (c.f 1 1) 0 = false))
    ∧ (∃ (d : Desc) (s : State), (Taken infoSafetyStartTest d s) ∧ let c := s.held infoSafetyStartTest d; (c.f 0 1 ≠ 0) ∧ (bitOf (c.f 1 1) 0 = false))
    ∧ (∃ (d : Desc) (s : State), (Taken infoSafetyStartTest d s) ∧ let c := s.held infoSafetyStartTest d; (bitOf (c.f 1 1) 0 = true))
    ∧ (∃ (d : Desc) (s : State), (Taken infoSafetyReset d s) ∧ let c := s.held infoSafetyReset d; (bitOf (c.f 1 1) 0 = false) ∧ (resetFails (c.f 0 1) (s.accepts infoSafetyReset d) = 0) ∧ (∃ o < 4, bitOf (c.f 0 1) o = true ∧ (s.m.safeOut o).on = false))
    ∧ (∃ (d : Desc) (s : State) (n : Nat), (Taken infoSafetyReset d s) ∧ let c := s.held infoSafetyReset d; (bitOf (c.f 1 1) 0 = false) ∧ (resetFails (c.f 0 1) (s.accepts infoSafetyReset d) = n) ∧ (n ≠ 0))
    ∧ (∃ (d : Desc) (s : State), (Taken infoSafetyReset d s) ∧ let c := s.held infoSafetyReset d; (bitOf (c.f 1 1) 0 = true) ∧ (resetFails (c.f 0 1) (clearLatches (s.accepts infoSafetyReset d)) = 0) ∧ (faultWord (clearLatches (s.accepts infoSafetyReset d)) ≠ faultWord (s.accepts infoSafetyReset d)))
    ∧ (∃ (d : Desc) (s : State) (n : Nat), (Taken infoSafetyReset d s) ∧ let c := s.held infoSafetyReset d; (bitOf (c.f 1 1) 0 = true) ∧ (resetFails (c.f 0 1) (clearLatches (s.accepts infoSafetyReset d)) = n) ∧ (n ≠ 0))
    ∧ (∃ (d : Desc) (s : State), (Taken infoSafetyReport d s))
    ∧ (∃ (d : Desc) (s : State), (Taken infoTripClear d s) ∧ let c := s.held infoTripClear d; (c.f 0 1 &&& s.m.pwm.active ≠ 0))
    ∧ (∃ (d : Desc) (s : State), (Taken infoTripClear d s) ∧ let c := s.held infoTripClear d; (c.f 0 1 &&& s.m.pwm.active = 0) ∧ (c.f 0 1 &&& s.m.pwm.latched = 0))
    ∧ (∃ (d : Desc) (s : State), (Taken infoTripClear d s) ∧ let c := s.held infoTripClear d; (c.f 0 1 &&& s.m.pwm.active = 0) ∧ (c.f 0 1 &&& s.m.pwm.latched ≠ 0))
    ∧ (∃ (d : Desc) (s : State), (Taken infoOutputOverride d s) ∧ let c := s.held infoOutputOverride d; (pwmEnabled (s.accepts infoOutputOverride d) (c.f 0 1) = false))
    ∧ (∃ (d : Desc) (s : State), (Taken infoOutputOverride d s) ∧ let c := s.held infoOutputOverride d; (tripped (s.accepts infoOutputOverride d) (c.f 0 1) = true))
    ∧ (∃ (d : Desc) (s : State), (Taken infoOutputOverride d s) ∧ let c := s.held infoOutputOverride d; (pwmEnabled (s.accepts infoOutputOverride d) (c.f 0 1) = true) ∧ (tripped (s.accepts infoOutputOverride d) (c.f 0 1) = false) ∧ (mayDrive (s.accepts infoOutputOverride d) = true) ∧ (c.f 1 1 = 0) ∧ ((s.m.pwmCh (c.f 0 1)).overridden = true))
    ∧ (∃ (d : Desc) (s : State), (Taken infoOutputOverride d s) ∧ let c := s.held infoOutputOverride d; (pwmEnabled (s.accepts infoOutputOverride d) (c.f 0 1) = true) ∧ (tripped (s.accepts infoOutputOverride d) (c.f 0 1) = false) ∧ (mayDrive (s.accepts infoOutputOverride d) = true) ∧ (c.f 1 1 = 0) ∧ ((s.m.pwmCh (c.f 0 1)).overridden = false))
    ∧ (∃ (d : Desc) (s : State), (Taken infoOutputOverride d s) ∧ let c := s.held infoOutputOverride d; (pwmEnabled (s.accepts infoOutputOverride d) (c.f 0 1) = true) ∧ (tripped (s.accepts infoOutputOverride d) (c.f 0 1) = false) ∧ (mayDrive (s.accepts infoOutputOverride d) = true) ∧ (c.f 1 1 = 1) ∧ (reloadIn (s.accepts infoOutputOverride d) (c.f 0 1) (16 * intakeAt s.start) = false) ∧ ((bitOf (c.f 2 1) 0 && bitOf (c.f 2 1) 1) = false))
    ∧ (∃ (d : Desc) (s : State), (Taken infoOutputOverride d s) ∧ let c := s.held infoOutputOverride d; (pwmEnabled (s.accepts infoOutputOverride d) (c.f 0 1) = true) ∧ (tripped (s.accepts infoOutputOverride d) (c.f 0 1) = false) ∧ (mayDrive (s.accepts infoOutputOverride d) = true) ∧ (c.f 1 1 = 1) ∧ (reloadIn (s.accepts infoOutputOverride d) (c.f 0 1) (16 * intakeAt s.start) = true) ∧ ((bitOf (c.f 2 1) 0 && bitOf (c.f 2 1) 1) = false))
    ∧ (∃ (d : Desc) (s : State), (Taken infoOutputOverride d s) ∧ let c := s.held infoOutputOverride d; (pwmEnabled (s.accepts infoOutputOverride d) (c.f 0 1) = true) ∧ (tripped (s.accepts infoOutputOverride d) (c.f 0 1) = false) ∧ (mayDrive (s.accepts infoOutputOverride d) = true) ∧ (c.f 1 1 = 1) ∧ (reloadIn (s.accepts infoOutputOverride d) (c.f 0 1) (16 * intakeAt s.start) = false) ∧ ((bitOf (c.f 2 1) 0 && bitOf (c.f 2 1) 1) = true)) :=
  ⟨⟨tB (([1#8, 0#8, 0#8, 1#8] ++ leBytes 4 77 ++ leBytes 2 100 ++ leBytes 2 100 ++ leBytes 2 100 ++ leBytes 2 10 ++ leBytes 4 10 ++ List.replicate 12 0#8 ++ (List.range 8).flatMap (fun _ => [0#8, 0xF#8, 0xF#8, 1#8, 1#8, 0#8, 0#8, 0#8]) ++ List.replicate 64 0#8 ++ (List.range 4).flatMap (fun _ => [0#8, 0#8] ++ leBytes 2 1 ++ leBytes 4 0 ++ leBytes 2 2 ++ leBytes 2 1 ++ leBytes 2 1 ++ leBytes 2 0) ++ List.replicate 28 0#8) ++ leBytes 4 (crc32c ([1#8, 0#8, 0#8, 1#8] ++ leBytes 4 77 ++ leBytes 2 100 ++ leBytes 2 100 ++ leBytes 2 100 ++ leBytes 2 10 ++ leBytes 4 10 ++ List.replicate 12 0#8 ++ (List.range 8).flatMap (fun _ => [0#8, 0xF#8, 0xF#8, 1#8, 1#8, 0#8, 0#8, 0#8]) ++ List.replicate 64 0#8 ++ (List.range 4).flatMap (fun _ => [0#8, 0#8] ++ leBytes 2 1 ++ leBytes 4 0 ++ leBytes 2 2 ++ leBytes 2 1 ++ leBytes 2 1 ++ leBytes 2 0) ++ List.replicate 28 0#8))), tS id, by decide +kernel⟩,
   ⟨tD [0#8], tS id, by decide +kernel⟩,
   ⟨tD [3#8], tS id, by decide +kernel⟩,
   ⟨tD [3#8, 1#8], tS id, by decide +kernel⟩,
   ⟨tD [1#8, 0#8], tA (fun m => { m with safety := { m.safety with cfg := some ⟨77, 100, 100, 100, 10, 10, List.replicate 8 inCfgOff, [⟨true, false, false, 0, 0, 0⟩], [], 0⟩ } }), by decide +kernel⟩,
   ⟨tD [1#8, 0#8], tS id, resetFails 1 tM, by decide +kernel⟩,
   ⟨tD [1#8, 1#8], tA (fun m => { m with safety := { m.safety with cfg := some ⟨77, 100, 100, 100, 10, 10, List.replicate 8 inCfgOff, [⟨true, false, false, 0, 0, 0⟩], [], 0⟩, outs := [{ safeOutInit with outLatch := true, clearable := true }] } }), by decide +kernel⟩,
   ⟨tD [1#8, 1#8], tS id, resetFails 1 (clearLatches tM), by decide +kernel⟩,
   ⟨tB (List.replicate 64 0#8), tS id, by decide +kernel⟩,
   ⟨tD [1#8], tA (fun m => { m with pwm := { m.pwm with active := 1, latched := 1 } }), by decide +kernel⟩,
   ⟨tD [2#8], tA (fun m => { m with pwm := { m.pwm with active := 1, latched := 1 } }), by decide +kernel⟩,
   ⟨tD [2#8], tA (fun m => { m with pwm := { m.pwm with active := 1, latched := 3 } }), by decide +kernel⟩,
   ⟨tD [0#8, 1#8, 1#8], tS id, by decide +kernel⟩,
   ⟨tD [0#8, 1#8, 1#8], tS fun m => { (m.setF (F.tripMapPwm 0) 1) with pwm := { m.pwm with latched := 1 } }, by decide +kernel⟩,
   ⟨tD [0#8], tS fun m => (Mach.setF { m with dev := { m.dev with state := .run } } F.pwmCtrlChEn 1).setPwm 0 { pwmChInit with forced := some (true, false) }, by decide +kernel⟩,
   ⟨tD [0#8], tS fun m => (Mach.setF { m with dev := { m.dev with state := .run } } F.pwmCtrlChEn 1), by decide +kernel⟩,
   ⟨tD [0#8, 1#8, 1#8], tS fun m => (Mach.setF { m with dev := { m.dev with state := .run } } F.pwmCtrlChEn 1), by decide +kernel⟩,
   ⟨tD [0#8, 1#8, 1#8], tS fun m => (Mach.setF { m with dev := { m.dev with state := .run } } F.pwmCtrlChEn 1).setPwm 0 { pwmChInit with startAt := some (16 * (5000000000 + 1200)) }, by decide +kernel⟩,
   ⟨tD [0#8, 1#8, 3#8], tS fun m => (Mach.setF { m with dev := { m.dev with state := .run } } F.pwmCtrlChEn 1), by decide +kernel⟩⟩

theorem witness_SecurityCommandsTakeEffect :
    (∃ (d : Desc) (s : State), (Taken infoQuote d s) ∧ let c := s.held infoQuote d; (mirrored c (s.accepts infoQuote d) = false) ∧ (s.m.sec.quote = none))
    ∧ (∃ (d : Desc) (s : State) (n : Nat), (Taken infoKeyInstall d s) ∧ let c := s.held infoKeyInstall d; (imgFails 2 (ownerSigners (s.accepts infoKeyInstall d)) c.img (s.accepts infoKeyInstall d) = some n))
    ∧ (∃ (d : Desc) (s : State), (Taken infoKeyInstall d s) ∧ let c := s.held infoKeyInstall d; let a := s.accepts infoKeyInstall d; let b := imgBody c.img; let policy := fieldLE b 1 1; (isOwner (fieldLE b 0 1) = true) ∧ (policy < 16) ∧ (allZero (sliceBytes b 2 14) = true) ∧ ((keySlot a (fieldLE b 0 1)).state = .empty))
    ∧ (∃ (d : Desc) (s : State), (Taken infoKeyRevoke d s) ∧ let c := s.held infoKeyRevoke d; let a := s.accepts infoKeyRevoke d; let b := imgBody c.img; let k := fieldLE b 0 1; ((slotIndex k).isSome = true) ∧ (allZero (sliceBytes b 1 63) = true) ∧ (slotValid a k = false ∨ (k < 2 ∧ vendorsValid a ≠ 2 ^ k) ∨ (2 ≤ k ∧ ownersValid a ≠ 2 ^ (k - 0x10))))
    ∧ (∃ (d : Desc) (s : State), (Taken infoImageStage d s) ∧ let c := s.held infoImageStage d; (s.m.dev.state ≠ .boot) ∧ (s.start.onTrial = false) ∧ (s.m.sec.staging = none))
    ∧ (∃ (d : Desc) (s : State), (Taken infoImageActivate d s) ∧ let c := s.held infoImageActivate d; (c.f 0 1 = 1) ∧ (s.m.dev.state = .run ∨ s.m.sec.staged = none))
    ∧ (∃ (d : Desc) (s : State) (v : Nat), (Taken infoImageActivate d s) ∧ let c := s.held infoImageActivate d; (c.f 0 1 = 1) ∧ (s.m.dev.state ≠ .run) ∧ (s.m.sec.staged = some v))
    ∧ (∃ (d : Desc) (s : State), (Taken infoImageActivate d s) ∧ let c := s.held infoImageActivate d; (c.f 0 1 = 2) ∧ (s.m.dev.state = .ready ∨ s.m.dev.state = .run) ∧ (s.start.onTrial = false))
    ∧ (∃ (d : Desc) (s : State), (Taken infoImageActivate d s) ∧ let c := s.held infoImageActivate d; (c.f 0 1 = 2) ∧ (s.m.dev.state = .ready ∨ s.m.dev.state = .run) ∧ (s.start.onTrial = true))
    ∧ (∃ (d : Desc) (s : State) (i : RunImage), (Taken infoImageActivate d s) ∧ let c := s.held infoImageActivate d; (c.f 0 1 = 3) ∧ (s.m.dev.state = .ready ∨ s.m.dev.state = .run) ∧ (s.start.onTrial = false) ∧ (s.m.sec.image = some i) ∧ (s.m.sec.svnMin < i.svn) ∧ (s.m.sec.stepsLeft ≠ 0))
    ∧ (∃ (d : Desc) (s : State), (Taken infoDebugUnlock d s) ∧ let c := s.held infoDebugUnlock d; (c.ptr = false) ∧ (c.f 0 1 = 1))
    ∧ (∃ (d : Desc) (s : State), (Taken infoDebugUnlock d s) ∧ let c := s.held infoDebugUnlock d; (c.ptr = false) ∧ (c.f 0 1 ≠ 1) ∧ (s.m.dbg.level = 0))
    ∧ (∃ (d : Desc) (s : State), (Taken infoDebugUnlock d s) ∧ let c := s.held infoDebugUnlock d; (c.ptr = false) ∧ (c.f 0 1 ≠ 1) ∧ (s.m.dbg.level ≠ 0))
    ∧ (∃ (d : Desc) (s : State), (Taken infoDebugUnlock d s) ∧ let c := s.held infoDebugUnlock d; let a := s.accepts infoDebugUnlock d; let r := tryToken 0x0A06 c.img a; (c.ptr = true)) :=
  ⟨⟨tD [], tS id, by decide +kernel⟩,
   ⟨tB (leBytes 4 0x4E584749 ++ leBytes 2 1 ++ [2#8, 0#8] ++ leBytes 4 64 ++ List.replicate 500 0#8 ++ [0x10#8, 0#8] ++ List.replicate 62 0#8), tS id, 1, by decide +kernel⟩,
   ⟨tB (leBytes 4 0x4E584749 ++ leBytes 2 1 ++ [2#8, 0#8] ++ leBytes 4 64 ++ List.replicate 500 0#8 ++ [0x10#8, 0#8] ++ List.replicate 62 0#8), tS id, by decide +kernel⟩,
   ⟨tB (leBytes 4 0x4E584749 ++ leBytes 2 1 ++ [3#8, 0#8] ++ leBytes 4 64 ++ List.replicate 500 0#8 ++ [1#8] ++ List.replicate 63 0#8), tS id, by decide +kernel⟩,
   ⟨tB (leBytes 4 0x4E584749 ++ leBytes 2 1 ++ [1#8, 0#8] ++ leBytes 4 64 ++ List.replicate 500 0#8 ++ List.replicate 64 0#8), tS id, by decide +kernel⟩,
   ⟨tD [1#8], tS id, by decide +kernel⟩,
   ⟨tD [1#8], tA (fun m => { m with sec := { m.sec with staged := some 2 } }), 2, by decide +kernel⟩,
   ⟨tD [2#8], tS id, by decide +kernel⟩,
   ⟨tD [2#8], tA (fun m => { m with sec := { m.sec with bootSlot := 0, bcr := some ⟨0, true, 2, 0, 4, 0⟩ } }), by decide +kernel⟩,
   ⟨tD [3#8], tA (fun m => { m with sec := { m.sec with image := some ⟨9, 1, 1, []⟩, stepsLeft := 3 } }), ⟨9, 1, 1, []⟩, by decide +kernel⟩,
   ⟨tD [1#8], tS id, by decide +kernel⟩,
   ⟨tD [2#8], tS id, by decide +kernel⟩,
   ⟨tD [2#8], tA (fun m => { m with dbg := { m.dbg with level := 2 } }), by decide +kernel⟩,
   ⟨tB (leBytes 4 0x4E584749 ++ leBytes 2 1 ++ [4#8, 0#8] ++ leBytes 4 64 ++ List.replicate 500 0#8 ++ List.replicate 64 0#8), tS id, by decide +kernel⟩⟩

theorem witness_HousekeepingCommandsComplete :
    (∃ (d : Desc) (s : State), (Taken infoNop d s))
    ∧ (∃ (d : Desc) (s : State), (Taken infoFence d s) ∧ let c := s.held infoFence d; (((s.accepts infoFence d).host.accepted.any fun p => decide (p.cmd.order < c.order) && (bitOf (c.f 0 1) 0 || p.cmd.ring == c.ring)) = false))
    ∧ (∃ (d : Desc) (s : State), (Taken infoFence d s) ∧ let c := s.held infoFence d; (((s.accepts infoFence d).host.accepted.any fun p => decide (p.cmd.order < c.order) && (bitOf (c.f 0 1) 0 || p.cmd.ring == c.ring)) = true))
    ∧ (∃ (d : Desc) (s : State) (p : Pending), (Taken infoCancel d s) ∧ let c := s.held infoCancel d; ((s.accepts infoCancel d).findCmd (c.f 0 1) (c.f 8 8) = some p) ∧ (p.inEffect = false) ∧ (p.cmd.ring ≠ c.ring ∨ p.cmd.seq ≠ c.seq))
    ∧ (∃ (d : Desc) (s : State) (p : Pending), (Taken infoCancel d s) ∧ let c := s.held infoCancel d; ((s.accepts infoCancel d).findCmd (c.f 0 1) (c.f 8 8) = some p) ∧ (p.inEffect = true))
    ∧ (∃ (d : Desc) (s : State), (Taken infoCancel d s) ∧ let c := s.held infoCancel d; ((s.accepts infoCancel d).findCmd (c.f 0 1) (c.f 8 8) = none)) :=
  ⟨⟨tD [], tS id, by decide +kernel⟩,
   ⟨tD [0#8], tS id, by decide +kernel⟩,
   ⟨tD [1#8], tA (fun m => { m with host := { m.host with accepted := [(⟨{ (tD [] : Desc).cmd 1 with ring := 3, seq := 9, first := 5, order := 0 }, false⟩ : Pending)], acceptCount := 1 } }), by decide +kernel⟩,
   ⟨tD ([3#8] ++ List.replicate 7 0#8 ++ leBytes 8 9), tA (fun m => { m with host := { m.host with accepted := [(⟨{ (tD [] : Desc).cmd 1 with ring := 3, seq := 9, first := 5, order := 0 }, false⟩ : Pending)], acceptCount := 1 } }), (⟨{ (tD [] : Desc).cmd 1 with ring := 3, seq := 9, first := 5, order := 0 }, false⟩ : Pending), by decide +kernel⟩,
   ⟨tD ([3#8] ++ List.replicate 7 0#8 ++ leBytes 8 9), tA (fun m => { m with host := { m.host with accepted := [(⟨{ (tD [] : Desc).cmd 1 with ring := 3, seq := 9, first := 5, order := 0 }, true⟩ : Pending)], acceptCount := 1 } }), (⟨{ (tD [] : Desc).cmd 1 with ring := 3, seq := 9, first := 5, order := 0 }, true⟩ : Pending), by decide +kernel⟩,
   ⟨tD ([3#8] ++ List.replicate 7 0#8 ++ leBytes 8 9), tS id, by decide +kernel⟩⟩

theorem witness_LaneTrainingStepsComplete :
    (∃ (l : Nat) (s : State), let m := s.start; (Up s) ∧ (l < 16) ∧ ((m.lane l).lock = false))
    ∧ (∃ (l : Nat) (s : State), let m := s.start; (Up s) ∧ (l < 16) ∧ ((m.lane l).lock = true) ∧ (laneEnabled m l = true) ∧ ((m.lane l).step ≤ 4))
    ∧ (∃ (l : Nat) (b : List Byte) (s : State), let m := s.start; (Up s) ∧ (l < 16) ∧ ((m.lane l).lock = true) ∧ (laneEnabled m l = true) ∧ ((m.lane l).step ≤ 4) ∧ ((frameOk b && b.length == 36 && bareHead b && fieldLE b 0 1 == 0x90) = false))
    ∧ (∃ (l : Nat) (b : List Byte) (s : State), let m := s.start; (Up s) ∧ (l < 16) ∧ ((m.lane l).lock = true) ∧ (laneEnabled m l = true) ∧ ((m.lane l).step ≤ 4) ∧ (frameOk b = true) ∧ (b.length = 36) ∧ (bareHead b = true) ∧ (fieldLE b 0 1 = 0x90) ∧ ((m.lane l).trainCount < 4095))
    ∧ (∃ (l : Nat) (b : List Byte) (s : State), let m := s.start; (Up s) ∧ (l < 16) ∧ ((m.lane l).lock = true) ∧ (laneEnabled m l = true) ∧ ((m.lane l).step ≤ 4) ∧ (frameOk b = true) ∧ (b.length = 36) ∧ (bareHead b = true) ∧ (fieldLE b 0 1 = 0x90) ∧ (4095 ≤ (m.lane l).trainCount) ∧ (bitOf (fieldLE b 1 1) 4 = true))
    ∧ (∃ (l : Nat) (b : List Byte) (s : State), let m := s.start; (Up s) ∧ (l < 16) ∧ ((m.lane l).lock = true) ∧ (laneEnabled m l = true) ∧ ((m.lane l).step ≤ 4) ∧ (frameOk b = true) ∧ (b.length = 36) ∧ (bareHead b = true) ∧ (fieldLE b 0 1 = 0x90) ∧ (4095 ≤ (m.lane l).trainCount) ∧ (bitOf (fieldLE b 1 1) 4 = false))
    ∧ (∃ (l : Nat) (s : State), let m := s.start; (Up s) ∧ (l < 16) ∧ (laneEnabled m l = true) ∧ ((m.lane l).step < 5) ∧ (oncePerSecond m (m.lane l).trainFailAt = true))
    ∧ (∃ (l : Nat) (b : List Byte) (s : State), let m := s.start; (Up s) ∧ (l < 16) ∧ ((m.lane l).lock = true) ∧ (4 ≤ (m.lane l).step) ∧ ((m.lane l).attach = .unbound) ∧ (identOk b = true) ∧ ((parseIdent b).proto = 1) ∧ ((parseIdent b).smCount ≤ (parseIdent b).cap) ∧ (1 ≤ (parseIdent b).smType) ∧ ((parseIdent b).smType ≤ 3))
    ∧ (∃ (l : Nat) (b : List Byte) (s : State), let m := s.start; (Up s) ∧ (l < 16) ∧ ((m.lane l).lock = true) ∧ ((m.lane l).step = 4) ∧ ((m.lane l).attach = .unbound) ∧ (identOk b = true) ∧ ((parseIdent b).proto ≠ 1 ∨ (parseIdent b).cap < (parseIdent b).smCount))
    ∧ (∃ (l dtQ : Nat) (b : List Byte) (s : State), let m := s.start; (Up s) ∧ (l < 16) ∧ ((m.lane l).calibrating = true) ∧ ((m.lane l).calOpen = true) ∧ (frameOk b = true) ∧ (bareHead b = true) ∧ (fieldLE b 0 1 = 0x82) ∧ (b.length = 44) ∧ ((m.lane l).samples.length + (m.lane l).lost < 63))
    ∧ (∃ (l dtQ h : Nat) (b : List Byte) (x : List Int) (s : State), let m := s.start; (Up s) ∧ (l < 16) ∧ ((m.lane l).calibrating = true) ∧ ((m.lane l).calOpen = true) ∧ (frameOk b = true) ∧ (bareHead b = true) ∧ (fieldLE b 0 1 = 0x82) ∧ (b.length = 44) ∧ ((m.lane l).samples.length + (m.lane l).lost = 63) ∧ (x = (m.lane l).samples ++ [roundDiv ((dtQ : Int) - fieldLE b 32 4 + 2 * asymOf m l) 2]) ∧ (calTest x (m.lane l).lost 1000 = none) ∧ ((m.lane l).entry = some h))
    ∧ (∃ (l : Nat) (s : State), let m := s.start; (Up s) ∧ (l < 16) ∧ ((m.lane l).calFailed = true)) :=
  ⟨⟨0, tS id, by decide +kernel⟩,
   ⟨0, tA (fun m => m.setLane 0 { laneInit with lock := true, step := 1 }), by decide +kernel⟩,
   ⟨0, [], tA (fun m => m.setLane 0 { laneInit with lock := true, step := 1 }), by decide +kernel⟩,
   ⟨0, (withCrc ([0x90#8, 0x10#8, 0#8, 0#8] ++ List.replicate 28 0#8)), tA (fun m => m.setLane 0 { laneInit with lock := true, step := 1 }), by decide +kernel⟩,
   ⟨0, (withCrc ([0x90#8, 0x10#8, 0#8, 0#8] ++ List.replicate 28 0#8)), tA (fun m => m.setLane 0 { laneInit with lock := true, step := 1, trainCount := 4095 }), by decide +kernel⟩,
   ⟨0, (withCrc ([0x90#8, 0#8, 0#8, 0#8] ++ List.replicate 28 0#8)), tA (fun m => m.setLane 0 { laneInit with lock := true, step := 1, trainCount := 4095 }), by decide +kernel⟩,
   ⟨0, tA (fun m => m.setLane 0 { laneInit with lock := true, step := 1 }), by decide +kernel⟩,
   ⟨0, tIdent 1, tA (fun m => m.setLane 0 { laneInit with lock := true, step := 4 }), by decide +kernel⟩,
   ⟨0, tIdent 2, tA (fun m => m.setLane 0 { laneInit with lock := true, step := 4 }), by decide +kernel⟩,
   ⟨0, 100, (withCrc ([0x82#8] ++ List.replicate 39 0#8)), tA (fun m => m.setLane 0 { laneInit with attach := .bound, step := 5, calOpen := true }), by decide +kernel⟩,
   ⟨0, 100, 0, (withCrc ([0x82#8] ++ List.replicate 39 0#8)), (List.replicate 63 50 ++ [roundDiv ((100 : Int) - fieldLE (withCrc ([0x82#8] ++ List.replicate 39 0#8)) 32 4 + 2 * asymOf tM 0) 2]), tA (fun m => m.setLane 0 { laneInit with attach := .bound, entry := some 0, step := 5, calOpen := true, samples := List.replicate 63 50 }), by decide +kernel⟩,
   ⟨0, tA (fun m => m.setLane 0 { laneInit with calFailed := true }), by decide +kernel⟩⟩

theorem witness_LaneLinkStepsComplete :
    (∃ (l : Nat) (s : State), let m := s.start; (Up s) ∧ (l < 16))
    ∧ (∃ (s : State), let m := s.start; (Up s))
    ∧ (∃ (l h : Nat) (c : Cdr) (s : State), let m := s.start; (Up s) ∧ (l < 16) ∧ (8 ≤ (m.lane l).step) ∧ ((m.lane l).heard = false) ∧ (m.fld F.zlTimingLossN ≤ (m.lane l).silent + 1) ∧ ((m.lane l).attach = .bound) ∧ ((m.lane l).entry = some h) ∧ (m.conv.active = some c) ∧ (m.pair.inTwin = false))
    ∧ (∃ (l h : Nat) (c : Cdr) (s : State), let m := s.start; (Up s) ∧ (l < 16) ∧ (8 ≤ (m.lane l).step) ∧ ((m.lane l).heard = false) ∧ (m.fld F.zlTimingLossN ≤ (m.lane l).silent + 1) ∧ ((m.lane l).attach = .bound) ∧ ((m.lane l).entry = some h) ∧ (m.conv.active = some c) ∧ (m.pair.inTwin = true) ∧ (bitOf (theirBound m) l = true))
    ∧ (∃ (l h : Nat) (c : Cdr) (s : State), let m := s.start; (Up s) ∧ (l < 16) ∧ (8 ≤ (m.lane l).step) ∧ ((m.lane l).heard = false) ∧ (m.fld F.zlTimingLossN ≤ (m.lane l).silent + 1) ∧ ((m.lane l).attach = .bound) ∧ ((m.lane l).entry = some h) ∧ (m.conv.active = some c) ∧ (m.pair.inTwin = true) ∧ (bitOf (theirBound m) l = false))
    ∧ (∃ (l : Nat) (s : State), let m := s.start; (Up s) ∧ (l < 16) ∧ (8 ≤ (m.lane l).step) ∧ ((m.lane l).heard = false) ∧ (m.fld F.zlTimingLossN ≤ (m.lane l).silent + 1) ∧ ((m.lane l).attach ≠ .bound))
    ∧ (∃ (l : Nat) (s : State), let m := s.start; (Up s) ∧ (l < 16) ∧ ((m.lane l).heard = true ∨ (m.lane l).silent + 1 < m.fld F.zlTimingLossN) ∧ (0 < m.fld F.zlTimingLossN))
    ∧ (∃ (l : Nat) (s : State), let m := s.start; (Up s) ∧ (l < 16) ∧ (8 ≤ (m.lane l).step) ∧ ((m.lane l).trackCount ≠ 0) ∧ (((m.lane l).trackSum - 100 * (m.lane l).trackCount * (m.lane l).d).natAbs ≤ 200 * (m.lane l).trackCount) ∧ (((m.lane l).d - (m.lane l).dCal).natAbs ≤ 16))
    ∧ (∃ (l h : Nat) (s : State), let m := s.start; (Up s) ∧ (l < 16) ∧ (8 ≤ (m.lane l).step) ∧ ((m.lane l).trackCount ≠ 0) ∧ (200 * (m.lane l).trackCount < (m.lane l).trackSum - 100 * (m.lane l).trackCount * (m.lane l).d) ∧ (((m.lane l).d + 1 - (m.lane l).dCal).natAbs ≤ 16) ∧ ((m.lane l).entry = some h))
    ∧ (∃ (l h : Nat) (s : State), let m := s.start; (Up s) ∧ (l < 16) ∧ (8 ≤ (m.lane l).step) ∧ ((m.lane l).trackCount ≠ 0) ∧ (m.lane l).trackSum - 100 * (m.lane l).trackCount * (m.lane l).d < -(200 * (m.lane l).trackCount : Int) ∧ (((m.lane l).d - 1 - (m.lane l).dCal).natAbs ≤ 16) ∧ ((m.lane l).entry = some h))
    ∧ (∃ (l h : Nat) (s : State), let m := s.start; (Up s) ∧ (l < 16) ∧ (8 ≤ (m.lane l).step) ∧ ((m.lane l).trackCount ≠ 0) ∧ (200 * (m.lane l).trackCount < (m.lane l).trackSum - 100 * (m.lane l).trackCount * (m.lane l).d) ∧ (16 < ((m.lane l).d + 1 - (m.lane l).dCal).natAbs) ∧ ((m.lane l).drifted = false) ∧ ((m.lane l).entry = some h))
    ∧ (∃ (l h : Nat) (s : State), let m := s.start; (Up s) ∧ (l < 16) ∧ (8 ≤ (m.lane l).step) ∧ ((m.lane l).trackCount ≠ 0) ∧ (m.lane l).trackSum - 100 * (m.lane l).trackCount * (m.lane l).d < -(200 * (m.lane l).trackCount : Int) ∧ (16 < ((m.lane l).d - 1 - (m.lane l).dCal).natAbs) ∧ ((m.lane l).drifted = false) ∧ ((m.lane l).entry = some h))
    ∧ (∃ (l : Nat) (s : State), let m := s.start; (Up s) ∧ (l < 16) ∧ ((m.lane l).step < 8 ∨ (m.lane l).trackCount = 0))
    ∧ (∃ (l h n : Nat) (s : State), let m := s.start; (Up s) ∧ (l < 16) ∧ (n < 256) ∧ (m.fld F.zlAdaptMarginMin ≤ n) ∧ ((m.lane l).attach = .bound) ∧ ((m.lane l).entry = some h))
    ∧ (∃ (l h n : Nat) (s : State), let m := s.start; (Up s) ∧ (l < 16) ∧ (n < 256) ∧ (n < m.fld F.zlAdaptMarginMin) ∧ ((m.lane l).attach = .bound) ∧ ((m.lane l).entry = some h) ∧ (oncePerSecond m (m.lane l).marginAt = true))
    ∧ (∃ (l n : Nat) (s : State), let m := s.start; (Up s) ∧ (l < 16) ∧ (n < 256) ∧ (n < m.fld F.zlAdaptMarginMin) ∧ ((m.lane l).entry = none) ∧ (oncePerSecond m (m.lane l).marginAt = false))
    ∧ (∃ (l n : Nat) (s : State), let m := s.start; (Up s) ∧ (l < 16) ∧ (n < 256) ∧ (m.fld F.zlAdaptMarginMin ≤ n) ∧ ((m.lane l).entry = none))
    ∧ (∃ (l n : Nat) (s : State), let m := s.start; (Up s) ∧ (l < 16) ∧ (n < 256) ∧ (n < m.fld F.zlAdaptMarginMin) ∧ ((m.lane l).entry = none) ∧ (oncePerSecond m (m.lane l).marginAt = true))
    ∧ (∃ (l : Nat) (s : State), let m := s.start; (Up s) ∧ (laneInUse l m = true))
    ∧ (∃ (l : Nat) (s : State), let m := s.start; (Up s) ∧ (laneInUse l m = false)) :=
  ⟨⟨0, tS id, by decide +kernel⟩,
   ⟨tS id, by decide +kernel⟩,
   ⟨0, 0, tCdr, tA (fun m => m.setLane 0 { laneInit with step := 8, silent := 3, attach := .bound, entry := some 0 }), by decide +kernel⟩,
   ⟨0, 0, tCdr, tA (fun m => { m.setLane 0 { laneInit with step := 8, silent := 3, attach := .bound, entry := some 0 } with pair := { m.pair with role := .senior, partner := some { tPartner with bound := 1 } } }), by decide +kernel⟩,
   ⟨0, 0, tCdr, tA (fun m => { m.setLane 0 { laneInit with step := 8, silent := 3, attach := .bound, entry := some 0 } with pair := { m.pair with role := .senior, partner := some { tPartner with bound := 0 } } }), by decide +kernel⟩,
   ⟨0, tA (fun m => m.setLane 0 { laneInit with step := 8, silent := 3 }), by decide +kernel⟩,
   ⟨0, tA (fun m => m.setLane 0 { laneInit with step := 8, heard := true }), by decide +kernel⟩,
   ⟨0, tA (fun m => m.setLane 0 { laneInit with step := 8, trackCount := 1 }), by decide +kernel⟩,
   ⟨0, 0, tA (fun m => m.setLane 0 { laneInit with step := 8, trackCount := 1, trackSum := 1000, entry := some 0 }), by decide +kernel⟩,
   ⟨0, 0, tA (fun m => m.setLane 0 { laneInit with step := 8, trackCount := 1, trackSum := -1000, entry := some 0 }), by decide +kernel⟩,
   ⟨0, 0, tA (fun m => m.setLane 0 { laneInit with step := 8, trackCount := 1, d := 16, trackSum := 2600, entry := some 0 }), by decide +kernel⟩,
   ⟨0, 0, tA (fun m => m.setLane 0 { laneInit with step := 8, trackCount := 1, d := -16, trackSum := -2600, entry := some 0 }), by decide +kernel⟩,
   ⟨0, tA (fun m => m.setLane 0 { laneInit with step := 8, heard := true }), by decide +kernel⟩,
   ⟨0, 0, 100, tA (fun m => m.setLane 0 { laneInit with attach := .bound, entry := some 0 }), by decide +kernel⟩,
   ⟨0, 0, 1, tA (fun m => m.setLane 0 { laneInit with attach := .bound, entry := some 0 }), by decide +kernel⟩,
   ⟨0, 1, tA (fun m => m.setLane 0 { laneInit with marginAt := some 0 }), by decide +kernel⟩,
   ⟨0, 100, tS id, by decide +kernel⟩,
   ⟨0, 1, tS id, by decide +kernel⟩,
   ⟨0, tS id, by decide +kernel⟩,
   ⟨64, tS id, by decide +kernel⟩⟩

theorem witness_ReportFrameIsUsedOrCounted :
    (∃ (l h : Nat) (c : Cdr) (b : List Byte) (a z : Int) (s : State), let m := s.start; (Up s) ∧ (l < 16) ∧ ((m.lane l).attach = .bound) ∧ ((m.lane l).entry = some h) ∧ (m.conv.active = some c) ∧ (frameOk b = false))
    ∧ (∃ (l h : Nat) (c : Cdr) (b : List Byte) (a z : Int) (s : State), let m := s.start; (Up s) ∧ (l < 16) ∧ ((m.lane l).attach = .bound) ∧ ((m.lane l).entry = some h) ∧ (m.conv.active = some c) ∧ (reportRes m (c.hub h) b z = .badSeq))
    ∧ (∃ (l h : Nat) (c : Cdr) (b : List Byte) (a z : Int) (s : State), let m := s.start; (Up s) ∧ (l < 16) ∧ ((m.lane l).attach = .bound) ∧ ((m.lane l).entry = some h) ∧ (m.conv.active = some c) ∧ (reportRes m (c.hub h) b z = .late))
    ∧ (∃ (l h : Nat) (c : Cdr) (b : List Byte) (a z : Int) (s : State), let m := s.start; (Up s) ∧ (l < 16) ∧ ((m.lane l).attach = .bound) ∧ ((m.lane l).entry = some h) ∧ (m.conv.active = some c) ∧ (reportRes m (c.hub h) b z = .used) ∧ (m.pair.inTwin = false) ∧ (m.dev.state ≠ .safe))
    ∧ (∃ (l h : Nat) (c : Cdr) (b : List Byte) (a z : Int) (s : State), let m := s.start; (Up s) ∧ (l < 16) ∧ ((m.lane l).attach = .bound) ∧ ((m.lane l).entry = some h) ∧ (m.conv.active = some c) ∧ (reportRes m (c.hub h) b z = .used) ∧ (m.pair.inTwin = false) ∧ (m.dev.state = .safe))
    ∧ (∃ (l h : Nat) (c : Cdr) (b : List Byte) (a z : Int) (s : State), let m := s.start; (Up s) ∧ (l < 16) ∧ ((m.lane l).attach = .bound) ∧ ((m.lane l).entry = some h) ∧ (m.conv.active = some c) ∧ (reportRes m (c.hub h) b z = .used) ∧ (m.pair.inTwin = true))
    ∧ (∃ (l h : Nat) (c : Cdr) (b : List Byte) (a z : Int) (s : State), let m := s.start; (m.alive = true) ∧ (m.pwr.held = true) ∧ (l < 16) ∧ ((m.lane l).attach = .bound) ∧ ((m.lane l).entry = some h) ∧ (m.conv.active = some c) ∧ (reportRes m (c.hub h) b z = .used))
    ∧ (∃ (l h : Nat) (c : Cdr) (b : List Byte) (a z : Int) (s : State), let m := s.start; (m.alive = true) ∧ (m.pwr.held = true) ∧ (l < 16) ∧ ((m.lane l).attach = .bound) ∧ ((m.lane l).entry = some h) ∧ (m.conv.active = some c) ∧ (reportRes m (c.hub h) b z = .badSeq))
    ∧ (∃ (l h : Nat) (c : Cdr) (b : List Byte) (a z : Int) (s : State), let m := s.start; (m.alive = true) ∧ (m.pwr.held = true) ∧ (l < 16) ∧ ((m.lane l).attach = .bound) ∧ ((m.lane l).entry = some h) ∧ (m.conv.active = some c) ∧ (frameOk b = false))
    ∧ (∃ (l : Nat) (b : List Byte) (a z : Int) (s : State), let m := s.start; (Up s) ∧ (l < 16) ∧ ((m.lane l).attach ≠ .bound)) :=
  ⟨⟨0, 0, tCdr, [], 0, 0, tA (fun m => m.setLane 0 { laneInit with step := 8, attach := .bound, entry := some 0 }), by decide +kernel⟩,
   ⟨0, 0, tCdr, tReport 6, 0, 0, tA (fun m => m.setLane 0 { laneInit with step := 8, attach := .bound, entry := some 0 }), by decide +kernel⟩,
   ⟨0, 0, tCdr, tReport 7, 0, 5000, tA (fun m => m.setLane 0 { laneInit with step := 8, attach := .bound, entry := some 0 }), by decide +kernel⟩,
   ⟨0, 0, tCdr, tReport 7, 0, 100, tA (fun m => m.setLane 0 { laneInit with step := 8, attach := .bound, entry := some 0 }), by decide +kernel⟩,
   ⟨0, 0, tCdr, tReport 7, 0, 100, tA (fun m => { m.setLane 0 { laneInit with step := 8, attach := .bound, entry := some 0 } with dev := { m.dev with state := .safe } }), by decide +kernel⟩,
   ⟨0, 0, tCdr, tReport 7, 0, 100, tA (fun m => { m.setLane 0 { laneInit with step := 8, attach := .bound, entry := some 0 } with pair := { m.pair with role := .senior, partner := some tPartner } }), by decide +kernel⟩,
   ⟨0, 0, tCdr, tReport 7, 0, 100, tA (fun m => { m.setLane 0 { laneInit with step := 8, attach := .bound, entry := some 0 } with pwr := { m.pwr with held := true } }), by decide +kernel⟩,
   ⟨0, 0, tCdr, tReport 6, 0, 0, tA (fun m => { m.setLane 0 { laneInit with step := 8, attach := .bound, entry := some 0 } with pwr := { m.pwr with held := true } }), by decide +kernel⟩,
   ⟨0, 0, tCdr, [], 0, 0, tA (fun m => { m.setLane 0 { laneInit with step := 8, attach := .bound, entry := some 0 } with pwr := { m.pwr with held := true } }), by decide +kernel⟩,
   ⟨0, [], 0, 0, tS id, by decide +kernel⟩⟩

theorem witness_TimebaseStepsComplete :
    (∃ (s : State), let m := s.start; (Up s) ∧ (m.tb.sync = .acquiring ∨ m.tb.sync = .locked))
    ∧ (∃ (at16 w a : Nat) (s : State), let m := s.start; (Up s) ∧ (100 ≤ w) ∧ (m.tb.src = .ppsi) ∧ (m.tb.ppsiAt = some a) ∧ (((m.tb.uptime : Int) + (at16 / 65536 : Nat) - m.now).toNat < a + 900000000))
    ∧ (∃ (at16 w : Nat) (s : State), let m := s.start; (Up s) ∧ (100 ≤ w) ∧ (m.tb.src = .ppsi) ∧ (m.tb.ppsiAt = none))
    ∧ (∃ (at16 w : Nat) (s : State), let m := s.start; (Up s) ∧ (w < 100 ∨ m.tb.src ≠ .ppsi))
    ∧ (∃ (ns : Nat) (s : State), let m := s.start; (m.alive = true) ∧ (m.tb.timeValid = true) ∧ ((m.now + ns : Nat) - m.sfld F.tbPpsPpsoOfs (-10000) 10000) % 1000000000 < (1000 * m.fld F.tbPpsPpsoWidth : Nat) ∧ (m.tb.ppso = false))
    ∧ (∃ (ns : Nat) (s : State), let m := s.start; (m.alive = true) ∧ (m.tb.timeValid = false ∨ (1000 * m.fld F.tbPpsPpsoWidth : Nat) ≤ ((m.now + ns : Nat) - m.sfld F.tbPpsPpsoOfs (-10000) 10000) % 1000000000) ∧ (m.tb.ppso = true))
    ∧ (∃ (p : Nat) (s : State), let m := s.start; (Up s) ∧ (m.tb.ptp.sel = some p))
    ∧ (∃ (n : Nat) (s : State), let m := s.start; (Up s) ∧ (m.tb.relock = some n))
    ∧ (∃ (s : State), let m := s.start; (Up s) ∧ (m.tb.relock = none))
    ∧ (∃ (s : State), let m := s.start; (Up s))
    ∧ (∃ (a b c : Nat) (s : State), let m := s.start; (Up s) ∧ (¬(a = b ∧ b = c)) ∧ (a = b ∨ a = c ∨ b = c))
    ∧ (∃ (a b c : Nat) (s : State), let m := s.start; (Up s) ∧ (a ≠ b) ∧ (a ≠ c) ∧ (b ≠ c))
    ∧ (∃ (s : State), let m := s.start; (Up s)) :=
  ⟨⟨tA (fun m => { m with tb := { m.tb with sync := .locked } }), by decide +kernel⟩,
   ⟨100, 100, 0, tA (fun m => { m with tb := { m.tb with src := .ppsi, ppsiAt := some 0 } }), by decide +kernel⟩,
   ⟨100, 100, tA (fun m => { m with tb := { m.tb with src := .ppsi } }), by decide +kernel⟩,
   ⟨100, 50, tS id, by decide +kernel⟩,
   ⟨0, tS id, by decide +kernel⟩,
   ⟨500000000, tA (fun m => { m with tb := { m.tb with ppso := true } }), by decide +kernel⟩,
   ⟨0, tA (fun m => { m with tb := { m.tb with ptp := { m.tb.ptp with sel := some 0 } } }), by decide +kernel⟩,
   ⟨1, tA (fun m => { m with tb := { m.tb with relock := some 1 } }), by decide +kernel⟩,
   ⟨tS id, by decide +kernel⟩,
   ⟨tS id, by decide +kernel⟩,
   ⟨1, 1, 2, tS id, by decide +kernel⟩,
   ⟨1, 2, 3, tS id, by decide +kernel⟩,
   ⟨tS id, by decide +kernel⟩⟩

theorem witness_PtpMessagesComplete :
    (∃ (p x : Nat) (a : Announce) (s : State), let m := s.start; (Up s) ∧ (p < 2) ∧ (ptpTakes m p x (.announce (m.fld F.tbCtrlDomain) a) = true) ∧ (bitOf m.tb.ports p = true) ∧ ((m.tb.ptp.port p).master = none))
    ∧ (∃ (p x src seq o rx : Nat) (c li : Int) (s : State), let m := s.start; (Up s) ∧ (p < 2) ∧ (ptpTakes m p x (.sync (m.fld F.tbCtrlDomain) src seq true o c rx li) = true) ∧ (bitOf m.tb.ports p = true) ∧ (followed m p src = true))
    ∧ (∃ (p x src seq o rx : Nat) (c li : Int) (s : State), let m := s.start; (Up s) ∧ (p < 2) ∧ (ptpTakes m p x (.sync (m.fld F.tbCtrlDomain) src seq false o c rx li) = true) ∧ (bitOf m.tb.ports p = true) ∧ (followed m p src = true))
    ∧ (∃ (p x src seq o : Nat) (c : Int) (y : SyncPend) (s : State), let m := s.start; (Up s) ∧ (p < 2) ∧ (ptpTakes m p x (.followUp (m.fld F.tbCtrlDomain) src seq o c) = true) ∧ (bitOf m.tb.ports p = true) ∧ ((m.tb.ptp.port p).sync = some y) ∧ (y.src = src) ∧ (y.seq = seq))
    ∧ (∃ (p x seq rx : Nat) (s : State), let m := s.start; (Up s) ∧ (p < 2) ∧ (ptpTakes m p x (.pdelayReq (m.fld F.tbCtrlDomain) seq rx) = true) ∧ (bitOf m.tb.ports p = true))
    ∧ (∃ (p x seq t2 rx : Nat) (c : Int) (y : PdelayPend) (s : State), let m := s.start; (Up s) ∧ (p < 2) ∧ (ptpTakes m p x (.pdelayResp (m.fld F.tbCtrlDomain) seq false t2 c rx) = true) ∧ (bitOf m.tb.ports p = true) ∧ ((m.tb.ptp.port p).pdelay = some y) ∧ (y.seq = seq))
    ∧ (∃ (p x seq t2 rx : Nat) (c : Int) (y : PdelayPend) (s : State), let m := s.start; (Up s) ∧ (p < 2) ∧ (ptpTakes m p x (.pdelayResp (m.fld F.tbCtrlDomain) seq true t2 c rx) = true) ∧ (bitOf m.tb.ports p = true) ∧ ((m.tb.ptp.port p).pdelay = some y) ∧ (y.seq = seq))
    ∧ (∃ (p x seq t2 t3 t4 : Nat) (c d : Int) (y : PdelayPend) (s : State), let m := s.start; (Up s) ∧ (p < 2) ∧ (ptpTakes m p x (.pdelayRespFollowUp (m.fld F.tbCtrlDomain) seq t3 c) = true) ∧ (bitOf m.tb.ports p = true) ∧ ((m.tb.ptp.port p).pdelay = some y) ∧ (y.seq = seq) ∧ (y.resp = some (t4, t2, d)))
    ∧ (∃ (p x : Nat) (a : PtpMsg) (s : State), let m := s.start; (Up s) ∧ (ptpTakes m p x a = false ∨ a.domain ≠ some (m.fld F.tbCtrlDomain) ∨ bitOf m.tb.ports p = false))
    ∧ (∃ (p a : Nat) (s : State), let m := s.start; (Up s) ∧ (p < 2) ∧ (bitOf m.tb.ports p = true))
    ∧ (∃ (p a : Nat) (s : State), let m := s.start; (Up s) ∧ (p < 2) ∧ (bitOf m.tb.ports p = true) ∧ ((reselect m).tb.ptp.isMaster = true))
    ∧ (∃ (p a : Nat) (s : State), let m := s.start; (Up s) ∧ (p < 2) ∧ (bitOf m.tb.ports p = true) ∧ ((reselect m).tb.ptp.isMaster = true))
    ∧ (∃ (p a : Nat) (s : State), let m := s.start; (Up s) ∧ (p < 2) ∧ (bitOf m.tb.ports p = true) ∧ ((reselect m).tb.ptp.isMaster = false))
    ∧ (∃ (p a : Nat) (s : State), let m := s.start; (Up s) ∧ (p < 2) ∧ (bitOf m.tb.ports p = true) ∧ ((reselect m).tb.ptp.isMaster = false))
    ∧ (∃ (p a : Nat) (s : State), let m := s.start; (Up s) ∧ (p < 2) ∧ (bitOf m.tb.ports p = false))
    ∧ (∃ (p a : Nat) (s : State), let m := s.start; (Up s) ∧ (p < 2) ∧ (bitOf m.tb.ports p = false))
    ∧ (∃ (p a : Nat) (s : State), let m := s.start; (Up s) ∧ (p < 2) ∧ (bitOf m.tb.ports p = false)) :=
  ⟨⟨0, 0x011B19000000, ⟨9, 128, 6, 33, 100, 128, 0, 5, 1, 37, 0⟩, tA (fun m => { m.setF F.ethCtrlEnA 1 with tb := { m.tb with ports := 3, ptp := { m.tb.ptp with ports := [{ ptpPortInit with master := none }, ptpPortInit] } } }), by decide +kernel⟩,
   ⟨0, 0x011B19000000, 5, 1, 0, 0, 0, 0, tA (fun m => { m.setF F.ethCtrlEnA 1 with tb := { m.tb with ports := 3, ptp := { m.tb.ptp with ports := [{ ptpPortInit with master := some ⟨9, 128, 6, 33, 100, 128, 0, 5, 1, 37, 0⟩ }, ptpPortInit] } } }), by decide +kernel⟩,
   ⟨0, 0x011B19000000, 5, 1, 0, 0, 0, 0, tA (fun m => { m.setF F.ethCtrlEnA 1 with tb := { m.tb with ports := 3, ptp := { m.tb.ptp with ports := [{ ptpPortInit with master := some ⟨9, 128, 6, 33, 100, 128, 0, 5, 1, 37, 0⟩ }, ptpPortInit] } } }), by decide +kernel⟩,
   ⟨0, 0x011B19000000, 5, 1, 0, 0, ⟨5, 1, 0, 0, 0⟩, tA (fun m => { m.setF F.ethCtrlEnA 1 with tb := { m.tb with ports := 3, ptp := { m.tb.ptp with ports := [{ ptpPortInit with sync := some ⟨5, 1, 0, 0, 0⟩ }, ptpPortInit] } } }), by decide +kernel⟩,
   ⟨0, pdelayDest, 1, 0, tA (fun m => { m.setF F.ethCtrlEnA 1 with tb := { m.tb with ports := 3, ptp := { m.tb.ptp with ports := [{ ptpPortInit with master := none }, ptpPortInit] } } }), by decide +kernel⟩,
   ⟨0, pdelayDest, 1, 0, 0, 0, ⟨1, 0, none⟩, tA (fun m => { m.setF F.ethCtrlEnA 1 with tb := { m.tb with ports := 3, ptp := { m.tb.ptp with ports := [{ ptpPortInit with pdelay := some ⟨1, 0, none⟩ }, ptpPortInit] } } }), by decide +kernel⟩,
   ⟨0, pdelayDest, 1, 0, 0, 0, ⟨1, 0, none⟩, tA (fun m => { m.setF F.ethCtrlEnA 1 with tb := { m.tb with ports := 3, ptp := { m.tb.ptp with ports := [{ ptpPortInit with pdelay := some ⟨1, 0, none⟩ }, ptpPortInit] } } }), by decide +kernel⟩,
   ⟨0, pdelayDest, 1, 5, 6, 7, 0, 0, ⟨1, 0, some (7, 5, 0)⟩, tA (fun m => { m.setF F.ethCtrlEnA 1 with tb := { m.tb with ports := 3, ptp := { m.tb.ptp with ports := [{ ptpPortInit with pdelay := some ⟨1, 0, some (7, 5, 0)⟩ }, ptpPortInit] } } }), by decide +kernel⟩,
   ⟨0, 0, .other, tS id, by decide +kernel⟩,
   ⟨0, 0, tA (fun m => { m.setF F.ethCtrlEnA 1 with tb := { m.tb with ports := 3, ptp := { m.tb.ptp with ports := [{ ptpPortInit with master := none }, ptpPortInit] } } }), by decide +kernel⟩,
   ⟨0, 0, tA (fun m => { (m.setF F.tbCtrlMasterEn 1).setF F.ethCtrlEnA 1 with tb := { m.tb with ports := 3 } }), by decide +kernel⟩,
   ⟨0, 0, tA (fun m => { (m.setF F.tbCtrlMasterEn 1).setF F.ethCtrlEnA 1 with tb := { m.tb with ports := 3 } }), by decide +kernel⟩,
   ⟨0, 0, tA (fun m => { m.setF F.ethCtrlEnA 1 with tb := { m.tb with ports := 3, ptp := { m.tb.ptp with ports := [{ ptpPortInit with master := none }, ptpPortInit] } } }), by decide +kernel⟩,
   ⟨0, 0, tA (fun m => { m.setF F.ethCtrlEnA 1 with tb := { m.tb with ports := 3, ptp := { m.tb.ptp with ports := [{ ptpPortInit with master := none }, ptpPortInit] } } }), by decide +kernel⟩,
   ⟨0, 0, tA (fun m => { m with tb := { m.tb with ports := 0 } }), by decide +kernel⟩,
   ⟨0, 0, tA (fun m => { m with tb := { m.tb with ports := 0 } }), by decide +kernel⟩,
   ⟨0, 0, tA (fun m => { m with tb := { m.tb with ports := 0 } }), by decide +kernel⟩⟩

theorem witness_PeriodStepsComplete :
    (∃ (env : BoundaryEnv) (s : State), let m := s.start; (m.alive = true) ∧ (m.tb.relock = none) ∧ (m.pwr.held = false) ∧ (m.inState [.boot, .recovery] = false))
    ∧ (∃ (env : BoundaryEnv) (s : State), let m := s.start; (m.alive = true) ∧ (m.tb.relock = none) ∧ (m.pwr.held = false) ∧ (m.inState [.boot, .recovery] = true))
    ∧ (∃ (env : BoundaryEnv) (s : State), let m := s.start; (m.alive = true) ∧ (m.tb.relock = none) ∧ (m.pwr.held = true))
    ∧ (∃ (env : BoundaryEnv) (s : State), let m := s.start; (m.alive = false ∨ m.tb.relock.isSome = true))
    ∧ (∃ (trips q : Nat) (s : State), let m := s.start; (m.alive = true) ∧ (m.tb.relock = none) ∧ (m.dev.intakeDone = false) ∧ (m.pwr.held = false) ∧ (m.inState [.boot, .recovery] = false))
    ∧ (∃ (trips q : Nat) (s : State), let m := s.start; (m.alive = true) ∧ (m.tb.relock = none) ∧ (m.dev.intakeDone = false) ∧ (m.pwr.held = false) ∧ (m.inState [.boot, .recovery] = true))
    ∧ (∃ (trips q : Nat) (s : State), let m := s.start; (m.alive = true) ∧ (m.tb.relock = none) ∧ (m.dev.intakeDone = false) ∧ (m.pwr.held = true))
    ∧ (∃ (trips q : Nat) (s : State), let m := s.start; (m.alive = false ∨ m.tb.relock.isSome = true ∨ m.dev.intakeDone = true)) :=
  ⟨⟨⟨true, [], 0, 0, none⟩, tS id, by decide +kernel⟩,
   ⟨⟨true, [], 0, 0, none⟩, tA (fun m => { m with dev := { m.dev with state := .boot } }), by decide +kernel⟩,
   ⟨⟨true, [], 0, 0, none⟩, tA (fun m => { m with pwr := { m.pwr with held := true } }), by decide +kernel⟩,
   ⟨⟨true, [], 0, 0, none⟩, tA (fun m => { m with dev := { m.dev with state := .off } }), by decide +kernel⟩,
   ⟨0, 0, tS id, by decide +kernel⟩,
   ⟨0, 0, tA (fun m => { m with dev := { m.dev with state := .boot } }), by decide +kernel⟩,
   ⟨0, 0, tA (fun m => { m with pwr := { m.pwr with held := true } }), by decide +kernel⟩,
   ⟨0, 0, tA (fun m => { m with dev := { m.dev with intakeDone := true } }), by decide +kernel⟩⟩

theorem witness_EvaluationEndsInCommitOrOverrun :
    (∃ (ns q : Nat) (s : State), let m := s.start; (Up s) ∧ (evaluating m = true) ∧ (ns ≤ graphBudget m.tb.p))
    ∧ (∃ (ns q : Nat) (s : State), let m := s.start; (Up s) ∧ (evaluating m = true) ∧ (graphBudget m.tb.p < ns) ∧ ((abandon true m).inState [.safe] = false))
    ∧ (∃ (ns q : Nat) (s : State), let m := s.start; (Up s) ∧ (evaluating m = true) ∧ (graphBudget m.tb.p < ns) ∧ ((abandon true m).inState [.safe] = true))
    ∧ (∃ (ns q : Nat) (s : State), let m := s.start; (Up s) ∧ (evaluating m = false))
    ∧ (∃ (q : Nat) (s : State), let m := s.start; (Up s) ∧ (evaluating m = true) ∧ ((abandon true m).inState [.safe] = false))
    ∧ (∃ (q : Nat) (s : State), let m := s.start; (Up s) ∧ (evaluating m = true) ∧ ((abandon true m).inState [.safe] = true))
    ∧ (∃ (q : Nat) (s : State), let m := s.start; (Up s) ∧ (evaluating m = false)) :=
  ⟨⟨100, 0, tA (fun m => { m with loop := { m.loop with eval := some ⟨7, [], [], [], []⟩ } }), by decide +kernel⟩,
   ⟨9000, 0, tA (fun m => { m with loop := { m.loop with eval := some ⟨7, [], [], [], []⟩ } }), by decide +kernel, by decide +kernel, by decide +kernel, by unfold Mach.inState; rw [abandon_stays _ rfl]; decide +kernel⟩,
   ⟨9000, 0, tA (fun m => { m with loop := { m.loop with eval := some ⟨7, [], [], [], []⟩, overrunLast := true } }), by decide +kernel, by decide +kernel, by decide +kernel, abandon_safe _ rfl (by decide +kernel)⟩,
   ⟨0, 0, tS id, by decide +kernel⟩,
   ⟨0, tA (fun m => { m with loop := { m.loop with eval := some ⟨7, [], [], [], []⟩ } }), by decide +kernel, by decide +kernel, by unfold Mach.inState; rw [abandon_stays _ rfl]; decide +kernel⟩,
   ⟨0, tA (fun m => { m with loop := { m.loop with eval := some ⟨7, [], [], [], []⟩, overrunLast := true } }), by decide +kernel, by decide +kernel, abandon_safe _ rfl (by decide +kernel)⟩,
   ⟨0, tS id, by decide +kernel⟩⟩

theorem witness_ReplacementMovesBlocksOnly :
    (∃ (times : List Nat) (s : State) (g : Graph) (c : Cdr) (new : List (Nat × Place)), let m := s.start; (Up s) ∧ (m.loop.graph = some g) ∧ (m.conv.active = some c) ∧ (g.replaceEn = true) ∧ (m.inState [.ready, .run] = true) ∧ (runPlacement g.blocks (stepsOf g.blocks g.params fun r => c.blockEnv r m.tb.p) ((g.blocks.zipIdx).map fun x => (x.2, predsOf (writersOf g.blocks) x.1)) g.order m.lanesOk (fun l => times.getD l 1) (remotePorts (homeOf c g.homes)) = .ok new) ∧ let lanes := (placeList g.blocks.length new).map Place.lane; let h := homeAll c g.blocks (fun i => lanes.getD i 0) g.homes; let cur := placeOn c g m.tb.p m.lanesOk (fun l => times.getD l 1) g.homes fun i => (g.places.getD i ⟨0, 0, 0⟩).lane; let costed := placeOn c g m.tb.p m.lanesOk (fun _ => 1) h.1 fun i => lanes.getD i 0; let steps := pathLength (fun _ => 1) costed; (pathLength (fun l => times.getD l 1) new * 10 ≤ pathLength (fun l => times.getD l 1) cur * 9) ∧ (twc steps ≤ graphBudget m.tb.p))
    ∧ (∃ (times : List Nat) (s : State) (g : Graph) (c : Cdr) (new : List (Nat × Place)), let m := s.start; (Up s) ∧ (m.loop.graph = some g) ∧ (m.conv.active = some c) ∧ (g.replaceEn = true) ∧ (m.inState [.ready, .run] = true) ∧ (runPlacement g.blocks (stepsOf g.blocks g.params fun r => c.blockEnv r m.tb.p) ((g.blocks.zipIdx).map fun x => (x.2, predsOf (writersOf g.blocks) x.1)) g.order m.lanesOk (fun l => times.getD l 1) (remotePorts (homeOf c g.homes)) = .ok new) ∧ let lanes := (placeList g.blocks.length new).map Place.lane; let h := homeAll c g.blocks (fun i => lanes.getD i 0) g.homes; let cur := placeOn c g m.tb.p m.lanesOk (fun l => times.getD l 1) g.homes fun i => (g.places.getD i ⟨0, 0, 0⟩).lane; let costed := placeOn c g m.tb.p m.lanesOk (fun _ => 1) h.1 fun i => lanes.getD i 0; let steps := pathLength (fun _ => 1) costed; (pathLength (fun l => times.getD l 1) cur * 9 < pathLength (fun l => times.getD l 1) new * 10 ∨ graphBudget m.tb.p < twc steps))
    ∧ (∃ (times : List Nat) (g : Graph) (s : State), let m := s.start; (Up s) ∧ (m.loop.graph = some g) ∧ (g.replaceEn = false ∨ m.inState [.ready, .run] = false)) :=
  ⟨⟨(10 :: List.replicate 63 1), tA (fun m => { m with loop := { m.loop with graph := some { tGraph with replaceEn := true } } }), { tGraph with replaceEn := true }, tCdr, tNew (10 :: List.replicate 63 1) tM { tGraph with replaceEn := true }, by decide +kernel, rfl, rfl, rfl, by decide +kernel, tNew_ok _ _ _ (by decide +kernel), by decide +kernel⟩,
   ⟨(List.replicate 64 1), tA (fun m => { m with loop := { m.loop with graph := some { tGraph with replaceEn := true } } }), { tGraph with replaceEn := true }, tCdr, tNew (List.replicate 64 1) tM { tGraph with replaceEn := true }, by decide +kernel, rfl, rfl, rfl, by decide +kernel, tNew_ok _ _ _ (by decide +kernel), by decide +kernel⟩,
   ⟨[], { tGraph with replaceEn := false }, tA (fun m => { m with loop := { m.loop with graph := some { tGraph with replaceEn := false } } }), by decide +kernel⟩⟩

theorem witness_HostServiceStepsComplete :
    (∃ (ws : List Nat) (s : State), let m := s.start; (m.service = true))
    ∧ (∃ (ws : List Nat) (s : State), let m := s.start; (m.service = false))
    ∧ (∃ (r slow : Nat) (b buf : List Byte) (s : State), let m := s.start; (fetchable r m = true) ∧ (infoOf (fieldLE b 0 2) = none))
    ∧ (∃ (r slow v w : Nat) (b buf : List Byte) (info : CmdInfo) (s : State), let m := s.start; (fetchable r m = true) ∧ (infoOf (fieldLE b 0 2) = some info) ∧ (checkCmd info (parseDesc r b buf).resv ((parseDesc r b buf).cmd (fieldLE b 0 2)) { m with host := { m.host with fetched := r :: m.host.fetched } } = some (v, w)))
    ∧ (∃ (r slow : Nat) (b buf : List Byte) (info : CmdInfo) (s : State), let m := s.start; (fetchable r m = true) ∧ (infoOf (fieldLE b 0 2) = some info) ∧ (checkCmd info (parseDesc r b buf).resv ((parseDesc r b buf).cmd (fieldLE b 0 2)) { m with host := { m.host with fetched := r :: m.host.fetched } } = none) ∧ (romRefuses ((parseDesc r b buf).cmd (fieldLE b 0 2)) { m with host := { m.host with fetched := r :: m.host.fetched } } = true))
    ∧ (∃ (r slow : Nat) (b buf : List Byte) (info : CmdInfo) (s : State), let m := s.start; (fetchable r m = true) ∧ (infoOf (fieldLE b 0 2) = some info) ∧ (checkCmd info (parseDesc r b buf).resv ((parseDesc r b buf).cmd (fieldLE b 0 2)) { m with host := { m.host with fetched := r :: m.host.fetched } } = none) ∧ (romRefuses ((parseDesc r b buf).cmd (fieldLE b 0 2)) { m with host := { m.host with fetched := r :: m.host.fetched } } = false) ∧ (m.pair.exchanging = true) ∧ (m.pair.server = true) ∧ (m.pair.role ≠ .shadow))
    ∧ (∃ (r slow : Nat) (b buf : List Byte) (info : CmdInfo) (s : State), let m := s.start; (fetchable r m = true) ∧ (infoOf (fieldLE b 0 2) = some info) ∧ (checkCmd info (parseDesc r b buf).resv ((parseDesc r b buf).cmd (fieldLE b 0 2)) { m with host := { m.host with fetched := r :: m.host.fetched } } = none) ∧ (romRefuses ((parseDesc r b buf).cmd (fieldLE b 0 2)) { m with host := { m.host with fetched := r :: m.host.fetched } } = false) ∧ (m.pair.exchanging = false))
    ∧ (∃ (r slow : Nat) (b buf : List Byte) (s : State), let m := s.start; (fetchable r m = false))
    ∧ (∃ (w : HostRead) (a : Nat) (s : State), let m := s.start; (Up s) ∧ (m.service = true) ∧ (m.host.faultAt = none) ∧ (m.pair.inTwin = false))
    ∧ (∃ (w : HostRead) (a : Nat) (s : State), let m := s.start; (Up s) ∧ (m.service = true) ∧ (0 < m.tb.k) ∧ (m.host.faultAt = some (m.tb.k - 1)) ∧ (m.pair.inTwin = false))
    ∧ (∃ (w : HostRead) (a : Nat) (s : State), let m := s.start; (Up s) ∧ (m.service = false)) :=
  ⟨⟨[0], tS id, by decide +kernel⟩,
   ⟨[0], tS fun m => { m with host := { m.host with enabled := false } }, by decide +kernel⟩,
   ⟨0, 0, (leBytes 2 0xFFFF ++ List.replicate 6 0#8 ++ leBytes 8 1 ++ List.replicate 16 0#8 ++ List.replicate 32 0#8), [], tS id, by decide +kernel⟩,
   ⟨0, 0, stMALFORMED, 1, (leBytes 2 0x0F02 ++ List.replicate 6 0#8 ++ leBytes 8 2 ++ List.replicate 16 0#8 ++ List.replicate 32 0#8), [], infoFence, tS id, by decide +kernel, rfl, by decide +kernel⟩,
   ⟨0, 0, (leBytes 2 0x0F01 ++ List.replicate 6 0#8 ++ leBytes 8 1 ++ List.replicate 16 0#8 ++ List.replicate 32 0#8), [], infoNop, tS fun m => { m with dev := { m.dev with state := .boot }, sec := { m.sec with romRing := true } }, by decide +kernel, rfl, by decide +kernel, by decide +kernel⟩,
   ⟨0, 0, (leBytes 2 0x0F01 ++ List.replicate 6 0#8 ++ leBytes 8 1 ++ List.replicate 16 0#8 ++ List.replicate 32 0#8), [], infoNop, tA (fun m => { m with pair := { m.pair with role := .senior, partner := some tPartner } }), by decide +kernel, rfl, by decide +kernel, by decide +kernel, by decide +kernel, by decide +kernel, by decide +kernel⟩,
   ⟨0, 0, (leBytes 2 0x0F01 ++ List.replicate 6 0#8 ++ leBytes 8 1 ++ List.replicate 16 0#8 ++ List.replicate 32 0#8), [], infoNop, tS id, by decide +kernel, rfl, by decide +kernel, by decide +kernel, by decide +kernel⟩,
   ⟨0, 0, [], [], tS fun m => { m with host := { m.host with enabled := false } }, by decide +kernel⟩,
   ⟨.doorbell, 0x1000, tS id, by decide +kernel⟩,
   ⟨.doorbell, 0x1000, tS fun m => { m with host := { m.host with faultAt := some 6 } }, by decide +kernel⟩,
   ⟨.doorbell, 0x1000, tS fun m => { m with host := { m.host with enabled := false } }, by decide +kernel⟩⟩

theorem witness_PairExchangeMessagesComplete :
    (∃ (p : Nat) (b : List Byte) (q : Nat) (s : State), let m := s.start; (Up s) ∧ (p < 2) ∧ ((m.path p).inService = true) ∧ (pairOk b = false))
    ∧ (∃ (p : Nat) (b : List Byte) (q : Nat) (s : State), let m := s.start; (Up s) ∧ (p < 2) ∧ ((m.path p).inService = true) ∧ (pairOk b = true) ∧ (fieldLE b 0 1 = 2) ∧ (m.pair.taken.contains (pairKey 2 b) = true ∨ m.pair.takenPrev.contains (pairKey 2 b) = true))
    ∧ (∃ (p : Nat) (b : List Byte) (s : State), let m := s.start; (Up s) ∧ (p < 2) ∧ ((m.path p).inService = true) ∧ (pairOk b = false))
    ∧ (∃ (p : Nat) (b : List Byte) (s : State), let m := s.start; (Up s) ∧ (p < 2) ∧ ((m.path p).inService = true) ∧ (pairOk b = true) ∧ (fieldLE b 0 1 = 3) ∧ (m.pair.taken.contains (pairKey 3 b) = true ∨ m.pair.takenPrev.contains (pairKey 3 b) = true))
    ∧ (∃ (p : Nat) (b : List Byte) (s : State), let m := s.start; (Up s) ∧ (p < 2) ∧ ((m.path p).inService = true) ∧ (pairOk b = false))
    ∧ (∃ (p : Nat) (b : List Byte) (s : State), let m := s.start; (Up s) ∧ (p < 2) ∧ ((m.path p).inService = true) ∧ (pairOk b = true) ∧ (fieldLE b 0 1 = 4) ∧ (m.pair.taken.contains (pairKey 4 b) = true ∨ m.pair.takenPrev.contains (pairKey 4 b) = true))
    ∧ (∃ (p : Nat) (b : List Byte) (a z : Int) (s : State), let m := s.start; (Up s) ∧ (p < 2) ∧ ((m.path p).inService = true) ∧ (pairOk b = false))
    ∧ (∃ (p : Nat) (b : List Byte) (a z : Int) (s : State), let m := s.start; (Up s) ∧ (p < 2) ∧ ((m.path p).inService = true) ∧ (pairOk b = true) ∧ (fieldLE b 0 1 = 5) ∧ (m.pair.taken.contains (pairKey 5 b) = true ∨ m.pair.takenPrev.contains (pairKey 5 b) = true))
    ∧ (∃ (p : Nat) (b : List Byte) (i : Option Image) (s : State), let m := s.start; (Up s) ∧ (p < 2) ∧ ((m.path p).inService = true) ∧ (pairOk b = false))
    ∧ (∃ (p : Nat) (b : List Byte) (i : Option Image) (s : State), let m := s.start; (Up s) ∧ (p < 2) ∧ ((m.path p).inService = true) ∧ (pairOk b = true) ∧ (fieldLE b 0 1 = 6) ∧ (m.pair.taken.contains (pairKey 6 b) = true ∨ m.pair.takenPrev.contains (pairKey 6 b) = true))
    ∧ (∃ (p : Nat) (b : List Byte) (ns : Nat) (s : State), let m := s.start; (Up s) ∧ (p < 2) ∧ ((m.path p).inService = true) ∧ (pairOk b = false))
    ∧ (∃ (p : Nat) (b : List Byte) (ns : Nat) (s : State), let m := s.start; (Up s) ∧ (p < 2) ∧ ((m.path p).inService = true) ∧ (pairOk b = true) ∧ (fieldLE b 0 1 = 7) ∧ (m.pair.taken.contains (pairKey 7 b) = true ∨ m.pair.takenPrev.contains (pairKey 7 b) = true))
    ∧ (∃ (p : Nat) (b : List Byte) (s : State), let m := s.start; (Up s) ∧ (p < 2) ∧ ((m.path p).inService = true) ∧ (pairOk b = false))
    ∧ (∃ (p : Nat) (b : List Byte) (s : State), let m := s.start; (Up s) ∧ (p < 2) ∧ ((m.path p).inService = true) ∧ (pairOk b = true) ∧ (fieldLE b 0 1 = 8) ∧ (m.pair.taken.contains (pairKey 8 b) = true ∨ m.pair.takenPrev.contains (pairKey 8 b) = true))
    ∧ (∃ (p : Nat) (b : List Byte) (i : Option Image) (s : State), let m := s.start; (Up s) ∧ (p < 2) ∧ ((m.path p).inService = true) ∧ (pairOk b = false))
    ∧ (∃ (p : Nat) (b : List Byte) (i : Option Image) (s : State), let m := s.start; (Up s) ∧ (p < 2) ∧ ((m.path p).inService = true) ∧ (pairOk b = true) ∧ (fieldLE b 0 1 = 9) ∧ (m.pair.taken.contains (pairKey 9 b) = true ∨ m.pair.takenPrev.contains (pairKey 9 b) = true))
    ∧ (∃ (p : Nat) (b : List Byte) (q : Nat) (s : State), let m := s.noted p 2 b; (PairIn p 2 b s) ∧ (fieldLE b 8 8 = s.m.tb.k) ∧ (s.m.pair.held = true))
    ∧ (∃ (p : Nat) (b : List Byte) (q : Nat) (s : State), let m := s.noted p 2 b; (PairIn p 2 b s) ∧ (fieldLE b 8 8 = s.m.tb.k) ∧ (s.m.pair.held = false) ∧ (s.m.pair.inTwin = true))
    ∧ (∃ (p : Nat) (b : List Byte) (q : Nat) (s : State), let m := s.noted p 2 b; (PairIn p 2 b s) ∧ (fieldLE b 8 8 = s.m.tb.k) ∧ (s.m.pair.held = false) ∧ (s.m.pair.inTwin = false))
    ∧ (∃ (p : Nat) (b : List Byte) (q : Nat) (s : State), let m := s.noted p 2 b; (PairIn p 2 b s) ∧ (fieldLE b 8 8 ≠ s.m.tb.k))
    ∧ (∃ (p : Nat) (b : List Byte) (s : State), let m := s.noted p 3 b; (PairIn p 3 b s) ∧ (fieldLE b 8 8 = s.m.tb.k) ∧ (s.m.dev.intakeDone = false))
    ∧ (∃ (p : Nat) (b : List Byte) (s : State), let m := s.noted p 3 b; (PairIn p 3 b s) ∧ (fieldLE b 8 8 ≠ s.m.tb.k ∨ s.m.dev.intakeDone = true))
    ∧ (∃ (p : Nat) (b : List Byte) (s : State), let m := s.noted p 4 b; (PairIn p 4 b s) ∧ (fieldLE b 8 8 = s.m.tb.k))
    ∧ (∃ (p : Nat) (b : List Byte) (s : State), let m := s.noted p 4 b; (PairIn p 4 b s) ∧ (fieldLE b 8 8 ≠ s.m.tb.k))
    ∧ (∃ (p : Nat) (b : List Byte) (a z : Int) (s : State), let m := s.noted p 5 b; (PairIn p 5 b s) ∧ (fieldLE b 8 8 = s.m.tb.k))
    ∧ (∃ (p : Nat) (b : List Byte) (a z : Int) (s : State), let m := s.noted p 5 b; (PairIn p 5 b s) ∧ (fieldLE b 8 8 ≠ s.m.tb.k))
    ∧ (∃ (p : Nat) (b : List Byte) (s : State), let m := s.noted p 6 b; (PairIn p 6 b s) ∧ (s.m.pair.journal = []) ∧ (descPayload (sliceBytes (pairBody b) 8 64) ≤ ((pairBody b).drop 72).length))
    ∧ (∃ (p : Nat) (b : List Byte) (i : Image) (c : CopySt) (s : State), let m := s.noted p 6 b; (PairIn p 6 b s) ∧ (s.m.pair.role = .shadow) ∧ (s.m.pair.copy = some c) ∧ (c.verified = none))
    ∧ (∃ (p : Nat) (b : List Byte) (ns : Nat) (c : Cmd) (s : State), let m := s.noted p 7 b; (PairIn p 7 b s) ∧ (s.m.host.jackWait.find? (fun c => c.ring == fieldLE (pairBody b) 0 1 && c.seq == fieldLE (pairBody b) 8 8) = some c) ∧ (cplRoom c.ring m = true))
    ∧ (∃ (p : Nat) (b : List Byte) (ns : Nat) (c : Cmd) (s : State), let m := s.noted p 7 b; (PairIn p 7 b s) ∧ (s.m.host.jackWait.find? (fun c => c.ring == fieldLE (pairBody b) 0 1 && c.seq == fieldLE (pairBody b) 8 8) = some c) ∧ (cplRoom c.ring m = false))
    ∧ (∃ (p : Nat) (b : List Byte) (j : JournalCopy) (s : State), let m := s.noted p 8 b; (PairIn p 8 b s) ∧ (fieldLE (pairBody b) 16 1 = stACCEPTED) ∧ (s.m.pair.journal = [j]) ∧ (j.ring = fieldLE (pairBody b) 0 1) ∧ (fieldLE j.desc 8 8 = fieldLE (pairBody b) 8 8) ∧ (j.complete = true))
    ∧ (∃ (p : Nat) (b : List Byte) (s : State), let m := s.noted p 8 b; (PairIn p 8 b s) ∧ (fieldLE (pairBody b) 16 1 ≠ stACCEPTED) ∧ (fieldLE (pairBody b) 8 8 ≠ (m.pairRings.getD (fieldLE (pairBody b) 0 1) ringInit).nextSeq))
    ∧ (∃ (p : Nat) (b : List Byte) (image : Option Image) (c : CopySt) (s : State), let m := s.noted p 9 b; (PairIn p 9 b s) ∧ (s.m.pair.role = .shadow) ∧ (s.m.pair.copy = some c) ∧ (c.chunks = []) ∧ (1 < fieldLE (pairBody b) 4 4)) :=
  ⟨⟨0, [], 0, tPath id, by decide +kernel⟩,
   ⟨0, (tPair 2 0 (List.replicate 16 0#8)), 0, tPath (fun m => { m with pair := { m.pair with taken := [pairKey 2 (tPair 2 0 (List.replicate 16 0#8))] } }), by decide +kernel⟩,
   ⟨0, [], tPath id, by decide +kernel⟩,
   ⟨0, (tPair 3 0 (List.replicate 16 0#8)), tPath (fun m => { m with pair := { m.pair with taken := [pairKey 3 (tPair 3 0 (List.replicate 16 0#8))] } }), by decide +kernel⟩,
   ⟨0, [], tPath id, by decide +kernel⟩,
   ⟨0, (tPair 4 0 (List.replicate 16 0#8)), tPath (fun m => { m with pair := { m.pair with taken := [pairKey 4 (tPair 4 0 (List.replicate 16 0#8))] } }), by decide +kernel⟩,
   ⟨0, [], 0, 0, tPath id, by decide +kernel⟩,
   ⟨0, (tPair 5 0 (List.replicate 16 0#8)), 0, 0, tPath (fun m => { m with pair := { m.pair with taken := [pairKey 5 (tPair 5 0 (List.replicate 16 0#8))] } }), by decide +kernel⟩,
   ⟨0, [], none, tPath id, by decide +kernel⟩,
   ⟨0, (tPair 6 0 (List.replicate 16 0#8)), none, tPath (fun m => { m with pair := { m.pair with taken := [pairKey 6 (tPair 6 0 (List.replicate 16 0#8))] } }), by decide +kernel⟩,
   ⟨0, [], 0, tPath id, by decide +kernel⟩,
   ⟨0, (tPair 7 0 (List.replicate 16 0#8)), 0, tPath (fun m => { m with pair := { m.pair with taken := [pairKey 7 (tPair 7 0 (List.replicate 16 0#8))] } }), by decide +kernel⟩,
   ⟨0, [], tPath id, by decide +kernel⟩,
   ⟨0, (tPair 8 0 (List.replicate 16 0#8)), tPath (fun m => { m with pair := { m.pair with taken := [pairKey 8 (tPair 8 0 (List.replicate 16 0#8))] } }), by decide +kernel⟩,
   ⟨0, [], none, tPath id, by decide +kernel⟩,
   ⟨0, (tPair 9 0 (List.replicate 16 0#8)), none, tPath (fun m => { m with pair := { m.pair with taken := [pairKey 9 (tPair 9 0 (List.replicate 16 0#8))] } }), by decide +kernel⟩,
   ⟨0, (tPair 2 0 (List.replicate 16 0#8)), 0, tPath (fun m => { m with pair := { m.pair with held := true } }), by decide +kernel⟩,
   ⟨0, (tPair 2 0 (List.replicate 16 0#8)), 0, tPath (fun m => { m with pair := { m.pair with role := .senior, partner := some tPartner } }), by decide +kernel⟩,
   ⟨0, (tPair 2 0 (List.replicate 16 0#8)), 0, tPath id, by decide +kernel⟩,
   ⟨0, (tPair 2 0 (List.replicate 16 0#8)), 0, tPath (fun m => { m with tb := { m.tb with k := 8 } }), by decide +kernel⟩,
   ⟨0, tPair 3 0 (List.replicate 16 0#8), tPath id, by decide +kernel⟩,
   ⟨0, tPair 3 0 (List.replicate 16 0#8), tPath (fun m => { m with tb := { m.tb with k := 8 } }), by decide +kernel⟩,
   ⟨0, tPair 4 0 (List.replicate 16 0#8), tPath id, by decide +kernel⟩,
   ⟨0, tPair 4 0 (List.replicate 16 0#8), tPath (fun m => { m with tb := { m.tb with k := 8 } }), by decide +kernel⟩,
   ⟨0, tPair 5 0 (List.replicate 16 0#8), 0, 0, tPath id, by decide +kernel⟩,
   ⟨0, tPair 5 0 (List.replicate 16 0#8), 0, 0, tPath (fun m => { m with tb := { m.tb with k := 8 } }), by decide +kernel⟩,
   ⟨0, tPair 6 0 (List.replicate 72 0#8), tPath id, by decide +kernel⟩,
   ⟨0, tPair 6 0 (List.replicate 72 0#8), (⟨7, 1, 0#64, [], machInit.conv, machInit.loop, machInit.mode, machInit.flow, machInit.host, [], machInit.net, [], false⟩ : Image), ⟨[], 0, none, 0, 0, none, none, false⟩, tPath (fun m => { m with pair := { m.pair with role := .shadow, copy := some ⟨[], 0, none, 0, 0, none, none, false⟩ } }), by decide +kernel⟩,
   ⟨0, tPair 7 0 (List.replicate 8 0#8 ++ leBytes 8 1), 0, (⟨0x0F01, 0, 1, 0, 0, 0, 0, [], [], 0, none, 0, false, none⟩ : Cmd), tPath (fun m => { m with host := { m.host with jackWait := [(⟨0x0F01, 0, 1, 0, 0, 0, 0, [], [], 0, none, 0, false, none⟩ : Cmd)] } }), by decide +kernel⟩,
   ⟨0, tPair 7 0 (List.replicate 8 0#8 ++ leBytes 8 1), 0, (⟨0x0F01, 0, 1, 0, 0, 0, 0, [], [], 0, none, 0, false, none⟩ : Cmd), tPath (fun m => { m with host := { m.host with jackWait := [(⟨0x0F01, 0, 1, 0, 0, 0, 0, [], [], 0, none, 0, false, none⟩ : Cmd)], rings := [{ ringInit with cmdE := 16, cplE := 16, cplPi := 16 }] } }), by decide +kernel⟩,
   ⟨0, tPair 8 0 (List.replicate 8 0#8 ++ leBytes 8 5 ++ [0x0#8] ++ List.replicate 15 0#8), ⟨0, List.replicate 8 0#8 ++ leBytes 8 5 ++ List.replicate 48 0#8, [], true, none⟩, tPath (fun m => { m with pair := { m.pair with journal := [⟨0, List.replicate 8 0#8 ++ leBytes 8 5 ++ List.replicate 48 0#8, [], true, none⟩] } }), by decide +kernel⟩,
   ⟨0, tPair 8 0 (List.replicate 8 0#8 ++ leBytes 8 5 ++ [0xEE#8] ++ List.replicate 15 0#8), tPath id, by decide +kernel⟩,
   ⟨0, tPair 9 0 (leBytes 4 0 ++ leBytes 4 2 ++ List.replicate 8 0#8), none, ⟨[], 0, none, 0, 0, none, none, false⟩, tPath (fun m => { m with pair := { m.pair with role := .shadow, copy := some ⟨[], 0, none, 0, 0, none, none, false⟩ } }), by decide +kernel⟩⟩

theorem witness_PairControlMessagesComplete :
    (∃ (p : Nat) (b : List Byte) (s : State), let m := s.noted p 10 b; (PairIn p 10 b s) ∧ (fieldLE (pairBody b) 0 1 = 1) ∧ (s.m.pair.role = .solo) ∧ (s.m.pair.acceptJoin = true) ∧ (s.m.dev.state = .ready ∨ s.m.dev.state = .run) ∧ (joinFailing (pairBody b) m = none))
    ∧ (∃ (p : Nat) (b : List Byte) (s : State), let m := s.noted p 10 b; (PairIn p 10 b s) ∧ (fieldLE (pairBody b) 0 1 = 1) ∧ (s.m.pair.role = .solo) ∧ (s.m.pair.acceptJoin = false))
    ∧ (∃ (p : Nat) (b : List Byte) (s : State), let m := s.noted p 10 b; (PairIn p 10 b s) ∧ (fieldLE (pairBody b) 0 1 = 1) ∧ (s.m.pair.role = .solo) ∧ (s.m.pair.acceptJoin = true) ∧ (s.m.dev.state ≠ .ready) ∧ (s.m.dev.state ≠ .run))
    ∧ (∃ (p : Nat) (b : List Byte) (n : Nat) (s : State), let m := s.noted p 10 b; (PairIn p 10 b s) ∧ (fieldLE (pairBody b) 0 1 = 1) ∧ (s.m.pair.role = .solo) ∧ (s.m.pair.acceptJoin = true) ∧ (s.m.dev.state = .ready ∨ s.m.dev.state = .run) ∧ (joinFailing (pairBody b) m = some n))
    ∧ (∃ (p : Nat) (b : List Byte) (s : State), let m := s.noted p 10 b; (PairIn p 10 b s) ∧ (fieldLE (pairBody b) 0 1 = 1) ∧ (s.m.pair.inTwin = true ∨ (s.m.pair.role ≠ .solo ∧ s.m.pair.role ≠ .senior)))
    ∧ (∃ (p : Nat) (b : List Byte) (s : State), let m := s.noted p 10 b; (PairIn p 10 b s) ∧ (fieldLE (pairBody b) 0 1 = 1) ∧ (s.m.pair.role = .senior) ∧ (s.m.pair.inTwin = false) ∧ (s.m.dev.state = .ready ∨ s.m.dev.state = .run) ∧ (joinFailing (pairBody b) m = none))
    ∧ (∃ (p : Nat) (b : List Byte) (n : Nat) (s : State), let m := s.noted p 10 b; (PairIn p 10 b s) ∧ (fieldLE (pairBody b) 0 1 = 1) ∧ (s.m.pair.role = .senior) ∧ (s.m.pair.inTwin = false) ∧ (s.m.dev.state = .ready ∨ s.m.dev.state = .run) ∧ (joinFailing (pairBody b) m = some n))
    ∧ (∃ (p : Nat) (b : List Byte) (s : State), let m := s.noted p 10 b; (PairIn p 10 b s) ∧ (fieldLE (pairBody b) 0 1 = 1) ∧ (s.m.pair.role = .senior) ∧ (s.m.pair.inTwin = false) ∧ (s.m.dev.state ≠ .ready) ∧ (s.m.dev.state ≠ .run))
    ∧ (∃ (p : Nat) (b : List Byte) (s : State), let m := s.noted p 10 b; (PairIn p 10 b s) ∧ (fieldLE (pairBody b) 0 1 = 2) ∧ (s.m.pair.role = .shadow) ∧ (joinFailing (pairBody b) m = none) ∧ (s.m.pair.copy = none))
    ∧ (∃ (p : Nat) (b : List Byte) (n : Nat) (s : State), let m := s.noted p 10 b; (PairIn p 10 b s) ∧ (fieldLE (pairBody b) 0 1 = 2) ∧ (s.m.pair.role = .shadow) ∧ (joinFailing (pairBody b) m = some n))
    ∧ (∃ (p : Nat) (b : List Byte) (s : State), let m := s.noted p 10 b; (PairIn p 10 b s) ∧ (fieldLE (pairBody b) 0 1 = 3) ∧ (s.m.pair.role = .shadow))
    ∧ (∃ (p : Nat) (b : List Byte) (s : State), let m := s.noted p 10 b; (PairIn p 10 b s) ∧ (fieldLE (pairBody b) 0 1 = 3) ∧ (s.m.pair.role ≠ .shadow) ∧ (s.m.pair.roleDue ≠ some .shadow))
    ∧ (∃ (p : Nat) (b : List Byte) (s : State), let m := s.noted p 10 b; (PairIn p 10 b s) ∧ (fieldLE (pairBody b) 0 1 = 4) ∧ (s.m.pair.role = .senior))
    ∧ (∃ (p : Nat) (b : List Byte) (s : State), let m := s.noted p 10 b; (PairIn p 10 b s) ∧ (fieldLE (pairBody b) 0 1 = 4) ∧ (s.m.pair.role = .shadow))
    ∧ (∃ (p : Nat) (b : List Byte) (s : State), let m := s.noted p 10 b; (PairIn p 10 b s) ∧ (fieldLE (pairBody b) 0 1 = 4) ∧ (s.m.pair.role ≠ .senior) ∧ (s.m.pair.role ≠ .shadow))
    ∧ (∃ (p : Nat) (b : List Byte) (s : State), let m := s.noted p 10 b; (PairIn p 10 b s) ∧ (fieldLE (pairBody b) 0 1 = 5) ∧ (s.m.pair.role = .twin) ∧ (s.m.pair.inTwin = true) ∧ (fieldLE (pairBody b) 4 4 = s.m.pair.epoch + 1) ∧ (s.m.pair.epoch < 0x7FFFFFFF))
    ∧ (∃ (p : Nat) (b : List Byte) (s : State), let m := s.noted p 10 b; (PairIn p 10 b s) ∧ (fieldLE (pairBody b) 0 1 = 5) ∧ (s.m.pair.inTwin = false ∨ fieldLE (pairBody b) 4 4 ≠ s.m.pair.epoch + 1))
    ∧ (∃ (p : Nat) (b : List Byte) (s : State), let m := s.noted p 10 b; (PairIn p 10 b s) ∧ (fieldLE (pairBody b) 0 1 = 6) ∧ (s.m.pair.role = .senior) ∧ (s.m.pair.copy.isSome = true))
    ∧ (∃ (p : Nat) (b : List Byte) (s : State), let m := s.noted p 10 b; (PairIn p 10 b s) ∧ (fieldLE (pairBody b) 0 1 = 6) ∧ (s.m.pair.role ≠ .senior ∨ s.m.pair.copy = none))
    ∧ (∃ (p : Nat) (b : List Byte) (s : State), let m := s.noted p 11 b; (PairIn p 11 b s))
    ∧ (∃ (p : Nat) (b : List Byte) (s : State), let m := s.noted p 11 b; (PairIn p 11 b s) ∧ (s.m.pair.role = .solo)) :=
  ⟨⟨0, tPair 10 0 (leBytes 4 1 ++ leBytes 4 0 ++ joinDigests tM), tPath (fun m => { m with pair := { m.pair with acceptJoin := true, partner := some tPartner } }), by decide +kernel⟩,
   ⟨0, tPair 10 0 (leBytes 4 1 ++ leBytes 4 0 ++ joinDigests tM), tPath id, by decide +kernel⟩,
   ⟨0, tPair 10 0 (leBytes 4 1 ++ leBytes 4 0 ++ joinDigests tM), tPath (fun m => { m with dev := { m.dev with state := .safe }, pair := { m.pair with acceptJoin := true } }), by decide +kernel⟩,
   ⟨0, tPair 10 0 (leBytes 4 1 ++ leBytes 4 0 ++ joinDigests tM), 1, tPath (fun m => { m with pair := { m.pair with acceptJoin := true } }), by decide +kernel⟩,
   ⟨0, tPair 10 0 (leBytes 4 1 ++ leBytes 4 0 ++ joinDigests tM), tPath (fun m => { m with pair := { m.pair with role := .shadow } }), by decide +kernel⟩,
   ⟨0, tPair 10 0 (leBytes 4 1 ++ leBytes 4 0 ++ joinDigests tM), tPath (fun m => { m with pair := { m.pair with role := .senior, partner := some { tPartner with role := 1 } } }), by decide +kernel⟩,
   ⟨0, tPair 10 0 (leBytes 4 1 ++ leBytes 4 0 ++ joinDigests tM), 1, tPath (fun m => { m with pair := { m.pair with role := .senior } }), by decide +kernel⟩,
   ⟨0, tPair 10 0 (leBytes 4 1 ++ leBytes 4 0 ++ joinDigests tM), tPath (fun m => { m with dev := { m.dev with state := .safe }, pair := { m.pair with role := .senior, partner := some { tPartner with role := 1 } } }), by decide +kernel⟩,
   ⟨0, tPair 10 0 (leBytes 4 2 ++ leBytes 4 0 ++ joinDigests tM), tPath (fun m => { m with pair := { m.pair with role := .shadow, partner := some tPartner } }), by decide +kernel⟩,
   ⟨0, tPair 10 0 (leBytes 4 2 ++ leBytes 4 0 ++ joinDigests tM), 1, tPath (fun m => { m with pair := { m.pair with role := .shadow } }), by decide +kernel⟩,
   ⟨0, tPair 10 0 (leBytes 4 3 ++ leBytes 4 0 ++ joinDigests tM), tPath (fun m => { m with pair := { m.pair with role := .shadow } }), by decide +kernel⟩,
   ⟨0, tPair 10 0 (leBytes 4 3 ++ leBytes 4 0 ++ joinDigests tM), tPath id, by decide +kernel⟩,
   ⟨0, tPair 10 0 (leBytes 4 4 ++ leBytes 4 0 ++ joinDigests tM), tPath (fun m => { m with pair := { m.pair with role := .senior } }), by decide +kernel⟩,
   ⟨0, tPair 10 0 (leBytes 4 4 ++ leBytes 4 0 ++ joinDigests tM), tPath (fun m => { m with pair := { m.pair with role := .shadow } }), by decide +kernel⟩,
   ⟨0, tPair 10 0 (leBytes 4 4 ++ leBytes 4 0 ++ joinDigests tM), tPath id, by decide +kernel⟩,
   ⟨0, tPair 10 0 (leBytes 4 5 ++ leBytes 4 1 ++ joinDigests tM), tPath (fun m => { m with pair := { m.pair with role := .twin, epoch := 0, partner := some tPartner } }), by decide +kernel⟩,
   ⟨0, tPair 10 0 (leBytes 4 5 ++ leBytes 4 0 ++ joinDigests tM), tPath id, by decide +kernel⟩,
   ⟨0, tPair 10 0 (leBytes 4 6 ++ leBytes 4 0 ++ joinDigests tM), tPath (fun m => { m with pair := { m.pair with role := .senior, copy := some ⟨[], 0, none, 0, 0, none, none, false⟩ } }), by decide +kernel⟩,
   ⟨0, tPair 10 0 (leBytes 4 6 ++ leBytes 4 0 ++ joinDigests tM), tPath id, by decide +kernel⟩,
   ⟨0, tPair 11 0 (List.replicate 8 0#8), tPath id, by decide +kernel⟩,
   ⟨0, tPair 11 0 (List.replicate 8 0#8), tPath id, by decide +kernel⟩⟩

theorem witness_PairPathStepsComplete :
    (∃ (p q : Nat) (b : List Byte) (s : State), let m := s.start; (Up s) ∧ (p < 2) ∧ ((m.path p).inService = true) ∧ (pairOk b = true) ∧ (fieldLE b 0 1 = 1) ∧ (fieldLE b 1 1 % 2 ≠ m.pair.unit % 2) ∧ ((parsePartner b).devState ≠ 5) ∧ (m.pair.role = .solo) ∧ (m.tb.src ≠ .pair))
    ∧ (∃ (p q : Nat) (b : List Byte) (s : State), let m := s.start; (Up s) ∧ (p < 2) ∧ ((m.path p).inService = true) ∧ (pairOk b = true) ∧ (fieldLE b 0 1 = 1) ∧ (fieldLE b 1 1 % 2 = m.pair.unit % 2) ∧ (m.pair.role = .solo))
    ∧ (∃ (p q : Nat) (b : List Byte) (s : State), let m := s.start; (Up s) ∧ (p < 2) ∧ ((m.path p).inService = true) ∧ (pairOk b = false))
    ∧ (∃ (s : State), let m := s.start; (Up s) ∧ (m.pair.partner.isSome = true) ∧ (m.fld F.pairCtrlHbMiss ≤ (if m.pair.heard then 0 else if m.dev.intakeDone then m.pair.missed else m.pair.missed + 1)))
    ∧ (∃ (s : State), let m := s.start; (Up s) ∧ (m.pair.partner = none))
    ∧ (∃ (q : Nat) (a : CutMsg) (s : State), let m := s.start; (Up s) ∧ (m.pair.held = true) ∧ (m.pair.cutOwn = some a))
    ∧ (∃ (q : Nat) (s : State), let m := s.start; (Up s) ∧ (m.pair.held = false))
    ∧ (∃ (c : CopySt) (s : State), let m := s.start; (Up s) ∧ (m.pair.role = .shadow) ∧ (m.pair.copy = some c) ∧ (c.verified = none) ∧ (c.attempts < m.fld F.pairCtrlCopyRetry))
    ∧ (∃ (c : CopySt) (s : State), let m := s.start; (Up s) ∧ (m.pair.role = .shadow) ∧ (m.pair.copy = some c) ∧ (c.verified = none) ∧ (m.fld F.pairCtrlCopyRetry ≤ c.attempts))
    ∧ (∃ (s : State), let m := s.start; (Up s) ∧ (m.pair.role ≠ .shadow ∨ m.pair.copy = none))
    ∧ (∃ (s : State), let m := s.start; (Up s) ∧ (m.pair.exchanging = true) ∧ (m.pair.cutAgree = false))
    ∧ (∃ (s : State), let m := s.start; (Up s) ∧ (m.pair.exchanging = false ∨ m.pair.cutAgree = true))
    ∧ (∃ (cells : List Host.Cell) (s : State), let m := s.start; (Up s) ∧ (m.pair.server = false) ∧ (mayServe m = true) ∧ (m.hostReach = true))
    ∧ (∃ (cells : List Host.Cell) (s : State), let m := s.start; (Up s) ∧ (m.pair.server = true ∨ mayServe m = false ∨ m.hostReach = false))
    ∧ (∃ (p : Nat) (s : State), let m := s.start; (Up s) ∧ (p < 2) ∧ ((m.path p).lock = false))
    ∧ (∃ (p : Nat) (s : State), let m := s.start; (Up s) ∧ (p < 2) ∧ ((m.path p).lock = true) ∧ ((m.path p).inService = false) ∧ ((m.path p).step < 4))
    ∧ (∃ (p : Nat) (b : List Byte) (s : State), let m := s.start; (Up s) ∧ (p < 2) ∧ ((m.path p).lock = true) ∧ ((m.path p).inService = false) ∧ (pairOk b = true) ∧ (fieldLE b 0 1 = 0x10) ∧ (4095 ≤ (m.path p).trainCount))
    ∧ (∃ (p : Nat) (b : List Byte) (s : State), let m := s.start; (Up s) ∧ (p < 2) ∧ ((m.path p).lock = true) ∧ ((m.path p).inService = false) ∧ (pairOk b = true) ∧ (fieldLE b 0 1 = 0x10) ∧ ((m.path p).trainCount < 4095))
    ∧ (∃ (p : Nat) (b : List Byte) (s : State), let m := s.start; (Up s) ∧ (p < 2) ∧ ((m.path p).lock = true) ∧ ((m.path p).inService = false) ∧ (pairOk b = true) ∧ (fieldLE b 0 1 ≠ 0x10))
    ∧ (∃ (p : Nat) (b : List Byte) (s : State), let m := s.start; (Up s) ∧ (p < 2) ∧ ((m.path p).lock = true) ∧ ((m.path p).inService = false) ∧ (pairOk b = false))
    ∧ (∃ (p : Nat) (l : List Int) (s : State), let m := s.start; (Up s) ∧ (p < 2) ∧ ((m.path p).inService = false) ∧ ((m.path p).step = 3) ∧ ((m.path p).farReady = true) ∧ ((m.path p).calFailed = false) ∧ ((m.path p).wasUp = false) ∧ (calTest (l.map fun d => roundDiv (d + 2 * pathAsym m p) 2) (64 - l.length) 400 = none))
    ∧ (∃ (p n : Nat) (l : List Int) (s : State), let m := s.start; (Up s) ∧ (p < 2) ∧ ((m.path p).inService = false) ∧ ((m.path p).step = 3) ∧ ((m.path p).farReady = true) ∧ ((m.path p).calFailed = false) ∧ (calTest (l.map fun d => roundDiv (d + 2 * pathAsym m p) 2) (64 - l.length) 400 = some n))
    ∧ (∃ (p turn : Nat) (b : List Byte) (s : State), let m := s.start; (Up s) ∧ (p < 2) ∧ ((m.path p).lock = true) ∧ (pairOk b = true) ∧ (fieldLE b 0 1 = 0x0E))
    ∧ (∃ (p : Nat) (s : State), let m := s.start; (Up s) ∧ (p < 2) ∧ ((m.path p).calFailed = true))
    ∧ (∃ (p : Nat) (s : State), let m := s.start; (Up s) ∧ (p < 2) ∧ ((m.path p).calFailed = false))
    ∧ (∃ (p : Nat) (s : State), let m := s.start; (Up s) ∧ (p < 2) ∧ (m.pair.role ≠ .shadow))
    ∧ (∃ (p : Nat) (s : State), let m := s.start; (Up s) ∧ (p < 2) ∧ (m.pair.role ≠ .shadow) ∧ ((m.path p).inService = true))
    ∧ (∃ (p : Nat) (s : State), let m := s.start; (Up s) ∧ (p < 2) ∧ (m.pair.role ≠ .shadow) ∧ ((m.path p).inService = true) ∧ ((m.path p).heard = false) ∧ ((m.path (1 - p)).heard = true) ∧ (3 ≤ (m.path p).missed))
    ∧ (∃ (p : Nat) (s : State), let m := s.start; (Up s) ∧ (p < 2) ∧ ((m.path p).heard = true ∨ (m.path (1 - p)).heard = false ∨ (m.path p).missed < 3)) :=
  ⟨⟨0, 0, tPair 1 1 (List.replicate 48 0#8), tPath id, by decide +kernel⟩,
   ⟨0, 0, tPair 1 0 (List.replicate 48 0#8), tPath id, by decide +kernel⟩,
   ⟨0, 0, [], tPath id, by decide +kernel⟩,
   ⟨tA (fun m => { m with dev := { m.dev with intakeDone := true }, pair := { m.pair with partner := some tPartner, missed := 2 } }), by decide +kernel⟩,
   ⟨tS id, by decide +kernel⟩,
   ⟨0, ⟨0, false⟩, tPath (fun m => { m with pair := { m.pair with held := true, cutOwn := some ⟨0, false⟩ } }), by decide +kernel⟩,
   ⟨0, tS id, by decide +kernel⟩,
   ⟨⟨[], 0, none, 0, 0, none, none, false⟩, tPath (fun m => { m with pair := { m.pair with role := .shadow, copy := some ⟨[], 0, none, 0, 0, none, none, false⟩ } }), by decide +kernel⟩,
   ⟨⟨[], 0, none, 9, 0, none, none, false⟩, tPath (fun m => { m with pair := { m.pair with role := .shadow, copy := some ⟨[], 0, none, 9, 0, none, none, false⟩ } }), by decide +kernel⟩,
   ⟨tS id, by decide +kernel⟩,
   ⟨tPath (fun m => { m with pair := { m.pair with role := .senior, partner := some tPartner } }), by decide +kernel⟩,
   ⟨tS id, by decide +kernel⟩,
   ⟨[], tA (fun m => { m with pair := { m.pair with role := .senior, partner := some tPartner, server := false } }), by decide +kernel⟩,
   ⟨[], tS id, by decide +kernel⟩,
   ⟨0, tS id, by decide +kernel⟩,
   ⟨0, tA (fun m => m.setPath 0 { pathInit with lock := true }), by decide +kernel⟩,
   ⟨0, (tPair 0x10 0 (List.replicate 28 0#8)), tA (fun m => m.setPath 0 { pathInit with lock := true, trainCount := 4095 }), by decide +kernel⟩,
   ⟨0, (tPair 0x10 0 (List.replicate 28 0#8)), tA (fun m => m.setPath 0 { pathInit with lock := true }), by decide +kernel⟩,
   ⟨0, tPair 1 0 (List.replicate 16 0#8), tA (fun m => m.setPath 0 { pathInit with lock := true }), by decide +kernel⟩,
   ⟨0, [], tA (fun m => m.setPath 0 { pathInit with lock := true }), by decide +kernel⟩,
   ⟨0, List.replicate 64 100, tA (fun m => m.setPath 0 { pathInit with step := 3, farReady := true }), by decide +kernel⟩,
   ⟨0, 1, [], tA (fun m => m.setPath 0 { pathInit with step := 3, farReady := true }), by decide +kernel⟩,
   ⟨0, 0, tPair 0x0E 0 [], tA (fun m => m.setPath 0 { pathInit with lock := true }), by decide +kernel⟩,
   ⟨0, tA (fun m => m.setPath 0 { pathInit with calFailed := true }), by decide +kernel⟩,
   ⟨0, tS id, by decide +kernel⟩,
   ⟨0, tS id, by decide +kernel⟩,
   ⟨0, tPath id, by decide +kernel⟩,
   ⟨0, tA (fun m => (m.setPath 0 { pathInit with inService := true, missed := 3 }).setPath 1 { pathInit with heard := true }), by decide +kernel⟩,
   ⟨0, tS id, by decide +kernel⟩⟩

theorem witness_ConversionStepsComplete :
    (∃ (k vref n e : Nat) (v : Int) (a : AdcRun) (s : State), let m := s.start; (m.measures = true) ∧ ((m.core k).running = some a) ∧ (a.req.src = .entry n e))
    ∧ (∃ (k vref u : Nat) (v : Int) (a : AdcRun) (s : State), let m := s.start; (m.measures = true) ∧ ((m.core k).running = some a) ∧ (a.req.src = .slot u) ∧ (siphonLost (nextConv k a.endQ (m.setCore k { m.core k with running := none })) 7 = false))
    ∧ (∃ (k vref r q : Nat) (v : Int) (a : AdcRun) (s : State), let m := s.start; (m.measures = true) ∧ ((m.core k).running = some a) ∧ (a.req.src = .host r q))
    ∧ (∃ (k vref x y : Nat) (src : AdcSrc) (v : Int) (s : State), let m := s.start; (m.measures = true) ∧ ((m.core k).running = none) ∧ ((m.seqRun (2 * k)).due = []) ∧ ((m.seqRun (2 * k + 1)).due = []))
    ∧ (∃ (k vref x y : Nat) (src : AdcSrc) (v : Int) (a : AdcRun) (s : State), let m := s.start; (m.measures = true) ∧ ((m.core k).running = some a) ∧ (a.req.src ≠ src ∨ a.sampleQ ≠ x ∨ a.endQ ≠ y))
    ∧ (∃ (n a : Nat) (q : AdcSeq) (s : State), let m := s.start; (m.measures = true) ∧ (m.seqCfg n = some q) ∧ (q.mode = 2) ∧ (((a : Int) - m.tb.anchor) % (q.repeatNs : Int) = 0) ∧ (spanQ (m.core (n / 2)).low q.entries ≤ 4 * q.repeatNs))
    ∧ (∃ (n a : Nat) (q : AdcSeq) (s : State), let m := s.start; (m.measures = true) ∧ (m.seqCfg n = some q) ∧ (q.mode = 2) ∧ (((a : Int) - m.tb.anchor) % (q.repeatNs : Int) = 0) ∧ (4 * q.repeatNs < spanQ (m.core (n / 2)).low q.entries))
    ∧ (∃ (n a : Nat) (q : AdcSeq) (s : State), let m := s.start; (m.seqCfg n = some q) ∧ (q.mode ≠ 2 ∨ ((a : Int) - m.tb.anchor) % (q.repeatNs : Int) ≠ 0))
    ∧ (∃ (l a w : Nat) (s : State), let m := s.start; (Up s) ∧ (20 ≤ w) ∧ (m.meas.trgDriven.getD l false = false) ∧ (m.measures = true) ∧ (bitOf ((triggerSlots l a m).fld F.echoTrgInEn) l = false))
    ∧ (∃ (l a w : Nat) (s : State), let m := s.start; (Up s) ∧ (20 ≤ w) ∧ (m.meas.trgDriven.getD l false = false) ∧ (m.measures = true) ∧ (bitOf ((triggerSlots l a m).fld F.echoTrgInEn) l = true))
    ∧ (∃ (l a w : Nat) (s : State), let m := s.start; (Up s) ∧ (w < 20 ∨ m.meas.trgDriven.getD l false = true))
    ∧ (∃ (c n : Nat) (d : SiphonDesc) (s : State), let m := s.start; (m.working = true) ∧ (c < 22) ∧ (c < m.meas.siphon.length) ∧ ((m.siphonCh c).active = true) ∧ ((m.siphonCh c).paced = true) ∧ ((m.siphonCh c).desc = some d) ∧ ((m.siphonCh c).host = false) ∧ ((m.siphonCh c).linked = false) ∧ (∀ i, i < 32 → i ≠ c → siphonReady m i = none) ∧ (max n 1 < (m.siphonCh c).remain))
    ∧ (∃ (c n : Nat) (d : SiphonDesc) (s : State), let m := s.start; (m.working = true) ∧ (c < 22) ∧ (c < m.meas.siphon.length) ∧ ((m.siphonCh c).active = true) ∧ ((m.siphonCh c).paced = true) ∧ ((m.siphonCh c).desc = some d) ∧ ((m.siphonCh c).host = false) ∧ ((m.siphonCh c).linked = false) ∧ (∀ i, i < 32 → i ≠ c → siphonReady m i = none) ∧ ((m.siphonCh c).remain ≤ max n 1))
    ∧ (∃ (c n : Nat) (d : SiphonDesc) (s : State), let m := s.start; (m.working = true) ∧ (c < 22) ∧ (c < m.meas.siphon.length) ∧ ((m.siphonCh c).active = false) ∧ (0 < d.count))
    ∧ (∃ (c n : Nat) (d : Option SiphonDesc) (s : State), let m := s.start; (22 ≤ c)) :=
  ⟨⟨0, 0, 0, 0, 0, (⟨(⟨.entry 0 0, false, 0, 0, 0, ⟨3, 1, 4, 0⟩, 0⟩ : AdcReq), 0, 100⟩ : AdcRun), tA (fun m => { m with meas := { m.meas with cores := [{ coreInit with running := some ⟨(⟨.entry 0 0, false, 0, 0, 0, ⟨3, 1, 4, 0⟩, 0⟩ : AdcReq), 0, 100⟩ }] } }), by decide +kernel⟩,
   ⟨0, 0, 0, 0, (⟨(⟨.slot 0, false, 0, 0, 0, ⟨3, 1, 4, 0⟩, 0⟩ : AdcReq), 0, 100⟩ : AdcRun), tA (fun m => { m with meas := { m.meas with cores := [{ coreInit with running := some ⟨(⟨.slot 0, false, 0, 0, 0, ⟨3, 1, 4, 0⟩, 0⟩ : AdcReq), 0, 100⟩ }] } }), by decide +kernel⟩,
   ⟨0, 0, 0, 1, 0, (⟨(⟨.host 0 1, false, 0, 0, 0, ⟨3, 1, 4, 0⟩, 0⟩ : AdcReq), 0, 100⟩ : AdcRun), tA (fun m => { m with meas := { m.meas with cores := [{ coreInit with running := some ⟨(⟨.host 0 1, false, 0, 0, 0, ⟨3, 1, 4, 0⟩, 0⟩ : AdcReq), 0, 100⟩ }] } }), by decide +kernel⟩,
   ⟨0, 0, 0, 0, .slot 0, 0, tS id, by decide +kernel⟩,
   ⟨0, 0, 0, 0, .slot 1, 0, (⟨(⟨.slot 0, false, 0, 0, 0, ⟨3, 1, 4, 0⟩, 0⟩ : AdcReq), 0, 100⟩ : AdcRun), tA (fun m => { m with meas := { m.meas with cores := [{ coreInit with running := some ⟨(⟨.slot 0, false, 0, 0, 0, ⟨3, 1, 4, 0⟩, 0⟩ : AdcReq), 0, 100⟩ }] } }), by decide +kernel⟩,
   ⟨0, 0, ⟨2, 1, 1000, [⟨3, 1, 4, 100⟩]⟩, tA (fun m => { m with meas := { m.meas with adc := some ⟨[⟨2, 1, 1000, [⟨3, 1, 4, 100⟩]⟩], []⟩ } }), by decide +kernel⟩,
   ⟨0, 0, ⟨2, 1, 1, [⟨3, 1, 4, 1000⟩]⟩, tA (fun m => { m with meas := { m.meas with adc := some ⟨[⟨2, 1, 1, [⟨3, 1, 4, 1000⟩]⟩], []⟩ } }), by decide +kernel⟩,
   ⟨0, 0, ⟨1, 1, 1000, [⟨3, 1, 4, 100⟩]⟩, tA (fun m => { m with meas := { m.meas with adc := some ⟨[⟨1, 1, 1000, [⟨3, 1, 4, 100⟩]⟩], []⟩ } }), by decide +kernel⟩,
   ⟨0, 0, 20, tA (fun m => m.setF F.echoTrgInEn 0), by decide +kernel⟩,
   ⟨0, 0, 20, tA (fun m => m.setF F.echoTrgInEn 1), by decide +kernel⟩,
   ⟨0, 0, 10, tS id, by decide +kernel⟩,
   ⟨0, 3, ⟨.mem 0x30000000, .mem 0x20000000, 128, 0, true, false, false⟩, tA (fun m => { m with meas := { m.meas with siphon := setAt m.meas.siphon 0 { siphonInit with active := true, paced := true, desc := some ⟨.mem 0x30000000, .mem 0x20000000, 128, 0, true, false, false⟩, remain := 128 } } }), by decide +kernel⟩,
   ⟨0, 3, ⟨.mem 0x30000000, .mem 0x20000000, 128, 0, true, false, false⟩, tA (fun m => { m with meas := { m.meas with siphon := setAt m.meas.siphon 0 { siphonInit with active := true, paced := true, desc := some ⟨.mem 0x30000000, .mem 0x20000000, 128, 0, true, false, false⟩, remain := 3 } } }), by decide +kernel⟩,
   ⟨0, 3, ⟨.mem 0x30000000, .mem 0x20000000, 128, 0, true, false, false⟩, tS id, by decide +kernel⟩,
   ⟨22, 3, some ⟨.mem 0x30000000, .mem 0x20000000, 128, 0, true, false, false⟩, tS id, by decide +kernel⟩⟩

theorem witness_StreamAndFrameStepsComplete :
    (∃ (f : SvFrame) (s : State), let m := s.start; (Up s) ∧ (portTakes m f.port f.dest = true) ∧ (m.measures = true) ∧ (f.sim = true))
    ∧ (∃ (f : SvFrame) (s : State), let m := s.start; (Up s) ∧ (portTakes m f.port f.dest = true) ∧ (m.measures = true) ∧ (f.sim = false) ∧ (siphonLost m 4 = false) ∧ (f.rct = none) ∧ (f.asdus ≠ []) ∧ (f.asdus.length ≤ 8) ∧ ((f.asdus.any fun a => decide (f.rate ≤ a.smpCnt)) = false) ∧ (0x4000 ≤ f.appid) ∧ (f.appid ≤ 0x7FFF))
    ∧ (∃ (f : SvFrame) (s : State), let m := s.start; (Up s) ∧ (portTakes m f.port f.dest = false ∨ m.measures = false))
    ∧ (∃ (n : Nat) (u : SvSub) (s : State), let m := s.start; (Up s) ∧ ((m.stream n).state = .active) ∧ ((m.stream n).sub = some u))
    ∧ (∃ (n : Nat) (s : State), let m := s.start; (Up s) ∧ ((m.stream n).state ≠ .active))
    ∧ (∃ (f : GooseFrame) (s : State), let m := s.start; (m.working = true) ∧ (portTakes m f.port f.dest = true) ∧ (f.sim = false) ∧ (f.rct = none))
    ∧ (∃ (f : GooseFrame) (s : State), let m := s.start; (portTakes m f.port f.dest = false ∨ f.sim = true))
    ∧ (∃ (n a : Nat) (x : GoosePub) (g : GooseCfg) (s : State), let m := s.start; (m.working = true) ∧ (m.net.pubs[n]? = some x) ∧ (x.cfg = some g) ∧ (x.sent = true) ∧ (x.due = false))
    ∧ (∃ (n a : Nat) (x : GoosePub) (s : State), let m := s.start; (m.net.pubs[n]? = some x) ∧ (x.cfg = none ∨ x.sent = false ∨ x.due = true))
    ∧ (∃ (n : Nat) (g : GooseCfg) (s : State), let m := s.start; (m.working = true) ∧ (32 ≤ n) ∧ ((m.gooseSub (n - 32)).state = .active) ∧ ((m.gooseSub (n - 32)).cfg = some g))
    ∧ (∃ (n : Nat) (s : State), let m := s.start; (n < 32 ∨ (m.gooseSub (n - 32)).state ≠ .active))
    ∧ (∃ (p x src a : Nat) (b : List Byte) (g : FarCfg) (s : State), let m := s.start; (m.working = true) ∧ (portTakes m p x = true) ∧ (siphonLost m 14 = false) ∧ (farOk b = true) ∧ (fieldLE b 3 1 ≤ 3) ∧ ((m.farCh (fieldLE b 3 1)).cfg = some g) ∧ (g.rxEn = true) ∧ (g.linkId = fieldLE b 4 4) ∧ ((m.farCh (fieldLE b 3 1)).lastSeq = none) ∧ ((m.farCh (fieldLE b 3 1)).state = 1) ∧ (fieldLE b 2 1 = 1) ∧ (tooLate m a = false) ∧ (m.tb.timeValid = false))
    ∧ (∃ (p x src a : Nat) (r : Option Nat) (b : List Byte) (s : State), let m := s.start; (portTakes m p x = false ∨ farOk b = false))
    ∧ (∃ (c : Nat) (g : FarCfg) (s : State), let m := s.start; (m.working = true) ∧ ((m.farCh c).cfg = some g) ∧ ((m.farCh c).state = 2))
    ∧ (∃ (c : Nat) (s : State), let m := s.start; ((m.farCh c).state ≠ 2)) :=
  ⟨⟨⟨0, 1, none, 0x011B19000000, 0x4000, true, [65#8], 1, 1, [⟨0, 1, []⟩], 0⟩, tA (fun m => m.setF F.ethCtrlEnA 1), by decide +kernel⟩,
   ⟨⟨0, 1, none, 0x011B19000000, 0x4000, false, [65#8], 1, 1, [⟨0, 1, []⟩], 0⟩, tA (fun m => m.setF F.ethCtrlEnA 1), by decide +kernel⟩,
   ⟨⟨0, 1, none, 0x011B19000000, 0x4000, false, [65#8], 1, 1, [⟨0, 1, []⟩], 0⟩, tS id, by decide +kernel⟩,
   ⟨2, ⟨8, 1, 1, 0x4000, 1, 5, 7, 1, [65#8]⟩, tA (fun m => m.setStream 2 { svInit with sub := some ⟨8, 1, 1, 0x4000, 1, 5, 7, 1, [65#8]⟩, state := .active }), by decide +kernel⟩,
   ⟨2, tS id, by decide +kernel⟩,
   ⟨⟨0, 1, none, 0x011B19000000, 0x1000, [], [], 1, 1, 0, false, false, false, 100, [], 0⟩, tA (fun m => m.setF F.ethCtrlEnA 1), by decide +kernel⟩,
   ⟨⟨0, 1, none, 0x011B19000000, 0x1000, [], [], 1, 1, 0, false, false, true, 100, [], 0⟩, tS id, by decide +kernel⟩,
   ⟨0, 0, { goosePubInit with cfg := some ⟨1, 0, 0x1000, 0, 7, 1, 0, 9, [], [], [], [⟨0xE0000, 1, false⟩]⟩, sent := true }, ⟨1, 0, 0x1000, 0, 7, 1, 0, 9, [], [], [], [⟨0xE0000, 1, false⟩]⟩, tA (fun m => { m with net := { m.net with pubs := [{ goosePubInit with cfg := some ⟨1, 0, 0x1000, 0, 7, 1, 0, 9, [], [], [], [⟨0xE0000, 1, false⟩]⟩, sent := true }] } }), by decide +kernel⟩,
   ⟨0, 0, goosePubInit, tS id, by decide +kernel⟩,
   ⟨33, ⟨1, 0, 0x1000, 0, 7, 1, 0, 9, [], [], [], [⟨0xE0000, 1, false⟩]⟩, tA (fun m => m.setGooseSub 1 { gooseSubInit with cfg := some ⟨1, 0, 0x1000, 0, 7, 1, 0, 9, [], [], [], [⟨0xE0000, 1, false⟩]⟩, state := .active }), by decide +kernel⟩,
   ⟨5, tS id, by decide +kernel⟩,
   ⟨0, 0x011B19000000, 9, 0, withCrc (leBytes 2 1 ++ [1#8, 1#8] ++ leBytes 4 5 ++ leBytes 8 1 ++ leBytes 8 0 ++ leBytes 4 0 ++ [0#8, 1#8] ++ leBytes 2 8 ++ List.replicate 8 0#8), ⟨false, true, false, false, 1, 1, 5, 7, 10, 100, 9, 0, [0xE0001], [1]⟩, tA (fun m => Mach.setFar { m.setF F.ethCtrlEnA 1 with tb := { m.tb with timeValid := false } } 1 { farInit with cfg := some ⟨false, true, false, false, 1, 1, 5, 7, 10, 100, 9, 0, [0xE0001], [1]⟩, state := 1 }), by decide +kernel⟩,
   ⟨0, 0, 0, 0, none, [], tS id, by decide +kernel⟩,
   ⟨1, ⟨false, true, false, false, 1, 1, 5, 7, 10, 100, 9, 0, [0xE0001], [1]⟩, tA (fun m => m.setFar 1 { farInit with cfg := some ⟨false, true, false, false, 1, 1, 5, 7, 10, 100, 9, 0, [0xE0001], [1]⟩, state := 2 }), by decide +kernel⟩,
   ⟨1, tS id, by decide +kernel⟩⟩

theorem witness_EthernetPortStepsComplete :
    (∃ (p : Nat) (s : State), let m := s.start; (m.working = true) ∧ (p < 2) ∧ ((m.ethPort p).link = true))
    ∧ (∃ (p : Nat) (s : State), let m := s.start; (m.working = true) ∧ (p < 2) ∧ ((m.ethPort p).link = false))
    ∧ (∃ (p : Nat) (u : Bool) (s : State), let m := s.start; ((m.ethPort p).link = u))
    ∧ (∃ (p x : Nat) (s : State), let m := s.start; (m.working = true) ∧ (portTakes m p x = true))
    ∧ (∃ (p x : Nat) (s : State), let m := s.start; (portTakes m p x = false))
    ∧ (∃ (p : Nat) (s : State), let m := s.start; (m.working = true) ∧ (portEn m p = true))
    ∧ (∃ (p : Nat) (s : State), let m := s.start; (portEn m p = false))
    ∧ (∃ (p st : Nat) (busy b : Bool) (f : TxFrame) (x : List Byte) (s : State), let m := s.start; (Up s) ∧ (portEn m p = true) ∧ ((m.ethPort p).queue.find? (fun f => decide (f.at_ * 65536 ≤ st) && !siphonLost m (10 + p) && !siphonLost m (f.kind.channel p)) = some f) ∧ (f.kind ≠ .timed) ∧ (f.tsRec = false) ∧ (f.cmd = none) ∧ (f.body = .raw x))
    ∧ (∃ (p st : Nat) (busy b : Bool) (f : TxFrame) (o : TelOut) (s : State), let m := s.start; (Up s) ∧ (portEn m p = true) ∧ ((m.ethPort p).queue.find? (fun f => decide (f.at_ * 65536 ≤ st) && !siphonLost m (10 + p) && !siphonLost m (f.kind.channel p)) = some f) ∧ (f.kind ≠ .timed) ∧ (f.tsRec = false) ∧ (f.cmd = none) ∧ (f.body = .tel o))
    ∧ (∃ (p st r q : Nat) (busy : Bool) (f : TxFrame) (x : List Byte) (s : State), let m := s.start; (Up s) ∧ (portEn m p = true) ∧ ((m.ethPort p).queue.find? (fun f => decide (f.at_ * 65536 ≤ st) && !siphonLost m (10 + p) && !siphonLost m (f.kind.channel p)) = some f) ∧ (f.kind = .timed) ∧ (f.cmd = some (r, q)) ∧ (f.body = .raw x))
    ∧ (∃ (p st : Nat) (busy b : Bool) (s : State), let m := s.start; (Up s) ∧ (portEn m p = false ∨ (m.ethPort p).queue.find? (fun f => decide (f.at_ * 65536 ≤ st) && !siphonLost m (10 + p) && !siphonLost m (f.kind.channel p)) = none))
    ∧ (∃ (p x src : Nat) (s : State), let m := s.start; (m.working = true) ∧ (portTakes m p x = true) ∧ (m.flag F.ethCtrlPrpEn = true) ∧ (m.net.nodes.any (fun x => x.src == src) = false) ∧ (m.net.nodes.length < 512))
    ∧ (∃ (p x src : Nat) (s : State), let m := s.start; (portTakes m p x = false ∨ m.flag F.ethCtrlPrpEn = false ∨ m.net.nodes.any (fun x => x.src == src) = true))
    ∧ (∃ (s : State), let m := s.start; (m.working = true) ∧ (m.flag F.ethCtrlPrpEn = true))
    ∧ (∃ (s : State), let m := s.start; (m.flag F.ethCtrlPrpEn = false))
    ∧ (∃ (src : Nat) (s : State), let m := s.start; (m.working = true)) :=
  ⟨⟨0, tA (fun m => { m with net := { m.net with ports := [⟨true, []⟩, ⟨true, []⟩] } }), by decide +kernel⟩,
   ⟨0, tS id, by decide +kernel⟩,
   ⟨0, false, tS id, by decide +kernel⟩,
   ⟨0, 0x011B19000000, tA (fun m => m.setF F.ethCtrlEnA 1), by decide +kernel⟩,
   ⟨0, 0, tS id, by decide +kernel⟩,
   ⟨0, tA (fun m => m.setF F.ethCtrlEnA 1), by decide +kernel⟩,
   ⟨0, tS id, by decide +kernel⟩,
   ⟨0, 0, false, false, (⟨.ptp, 0, 0, none, false, 0, 0, .raw []⟩ : TxFrame), [], tA (fun m => { m.setF F.ethCtrlEnA 1 with net := { m.net with ports := [⟨true, [(⟨.ptp, 0, 0, none, false, 0, 0, .raw []⟩ : TxFrame)]⟩, ⟨true, []⟩] } }), by decide +kernel⟩,
   ⟨0, 0, false, false, (⟨.goose, 0, 0, none, false, 0, 0, .tel ⟨0, 77, 5, 1, 0, 0, none⟩⟩ : TxFrame), ⟨0, 77, 5, 1, 0, 0, none⟩, tA (fun m => { m.setF F.ethCtrlEnA 1 with net := { m.net with ports := [⟨true, [(⟨.goose, 0, 0, none, false, 0, 0, .tel ⟨0, 77, 5, 1, 0, 0, none⟩⟩ : TxFrame)]⟩, ⟨true, []⟩] } }), by decide +kernel⟩,
   ⟨0, 0, 0, 1, false, (⟨.timed, 0, 0, some (0, 1), false, 0, 0, .raw []⟩ : TxFrame), [], tA (fun m => { m.setF F.ethCtrlEnA 1 with net := { m.net with ports := [⟨true, [(⟨.timed, 0, 0, some (0, 1), false, 0, 0, .raw []⟩ : TxFrame)]⟩, ⟨true, []⟩] } }), by decide +kernel⟩,
   ⟨0, 0, false, false, tS id, by decide +kernel⟩,
   ⟨0, 0x011B19000000, 5, tA (fun m => (m.setF F.ethCtrlEnA 1).setF F.ethCtrlPrpEn 1), by decide +kernel⟩,
   ⟨0, 0, 5, tS id, by decide +kernel⟩,
   ⟨tA (fun m => (m.setF F.ethCtrlEnA 1).setF F.ethCtrlPrpEn 1), by decide +kernel⟩,
   ⟨tS id, by decide +kernel⟩,
   ⟨5, tS id, by decide +kernel⟩⟩

theorem witness_CanStepsComplete :
    (∃ (c b : Nat) (f : CanFrame) (g : CanCfg) (s : State), let m := s.start; (m.working = true) ∧ (c < 2) ∧ ((m.canCh c).state < 2) ∧ (siphonLost m (16 + c) = false) ∧ ((m.canCh c).auto = none) ∧ ((m.canCh c).listen = true) ∧ ((m.canCh c).exclWait = none) ∧ (canStateOf (m.canCh c) = (m.canCh c).state) ∧ (f.remote = false) ∧ (boxFor (m.canCh c) f = some b) ∧ (((m.canCh c).boxes.getD b mailboxInit).silent = false) ∧ ((m.canCh c).cfg = some g) ∧ ((g.filters.getD b ⟨0, false, false, 0, false⟩).record = false))
    ∧ (∃ (c : Nat) (f : CanFrame) (s : State), let m := s.start; (1 < c ∨ 2 ≤ (m.canCh c).state ∨ siphonLost m (16 + c) = true))
    ∧ (∃ (c n sof a : Nat) (f : CanTx) (s : State), let m := s.start; (m.working = true) ∧ ((m.canCh c).exclusive = none) ∧ ((m.canCh c).txq.any CanTx.started = true) ∧ let m1 := canSettle c ((m.setCan c { m.canCh c with txErr := (m.canCh c).txErr - 1 }).setF (F.canCountTxOk c) ((m.reg.raw (F.canCountTxOk c) + 1) % 65536)); ((m1.canCh c).exclusive = none ∧ (m1.canCh c).txq.find? CanTx.started = some f))
    ∧ (∃ (c n sof a : Nat) (s : State), let m := s.start; ((m.canCh c).exclusive = none) ∧ ((m.canCh c).txq.any CanTx.started = false))
    ∧ (∃ (c w bp a : Nat) (arb col : Bool) (s : State), let m := s.start; (m.working = true) ∧ (c < 2) ∧ ((m.canCh c).state < 2) ∧ ((m.canCh c).auto = none) ∧ ((m.canCh c).listen = false) ∧ (netDrives m = true) ∧ (m.dev.state ≠ .safe))
    ∧ (∃ (c w bp a : Nat) (tx arb col : Bool) (s : State), let m := s.start; ((m.canCh c).auto = none) ∧ ((m.canCh c).listen = true ∨ netDrives m = false ∨ m.dev.state = .safe))
    ∧ (∃ (c : Nat) (s : State), let m := s.start; (m.working = true) ∧ ((m.canCh c).state = 2) ∧ (m.flag (if c = 0 then F.canCtrlAutoRecover0 else F.canCtrlAutoRecover1) = true))
    ∧ (∃ (c : Nat) (s : State), let m := s.start; ((m.canCh c).state ≠ 2))
    ∧ (∃ (c a r q : Nat) (x : CanSched) (s : State), let m := s.start; (m.working = true) ∧ (m.canCh c).schedNext = some (x, r, q) ∧ (fromAnchor m a % ((1000 * x.len * x.cycles : Nat) : Int) = 0))
    ∧ (∃ (c a : Nat) (x : CanSched) (s : State), let m := s.start; (m.working = true) ∧ ((m.canCh c).schedNext = none) ∧ ((m.canCh c).sched = some x) ∧ (fromAnchor m a % ((1000 * x.len : Nat) : Int) = 0))
    ∧ (∃ (c a : Nat) (s : State), let m := s.start; ((m.canCh c).schedNext = none) ∧ ((m.canCh c).sched = none))
    ∧ (∃ (c i a : Nat) (st : Bool) (e : CanEntry) (s : State), let m := s.start; (m.working = true) ∧ (((m.canCh c).sched.bind fun x => x.entries[i]?) = some e) ∧ (a : Int) - (m.canCh c).base = (1000 * e.ofs : Nat) ∧ (bitOf e.cycleMask (m.canCh c).cycle = true) ∧ (e.kind = 2))
    ∧ (∃ (c i a : Nat) (st : Bool) (e : CanEntry) (s : State), let m := s.start; (m.working = true) ∧ (((m.canCh c).sched.bind fun x => x.entries[i]?) = some e) ∧ (a : Int) - (m.canCh c).base = (1000 * e.ofs : Nat) ∧ (bitOf e.cycleMask (m.canCh c).cycle = true) ∧ (e.kind = 1))
    ∧ (∃ (c i a : Nat) (st : Bool) (e : CanEntry) (s : State), let m := s.start; (m.working = true) ∧ (((m.canCh c).sched.bind fun x => x.entries[i]?) = some e) ∧ (a : Int) - (m.canCh c).base = (1000 * e.ofs : Nat) ∧ (bitOf e.cycleMask (m.canCh c).cycle = true) ∧ (e.kind = 3))
    ∧ (∃ (c i a w : Nat) (st : Bool) (e : CanEntry) (s : State), let m := s.start; (m.working = true) ∧ (((m.canCh c).sched.bind fun x => x.entries[i]?) = some e) ∧ (a : Int) - (m.canCh c).base = (1000 * e.ofs : Nat) ∧ (bitOf e.cycleMask (m.canCh c).cycle = true) ∧ (e.kind = 3) ∧ ((m.canCh c).exclWait = some w) ∧ ((m.canCh c).missRun = false))
    ∧ (∃ (c i a : Nat) (st : Bool) (s : State), let m := s.start; (((m.canCh c).sched.bind fun x => x.entries[i]?) = none))
    ∧ (∃ (c : Nat) (g : CanAuto) (s : State), let m := s.start; (m.working = true) ∧ ((m.canCh c).auto = some g) ∧ (g.found = false))
    ∧ (∃ (c : Nat) (g : CanAuto) (s : State), let m := s.start; (m.working = true) ∧ ((m.canCh c).auto = some g) ∧ (g.found = true))
    ∧ (∃ (c : Nat) (g : CanAuto) (s : State), let m := s.start; (m.working = true) ∧ ((m.canCh c).auto = some g) ∧ (g.found = false))
    ∧ (∃ (c : Nat) (s : State), let m := s.start; ((m.canCh c).auto = none)) :=
  ⟨⟨0, 0, (⟨0x123, false, false, [1#8], 0⟩ : CanFrame), ⟨1, true, false, 9, ⟨2, 1, 70, 20, 1, 10, 5, 1, 0⟩, [⟨0x123, false, true, 0x1FFFFFFF, false⟩]⟩, tA (fun m => m.setCan 0 { canInit with state := 0, listen := true, cfg := some ⟨1, true, false, 9, ⟨2, 1, 70, 20, 1, 10, 5, 1, 0⟩, [⟨0x123, false, true, 0x1FFFFFFF, false⟩]⟩ }), by decide +kernel⟩,
   ⟨2, (⟨0x123, false, false, [1#8], 0⟩ : CanFrame), tS id, by decide +kernel⟩,
   ⟨0, 0, 0, 0, (⟨3, 5, 0x123, [1#8], true, []⟩ : CanTx), tA (fun m => m.setCan 0 { canInit with state := 0, txq := [(⟨3, 5, 0x123, [1#8], true, []⟩ : CanTx)] }), by decide +kernel⟩,
   ⟨0, 0, 0, 0, tS id, by decide +kernel⟩,
   ⟨0, 0, 0, 0, false, false, tA (fun m => Mach.setCan { m with dev := { m.dev with state := .run }, pair := { m.pair with outputsOn := true } } 0 { canInit with state := 0 }), by decide +kernel⟩,
   ⟨0, 0, 0, 0, false, false, false, tA (fun m => m.setCan 0 { canInit with listen := true }), by decide +kernel⟩,
   ⟨0, tA (fun m => Mach.setCan (m.setF F.canCtrlAutoRecover0 1) 0 { canInit with state := 2 }), by decide +kernel⟩,
   ⟨0, tA (fun m => m.setCan 0 { canInit with state := 0 }), by decide +kernel⟩,
   ⟨0, 0, 3, 5, ⟨1, 1000, 0, [⟨2, 0, 10, 1⟩], []⟩, tA (fun m => m.setCan 0 { canInit with schedNext := some (⟨1, 1000, 0, [⟨2, 0, 10, 1⟩], []⟩, 3, 5) }), by decide +kernel⟩,
   ⟨0, 0, ⟨1, 1000, 0, [⟨2, 0, 10, 1⟩], []⟩, tA (fun m => m.setCan 0 { canInit with sched := some ⟨1, 1000, 0, [⟨2, 0, 10, 1⟩], []⟩ }), by decide +kernel⟩,
   ⟨0, 0, tS id, by decide +kernel⟩,
   ⟨0, 0, 10000, false, ⟨2, 0, 10, 1⟩, tA (fun m => m.setCan 0 { canInit with sched := some ⟨1, 1000, 0, [⟨2, 0, 10, 1⟩], []⟩ }), by decide +kernel⟩,
   ⟨0, 0, 10000, false, ⟨1, 0, 10, 1⟩, tA (fun m => m.setCan 0 { canInit with sched := some ⟨1, 1000, 0, [⟨1, 0, 10, 1⟩], []⟩ }), by decide +kernel⟩,
   ⟨0, 0, 10000, false, ⟨3, 0, 10, 1⟩, tA (fun m => m.setCan 0 { canInit with sched := some ⟨1, 1000, 0, [⟨3, 0, 10, 1⟩], []⟩ }), by decide +kernel⟩,
   ⟨0, 0, 10000, 4, false, ⟨3, 0, 10, 1⟩, tA (fun m => m.setCan 0 { canInit with sched := some ⟨1, 1000, 0, [⟨3, 0, 10, 1⟩], []⟩, exclWait := some 4 }), by decide +kernel⟩,
   ⟨0, 0, 0, false, tS id, by decide +kernel⟩,
   ⟨0, ⟨[⟨2, 1, 70, 20, 1, 10, 5, 1, 0⟩], [], 0, 1, 0, 0, false, 0⟩, tA (fun m => m.setCan 0 { canInit with auto := some ⟨[⟨2, 1, 70, 20, 1, 10, 5, 1, 0⟩], [], 0, 1, 0, 0, false, 0⟩ }), by decide +kernel⟩,
   ⟨0, ⟨[⟨2, 1, 70, 20, 1, 10, 5, 1, 0⟩], [], 0, 1, 0, 0, true, 0⟩, tA (fun m => m.setCan 0 { canInit with auto := some ⟨[⟨2, 1, 70, 20, 1, 10, 5, 1, 0⟩], [], 0, 1, 0, 0, true, 0⟩ }), by decide +kernel⟩,
   ⟨0, ⟨[⟨2, 1, 70, 20, 1, 10, 5, 1, 0⟩], [], 0, 1, 0, 0, false, 0⟩, tA (fun m => m.setCan 0 { canInit with auto := some ⟨[⟨2, 1, 70, 20, 1, 10, 5, 1, 0⟩], [], 0, 1, 0, 0, false, 0⟩ }), by decide +kernel⟩,
   ⟨0, tS id, by decide +kernel⟩⟩

theorem witness_PwmAndLanternStepsComplete :
    (∃ (n : Nat) (b : Nat × Nat) (s : State), let m := s.start; (m.working = true) ∧ (pwmEnabled m n = true) ∧ ((m.pwmCh n).startAt = none) ∧ (restartFor m (m.pwmCh n).restartK (carrierPhase m n) = some b) ∧ ((m.pwmCh n).pend = none))
    ∧ (∃ (n : Nat) (b : Nat × Nat) (p : Nat × Option (Bool × Bool)) (s : State), let m := s.start; (m.working = true) ∧ (pwmEnabled m n = true) ∧ ((m.pwmCh n).startAt = none) ∧ (restartFor m (m.pwmCh n).restartK (carrierPhase m n) = some b) ∧ ((m.pwmCh n).pend = some p ∧ p.1 < (16 * b.2 + carrierPhase m n) / 32))
    ∧ (∃ (n a : Nat) (s : State), let m := s.start; (m.working = true) ∧ (pwmEnabled m n = true) ∧ ((m.pwmCh n).startAt = some a) ∧ ((m.pwmCh n).pend = none))
    ∧ (∃ (n a : Nat) (p : Nat × Option (Bool × Bool)) (s : State), let m := s.start; (m.working = true) ∧ (pwmEnabled m n = true) ∧ ((m.pwmCh n).startAt = some a) ∧ ((m.pwmCh n).pend = some p ∧ p.1 < (a + carrierTicks (m.pwmCh n)) / 32))
    ∧ (∃ (n a : Nat) (b : Nat × Nat) (s : State), let m := s.start; (m.working = true) ∧ (pwmEnabled m n = true) ∧ ((m.pwmCh n).startAt = some a) ∧ (m.flag (F.pwmPerAlign n) = true) ∧ (restartFor m (m.pwmCh n).restartK (m.pwmCh n).phase = some b) ∧ ((m.pwmCh n).pend = none) ∧ (16 * b.2 + (m.pwmCh n).phase < a + carrierTicks (m.pwmCh n)) ∧ ((m.pwmCh n).cutRun = false))
    ∧ (∃ (n a : Nat) (s : State), let m := s.start; ((m.pwmCh n).startAt = some a) ∧ (m.flag (F.pwmPerAlign n) = false))
    ∧ (∃ (n : Nat) (r : Bool) (s : State), let m := s.start; (pwmEnabled m n = false))
    ∧ (∃ (n a : Nat) (s : State), let m := s.start; (m.working = true) ∧ ((m.pwmCh n).startAt = some a) ∧ (m.pwmCh n).cmp < carrierTicks (m.pwmCh n))
    ∧ (∃ (n : Nat) (s : State), let m := s.start; ((m.pwmCh n).startAt = none ∨ carrierTicks (m.pwmCh n) ≤ (m.pwmCh n).cmp))
    ∧ (∃ (n : Nat) (s : State), let m := s.start; (m.working = true) ∧ ((m.pwmCh n).deadH = true))
    ∧ (∃ (n : Nat) (s : State), let m := s.start; (m.working = true) ∧ ((m.pwmCh n).deadL = true))
    ∧ (∃ (n : Nat) (s : State), let m := s.start; ((m.pwmCh n).deadH = false))
    ∧ (∃ (n : Nat) (s : State), let m := s.start; ((m.pwmCh n).deadL = false))
    ∧ (∃ (n a : Nat) (s : State), let m := s.start; (m.working = true) ∧ ((m.pwmCh n).startAt = some a) ∧ (pwmEnabled m n = true) ∧ (0 < (m.pwmCh n).trgDiv) ∧ (m.pwmCh n).trgCmp < carrierTicks (m.pwmCh n) ∧ (0 < (m.pwmCh n).carriers) ∧ ((m.pwmCh n).carriers % (m.pwmCh n).trgDiv = 0))
    ∧ (∃ (n : Nat) (s : State), let m := s.start; ((m.pwmCh n).startAt = none ∨ pwmEnabled m n = false ∨ (m.pwmCh n).trgDiv = 0))
    ∧ (∃ (t ns : Nat) (s : State), let m := s.start; (Up s) ∧ (t < 8) ∧ (bitOf (m.fld F.tripCfgTripEn) t = true) ∧ (bitOf m.pwm.latched t = false))
    ∧ (∃ (t ns : Nat) (s : State), let m := s.start; (Up s) ∧ (t < 8) ∧ (bitOf (m.fld F.tripCfgTripEn) t = true) ∧ (bitOf m.pwm.latched t = true))
    ∧ (∃ (t ns : Nat) (s : State), let m := s.start; (Up s) ∧ (7 < t ∨ bitOf (m.fld F.tripCfgTripEn) t = false))
    ∧ (∃ (n : Nat) (x : Lantern) (s : State), let m := s.start; (m.working = true) ∧ (m.pwm.lan[n]? = some x) ∧ (x.uvHold = false))
    ∧ (∃ (n : Nat) (x : Lantern) (s : State), let m := s.start; (m.pwm.lan[n]? = some x) ∧ (x.uvHold = true) ∧ (x.recovered = false))
    ∧ (∃ (n : Nat) (x : Lantern) (s : State), let m := s.start; (m.working = true) ∧ (m.pwm.lan[n]? = some x))
    ∧ (∃ (n : Nat) (s : State), let m := s.start; (m.working = true) ∧ (lanLevel m .high n = true) ∧ ((m.pwm.lan.getD n lanternInit).refresh = .none))
    ∧ (∃ (n : Nat) (s : State), let m := s.start; (m.working = true) ∧ ((m.pwm.lan.getD n lanternInit).refresh = .before))
    ∧ (∃ (n : Nat) (s : State), let m := s.start; (m.working = true) ∧ ((m.pwm.lan.getD n lanternInit).refresh = .pulse))
    ∧ (∃ (n : Nat) (s : State), let m := s.start; (m.working = true) ∧ ((m.pwm.lan.getD n lanternInit).refresh = .after))
    ∧ (∃ (n : Nat) (s : State), let m := s.start; (lanLevel m .high n = false) ∧ ((m.pwm.lan.getD n lanternInit).refresh = .none))
    ∧ (∃ (n ns : Nat) (s : State), let m := s.start; (m.working = true) ∧ (lanLevel m .high n = true))
    ∧ (∃ (n ns : Nat) (s : State), let m := s.start; (m.working = true) ∧ (lanLevel m .low n = true))
    ∧ (∃ (n ns : Nat) (y : Side) (s : State), let m := s.start; (lanLevel m y n = false)) :=
  ⟨⟨0, (7, 5000000000), tA (fun m => Mach.setPwm (m.setF F.pwmCtrlChEn 1) 0 { pwmChInit with startAt := none }), by decide +kernel⟩,
   ⟨0, (7, 5000000000), (0, none), tA (fun m => Mach.setPwm (m.setF F.pwmCtrlChEn 1) 0 { pwmChInit with startAt := none, pend := some (0, none) }), by decide +kernel⟩,
   ⟨0, 5, tA (fun m => Mach.setPwm (m.setF F.pwmCtrlChEn 1) 0 { pwmChInit with startAt := some 5 }), by decide +kernel⟩,
   ⟨0, 5, (0, none), tA (fun m => Mach.setPwm (m.setF F.pwmCtrlChEn 1) 0 { pwmChInit with startAt := some 5, per := 10, pend := some (0, none) }), by decide +kernel⟩,
   ⟨0, 80000000001, (7, 5000000000), tA (fun m => Mach.setPwm ((m.setF F.pwmCtrlChEn 1).setF (F.pwmPerAlign 0) 1) 0 { pwmChInit with startAt := some 80000000001, per := 10 }), by decide +kernel⟩,
   ⟨0, 5, tA (fun m => Mach.setPwm (m.setF (F.pwmPerAlign 0) 0) 0 { pwmChInit with startAt := some 5 }), by decide +kernel⟩,
   ⟨0, false, tS id, by decide +kernel⟩,
   ⟨0, 5, tA (fun m => Mach.setPwm (m.setF F.pwmCtrlChEn 1) 0 { pwmChInit with startAt := some 5, per := 10 }), by decide +kernel⟩,
   ⟨0, tS id, by decide +kernel⟩,
   ⟨0, tA (fun m => Mach.setPwm (m.setF F.pwmCtrlChEn 1) 0 { pwmChInit with deadH := true }), by decide +kernel⟩,
   ⟨0, tA (fun m => Mach.setPwm (m.setF F.pwmCtrlChEn 1) 0 { pwmChInit with deadL := true }), by decide +kernel⟩,
   ⟨0, tS id, by decide +kernel⟩,
   ⟨0, tS id, by decide +kernel⟩,
   ⟨0, 5, tA (fun m => Mach.setPwm (m.setF F.pwmCtrlChEn 1) 0 { pwmChInit with startAt := some 5, per := 10, trgDiv := 1, carriers := 1 }), by decide +kernel⟩,
   ⟨0, tS id, by decide +kernel⟩,
   ⟨0, 0, tA (fun m => m.setF F.tripCfgTripEn 1), by decide +kernel⟩,
   ⟨0, 0, tA (fun m => { m.setF F.tripCfgTripEn 1 with pwm := { m.pwm with latched := 1 } }), by decide +kernel⟩,
   ⟨8, 0, tS id, by decide +kernel⟩,
   ⟨0, { lanternInit with uvHold := false }, tA (fun m => { m with pwm := { m.pwm with lan := [{ lanternInit with uvHold := false }] } }), by decide +kernel⟩,
   ⟨0, lanternInit, tS id, by decide +kernel⟩,
   ⟨0, lanternInit, tS id, by decide +kernel⟩,
   ⟨0, tA (fun m => Mach.setPwm { ((m.setF F.pwmCtrlChEn 1).setF F.lanCtrlLanEn 1) with dev := { m.dev with state := .run }, pair := { m.pair with outputsOn := true }, pwm := { m.pwm with lan := [{ lanternInit with uvHold := false }] } } 0 { pwmChInit with h := true }), by decide +kernel⟩,
   ⟨0, tA (fun m => { (m.setF F.pwmCtrlChEn 1).setF F.lanCtrlLanEn 1 with pwm := { m.pwm with lan := [{ lanternInit with refresh := .before }] } }), by decide +kernel⟩,
   ⟨0, tA (fun m => { (m.setF F.pwmCtrlChEn 1).setF F.lanCtrlLanEn 1 with pwm := { m.pwm with lan := [{ lanternInit with refresh := .pulse }] } }), by decide +kernel⟩,
   ⟨0, tA (fun m => { (m.setF F.pwmCtrlChEn 1).setF F.lanCtrlLanEn 1 with pwm := { m.pwm with lan := [{ lanternInit with refresh := .after }] } }), by decide +kernel⟩,
   ⟨0, tS id, by decide +kernel⟩,
   ⟨0, 5, tA (fun m => Mach.setPwm { ((m.setF F.pwmCtrlChEn 1).setF F.lanCtrlLanEn 1) with dev := { m.dev with state := .run }, pair := { m.pair with outputsOn := true }, pwm := { m.pwm with lan := [{ lanternInit with uvHold := false }] } } 0 { pwmChInit with h := true }), by decide +kernel⟩,
   ⟨0, 5, tA (fun m => Mach.setPwm { ((m.setF F.pwmCtrlChEn 1).setF F.lanCtrlLanEn 1) with dev := { m.dev with state := .run }, pair := { m.pair with outputsOn := true } } 0 { pwmChInit with l := true }), by decide +kernel⟩,
   ⟨0, 5, .low, tS id, by decide +kernel⟩⟩

theorem witness_SafetyInputAndOutputStepsComplete :
    (∃ (stp sia sib : Nat) (g : SafeCfg) (s : State), let m := s.start; (m.alive = true) ∧ (m.safety.cfg = some g) ∧ (stp ≤ 3))
    ∧ (∃ (stp sia sib : Nat) (s : State), let m := s.start; (m.alive = true) ∧ (m.safety.cfg = none ∨ 3 < stp))
    ∧ (∃ (i n : Nat) (s : State), let m := s.start; (m.alive = true) ∧ ((m.inCfg i).en = true) ∧ ((m.safeIn i).disc = some n) ∧ (20 * (m.inCfg i).discT ≤ n) ∧ ((m.safeIn i).discLatch = false))
    ∧ (∃ (i : Nat) (s : State), let m := s.start; (m.alive = true) ∧ ((m.inCfg i).en = false ∨ (m.safeIn i).disc = none ∨ (m.safeIn i).discLatch = true))
    ∧ (∃ (i n : Nat) (s : State), let m := s.start; (m.alive = true) ∧ ((m.safeIn i).disc = some n) ∧ (n < 20 * (m.inCfg i).discT))
    ∧ (∃ (o : Nat) (b ok : Bool) (s : State), let m := s.start; (m.alive = true) ∧ ((m.safeOut o).on = false))
    ∧ (∃ (o : Nat) (b : Bool) (g : SafeCfg) (s : State), let m := s.start; (m.alive = true) ∧ (m.safety.cfg = some g) ∧ ((m.safeOut o).on = true))
    ∧ (∃ (o : Nat) (b : Bool) (g : SafeCfg) (s : State), let m := s.start; (m.alive = true) ∧ (m.safety.cfg = some g) ∧ (o ≤ 3) ∧ ((m.safeOut o).on = true))
    ∧ (∃ (o : Nat) (b : Bool) (s : State), let m := s.start; (m.alive = true) ∧ (o ≤ 3))
    ∧ (∃ (o : Nat) (b : Bool) (s : State), let m := s.start; (m.alive = true) ∧ (3 < o))
    ∧ (∃ (i : Nat) (g : SafeCfg) (s : State), let m := s.start; (m.alive = true) ∧ (m.safety.cfg = some g) ∧ ((m.inCfg i).en = true) ∧ ((m.inCfg i).periodic = true) ∧ (g.testInt ≤ (m.safeIn i).hours) ∧ ((m.safeIn i).due = false))
    ∧ (∃ (i : Nat) (s : State), let m := s.start; (m.alive = true) ∧ ((m.inCfg i).en = false ∨ (m.inCfg i).periodic = false ∨ (m.safeIn i).due = true))
    ∧ (∃ (i : Nat) (g : SafeCfg) (s : State), let m := s.start; (m.alive = true) ∧ (m.safety.cfg = some g) ∧ ((m.safeIn i).hours < g.testInt))
    ∧ (∃ (i : Nat) (g : SafeCfg) (s : State), let m := s.start; (m.alive = true) ∧ (m.safety.cfg = some g) ∧ ((m.inCfg i).en = true) ∧ ((m.inCfg i).periodic = true) ∧ (g.testInt + g.grace ≤ (m.safeIn i).hours) ∧ ((m.safeIn i).due = true))
    ∧ (∃ (i : Nat) (s : State), let m := s.start; (m.alive = true) ∧ ((m.inCfg i).en = false ∨ (m.inCfg i).periodic = false ∨ (m.safeIn i).due = false))
    ∧ (∃ (i : Nat) (g : SafeCfg) (s : State), let m := s.start; (m.alive = true) ∧ (m.safety.cfg = some g) ∧ ((m.safeIn i).hours < g.testInt + g.grace)) :=
  ⟨⟨0, 0, 0, (⟨77, 100, 100, 100, 10, 10, [⟨true, false, true, 0, 1, 1, 100⟩], [⟨true, false, false, 1, 0, 0⟩], [⟨true, true, 1, 10, 5, 100, 10, 100⟩], 0⟩ : SafeCfg), tA (fun m => { m with safety := { m.safety with cfg := some (⟨77, 100, 100, 100, 10, 10, [⟨true, false, true, 0, 1, 1, 100⟩], [⟨true, false, false, 1, 0, 0⟩], [⟨true, true, 1, 10, 5, 100, 10, 100⟩], 0⟩ : SafeCfg) } }), by decide +kernel⟩,
   ⟨0, 0, 0, tS id, by decide +kernel⟩,
   ⟨0, 2000, tA (fun m => { m with safety := { m.safety with cfg := some (⟨77, 100, 100, 100, 10, 10, [⟨true, false, true, 0, 1, 1, 100⟩], [⟨true, false, false, 1, 0, 0⟩], [⟨true, true, 1, 10, 5, 100, 10, 100⟩], 0⟩ : SafeCfg), ins := [{ safeInInit with disc := some 2000 }] } }), by decide +kernel⟩,
   ⟨0, tS id, by decide +kernel⟩,
   ⟨0, 5, tA (fun m => { m with safety := { m.safety with cfg := some (⟨77, 100, 100, 100, 10, 10, [⟨true, false, true, 0, 1, 1, 100⟩], [⟨true, false, false, 1, 0, 0⟩], [⟨true, true, 1, 10, 5, 100, 10, 100⟩], 0⟩ : SafeCfg), ins := [{ safeInInit with disc := some 5 }] } }), by decide +kernel⟩,
   ⟨0, true, false, tS id, by decide +kernel⟩,
   ⟨0, true, (⟨77, 100, 100, 100, 10, 10, [⟨true, false, true, 0, 1, 1, 100⟩], [⟨true, false, false, 1, 0, 0⟩], [⟨true, true, 1, 10, 5, 100, 10, 100⟩], 0⟩ : SafeCfg), tA (fun m => { m with safety := { m.safety with cfg := some (⟨77, 100, 100, 100, 10, 10, [⟨true, false, true, 0, 1, 1, 100⟩], [⟨true, false, false, 1, 0, 0⟩], [⟨true, true, 1, 10, 5, 100, 10, 100⟩], 0⟩ : SafeCfg), outs := [{ safeOutInit with on := true }] } }), by decide +kernel⟩,
   ⟨0, true, (⟨77, 100, 100, 100, 10, 10, [⟨true, false, true, 0, 1, 1, 100⟩], [⟨true, false, false, 1, 0, 0⟩], [⟨true, true, 1, 10, 5, 100, 10, 100⟩], 0⟩ : SafeCfg), tA (fun m => { m with safety := { m.safety with cfg := some (⟨77, 100, 100, 100, 10, 10, [⟨true, false, true, 0, 1, 1, 100⟩], [⟨true, false, false, 1, 0, 0⟩], [⟨true, true, 1, 10, 5, 100, 10, 100⟩], 0⟩ : SafeCfg), outs := [{ safeOutInit with on := true }] } }), by decide +kernel⟩,
   ⟨0, true, tS id, by decide +kernel⟩,
   ⟨4, true, tS id, by decide +kernel⟩,
   ⟨0, (⟨77, 100, 100, 100, 10, 10, [⟨true, false, true, 0, 1, 1, 100⟩], [⟨true, false, false, 1, 0, 0⟩], [⟨true, true, 1, 10, 5, 100, 10, 100⟩], 0⟩ : SafeCfg), tA (fun m => { m with safety := { m.safety with cfg := some (⟨77, 100, 100, 100, 10, 10, [⟨true, false, true, 0, 1, 1, 100⟩], [⟨true, false, false, 1, 0, 0⟩], [⟨true, true, 1, 10, 5, 100, 10, 100⟩], 0⟩ : SafeCfg), ins := [{ safeInInit with hours := 10 }] } }), by decide +kernel⟩,
   ⟨0, tS id, by decide +kernel⟩,
   ⟨0, (⟨77, 100, 100, 100, 10, 10, [⟨true, false, true, 0, 1, 1, 100⟩], [⟨true, false, false, 1, 0, 0⟩], [⟨true, true, 1, 10, 5, 100, 10, 100⟩], 0⟩ : SafeCfg), tA (fun m => { m with safety := { m.safety with cfg := some (⟨77, 100, 100, 100, 10, 10, [⟨true, false, true, 0, 1, 1, 100⟩], [⟨true, false, false, 1, 0, 0⟩], [⟨true, true, 1, 10, 5, 100, 10, 100⟩], 0⟩ : SafeCfg), ins := [{ safeInInit with hours := 9 }] } }), by decide +kernel⟩,
   ⟨0, (⟨77, 100, 100, 100, 10, 10, [⟨true, false, true, 0, 1, 1, 100⟩], [⟨true, false, false, 1, 0, 0⟩], [⟨true, true, 1, 10, 5, 100, 10, 100⟩], 0⟩ : SafeCfg), tA (fun m => { m with safety := { m.safety with cfg := some (⟨77, 100, 100, 100, 10, 10, [⟨true, false, true, 0, 1, 1, 100⟩], [⟨true, false, false, 1, 0, 0⟩], [⟨true, true, 1, 10, 5, 100, 10, 100⟩], 0⟩ : SafeCfg), ins := [{ safeInInit with hours := 20, due := true }] } }), by decide +kernel⟩,
   ⟨0, tS id, by decide +kernel⟩,
   ⟨0, (⟨77, 100, 100, 100, 10, 10, [⟨true, false, true, 0, 1, 1, 100⟩], [⟨true, false, false, 1, 0, 0⟩], [⟨true, true, 1, 10, 5, 100, 10, 100⟩], 0⟩ : SafeCfg), tA (fun m => { m with safety := { m.safety with cfg := some (⟨77, 100, 100, 100, 10, 10, [⟨true, false, true, 0, 1, 1, 100⟩], [⟨true, false, false, 1, 0, 0⟩], [⟨true, true, 1, 10, 5, 100, 10, 100⟩], 0⟩ : SafeCfg), ins := [{ safeInInit with hours := 19 }] } }), by decide +kernel⟩⟩

theorem witness_SafetyCycleAndTelegramStepsComplete :
    (∃ (r : SafetyRead) (s : State), let m := s.start; (m.alive = true) ∧ (r.agree = true))
    ∧ (∃ (r : SafetyRead) (s : State), let m := s.start; (m.alive = true) ∧ (r.agree = false))
    ∧ (∃ (p x a n : Nat) (b : List Byte) (g : SafeCfg) (s : State), let m := s.start; (m.alive = true) ∧ (n = fieldLE b 2 1) ∧ (m.safety.cfg = some g) ∧ (portTakes m p x = true) ∧ (siphonLost m 12 = false) ∧ (n ≤ 3) ∧ ((m.telCfg n).rx = true) ∧ (b.length ≠ 64 ∨ fieldLE b 0x3C 4 ≠ scrc b ∨ sliceBytes b 0x2C 16 ≠ (sliceBytes b 0x1C 16).map (fun y => ~~~y) ∨ fieldLE b 0 2 ≠ 1 ∨ fieldLE b 4 4 ≠ (m.telCfg n).peer ∨ fieldLE b 8 4 ≠ g.ownId ∨ telResvOk (fieldLE b 0x1C 16) = false ∨ newer (m.tel n) (fieldLE b 0x0C 4) = false))
    ∧ (∃ (p x a n : Nat) (b : List Byte) (g : SafeCfg) (s : State), let m := s.start; (m.alive = true) ∧ (n = fieldLE b 2 1) ∧ (m.safety.cfg = some g) ∧ (portTakes m p x = true) ∧ (siphonLost m 12 = false) ∧ (n ≤ 3) ∧ ((m.telCfg n).rx = true) ∧ (b.length = 64) ∧ (fieldLE b 0x3C 4 = scrc b) ∧ (sliceBytes b 0x2C 16 = (sliceBytes b 0x1C 16).map (fun y => ~~~y)) ∧ (fieldLE b 0 2 = 1) ∧ (fieldLE b 4 4 = (m.telCfg n).peer) ∧ (fieldLE b 8 4 = g.ownId) ∧ (telResvOk (fieldLE b 0x1C 16) = true) ∧ (newer (m.tel n) (fieldLE b 0x0C 4) = true) ∧ (m.tb.timeValid = true) ∧ (bitOf (fieldLE b 0x1C 16) 18 = false) ∧ (fieldLE b 0x10 8 * 1000000000 + fieldLE b 0x18 4 + (m.telCfg n).maxAge * 1000000 < a))
    ∧ (∃ (p x a n : Nat) (b : List Byte) (g : SafeCfg) (s : State), let m := s.start; (m.alive = true) ∧ (n = fieldLE b 2 1) ∧ (m.safety.cfg = some g) ∧ (portTakes m p x = true) ∧ (siphonLost m 12 = false) ∧ (n ≤ 3) ∧ ((m.telCfg n).rx = true) ∧ (b.length = 64) ∧ (fieldLE b 0x3C 4 = scrc b) ∧ (sliceBytes b 0x2C 16 = (sliceBytes b 0x1C 16).map (fun y => ~~~y)) ∧ (fieldLE b 0 2 = 1) ∧ (fieldLE b 4 4 = (m.telCfg n).peer) ∧ (fieldLE b 8 4 = g.ownId) ∧ (telResvOk (fieldLE b 0x1C 16) = true) ∧ (newer (m.tel n) (fieldLE b 0x0C 4) = true) ∧ (m.tb.timeValid = false ∨ bitOf (fieldLE b 0x1C 16) 18 = true ∨ a ≤ fieldLE b 0x10 8 * 1000000000 + fieldLE b 0x18 4 + (m.telCfg n).maxAge * 1000000))
    ∧ (∃ (p x a n : Nat) (b : List Byte) (g : SafeCfg) (s : State), let m := s.start; (m.alive = true) ∧ (n = fieldLE b 2 1) ∧ (m.safety.cfg = some g) ∧ (portTakes m p x = true) ∧ (siphonLost m 12 = false) ∧ (n ≤ 3) ∧ ((m.telCfg n).rx = true) ∧ (b.length = 64) ∧ (fieldLE b 0x3C 4 = scrc b) ∧ (sliceBytes b 0x2C 16 = (sliceBytes b 0x1C 16).map (fun y => ~~~y)) ∧ (fieldLE b 0 2 = 1) ∧ (fieldLE b 4 4 = (m.telCfg n).peer) ∧ (fieldLE b 8 4 = g.ownId) ∧ (telResvOk (fieldLE b 0x1C 16) = true) ∧ (newer (m.tel n) (fieldLE b 0x0C 4) = true) ∧ (m.tb.timeValid = false ∨ bitOf (fieldLE b 0x1C 16) 18 = true ∨ a ≤ fieldLE b 0x10 8 * 1000000000 + fieldLE b 0x18 4 + (m.telCfg n).maxAge * 1000000) ∧ ((m.telCfg n).ports ≠ 3) ∧ ((m.tel n).copies = []))
    ∧ (∃ (p x a : Nat) (b : List Byte) (s : State), let m := s.start; (m.alive = true) ∧ (m.safety.cfg = none ∨ portTakes m p x = false ∨ siphonLost m 12 = true ∨ 3 < fieldLE b 2 1 ∨ (m.telCfg (fieldLE b 2 1)).rx = false))
    ∧ (∃ (n : Nat) (g : SafeCfg) (s : State), let m := s.start; (m.alive = true) ∧ (m.safety.cfg = some g) ∧ ((m.telCfg n).tx = true) ∧ ((m.telCfg n).rx = true))
    ∧ (∃ (n : Nat) (g : SafeCfg) (s : State), let m := s.start; (m.alive = true) ∧ (m.safety.cfg = some g) ∧ ((m.telCfg n).tx = true) ∧ ((m.telCfg n).rx = false))
    ∧ (∃ (n : Nat) (s : State), let m := s.start; (m.alive = true) ∧ (m.safety.cfg = none ∨ (m.telCfg n).tx = false))
    ∧ (∃ (n : Nat) (s : State), let m := s.start; (m.alive = true) ∧ ((m.tel n).valid = true))
    ∧ (∃ (n : Nat) (s : State), let m := s.start; (m.alive = true) ∧ ((m.tel n).valid = false))
    ∧ (∃ (n : Nat) (f : TelCopy) (l : List TelCopy) (s : State), let m := s.start; (m.alive = true) ∧ ((m.tel n).copies = f :: l) ∧ (otherDown m n f.port = false ∨ (m.tel n).disagree = true))
    ∧ (∃ (n : Nat) (f : TelCopy) (l : List TelCopy) (s : State), let m := s.start; (m.alive = true) ∧ ((m.tel n).copies = f :: l) ∧ (otherDown m n f.port = true) ∧ ((m.tel n).disagree = false))
    ∧ (∃ (n : Nat) (s : State), let m := s.start; (m.alive = true) ∧ ((m.tel n).copies = []))
    ∧ (∃ (failed : Nat) (s : State), let m := s.start; (m.alive = true) ∧ (m.safety.selfTest = []))
    ∧ (∃ (t : SelfTest) (s : State), let m := s.start; (m.alive = true) ∧ (m.safety.selfTest = [t]) ∧ (m.safety.runFound = false) ∧ (∀ x ∈ m.safety.outs, x.outLatch = false ∧ x.midRun = false))
    ∧ (∃ (f : Nat) (t : SelfTest) (s : State), let m := s.start; (m.alive = true) ∧ (f % 256 ≠ 0 ∨ m.safety.runFound = true) ∧ (m.safety.selfTest = [t])) :=
  ⟨⟨⟨0, 0, none, 0, 0, true⟩, tS id, by decide +kernel⟩,
   ⟨⟨0, 0, none, 0, 0, false⟩, tS id, by decide +kernel⟩,
   ⟨0, 0x011B19000000, 0, 0, List.replicate 64 0#8, (⟨77, 100, 100, 100, 10, 10, [⟨true, false, true, 0, 1, 1, 100⟩], [⟨true, false, false, 1, 0, 0⟩], [⟨true, true, 1, 10, 5, 100, 10, 100⟩], 0⟩ : SafeCfg), tA (fun m => { m.setF F.ethCtrlEnA 1 with safety := { m.safety with cfg := some (⟨77, 100, 100, 100, 10, 10, [⟨true, false, true, 0, 1, 1, 100⟩], [⟨true, false, false, 1, 0, 0⟩], [⟨true, true, 1, 10, 5, 100, 10, 100⟩], 0⟩ : SafeCfg) } }), by decide +kernel⟩,
   ⟨0, 0x011B19000000, 5000000000, 0, ((leBytes 4 1 ++ leBytes 4 5 ++ leBytes 4 77 ++ leBytes 4 1 ++ leBytes 12 0 ++ List.replicate 16 0#8 ++ List.replicate 16 255#8) ++ leBytes 4 (scrc (leBytes 4 1 ++ leBytes 4 5 ++ leBytes 4 77 ++ leBytes 4 1 ++ leBytes 12 0 ++ List.replicate 16 0#8 ++ List.replicate 16 255#8))), (⟨77, 100, 100, 100, 10, 10, [⟨true, false, true, 0, 1, 1, 100⟩], [⟨true, false, false, 1, 0, 0⟩], [⟨true, true, 1, 10, 5, 100, 10, 100⟩], 0⟩ : SafeCfg), tA (fun m => { m.setF F.ethCtrlEnA 1 with safety := { m.safety with cfg := some (⟨77, 100, 100, 100, 10, 10, [⟨true, false, true, 0, 1, 1, 100⟩], [⟨true, false, false, 1, 0, 0⟩], [⟨true, true, 1, 10, 5, 100, 10, 100⟩], 0⟩ : SafeCfg) } }), by decide +kernel⟩,
   ⟨0, 0x011B19000000, 0, 0, ((leBytes 4 1 ++ leBytes 4 5 ++ leBytes 4 77 ++ leBytes 4 1 ++ leBytes 12 0 ++ List.replicate 16 0#8 ++ List.replicate 16 255#8) ++ leBytes 4 (scrc (leBytes 4 1 ++ leBytes 4 5 ++ leBytes 4 77 ++ leBytes 4 1 ++ leBytes 12 0 ++ List.replicate 16 0#8 ++ List.replicate 16 255#8))), (⟨77, 100, 100, 100, 10, 10, [⟨true, false, true, 0, 1, 1, 100⟩], [⟨true, false, false, 1, 0, 0⟩], [⟨true, true, 1, 10, 5, 100, 10, 100⟩], 0⟩ : SafeCfg), tA (fun m => { m.setF F.ethCtrlEnA 1 with safety := { m.safety with cfg := some (⟨77, 100, 100, 100, 10, 10, [⟨true, false, true, 0, 1, 1, 100⟩], [⟨true, false, false, 1, 0, 0⟩], [⟨true, true, 1, 10, 5, 100, 10, 100⟩], 0⟩ : SafeCfg) } }), by decide +kernel⟩,
   ⟨0, 0x011B19000000, 0, 0, ((leBytes 4 1 ++ leBytes 4 5 ++ leBytes 4 77 ++ leBytes 4 1 ++ leBytes 12 0 ++ List.replicate 16 0#8 ++ List.replicate 16 255#8) ++ leBytes 4 (scrc (leBytes 4 1 ++ leBytes 4 5 ++ leBytes 4 77 ++ leBytes 4 1 ++ leBytes 12 0 ++ List.replicate 16 0#8 ++ List.replicate 16 255#8))), (⟨77, 100, 100, 100, 10, 10, [⟨true, false, true, 0, 1, 1, 100⟩], [⟨true, false, false, 1, 0, 0⟩], [⟨true, true, 1, 10, 5, 100, 10, 100⟩], 0⟩ : SafeCfg), tA (fun m => { m.setF F.ethCtrlEnA 1 with safety := { m.safety with cfg := some (⟨77, 100, 100, 100, 10, 10, [⟨true, false, true, 0, 1, 1, 100⟩], [⟨true, false, false, 1, 0, 0⟩], [⟨true, true, 1, 10, 5, 100, 10, 100⟩], 0⟩ : SafeCfg) } }), by decide +kernel⟩,
   ⟨0, 0, 0, [], tS id, by decide +kernel⟩,
   ⟨0, (⟨77, 100, 100, 100, 10, 10, [⟨true, false, true, 0, 1, 1, 100⟩], [⟨true, false, false, 1, 0, 0⟩], [⟨true, true, 1, 10, 5, 100, 10, 100⟩], 0⟩ : SafeCfg), tA (fun m => { m with safety := { m.safety with cfg := some (⟨77, 100, 100, 100, 10, 10, [⟨true, false, true, 0, 1, 1, 100⟩], [⟨true, false, false, 1, 0, 0⟩], [⟨true, true, 1, 10, 5, 100, 10, 100⟩], 0⟩ : SafeCfg) } }), by decide +kernel⟩,
   ⟨0, (⟨77, 100, 100, 100, 10, 10, [⟨true, false, true, 0, 1, 1, 100⟩], [⟨true, false, false, 1, 0, 0⟩], [⟨true, false, 1, 10, 5, 100, 10, 100⟩], 0⟩ : SafeCfg), tA (fun m => { m with safety := { m.safety with cfg := some (⟨77, 100, 100, 100, 10, 10, [⟨true, false, true, 0, 1, 1, 100⟩], [⟨true, false, false, 1, 0, 0⟩], [⟨true, false, 1, 10, 5, 100, 10, 100⟩], 0⟩ : SafeCfg) } }), by decide +kernel⟩,
   ⟨0, tS id, by decide +kernel⟩,
   ⟨0, tA (fun m => { m with safety := { m.safety with cfg := some (⟨77, 100, 100, 100, 10, 10, [⟨true, false, true, 0, 1, 1, 100⟩], [⟨true, false, false, 1, 0, 0⟩], [⟨true, true, 1, 10, 5, 100, 10, 100⟩], 0⟩ : SafeCfg), tels := [{ safeTelInit with valid := true }] } }), by decide +kernel⟩,
   ⟨0, tS id, by decide +kernel⟩,
   ⟨0, (⟨1, 0, [], 0⟩ : TelCopy), [], tA (fun m => { m with safety := { m.safety with cfg := some (⟨77, 100, 100, 100, 10, 10, [⟨true, false, true, 0, 1, 1, 100⟩], [⟨true, false, false, 1, 0, 0⟩], [⟨true, true, 1, 10, 5, 100, 10, 100⟩], 0⟩ : SafeCfg), tels := [{ safeTelInit with copies := [(⟨1, 0, [], 0⟩ : TelCopy)] }] } }), by decide +kernel⟩,
   ⟨0, (⟨1, 0, [], 0⟩ : TelCopy), [], tA (fun m => { m with safety := { m.safety with cfg := some (⟨77, 100, 100, 100, 10, 10, [⟨true, false, true, 0, 1, 1, 100⟩], [⟨true, false, false, 1, 0, 0⟩], [⟨true, true, 3, 10, 5, 100, 10, 100⟩], 0⟩ : SafeCfg), tels := [{ safeTelInit with copies := [(⟨1, 0, [], 0⟩ : TelCopy)] }] } }), by decide +kernel⟩,
   ⟨0, tS id, by decide +kernel⟩,
   ⟨0, tS id, by decide +kernel⟩,
   ⟨⟨3, 5, none⟩, tA (fun m => { m with safety := { m.safety with selfTest := [⟨3, 5, none⟩] } }), by decide +kernel⟩,
   ⟨1, ⟨3, 5, none⟩, tA (fun m => { m with safety := { m.safety with selfTest := [⟨3, 5, none⟩] } }), by decide +kernel⟩⟩

theorem witness_SupplyAndResetStepsComplete :
    (∃ (w : Bool) (s : State), let m := s.start; (m.pwr.vin = false))
    ∧ (∃ (w : Bool) (s : State), let m := s.start; (m.pwr.vin = true))
    ∧ (∃ (x : Straps) (s : State), let m := s.start; (m.pwr.rails = true) ∧ (m.pwr.inReset = true))
    ∧ (∃ (x : Straps) (s : State), let m := s.start; (m.pwr.rails = false ∨ m.pwr.inReset = false))
    ∧ (∃ (s : State), let m := s.start; (m.pwr.vin = true))
    ∧ (∃ (s : State), let m := s.start; (m.pwr.vin = false))
    ∧ (∃ (s : State), let m := s.start; (m.pwr.rails = true))
    ∧ (∃ (s : State), let m := s.start; (m.pwr.rails = false))
    ∧ (∃ (s : State), let m := s.start; (m.pwr.hotOff = true))
    ∧ (∃ (s : State), let m := s.start; (m.pwr.hotOff = false))
    ∧ (∃ (h : Nat) (s : State), let m := s.start; (m.dev.state = .dormant) ∧ (m.pwr.rails = false))
    ∧ (∃ (h : Nat) (s : State), let m := s.start; (m.dev.state ≠ .dormant ∨ m.pwr.rails = true))
    ∧ (∃ (h : Nat) (s : State), let m := s.start; (m.dev.state = .dormant) ∧ (m.pwr.rails = false) ∧ (m.pwr.crystal = true) ∧ (m.reg.raw F.pwrAlarmSeconds ≠ 0))
    ∧ (∃ (h : Nat) (s : State), let m := s.start; (m.dev.state ≠ .dormant ∨ m.pwr.rails = true ∨ m.pwr.crystal = false ∨ m.reg.raw F.pwrAlarmSeconds = 0))
    ∧ (∃ (s : State), let m := s.start; (m.alive = true))
    ∧ (∃ (s : State), let m := s.start; (m.alive = false))
    ∧ (∃ (s : State), let m := s.start; (m.alive = true))
    ∧ (∃ (s : State), let m := s.start; (m.alive = false))
    ∧ (∃ (s : State), let m := s.start; (m.pwr.held = true))
    ∧ (∃ (s : State), let m := s.start; (m.pwr.held = false)) :=
  ⟨⟨true, tA (fun m => { m with pwr := { m.pwr with vin := false } }), by decide +kernel⟩,
   ⟨true, tS id, by decide +kernel⟩,
   ⟨⟨1, 0, 0, 0, 5, true, 0, 0, []⟩, tA (fun m => { m with pwr := { m.pwr with inReset := true } }), by decide +kernel⟩,
   ⟨⟨1, 0, 0, 0, 5, true, 0, 0, []⟩, tS id, by decide +kernel⟩,
   ⟨tS id, by decide +kernel⟩,
   ⟨tA (fun m => { m with pwr := { m.pwr with vin := false } }), by decide +kernel⟩,
   ⟨tS id, by decide +kernel⟩,
   ⟨tS (fun m => { m with pwr := { m.pwr with rails := false } }), by decide +kernel⟩,
   ⟨tA (fun m => { m with pwr := { m.pwr with hotOff := true } }), by decide +kernel⟩,
   ⟨tS id, by decide +kernel⟩,
   ⟨3, tS (fun m => { m with dev := { m.dev with state := .dormant }, pwr := { m.pwr with rails := false } }), by decide +kernel⟩,
   ⟨3, tS id, by decide +kernel⟩,
   ⟨3, tS (fun m => { m.setF F.pwrAlarmSeconds 5 with dev := { m.dev with state := .dormant }, pwr := { m.pwr with rails := false } }), by decide +kernel⟩,
   ⟨3, tS id, by decide +kernel⟩,
   ⟨tS id, by decide +kernel⟩,
   ⟨tS (fun m => { m with dev := { m.dev with state := .dormant } }), by decide +kernel⟩,
   ⟨tS id, by decide +kernel⟩,
   ⟨tS (fun m => { m with dev := { m.dev with state := .dormant } }), by decide +kernel⟩,
   ⟨tS (fun m => { m with pwr := { m.pwr with held := true } }), by decide +kernel⟩,
   ⟨tS id, by decide +kernel⟩⟩

theorem witness_BootAndSecurityStepsComplete :
    (∃ (mv : Nat) (s : State), let m := s.start; (Up s) ∧ (mv < m.fld F.pwrThreshVinWarn) ∧ (m.pwr.lowSeen = false))
    ∧ (∃ (mv : Nat) (s : State), let m := s.start; (Up s) ∧ (mv < m.fld F.pwrThreshVinWarn) ∧ (m.pwr.lowSeen = true))
    ∧ (∃ (mv : Nat) (s : State), let m := s.start; (Up s) ∧ (m.fld F.pwrThreshVinWarn ≤ mv))
    ∧ (∃ (tj : Int) (s : State), let m := s.start; (Up s) ∧ (((8 * m.fld F.pwrThreshTWarn : Nat) : Int) < tj) ∧ (m.pwr.hotCtrl = false))
    ∧ (∃ (d : Nat) (tj : Int) (s : State), let m := s.start; (Up s) ∧ (d ≠ 0) ∧ (((8 * m.fld F.pwrThreshTWarn : Nat) : Int) < tj) ∧ (m.pwr.hotPwr = false))
    ∧ (∃ (tj : Int) (s : State), let m := s.start; (Up s) ∧ (m.pwr.hotCtrl = true ∨ tj ≤ ((8 * m.fld F.pwrThreshTWarn : Nat) : Int)))
    ∧ (∃ (d : Nat) (tj : Int) (s : State), let m := s.start; (Up s) ∧ (d ≠ 0) ∧ (m.pwr.hotPwr = true ∨ tj ≤ ((8 * m.fld F.pwrThreshTWarn : Nat) : Int)))
    ∧ (∃ (s : State), let m := s.start; (Up s) ∧ (m.inState [.boot, .recovery] = false) ∧ (m.dev.test = false))
    ∧ (∃ (s : State), let m := s.start; (Up s) ∧ (m.inState [.boot, .recovery] = true ∨ m.dev.test = true))
    ∧ (∃ (f : FlashRead) (x : Bcr) (s : State), let m := s.start; (Up s) ∧ (m.dev.state = .boot) ∧ (m.sec.romRing = false) ∧ (m.pwr.straps.bootSel % 4 = 0 ∨ m.pwr.straps.bootSel % 4 = 2) ∧ (readBcr f.recA f.recB = some x) ∧ (x.trial = false))
    ∧ (∃ (f : FlashRead) (x : Bcr) (s : State), let m := s.start; (Up s) ∧ (m.dev.state = .boot) ∧ (m.sec.romRing = false) ∧ (m.pwr.straps.bootSel % 4 = 0 ∨ m.pwr.straps.bootSel % 4 = 2) ∧ (readBcr f.recA f.recB = some x) ∧ (x.trial = true) ∧ (0 < x.tries))
    ∧ (∃ (f : FlashRead) (x : Bcr) (s : State), let m := s.start; (Up s) ∧ (m.dev.state = .boot) ∧ (m.sec.romRing = false) ∧ (m.pwr.straps.bootSel % 4 = 0 ∨ m.pwr.straps.bootSel % 4 = 2) ∧ (readBcr f.recA f.recB = some x) ∧ (x.trial = true) ∧ (x.tries = 0))
    ∧ (∃ (f : FlashRead) (s : State), let m := s.start; (Up s) ∧ (m.dev.state = .boot) ∧ (m.sec.romRing = false) ∧ (m.pwr.straps.bootSel % 4 = 3))
    ∧ (∃ (f : FlashRead) (s : State), let m := s.start; (Up s) ∧ (m.dev.state ≠ .boot ∨ m.sec.romRing = true ∨ m.pwr.straps.bootSel % 4 = 1))
    ∧ (∃ (s : State), let m := s.start; (Up s) ∧ (m.dev.state = .boot) ∧ (m.pwr.straps.bootSel % 4 = 1))
    ∧ (∃ (s : State), let m := s.start; (Up s) ∧ (m.dev.state = .recovery))
    ∧ (∃ (s : State), let m := s.start; (Up s) ∧ (m.dev.state ≠ .recovery) ∧ (m.dev.state ≠ .boot ∨ m.pwr.straps.bootSel % 4 ≠ 1))
    ∧ (∃ (b w : List Byte) (r q : Nat) (s : State), let m := s.start; (Up s) ∧ (m.sec.staging = some (r, q, w)))
    ∧ (∃ (b : List Byte) (s : State), let m := s.start; (Up s) ∧ (m.sec.staging = none))
    ∧ (∃ (s : State), let m := s.start; (Up s) ∧ (m.sec.activateDue = true))
    ∧ (∃ (s : State), let m := s.start; (Up s) ∧ (m.sec.activateDue = false))
    ∧ (∃ (q : QuoteRun) (s : State), let m := s.start; (Up s) ∧ (m.sec.quote = some q) ∧ (q.signed = false) ∧ (m.sec.certSent = false))
    ∧ (∃ (q : QuoteRun) (s : State), let m := s.start; (Up s) ∧ (m.sec.quote = some q) ∧ (q.signed = false) ∧ (m.sec.certSent = true))
    ∧ (∃ (s : State), let m := s.start; (Up s) ∧ (m.sec.quote = none))
    ∧ (∃ (s : State), let m := s.start; (Up s) ∧ (m.dbg.level = 0))
    ∧ (∃ (s : State), let m := s.start; (Up s) ∧ (m.dbg.level = 1))
    ∧ (∃ (s : State), let m := s.start; (Up s) ∧ (m.dbg.level = 2))
    ∧ (∃ (s : State), let m := s.start; (Up s) ∧ (m.dbg.level = 3))
    ∧ (∃ (s : State), let m := s.start; (Up s)) :=
  ⟨⟨30000, tS id, by decide +kernel⟩,
   ⟨30000, tA (fun m => { m with pwr := { m.pwr with lowSeen := true } }), by decide +kernel⟩,
   ⟨50000, tS id, by decide +kernel⟩,
   ⟨1000, tS id, by decide +kernel⟩,
   ⟨1, 1000, tS id, by decide +kernel⟩,
   ⟨0, tS id, by decide +kernel⟩,
   ⟨1, 0, tS id, by decide +kernel⟩,
   ⟨tS id, by decide +kernel⟩,
   ⟨tS fun m => { m with dev := { m.dev with state := .recovery } }, by decide +kernel⟩,
   ⟨⟨bcrBytes (⟨0, false, 0, 0, 4, 0⟩ : Bcr), [], [], []⟩, (⟨0, false, 0, 0, 4, 0⟩ : Bcr), tS (fun m => { m with dev := { m.dev with state := .boot }, pwr := { m.pwr with straps := { m.pwr.straps with bootSel := 0 } } }), by decide +kernel⟩,
   ⟨⟨bcrBytes (⟨0, true, 2, 0, 4, 0⟩ : Bcr), [], [], []⟩, (⟨0, true, 2, 0, 4, 0⟩ : Bcr), tS (fun m => { m with dev := { m.dev with state := .boot }, pwr := { m.pwr with straps := { m.pwr.straps with bootSel := 0 } } }), by decide +kernel⟩,
   ⟨⟨bcrBytes (⟨0, true, 0, 0, 4, 0⟩ : Bcr), [], [], []⟩, (⟨0, true, 0, 0, 4, 0⟩ : Bcr), tS (fun m => { m with dev := { m.dev with state := .boot }, pwr := { m.pwr with straps := { m.pwr.straps with bootSel := 0 } } }), by decide +kernel⟩,
   ⟨⟨[], [], [], []⟩, tS (fun m => { m with dev := { m.dev with state := .boot }, pwr := { m.pwr with straps := { m.pwr.straps with bootSel := 3 } } }), by decide +kernel⟩,
   ⟨⟨[], [], [], []⟩, tS id, by decide +kernel⟩,
   ⟨tS (fun m => { m with dev := { m.dev with state := .boot }, pwr := { m.pwr with straps := { m.pwr.straps with bootSel := 1 } } }), by decide +kernel⟩,
   ⟨tS fun m => { m with dev := { m.dev with state := .recovery } }, by decide +kernel⟩,
   ⟨tS id, by decide +kernel⟩,
   ⟨[], [1#8], 0, 1, tA (fun m => { m with sec := { m.sec with staging := some (0, 1, [1#8]) } }), by decide +kernel⟩,
   ⟨[], tS id, by decide +kernel⟩,
   ⟨tA (fun m => { m with sec := { m.sec with activateDue := true } }), by decide +kernel⟩,
   ⟨tS id, by decide +kernel⟩,
   ⟨(⟨0, 1, [], false⟩ : QuoteRun), tA (fun m => { m with sec := { m.sec with quote := some (⟨0, 1, [], false⟩ : QuoteRun) } }), by decide +kernel⟩,
   ⟨(⟨0, 1, [], false⟩ : QuoteRun), tA (fun m => { m with sec := { m.sec with certSent := true, quote := some (⟨0, 1, [], false⟩ : QuoteRun) } }), by decide +kernel⟩,
   ⟨tS id, by decide +kernel⟩,
   ⟨tS id, by decide +kernel⟩,
   ⟨tA (fun m => { m with dbg := { m.dbg with level := 1 } }), by decide +kernel⟩,
   ⟨tA (fun m => { m with dbg := { m.dbg with level := 2 } }), by decide +kernel⟩,
   ⟨tA (fun m => { m with dbg := { m.dbg with level := 3 } }), by decide +kernel⟩,
   ⟨tS id, by decide +kernel⟩⟩

theorem witness_DebugUnitStepsComplete :
    (∃ (s : State), let m := s.start; (Up s) ∧ (m.inState [.boot, .recovery] = true ∨ m.dev.test = true))
    ∧ (∃ (s : State), let m := s.start; (Up s) ∧ (m.inState [.boot, .recovery] = true ∨ m.dev.test = true))
    ∧ (∃ (s : State), let m := s.start; (Up s) ∧ (m.inState [.boot, .recovery] = true ∨ m.dev.test = true))
    ∧ (∃ (s : State), let m := s.start; (Up s) ∧ (m.inState [.boot, .recovery] = true ∨ m.dev.test = true))
    ∧ (∃ (s : State), let m := s.start; (Up s) ∧ (m.inState [.boot, .recovery] = true ∨ m.dev.test = true))
    ∧ (∃ (s : State), let m := s.start; (Up s) ∧ (m.inState [.boot, .recovery] = true ∨ m.dev.test = true))
    ∧ (∃ (s : State), let m := s.start; (Up s) ∧ (m.inState [.boot, .recovery] = true ∨ m.dev.test = true))
    ∧ (∃ (s : State), let m := s.start; (Up s) ∧ (m.inState [.boot, .recovery] = true ∨ m.dev.test = true))
    ∧ (∃ (s : State), let m := s.start; (Up s) ∧ (m.inState [.boot, .recovery] = true ∨ m.dev.test = true))
    ∧ (∃ (s : State), let m := s.start; (Up s) ∧ (m.inState [.boot, .recovery] = false) ∧ (m.dev.test = false) ∧ (2 ≤ m.dbg.level) ∧ (m.dbg.engine = .running) ∧ (m.dbg.haltDue = none))
    ∧ (∃ (s : State), let m := s.start; (Up s) ∧ (m.inState [.boot, .recovery] = false) ∧ (m.dev.test = false) ∧ (2 ≤ m.dbg.level) ∧ (m.dbg.engine = .running) ∧ (m.dbg.haltDue ≠ none))
    ∧ (∃ (s : State), let m := s.start; (Up s) ∧ (m.inState [.boot, .recovery] = false) ∧ (m.dev.test = false) ∧ (2 ≤ m.dbg.level) ∧ (m.dbg.engine ≠ .running))
    ∧ (∃ (s : State), let m := s.start; (Up s) ∧ (m.inState [.boot, .recovery] = false) ∧ (m.dev.test = false) ∧ (2 ≤ m.dbg.level) ∧ (m.dbg.engine = .halted))
    ∧ (∃ (s : State), let m := s.start; (Up s) ∧ (m.inState [.boot, .recovery] = false) ∧ (m.dev.test = false) ∧ (2 ≤ m.dbg.level) ∧ (m.dbg.engine = .blockStep))
    ∧ (∃ (s : State), let m := s.start; (Up s) ∧ (m.inState [.boot, .recovery] = false) ∧ (m.dev.test = false) ∧ (2 ≤ m.dbg.level) ∧ (m.dbg.engine = .running))
    ∧ (∃ (s : State), let m := s.start; (Up s) ∧ (m.inState [.boot, .recovery] = false) ∧ (m.dev.test = false) ∧ (2 ≤ m.dbg.level) ∧ (m.dbg.engine = .halted))
    ∧ (∃ (s : State), let m := s.start; (Up s) ∧ (m.inState [.boot, .recovery] = false) ∧ (m.dev.test = false) ∧ (2 ≤ m.dbg.level) ∧ (m.dbg.engine = .blockStep))
    ∧ (∃ (s : State), let m := s.start; (Up s) ∧ (m.inState [.boot, .recovery] = false) ∧ (m.dev.test = false) ∧ (2 ≤ m.dbg.level) ∧ (m.dbg.engine = .running))
    ∧ (∃ (s : State), let m := s.start; (Up s) ∧ (m.inState [.boot, .recovery] = false) ∧ (m.dev.test = false) ∧ (2 ≤ m.dbg.level) ∧ (m.dbg.engine = .halted) ∧ (m.dbg.stepRun = none))
    ∧ (∃ (s : State), let m := s.start; (Up s) ∧ (m.inState [.boot, .recovery] = false) ∧ (m.dev.test = false) ∧ (2 ≤ m.dbg.level) ∧ (m.dbg.engine = .blockStep))
    ∧ (∃ (s : State), let m := s.start; (Up s) ∧ (m.inState [.boot, .recovery] = false) ∧ (m.dev.test = false) ∧ (2 ≤ m.dbg.level) ∧ (m.dbg.engine = .running))
    ∧ (∃ (s : State), let m := s.start; (Up s) ∧ (m.inState [.boot, .recovery] = false) ∧ (m.dev.test = false) ∧ (2 ≤ m.dbg.level))
    ∧ (∃ (s : State), let m := s.start; (Up s) ∧ (m.inState [.boot, .recovery] = false) ∧ (m.dev.test = false) ∧ (2 ≤ m.dbg.level))
    ∧ (∃ (s : State), let m := s.start; (Up s) ∧ (m.inState [.boot, .recovery] = false) ∧ (m.dev.test = false) ∧ (m.dbg.level < 2))
    ∧ (∃ (s : State), let m := s.start; (Up s) ∧ (m.inState [.boot, .recovery] = false) ∧ (m.dev.test = false) ∧ (m.dbg.level < 2))
    ∧ (∃ (s : State), let m := s.start; (Up s) ∧ (m.inState [.boot, .recovery] = false) ∧ (m.dev.test = false) ∧ (m.dbg.level < 2))
    ∧ (∃ (s : State), let m := s.start; (Up s) ∧ (m.inState [.boot, .recovery] = false) ∧ (m.dev.test = false) ∧ (m.dbg.level < 2))
    ∧ (∃ (s : State), let m := s.start; (Up s) ∧ (m.inState [.boot, .recovery] = false) ∧ (m.dev.test = false) ∧ (m.dbg.level < 2))
    ∧ (∃ (s : State), let m := s.start; (Up s) ∧ (m.inState [.boot, .recovery] = false) ∧ (m.dev.test = false) ∧ (m.dbg.level < 2))
    ∧ (∃ (s : State), let m := s.start; (Up s) ∧ (m.inState [.boot, .recovery] = false) ∧ (m.dev.test = false))
    ∧ (∃ (s : State), let m := s.start; (Up s) ∧ (m.inState [.boot, .recovery] = false) ∧ (m.dev.test = false) ∧ (m.dbg.level ≠ 3))
    ∧ (∃ (s : State), let m := s.start; (Up s) ∧ (m.inState [.boot, .recovery] = false) ∧ (m.dev.test = false) ∧ (m.dbg.level = 0))
    ∧ (∃ (s : State), let m := s.start; (Up s) ∧ (m.inState [.boot, .recovery] = false) ∧ (m.dev.test = false) ∧ (m.dbg.level = 1))
    ∧ (∃ (s : State), let m := s.start; (Up s) ∧ (m.inState [.boot, .recovery] = false) ∧ (m.dev.test = false) ∧ (m.dbg.level = 2))
    ∧ (∃ (v : Nat) (s : State), let m := s.start; (Up s) ∧ (m.dbg.mdioBusy = true) ∧ (m.dbg.mdioAgain = false) ∧ (2 ≤ m.reg.raw F.dbgMdioOp))
    ∧ (∃ (v : Nat) (s : State), let m := s.start; (Up s) ∧ (m.dbg.mdioBusy = true) ∧ (m.dbg.mdioAgain = false) ∧ (m.reg.raw F.dbgMdioOp < 2))
    ∧ (∃ (v : Nat) (s : State), let m := s.start; (Up s) ∧ (m.dbg.mdioBusy = true) ∧ (m.dbg.mdioAgain = true))
    ∧ (∃ (v : Nat) (s : State), let m := s.start; (Up s) ∧ (m.dbg.mdioBusy = false))
    ∧ (∃ (s : State), let m := s.start; (Up s) ∧ (m.dbg.engine ≠ .running) ∧ (m.dev.state = .run) ∧ (m.flag F.dbgCfgHaltMode = false) ∧ (m.dbg.haltBlocked = false) ∧ (m.fld F.dbgCfgHoldMax ≤ m.dbg.haltedPeriods))
    ∧ (∃ (s : State), let m := s.start; (Up s) ∧ (m.dbg.engine = .running ∨ m.dev.state ≠ .run ∨ m.flag F.dbgCfgHaltMode = true ∨ m.dbg.haltBlocked = true ∨ m.dbg.haltedPeriods < m.fld F.dbgCfgHoldMax)) :=
  ⟨⟨tS fun m => { m with dev := { m.dev with state := .boot } }, by decide +kernel⟩,
   ⟨tS fun m => { m with dev := { m.dev with state := .boot } }, by decide +kernel⟩,
   ⟨tS fun m => { m with dev := { m.dev with state := .boot } }, by decide +kernel⟩,
   ⟨tS fun m => { m with dev := { m.dev with state := .boot } }, by decide +kernel⟩,
   ⟨tS fun m => { m with dev := { m.dev with state := .boot } }, by decide +kernel⟩,
   ⟨tS fun m => { m with dev := { m.dev with state := .boot } }, by decide +kernel⟩,
   ⟨tS fun m => { m with dev := { m.dev with state := .boot } }, by decide +kernel⟩,
   ⟨tS fun m => { m with dev := { m.dev with state := .boot } }, by decide +kernel⟩,
   ⟨tS fun m => { m with dev := { m.dev with state := .boot } }, by decide +kernel⟩,
   ⟨tA (fun m => { m with dbg := { m.dbg with level := 2 } }), by decide +kernel⟩,
   ⟨tA (fun m => { m with dbg := { m.dbg with level := 2, haltDue := some 3 } }), by decide +kernel⟩,
   ⟨tA (fun m => { m with dbg := { m.dbg with level := 2, engine := .halted } }), by decide +kernel⟩,
   ⟨tA (fun m => { m with dbg := { m.dbg with level := 2, engine := .halted } }), by decide +kernel⟩,
   ⟨tA (fun m => { m with dbg := { m.dbg with level := 2, engine := .blockStep } }), by decide +kernel⟩,
   ⟨tA (fun m => { m with dbg := { m.dbg with level := 2 } }), by decide +kernel⟩,
   ⟨tA (fun m => { m with dbg := { m.dbg with level := 2, engine := .halted } }), by decide +kernel⟩,
   ⟨tA (fun m => { m with dbg := { m.dbg with level := 2, engine := .blockStep } }), by decide +kernel⟩,
   ⟨tA (fun m => { m with dbg := { m.dbg with level := 2 } }), by decide +kernel⟩,
   ⟨tA (fun m => { m with dbg := { m.dbg with level := 2, engine := .halted } }), by decide +kernel⟩,
   ⟨tA (fun m => { m with dbg := { m.dbg with level := 2, engine := .blockStep } }), by decide +kernel⟩,
   ⟨tA (fun m => { m with dbg := { m.dbg with level := 2 } }), by decide +kernel⟩,
   ⟨tA (fun m => { m with dbg := { m.dbg with level := 2 } }), by decide +kernel⟩,
   ⟨tA (fun m => { m with dbg := { m.dbg with level := 2 } }), by decide +kernel⟩,
   ⟨tS id, by decide +kernel⟩,
   ⟨tS id, by decide +kernel⟩,
   ⟨tS id, by decide +kernel⟩,
   ⟨tS id, by decide +kernel⟩,
   ⟨tS id, by decide +kernel⟩,
   ⟨tS id, by decide +kernel⟩,
   ⟨tS id, by decide +kernel⟩,
   ⟨tS id, by decide +kernel⟩,
   ⟨tS id, by decide +kernel⟩,
   ⟨tA (fun m => { m with dbg := { m.dbg with level := 1 } }), by decide +kernel⟩,
   ⟨tA (fun m => { m with dbg := { m.dbg with level := 2 } }), by decide +kernel⟩,
   ⟨5, tA (fun m => { m.setF F.dbgMdioOp 2 with dbg := { m.dbg with mdioBusy := true } }), by decide +kernel⟩,
   ⟨5, tA (fun m => { m.setF F.dbgMdioGo 1 with dbg := { m.dbg with mdioBusy := true } }), by decide +kernel⟩,
   ⟨5, tA (fun m => { m with dbg := { m.dbg with mdioBusy := true, mdioAgain := true } }), by decide +kernel⟩,
   ⟨5, tS id, by decide +kernel⟩,
   ⟨tA (fun m => { m with dev := { m.dev with state := .run }, dbg := { m.dbg with engine := .halted, haltedPeriods := 100 } }), by decide +kernel⟩,
   ⟨tS id, by decide +kernel⟩⟩

theorem witness_SetupWindowStepsComplete :
    (∃ (o be : Nat) (v : Word) (s : State), let m := s.start; (m.alive = true) ∧ (o % 4 ≠ 0 ∨ be ≠ 15))
    ∧ (∃ (o : Nat) (v : Word) (s : State), let m := s.start; (m.alive = true) ∧ (o % 4 = 0) ∧ (changesReserved o 15 v s.m = false))
    ∧ (∃ (o : Nat) (s : State), let m := s.start; (m.alive = true) ∧ (isLock (decodeOff m o) = true))
    ∧ (∃ (o : Nat) (s : State), let m := s.start; (m.alive = true) ∧ (isLock (decodeOff m o) = false))
    ∧ (∃ (ns : Nat) (s : State), let m := s.start; (m.alive = true))
    ∧ (∃ (v : Word) (l : List Host.Cell) (s : State), let m := s.start; (m.alive = true) ∧ (changesReserved 0x404 15 v s.m = false))
    ∧ (∃ (v : Word) (s : State), let m := s.start; (Up s) ∧ (m.inState [.boot, .recovery] = false) ∧ (m.dev.test = false) ∧ (changesReserved 0x440C 15 v s.m = false))
    ∧ (∃ (v : Word) (s : State), let m := s.start; (Up s) ∧ (m.inState [.boot, .recovery] = true ∨ m.dev.test = true) ∧ (changesReserved 0x440C 15 v s.m = false))
    ∧ (∃ (o : Nat) (u : List (Nat × Nat × Word)) (s : State), let m := s.start; (m.alive = true))
    ∧ (∃ (r a : Nat) (l : Option Nat) (s : State), let m := s.start; (m.alive = true))
    ∧ (∃ (r a l : Nat) (s : State), let m := s.start; (Up s))
    ∧ (∃ (r a l : Nat) (s : State), let m := s.start; (m.alive = true) ∧ (m.pwr.held = true))
    ∧ (∃ (r a : Nat) (s : State), let m := s.start; (m.alive = true)) :=
  ⟨⟨4, 3, 0#32, tS id, by decide +kernel⟩,
   ⟨0x404, 0#32, tS id, by decide +kernel⟩,
   ⟨0x3FC, tS id, by decide +kernel⟩,
   ⟨4, tS id, by decide +kernel⟩,
   ⟨5, tS id, by decide +kernel⟩,
   ⟨5#32, [], tS id, by decide +kernel⟩,
   ⟨0#32, tS id, by decide +kernel⟩,
   ⟨0#32, tS fun m => { m with dev := { m.dev with state := .boot } }, by decide +kernel⟩,
   ⟨4, [], tS id, by decide +kernel⟩,
   ⟨0, 0, none, tS id, by decide +kernel⟩,
   ⟨0, 0, 0, tS id, by decide +kernel⟩,
   ⟨0, 0, 0, tA (fun m => { m with pwr := { m.pwr with held := true } }), by decide +kernel⟩,
   ⟨0, 0, tS id, by decide +kernel⟩⟩

theorem witness_LuwinStepsComplete :
    (∃ (h a c : Nat) (b : Bool) (s : State), let m := s.start; (m.alive = true) ∧ (lwBad 1 h a [] c = true))
    ∧ (∃ (h a c n : Nat) (b : Bool) (s : State), let m := s.start; (m.alive = true) ∧ (lwBad 1 h a [] c = false) ∧ (firstBar ((lwAddrs h a).map (lwReadBar (lwSeen m))) = some n))
    ∧ (∃ (h a c : Nat) (b : Bool) (s : State), let m := s.start; (m.alive = true) ∧ (lwBad 1 h a [] c = false) ∧ (a % 4 ≠ 0) ∧ (firstBar ((lwAddrs h a).map (lwReadBar (lwSeen m))) = none))
    ∧ (∃ (h a c : Nat) (s : State), let m := s.start; (m.alive = true) ∧ (lwBad 1 h a [] c = false) ∧ (a % 4 = 0) ∧ (firstBar ((lwAddrs h a).map (lwReadBar (lwSeen m))) = none))
    ∧ (∃ (h a c : Nat) (s : State), let m := s.start; (m.alive = true) ∧ (lwBad 1 h a [] c = false) ∧ (a % 4 = 0) ∧ (firstBar ((lwAddrs h a).map (lwReadBar (lwSeen m))) = none))
    ∧ (∃ (h a c : Nat) (w : List Word) (b : Bool) (s : State), let m := s.start; (m.alive = true) ∧ (lwBad 2 h a w c = true))
    ∧ (∃ (h a c n : Nat) (w : List Word) (b : Bool) (s : State), let m := s.start; (m.alive = true) ∧ (lwBad 2 h a w c = false) ∧ (firstBar (((lwAddrs h a).zip w).map fun x => lwWriteBar (lwSeen m) x.1 x.2) = some n) ∧ (n = 0x66 ∨ n = 0x69))
    ∧ (∃ (h a c : Nat) (w : List Word) (b : Bool) (s : State), let m := s.start; (m.alive = true) ∧ (lwBad 2 h a w c = false) ∧ (a % 4 ≠ 0) ∧ (firstBar (((lwAddrs h a).zip w).map fun x => lwWriteBar (lwSeen m) x.1 x.2) = none))
    ∧ (∃ (h a c : Nat) (w : List Word) (s : State), let m := s.start; (m.alive = true) ∧ (lwBad 2 h a w c = false) ∧ (a % 4 = 0) ∧ (firstBar (((lwAddrs h a).zip w).map fun x => lwWriteBar (lwSeen m) x.1 x.2) = none))
    ∧ (∃ (h a c : Nat) (w : List Word) (s : State), let m := s.start; (m.alive = true) ∧ (lwBad 2 h a w c = false) ∧ (a % 4 = 0) ∧ (firstBar (((lwAddrs h a).zip w).map fun x => lwWriteBar (lwSeen m) x.1 x.2) = none) ∧ (lwReserved h a w c false s.m = false))
    ∧ (∃ (s : State), let m := s.start; (Up s)) :=
  ⟨⟨0x40, 0, 0, false, tS id, by decide +kernel⟩,
   ⟨0x40, 0x100, lwCrc 0x40 0x100 [], 0x66, false, tS id, by decide +kernel⟩,
   ⟨0x40, 0x4401, lwCrc 0x40 0x4401 [], false, tS id, by decide +kernel⟩,
   ⟨0x40, 0, lwCrc 0x40 0 [], tS id, by decide +kernel⟩,
   ⟨0x40, 0, lwCrc 0x40 0 [], tS id, by decide +kernel⟩,
   ⟨0x80, 0x4410, 0, [0#32], false, tS id, by decide +kernel⟩,
   ⟨0x80, 0x100, lwCrc 0x80 0x100 [0#32], 0x66, [0#32], false, tS id, by decide +kernel⟩,
   ⟨0x80, 0x01000001, lwCrc 0x80 0x01000001 [0#32], [0#32], false, tS id, by decide +kernel⟩,
   ⟨0x80, 0x4410, lwCrc 0x80 0x4410 [0#32], [0#32], tS id, by decide +kernel⟩,
   ⟨0x80, 0x4410, lwCrc 0x80 0x4410 [0#32], [0#32], tS id, by decide +kernel⟩,
   ⟨tS id, by decide +kernel⟩⟩

end Sys2Proof.Tests
end

section
/-! Proofs of the family `00_scope.md`: the Gallery table as its readers and producers see it (R8, R9, R25, R28, R30, R497). -/
namespace Sys2Proof.Machine

/-! ### Reads and writes of the Gallery table -/

@[simp] theorem galGet_of_reserved {i : Nat} (h : galReserved i = true) (t : List (Nat × GEntry)) :
    galGet t i = ⟨0#32, 0#16, 0#8, 0#8, false⟩ := if_pos h

theorem galGet_of_not_reserved {i : Nat} (h : galReserved i = false) (t : List (Nat × GEntry)) :
    galGet t i = sget (fun _ => gReset) t i := if_neg (by simp [h])

@[simp] theorem galPut_of_reserved {i : Nat} (h : galReserved i = true) (t : List (Nat × GEntry)) (e : GEntry) :
    galPut t i e = t := if_pos h

theorem galPut_of_not_reserved {i : Nat} (h : galReserved i = false) (t : List (Nat × GEntry)) (e : GEntry) :
    galPut t i e = sput (fun _ => gReset) i e t := if_neg (by simp [h])

/-- The table lists no default, so an empty one reads as after reset (R497). -/
@[simp] theorem galGet_nil {i : Nat} (h : galReserved i = false) : galGet [] i = gReset := galGet_of_not_reserved h []

theorem galPut_swf {t : List (Nat × GEntry)} (w : swf (fun _ => gReset) t = true) (i : Nat) (e : GEntry) :
    swf (fun _ => gReset) (galPut t i e) = true := by
  cases h : galReserved i with
  | true => rwa [galPut_of_reserved h]
  | false => rw [galPut_of_not_reserved h]; exact sput_swf _ i e w

theorem galGet_galPut_same {t : List (Nat × GEntry)} (w : swf (fun _ => gReset) t = true) {i : Nat} (h : galReserved i = false) (e : GEntry) :
    galGet (galPut t i e) i = e := by
  rw [galGet_of_not_reserved h, galPut_of_not_reserved h, sget_sput _ _ _ _ w, if_pos rfl]

theorem galGet_galPut_ne {t : List (Nat × GEntry)} (w : swf (fun _ => gReset) t = true) {i j : Nat} (hne : j ≠ i) (e : GEntry) :
    galGet (galPut t i e) j = galGet t j := by
  cases hi : galReserved i with
  | true => rw [galPut_of_reserved hi]
  | false =>
    cases hj : galReserved j with
    | true => rw [galGet_of_reserved hj, galGet_of_reserved hj]
    | false =>
      rw [galGet_of_not_reserved hj, galGet_of_not_reserved hj, galPut_of_not_reserved hi, sget_sput _ _ _ _ w, if_neg hne]

/-! ### A producer's write -/

theorem galProduce_of_forced {t : List (Nat × GEntry)} {i : Nat} (h : qBit (galGet t i).quality qFORCED = true)
    (fr : Bool) (v : Word) (q : Byte) (src : Nat) : galProduce t fr i v q src = t := if_pos h

theorem galProduce_of_not_forced {t : List (Nat × GEntry)} {i : Nat} (h : qBit (galGet t i).quality qFORCED = false)
    (fr : Bool) (v : Word) (q : Byte) (src : Nat) :
    galProduce t fr i v q src = galPut t i ⟨v, 0#16, q, BitVec.ofNat 8 src, fr⟩ := if_neg (by simp [h])

/-! ### The Gallery after reset -/

theorem g_reset {i : Nat} (h : galReserved i = false) : State.reset.m.g i = gReset := galGet_nil h

/-- Settles O17: the table is a sparse one whose default is the reset content, so the rules of `sput` give read-back, frame and canonical form, and the two guards, the reserved index and the force, are one case each. -/
theorem galleryHoldsResetContentUntilWritten : Obligations.GalleryHoldsResetContentUntilWritten := by
  unfold Obligations.GalleryHoldsResetContentUntilWritten
  refine ⟨fun i free => g_reset free, fun t i e w => ?written, fun t i e res => ?reserved, fun t fr i v q src w => ?produced⟩
  case written =>
    exact ⟨galPut_swf w i e, fun free => galGet_galPut_same w free e, fun j hne => galGet_galPut_ne w hne e⟩
  case reserved => exact ⟨galGet_of_reserved res t, galPut_of_reserved res t e⟩
  case produced =>
    refine ⟨fun forced => galProduce_of_forced forced fr v q src, fun unforced free => ?_⟩
    rw [galProduce_of_not_forced unforced, galGet_galPut_same w free]

end Sys2Proof.Machine
end

section
/-! Proofs of the family `01_converter_model.md`: the state after reset, the device configuration commands and STATE_REQUEST (R19–R38, R408, R441, R442, R444). -/
namespace Sys2Proof.Machine

/-! ### A command row whose effect is known -/

/-- A command taken in this step completes as its effect on the accepted command says: an effect that answers `upd` with a terminal completion `f` leaves `completed` by them. Each row owes only the equation of its effect (R251–R256). -/
theorem run_hostCommand_of_done {info : CmdInfo} {eff : Cmd → Mach → Mach × Eff} {d : Desc} {s : State} {f : Fin} {upd : Mach → Mach}
    (h : Taken info d s) (he : eff (s.held info d) (s.accepts info d) = (upd (s.accepts info d), .done f)) :
    s.run (hostCommand info eff d) = s.completed info d f upd := by
  have hm := hostCommand_taken (eff := eff) h
  rw [he] at hm
  exact congrArg (fun m => ({ s with m := settle m } : State)) hm

/-- A taken command acts in a state that its row lists (R251). -/
theorem inState_accepts_of_taken {info : CmdInfo} {d : Desc} {s : State} (h : Taken info d s) :
    (s.accepts info d).inState info.states = true := by
  obtain ⟨-, -, -, hst, -⟩ := h
  rwa [State.accepts_inState]

/-- The host buffer of a command that takes effect at once is written from its first byte (R249). -/
theorem writeBuf_taken {info : CmdInfo} {d : Desc} {s : State} (h : Taken info d s) (bs : List Byte) :
    writeBuf (s.held info d) bs (s.accepts info d) = (s.accepts info d).hostWrite (s.held info d).addr (bs.take (s.held info d).len) :=
  writeBufAt_taken h 0 bs

/-! ### The effects of the device configuration commands, branch by branch (R19–R36) -/

section RecordAndHub
variable {c : Cmd} {m : Mach} {cd : Cdr}

/-- A staged record that passes its checks, with no committed graph in READY, becomes the active one (R20–R22). -/
theorem effCdrCommit_of_ok {b : List Byte} (hs : m.conv.staged = some b) (hr : m.inState [.ready] = true) (hg : m.loop.graph = none)
    (hk : cdrCheck b m.tb.p = none) :
    effCdrCommit c m = (commitCdr b m, .done ⟨stDONE, 0, (parseCdr b).configId, 0, sha256 b⟩) := by
  simp [effCdrCommit, hs, hr, hg, hk]

theorem effCdrRead_of_active (ha : m.conv.active = some cd) : effCdrRead c m = okDone (writeBuf c (cdrBytes cd) m) := by
  simp [effCdrRead, ha]

theorem effCdrRead_of_none (ha : m.conv.active = none) : effCdrRead c m = okEmpty m := by
  simp [effCdrRead, ha]

/-- HUB_ADD of an unused entry with a new UID, whose segments fit the arms and overlap none described (R34). -/
theorem effHubAdd_of_fits (ha : m.conv.active = some cd) (hu : (cd.hub (c.f 0xA 1)).used = false)
    (huid : (cd.hubs.any fun y => y.uid == (parseHub c.pay).uid) = false) (hfit : (parseHub c.pay).segs.all (segFits cd.arms) = true)
    (hfree : pairFree segOverlap ((parseHub c.pay).segs ++ (cd.hubs.filter HubRec.used).flatMap HubRec.segs) = true) :
    effHubAdd c m = okDone (flowAdd (parseHub c.pay) (reattachAll
      { m with conv := { m.conv with active := some { cd with hubs := setHub cd.hubs (c.f 0xA 1) (parseHub c.pay), hubCount := max cd.hubCount (c.f 0xA 1 + 1) }, heldDue := true } })) := by
  unfold effHubAdd
  simp only [ha, hu, huid, hfit, hfree, Bool.not_true, Bool.or_self, Bool.false_eq_true, if_false]

/-- HUB_FORGET of a used entry to which no lane is bound (R35). -/
theorem effHubForget_of_unbound (ha : m.conv.active = some cd) (hu : (cd.hub (c.f 0 1)).used = true) (hl : m.laneOf (c.f 0 1) = none) :
    effHubForget c m = okDone (flowForget (cd.hub (c.f 0 1))
      { m with conv := { m.conv with active := some { cd with hubs := setAt cd.hubs (c.f 0 1) hubUnused }, bind := setAt m.conv.bind (c.f 0 1) none } }) := by
  simp [effHubForget, ha, hu, hl]

theorem effHubForget_of_unused (ha : m.conv.active = some cd) (hu : (cd.hub (c.f 0 1)).used = false) : effHubForget c m = okEmpty m := by
  simp [effHubForget, ha, hu]

/-- GALLERY_FORCE of an entry that may be forced: one already forced takes no new place among the 64 (R30). -/
theorem effGalleryForce_of_room (hb : forceBarred (c.f 0 4) = false) (hr : isForced m (c.f 0 4) = true ∨ forcedCount m < 64) :
    effGalleryForce c m = okDone (forceEntry (c.f 0 4) (BitVec.ofNat 32 (c.f 4 4)) false m) := by
  have hfull : (!isForced m (c.f 0 4) && decide (64 ≤ forcedCount m)) = false := by
    rcases hr with hf | hn
    · simp [hf]
    · simp [hn]
  simp [effGalleryForce, hb, hfull]

theorem effGalleryRelease_of_forced (hf : isForced m (c.f 0 4) = true) : effGalleryRelease c m = okDone (releaseEntry (c.f 0 4) m) := if_pos hf

theorem effGalleryRelease_of_not_forced (hf : isForced m (c.f 0 4) = false) : effGalleryRelease c m = okEmpty m := if_neg (by simp [hf])

end RecordAndHub

/-- Settles O23: each row owes only its effect on the accepted command, and acceptance leaves the record, the lanes and the device state that the effect reads. -/
theorem recordAndHubCommandsComplete : Obligations.RecordAndHubCommandsComplete := by
  unfold Obligations.RecordAndHubCommandsComplete
  refine ⟨fun d s h => ?load, fun d s h b hs hg hk => ?commit, fun d s h cd ha => ?read, fun d s h ha => ?readNone,
    fun d s h cd ha hu huid hfit hfree => ?add, fun d s h cd ha hu hl => ?forget, fun d s h cd ha hu => ?forgetUnused,
    fun d s h hb hr => ?force, fun d s h hf => ?release, fun d s h hf => ?releaseFree⟩
  all_goals refine congrArg Host.Outcome.next (run_hostCommand_of_done h ?_)
  case load => rfl
  case commit => exact effCdrCommit_of_ok (by simpa using hs) (inState_accepts_of_taken h) (by simpa using hg) (by simpa using hk)
  case read => rw [effCdrRead_of_active (by simpa using ha), writeBuf_taken h]; rfl
  case readNone => exact effCdrRead_of_none (by simpa using ha)
  case add => exact effHubAdd_of_fits (by simpa using ha) hu huid hfit hfree
  case forget => exact effHubForget_of_unbound (by simpa using ha) hu (by simpa using hl)
  case forgetUnused => exact effHubForget_of_unused (by simpa using ha) hu
  case force => exact effGalleryForce_of_room hb hr
  case release => exact effGalleryRelease_of_forced hf
  case releaseFree => exact effGalleryRelease_of_not_forced hf

/-! ### STATE_REQUEST, by the state of the device and the state requested (R37, R38, R408, R444) -/

section StateRequest
variable {c : Cmd} {m : Mach}

theorem effStateRequest_run_in_ready (hs : m.dev.state = .ready) (hc : c.f 0 1 = 4) (hr : runFail m = none) :
    effStateRequest c m = okDone (enterRun m) := by
  simp [effStateRequest, hs, hc, hr]

theorem effStateRequest_run_fails {n : Nat} (hs : m.dev.state = .ready) (hc : c.f 0 1 = 4) (hr : runFail m = some n) :
    effStateRequest c m = rejectR stSTATE n m := by
  simp [effStateRequest, hs, hc, hr]

theorem effStateRequest_ready_in_run (hs : m.dev.state = .run) (hc : c.f 0 1 = 3) :
    effStateRequest c m = okDone (readyClaim (flowUnstrand (leaveRun m))) := by
  simp [effStateRequest, hs, hc]

theorem effStateRequest_ready_in_safe (hs : m.dev.state = .safe) (hc : c.f 0 1 = 3) (hl : safetyLatch m = false) (hh : safeHolds m = false) :
    effStateRequest c m = okDone (leaveSafe m) := by
  simp [effStateRequest, hs, hc, hl, hh]

theorem effStateRequest_ready_latched (hs : m.dev.state = .safe) (hc : c.f 0 1 = 3) (hl : safetyLatch m = true) :
    effStateRequest c m = rejectR stSTATE 5 m := by
  simp [effStateRequest, hs, hc, hl]

theorem effStateRequest_present (h : (m.dev.state = .ready ∧ c.f 0 1 = 3) ∨ (m.dev.state = .run ∧ c.f 0 1 = 4)) :
    effStateRequest c m = okEmpty m := by
  obtain ⟨hs, hc⟩ | ⟨hs, hc⟩ := h
  · simp [effStateRequest, hs, hc]
  · simp [effStateRequest, hs, hc]

end StateRequest

/-- Settles O24: acceptance leaves the device state, so the effect of the row is the branch of R444 for that state and the one requested. -/
theorem stateRequestMovesTheDevice : Obligations.StateRequestMovesTheDevice := by
  unfold Obligations.StateRequestMovesTheDevice
  refine ⟨fun d s h hs hc hr => ?run, fun d s h n hs hc hr => ?runFails, fun d s h hs hc => ?ready, fun d s h hs hc hl hh => ?leaveSafe,
    fun d s h hs hc hl => ?latched, fun d s h hsame => ?present⟩
  all_goals refine congrArg Host.Outcome.next (run_hostCommand_of_done h ?_)
  case run => exact effStateRequest_run_in_ready (by simpa using hs) hc hr
  case runFails => exact effStateRequest_run_fails (by simpa using hs) hc hr
  case ready => exact effStateRequest_ready_in_run (by simpa using hs) hc
  case leaveSafe => exact effStateRequest_ready_in_safe (by simpa using hs) hc hl hh
  case latched => exact effStateRequest_ready_latched (by simpa using hs) hc hl
  case present => exact effStateRequest_present (by simpa using hsame)

/-! ### The state after reset (R37, R214, R224, R248, R441, R442) -/

theorem lane_step_reset {x : Lane} (h : x ∈ State.reset.m.zl.lanes) : x.step = 0 := by
  have hx : x = laneInit := List.eq_of_mem_replicate h
  rw [hx]; rfl

theorem ring_nextSeq_reset {x : Ring} (h : x ∈ State.reset.m.host.rings) : x.nextSeq = 1 := by
  have hx : x = ringInit := List.eq_of_mem_replicate h
  rw [hx]; rfl

theorem safeOut_off_reset {x : SafeOut} (h : x ∈ State.reset.m.safety.outs) : x.on = false := by
  have hx : x = safeOutInit := List.eq_of_mem_replicate h
  rw [hx]; rfl

/-- After a power-on reset the register table lists POR of PWR_RESET_CAUSE alone; a field that it does not list reads its reset value (R441). -/
theorem reg_reset : State.reset.m.reg = ⟨[(F.pwrResetCausePor.key, 1)], [], []⟩ := rfl

/-- Settles O18: the scalars are read off the reset content, and the lanes, rings and safe outputs are copies of one reset element each. -/
theorem resetLeavesTheStatedValues : Obligations.ResetLeavesTheStatedValues := by
  unfold Obligations.ResetLeavesTheStatedValues
  exact ⟨rfl, rfl, rfl, rfl, rfl, rfl, rfl, rfl, rfl, rfl, rfl, fun _ => lane_step_reset, fun _ => ring_nextSeq_reset,
    fun _ => safeOut_off_reset, reg_reset⟩

end Sys2Proof.Machine
end

section
/-! Proofs of the family `02_loop_engine.md`: the graph commands, re-placement, the end of an evaluation, the boundary and the intake, and the supervision of the lanes (R46–R70, R178, R183, R204, R205, R443). -/
namespace Sys2Proof.Machine

/-! ### A row of a device that is up -/

/-- A row that acts in a device that is up runs its meaning there (R429, R443). -/
theorem run_whenAlive_of_up {s : State} (h : Up s) (f : Mach → Mach) : s.run (whenAlive f) = s.to (f s.start) := by
  obtain ⟨ha, hh⟩ := h
  have hup : (s.start.alive && !s.start.pwr.held) = true := by simp [ha, hh]
  exact congrArg s.to (if_pos hup)

theorem run_onLane_of_up {s : State} (h : Up s) {l : Nat} (hl : l < 16) (f : Mach → Mach) : s.run (onLane l f) = s.to (f s.start) := by
  have he : s.run (onLane l f) = s.run (whenAlive f) := congrArg s.to (if_pos hl)
  rw [he, run_whenAlive_of_up h]

/-- A row of a device that is up does its meaning, or nothing. -/
theorem whenAlive_cases (f : Mach → Mach) (m : Mach) : whenAlive f m = m ∨ whenAlive f m = f m := by
  unfold whenAlive
  split
  · exact .inr rfl
  · exact .inl rfl

/-! ### Re-placement (R51, R52, R63) -/

section Replacement

/-- The time of one step on each lane, as measured; a lane without a measurement counts one (R63). -/
def measuredStep (times : List Nat) (l : Nat) : Nat := times.getD l 1

/-- The placement of the committed graph on the measured step times. -/
def newPlaces (times : List Nat) (g : Graph) (c : Cdr) (m : Mach) : Except Nat (List (Nat × Place)) :=
  runPlacement g.blocks (stepsOf g.blocks g.params fun r => c.blockEnv r m.tb.p) ((g.blocks.zipIdx).map fun x => (x.2, predsOf (writersOf g.blocks) x.1))
    g.order m.lanesOk (measuredStep times) (remotePorts (homeOf c g.homes))

/-- The lanes that a placement gives the blocks. -/
def lanesOf (g : Graph) (new : List (Nat × Place)) : List Nat := (placeList g.blocks.length new).map Place.lane

/-- The homes of the entries beside their producers' new lanes, and whether a bank was full (R166, R167). -/
def newHomes (g : Graph) (c : Cdr) (new : List (Nat × Place)) : List (Nat × Nat) × Bool :=
  homeAll c g.blocks (fun i => (lanesOf g new).getD i 0) g.homes

/-- The present placement, on the measured step times. -/
def presentPlaces (times : List Nat) (g : Graph) (c : Cdr) (m : Mach) : List (Nat × Place) :=
  placeOn c g m.tb.p m.lanesOk (measuredStep times) g.homes fun i => (g.places.getD i ⟨0, 0, 0⟩).lane

/-- The new placement with its homes, in steps of the budget (R52). -/
def costedPlaces (g : Graph) (c : Cdr) (m : Mach) (new : List (Nat × Place)) : List (Nat × Place) :=
  placeOn c g m.tb.p m.lanesOk (fun _ => 1) (newHomes g c new).1 fun i => (lanesOf g new).getD i 0

/-- The length in steps of the new placement (R52). -/
def newSteps (g : Graph) (c : Cdr) (m : Mach) (new : List (Nat × Place)) : Nat := pathLength (fun _ => 1) (costedPlaces g c m new)

/-- The new placement takes at most nine tenths of the present one's time, and fits the budget of the period (R63). -/
abbrev Gains (times : List Nat) (g : Graph) (c : Cdr) (m : Mach) (new : List (Nat × Place)) : Prop :=
  pathLength (measuredStep times) new * 10 ≤ pathLength (measuredStep times) (presentPlaces times g c m) * 9 ∧ twc (newSteps g c m new) ≤ graphBudget m.tb.p

/-- The committed graph at its new places. -/
def movedGraph (g : Graph) (c : Cdr) (m : Mach) (new : List (Nat × Place)) : Graph :=
  { g with places := placeList g.blocks.length (costedPlaces g c m new), homes := (newHomes g c new).1, steps := newSteps g c m new
           replacements := incSat 32 g.replacements 1 }

/-- A graph at new places is committed: REPLACED with its event, and BANK_FULL where a bank was full (R63, R167). -/
def commitMoved (g1 : Graph) (full : Bool) (m : Mach) : Mach :=
  let m1 := ({ m with loop := { m.loop with graph := some g1 } }.raise F.loopStatusReplaced).post 0x0203 []
  if full then m1.raise F.flowStatusBankFull else m1

@[simp] theorem commitMoved_gal (g1 : Graph) (full : Bool) (m : Mach) : (commitMoved g1 full m).gal = m.gal := by
  cases full <;> rfl

@[simp] theorem commitMoved_loop (g1 : Graph) (full : Bool) (m : Mach) : (commitMoved g1 full m).loop = { m.loop with graph := some g1 } := by
  cases full <;> rfl

variable {times : List Nat} {m : Mach} {g : Graph} {c : Cdr} {new : List (Nat × Place)}

theorem replaceGraph_of_new (hg : m.loop.graph = some g) (hc : m.conv.active = some c) (hen : g.replaceEn = true)
    (hst : m.inState [.ready, .run] = true) (hn : newPlaces times g c m = .ok new) :
    replaceGraph times m = if Gains times g c m new then commitMoved (movedGraph g c m new) (newHomes g c new).2 m else m := by
  have hgo : (!g.replaceEn || !m.inState [.ready, .run]) = false := by simp [hen, hst]
  unfold newPlaces measuredStep at hn
  unfold replaceGraph
  simp only [hg, hc, hgo, hn, Bool.false_eq_true, if_false]
  rfl

/-- A graph that finds no places on the measured times stays where it is. -/
theorem replaceGraph_of_error {e : Nat} (hg : m.loop.graph = some g) (hc : m.conv.active = some c) (hn : newPlaces times g c m = .error e) :
    replaceGraph times m = m := by
  unfold newPlaces measuredStep at hn
  unfold replaceGraph
  simp only [hg, hc, hn, ite_self]

theorem replaceGraph_of_barred (hg : m.loop.graph = some g) (h : g.replaceEn = false ∨ m.inState [.ready, .run] = false) :
    replaceGraph times m = m := by
  have hbar : (!g.replaceEn || !m.inState [.ready, .run]) = true := by
    obtain h | h := h
    · simp [h]
    · simp [h]
  unfold replaceGraph
  rw [hg]
  cases m.conv.active with
  | none => rfl
  | some c => exact if_pos hbar

theorem replaceGraph_of_missing (h : m.loop.graph = none ∨ m.conv.active = none) : replaceGraph times m = m := by
  unfold replaceGraph
  obtain h | h := h
  · rw [h]
  · rw [h]; cases m.loop.graph <;> rfl

/-- Everything REPLACEMENT_EVAL can do: nothing, or it moves the committed graph to a placement that gains and fits (R63). -/
theorem replaceGraph_cases (times : List Nat) (m : Mach) :
    replaceGraph times m = m ∨ ∃ g c new, m.loop.graph = some g ∧ Gains times g c m new
      ∧ replaceGraph times m = commitMoved (movedGraph g c m new) (newHomes g c new).2 m := by
  cases hg : m.loop.graph with
  | none => exact .inl (replaceGraph_of_missing (.inl hg))
  | some g =>
    cases hc : m.conv.active with
    | none => exact .inl (replaceGraph_of_missing (.inr hc))
    | some c =>
      cases hen : g.replaceEn with
      | false => exact .inl (replaceGraph_of_barred hg (.inl hen))
      | true =>
        cases hst : m.inState [.ready, .run] with
        | false => exact .inl (replaceGraph_of_barred hg (.inr hst))
        | true =>
          cases hn : newPlaces times g c m with
          | error e => exact .inl (replaceGraph_of_error hg hc hn)
          | ok new =>
            have he := replaceGraph_of_new hg hc hen hst hn
            by_cases hgain : Gains times g c m new
            · exact .inr ⟨g, c, new, rfl, hgain, he.trans (if_pos hgain)⟩
            · exact .inl (he.trans (if_neg hgain))

/-- Between two devices blocks of the committed graph have moved at most: nothing that the graph has computed differs, and a moved graph is counted and fits the budget. -/
structure MovesBlocksOnly (m t : Mach) : Prop where
  gal : t.gal = m.gal
  states : t.loop.states = m.loop.states
  sticky : t.loop.sticky = m.loop.sticky
  staged : t.loop.staged = m.loop.staged
  graph : t.loop.graph = m.loop.graph ∨ ∃ g g1, m.loop.graph = some g ∧ t.loop.graph = some g1 ∧ g1.replacements = incSat 32 g.replacements 1
    ∧ twc g1.steps ≤ graphBudget m.tb.p ∧ g1 = { g with places := g1.places, homes := g1.homes, steps := g1.steps, replacements := g1.replacements }

theorem MovesBlocksOnly.refl (m : Mach) : MovesBlocksOnly m m := ⟨rfl, rfl, rfl, rfl, .inl rfl⟩

theorem replaceGraph_movesBlocksOnly (times : List Nat) (m : Mach) : MovesBlocksOnly m (replaceGraph times m) := by
  obtain he | ⟨g, c, new, hg, ⟨-, hfits⟩, he⟩ := replaceGraph_cases times m
  · rw [he]; exact .refl m
  · rw [he]
    refine ⟨commitMoved_gal _ _ m, ?_, ?_, ?_, .inr ⟨g, movedGraph g c m new, hg, ?_, rfl, hfits, rfl⟩⟩
    all_goals rw [commitMoved_loop]

theorem whenAlive_replaceGraph_movesBlocksOnly (times : List Nat) (m : Mach) : MovesBlocksOnly m (whenAlive (replaceGraph times) m) := by
  obtain he | he := whenAlive_cases (replaceGraph times) m
  · rw [he]; exact .refl m
  · rw [he]; exact replaceGraph_movesBlocksOnly times m

end Replacement

/-- Settles O44: the row either leaves the device or commits the moved graph (`replaceGraph_cases`), and the balls alone are settled after it. -/
theorem replacementMovesBlocksOnly : Obligations.ReplacementMovesBlocksOnly := by
  unfold Obligations.ReplacementMovesBlocksOnly
  refine ⟨fun times s => ?frame, fun times s g c new hup hg hc hen hst hn hgain hfits => ?moves,
    fun times s g c new hup hg hc hen hst hn hless => ?stays, fun times g s hup hg hbar => ?barred⟩
  case frame =>
    obtain ⟨hgal, hstates, hsticky, hstaged, hgraph⟩ := whenAlive_replaceGraph_movesBlocksOnly times s.start
    exact ⟨_, rfl, rfl, hgal, hstates, hsticky, hstaged, hgraph⟩
  all_goals refine congrArg Host.Outcome.next ((run_whenAlive_of_up hup (replaceGraph times)).trans (congrArg s.to ?_))
  case moves => exact (replaceGraph_of_new hg hc hen hst hn).trans (if_pos ⟨hgain, hfits⟩)
  case stays =>
    refine (replaceGraph_of_new hg hc hen hst hn).trans (if_neg fun ⟨hgain, hfits⟩ => ?_)
    exact hless.elim (Nat.not_lt.2 hgain) (Nat.not_lt.2 hfits)
  case barred => exact replaceGraph_of_barred hg hbar

/-! ### The graph, parameter and flag commands, branch by branch (R46–R48, R66–R70) -/

section GraphCommands
variable {c : Cmd} {m : Mach} {g : Graph} {b : Block}

/-- A staged graph of the active record that passes its checks in READY, with none committed, becomes the committed one (R47, R48). -/
theorem effGraphCommit_of_ok {bs : List Byte} {cd : Cdr} {full : Bool} (hr : m.inState [.ready] = true) (hs : m.loop.staged = some bs)
    (hg : m.loop.graph = none) (ha : m.conv.active = some cd) (hid : (parseHead bs).configId = cd.configId) (ht : m.pair.inTwin = false)
    (hk : checkGraph bs cd (m.net.far.map FarCh.cfg) (gooseEntries m) m.tb.p m.lanesOk (m.tb.k + 1) = .ok (g, full)) :
    effGraphCommit c m =
      ((let m2 := retakeAgreed (resetStates (commitGallery g { m with loop := { m.loop with graph := some g, staged := none } }))
        if full then m2.raise F.flowStatusBankFull else m2), .done ⟨stDONE, twc g.steps, g.graphId, 0, []⟩) := by
  simp [effGraphCommit, hr, hs, hg, ha, hid, ht, hk]

theorem effGraphWithdraw_of_some (hg : m.loop.graph = some g) : effGraphWithdraw c m = okDone (withdrawGraph m) := by
  simp [effGraphWithdraw, hg]

theorem effGraphWithdraw_of_none (hg : m.loop.graph = none) : effGraphWithdraw c m = okEmpty m := by
  simp [effGraphWithdraw, hg]

theorem effGraphReport_of_fits (hg : m.loop.graph = some g) (hl : (graphReport g m.tb.p).length ≤ c.len) :
    effGraphReport c m = okDone (writeBuf c (graphReport g m.tb.p) m) := by
  simp [effGraphReport, hg, Nat.not_lt.2 hl]

/-- The words that a PARAM_WRITE carries (R67). -/
def paramWords (c : Cmd) : List Word := (List.range (c.pf 4 2)).map fun i => BitVec.ofNat 32 (c.pf (8 + 4 * i) 4)

/-- PARAM_WRITE of words within the block's set, valid for its type, that changes no structural word (R67). -/
theorem effParamWrite_of_ok {cd : Cdr} (hg : m.loop.graph = some g) (ha : m.conv.active = some cd) (hn : c.pf 4 2 ≠ 0)
    (hb : g.blocks[c.pf 0 2]? = some b) (hw : c.pf 2 2 + c.pf 4 2 ≤ b.paramCount)
    (hok : paramsOk b.typ b.ins.length (cd.blockEnv b.rateDiv m.tb.p) (putParams (blockParams g.params b) (c.pf 2 2) (paramWords c)) = true)
    (hstr : ((List.range b.paramCount).any fun i => structuralWord b.typ i
      && (blockParams g.params b)[i]? != (putParams (blockParams g.params b) (c.pf 2 2) (paramWords c))[i]?) = false) :
    effParamWrite c m =
      okDone { m with loop := { m.loop with graph := some { g with params := putParams g.params (b.paramIdx + c.pf 2 2) (paramWords c) } } } := by
  unfold paramWords at hok hstr ⊢
  simp only [effParamWrite, hg, ha, hn, hb, Nat.not_lt.2 hw, hok, hstr, Bool.not_true, Bool.false_eq_true, if_false]

theorem effParamRead_of_fits (hg : m.loop.graph = some g) (hn : c.b 4 2 ≠ 0) (hb : g.blocks[c.b 0 2]? = some b)
    (hw : c.b 2 2 + c.b 4 2 ≤ b.paramCount) :
    effParamRead c m = okDone (writeBufAt c 8 ((((blockParams g.params b).drop (c.b 2 2)).take (c.b 4 2)).flatMap fun x => leBytes 4 x.toNat) m) := by
  simp [effParamRead, hg, hn, hb, Nat.not_lt.2 hw]

/-- SAT of the output entries of the blocks that a FLAG_CLEAR names, cleared where its MASK asks (R68). -/
def clearSats (c : Cmd) (g : Graph) (m : Mach) : Mach :=
  if bitOf (c.f 4 4) 0 then (((g.blocks.drop (c.f 0 2)).take (c.f 2 2)).flatMap fun b => b.outs.map Port.index).foldl (fun m i => clearSat i m) m else m

/-- The sticky flags of the blocks that a FLAG_CLEAR names, cleared where its MASK asks (R68). -/
def clearStickies (c : Cmd) (m : Mach) : Mach :=
  if bitOf (c.f 4 4) 1 then
    { m with loop := { m.loop with sticky := (m.loop.sticky.zipIdx).map fun p => if c.f 0 2 ≤ p.2 ∧ p.2 < c.f 0 2 + c.f 2 2 then 0#32 else p.1 } } else m

theorem effFlagClear_of_fits (hg : m.loop.graph = some g) (hn : c.f 2 2 ≠ 0) (hm : c.f 4 4 ≠ 0) (hw : c.f 0 2 + c.f 2 2 ≤ g.blocks.length) :
    effFlagClear c m = okDone (clearStickies c (clearSats c g m)) := by
  have hsome : ¬(c.f 2 2 = 0 ∨ c.f 4 4 = 0) := not_or.2 ⟨hn, hm⟩
  simp only [effFlagClear, hg, hsome, Nat.not_lt.2 hw, if_false]
  rfl

theorem effFlagClear_of_none (hg : m.loop.graph = none) : effFlagClear c m = reject stSTATE m := by
  simp [effFlagClear, hg]

theorem effFlagClear_of_empty (hg : m.loop.graph = some g) (h : c.f 2 2 = 0 ∨ c.f 4 4 = 0) : effFlagClear c m = okEmpty m := by
  simp [effFlagClear, hg, h]

end GraphCommands

/-- Settles O25: each row owes only its effect on the accepted command, and acceptance leaves the graph, the record and the device state that the effect reads. -/
theorem loopGraphCommandsComplete : Obligations.LoopGraphCommandsComplete := by
  unfold Obligations.LoopGraphCommandsComplete
  refine ⟨fun d s h => ?load, fun d s h b cd g full hr hs hg ha hid ht hk => ?commit, fun d s h g hg => ?withdraw, fun d s h hg => ?withdrawNone,
    fun d s h g hg hl => ?report, fun d s h g cd b hg ha hn hb hw hok hstr => ?write, fun d s h g b hg hn hb hw => ?read,
    fun d s h g hg hn hm hw => ?clear, fun d s h hg => ?clearNone, fun d s h g hg hempty => ?clearEmpty⟩
  all_goals refine congrArg Host.Outcome.next (run_hostCommand_of_done h ?_)
  case load => rfl
  case commit =>
    have hpair := State.accepts_pair s infoGraphCommit d h.2.1
    exact effGraphCommit_of_ok (by simp [Mach.inState, hr]) (by simpa using hs) (by simpa using hg) (by simpa using ha) hid (by rwa [hpair]) (by simpa using hk)
  case withdraw => exact effGraphWithdraw_of_some (by simpa using hg)
  case withdrawNone => exact effGraphWithdraw_of_none (by simpa using hg)
  case report => rw [effGraphReport_of_fits (by simpa using hg) (by simpa using hl), writeBuf_taken h]; rfl
  case write =>
    rw [effParamWrite_of_ok (by simpa using hg) (by simpa using ha) hn hb hw (by rwa [State.accepts_tb]) hstr]; rfl
  case read => rw [effParamRead_of_fits (by simpa using hg) hn hb hw, writeBufAt_taken h]; rfl
  case clear => exact effFlagClear_of_fits (by simpa using hg) hn hm hw
  case clearNone => exact effFlagClear_of_none (by simpa using hg)
  case clearEmpty => exact effFlagClear_of_empty (by simpa using hg) hempty

/-! ### The end of an evaluation (R55, R58, R60, R164) -/

section EndOfEvaluation
variable {ns q : Nat} {m : Mach}

theorem loopOverrun_of_hold (he : evaluating m = true) (hs : (abandon true m).inState [.safe] = false) :
    loopOverrun q m = closePeriod q true (skipDigest (abandon true m)) := by
  simp [loopOverrun, he, hs]

theorem loopOverrun_of_safe (he : evaluating m = true) (hs : (abandon true m).inState [.safe] = true) :
    loopOverrun q m = closeSafe q (abandon true m) := by
  simp [loopOverrun, he, hs]

theorem loopOverrun_of_idle (he : evaluating m = false) : loopOverrun q m = closeSafe q m := by
  simp [loopOverrun, he]

theorem outputCommit_of_within (he : evaluating m = true) (hn : ns ≤ graphBudget m.tb.p) :
    outputCommit ns q m = closePeriod q false (stepDigest (bpCommit (commitAt ns (keepUndo m)))) := by
  simp [outputCommit, he, Nat.not_lt.2 hn]

/-- A commit past the graph deadline is an overrun (R58). -/
theorem outputCommit_of_late (he : evaluating m = true) (hn : graphBudget m.tb.p < ns) : outputCommit ns q m = loopOverrun q m := by
  simp [outputCommit, he, hn]

theorem outputCommit_of_idle (he : evaluating m = false) : outputCommit ns q m = closeSafe q (finishCommit m) := by
  simp [outputCommit, he]

end EndOfEvaluation

/-- Settles O43: both rows act in a device that is up; a commit past the deadline is the overrun itself, so its two clauses are those of the overrun. -/
theorem evaluationEndsInCommitOrOverrun : Obligations.EvaluationEndsInCommitOrOverrun := by
  unfold Obligations.EvaluationEndsInCommitOrOverrun
  refine ⟨fun ns q s hup he hn => ?commit, fun ns q s hup he hn hs => ?lateHold, fun ns q s hup he hn hs => ?lateSafe, fun ns q s hup he => ?commitIdle,
    fun q s hup he hs => ?hold, fun q s hup he hs => ?safe, fun q s hup he => ?idle⟩
  all_goals refine congrArg Host.Outcome.next ((run_whenAlive_of_up hup _).trans (congrArg s.to ?_))
  case commit => exact outputCommit_of_within he hn
  case lateHold => exact (outputCommit_of_late he hn).trans (loopOverrun_of_hold he hs)
  case lateSafe => exact (outputCommit_of_late he hn).trans (loopOverrun_of_safe he hs)
  case commitIdle => exact outputCommit_of_idle he
  case hold => exact loopOverrun_of_hold he hs
  case safe => exact loopOverrun_of_safe he hs
  case idle => exact loopOverrun_of_idle he

/-! ### What the end of a period leaves of the state and supply of the device (R161, R206) -/

/-- A part of the device that every step of a fold keeps is kept by the fold. -/
theorem foldl_keeps {α β : Type} (p : Mach → β) {f : Mach → α → Mach} (h : ∀ m a, p (f m a) = p m) (l : List α) (m : Mach) : p (l.foldl f m) = p m := by
  induction l generalizing m with
  | nil => rfl
  | cons a l ih => rw [List.foldl_cons, ih, h]

/-- What a boundary asks of the device to choose its form: its state and its supply (R429, R443). -/
def boundaryForm (m : Mach) : DevSt × PwrSt := (m.dev, m.pwr)

theorem boundaryForm_produce (m : Mach) (fr : Bool) (i : Nat) (v : Word) (q : Byte) (src : Nat) : boundaryForm (m.produce fr i v q src) = boundaryForm m := by
  simp [boundaryForm]

theorem boundaryForm_modSm (m : Mach) (g : Nat) (f : Sm → Sm) : boundaryForm (m.modSm g f) = boundaryForm m := rfl

theorem boundaryForm_flowBlockAll (m : Mach) : boundaryForm (flowBlockAll m) = boundaryForm m := by
  unfold flowBlockAll
  split
  · rfl
  · exact (foldl_keeps boundaryForm (fun m g => boundaryForm_produce m _ _ _ _ _) _ _).trans (foldl_keeps boundaryForm (fun m g => boundaryForm_modSm m g _) _ m)

theorem boundaryForm_sendBlockAll (q : Nat) (m : Mach) : boundaryForm (sendBlockAll q m) = boundaryForm m := by
  unfold sendBlockAll
  split
  · exact boundaryForm_flowBlockAll m
  · rfl

theorem boundaryForm_lateBlockAll (m : Mach) : boundaryForm (lateBlockAll m) = boundaryForm m := by
  unfold lateBlockAll
  split
  · exact boundaryForm_sendBlockAll _ m
  · rfl

theorem boundaryForm_flowPeriodEnds (m : Mach) : boundaryForm (flowPeriodEnds m) = boundaryForm m := by
  unfold flowPeriodEnds
  split
  · exact foldl_keeps boundaryForm (fun m g => boundaryForm_produce m _ _ _ _ _) _ (averageFsw (fun _ => 0) m)
  · rfl

theorem boundaryForm_periodEnds (m : Mach) : boundaryForm (flowPeriodEnds (lateBlockAll m)) = boundaryForm m := (boundaryForm_flowPeriodEnds _).trans (boundaryForm_lateBlockAll m)

theorem held_periodEnds (m : Mach) : (flowPeriodEnds (lateBlockAll m)).pwr.held = m.pwr.held := congrArg (fun x : DevSt × PwrSt => x.2.held) (boundaryForm_periodEnds m)

theorem inState_periodEnds (m : Mach) (l : List DevState) : (flowPeriodEnds (lateBlockAll m)).inState l = m.inState l :=
  congrArg (fun x : DevSt × PwrSt => l.contains x.1.state) (boundaryForm_periodEnds m)

/-! ### The boundary and the intake, by the form of the device (R53, R54, R443, R450) -/

section Period
variable {env : BoundaryEnv} {trips q : Nat} {m : Mach}

/-- A boundary once what it does is done: a doorbell read is started where the rings are served, and the intake is open (R53, R246). -/
def boundaryEnds (m : Mach) : Mach :=
  let m1 := if m.service then m.send (.doorbellRead m.host.dbAddr) else m
  { m1 with dev := { m1.dev with intakeDone := false } }

/-- The intake of the period is done. -/
def intakeEnds (m : Mach) : Mach := { m with dev := { m.dev with intakeDone := true } }

/-- A boundary of a device that keeps its periods, in the form that its state and supply give it: the Sump and the ring-state block wait while the Stewards are held (R443). -/
theorem periodBoundary_of_running (ha : m.alive = true) (hr : m.tb.relock = none) :
    periodBoundary env m = boundaryEnds (
      let m0 := flowPeriodEnds (lateBlockAll m)
      if m.pwr.held then boundaryHeld env m0
      else rsUpdate (sumpPost (if m.inState [.boot, .recovery] then boundaryRom env m0 else boundaryWorking env m0))) := by
  have hgo : (!m.alive || m.tb.relock.isSome) = false := by simp [ha, hr]
  unfold periodBoundary
  simp only [hgo, held_periodEnds, inState_periodEnds, Bool.false_eq_true, if_false]
  cases m.pwr.held <;> rfl

theorem periodBoundary_of_working (ha : m.alive = true) (hr : m.tb.relock = none) (hh : m.pwr.held = false) (hs : m.inState [.boot, .recovery] = false) :
    periodBoundary env m = boundaryEnds (rsUpdate (sumpPost (boundaryWorking env (flowPeriodEnds (lateBlockAll m))))) := by
  simp [periodBoundary_of_running ha hr, hh, hs]

theorem periodBoundary_of_rom (ha : m.alive = true) (hr : m.tb.relock = none) (hh : m.pwr.held = false) (hs : m.inState [.boot, .recovery] = true) :
    periodBoundary env m = boundaryEnds (rsUpdate (sumpPost (boundaryRom env (flowPeriodEnds (lateBlockAll m))))) := by
  simp [periodBoundary_of_running ha hr, hh, hs]

theorem periodBoundary_of_held (ha : m.alive = true) (hr : m.tb.relock = none) (hh : m.pwr.held = true) :
    periodBoundary env m = boundaryEnds (boundaryHeld env (flowPeriodEnds (lateBlockAll m))) := by
  simp [periodBoundary_of_running ha hr, hh]

theorem periodBoundary_of_idle (h : m.alive = false ∨ m.tb.relock.isSome = true) : periodBoundary env m = m := by
  refine if_pos ?_
  obtain h | h := h
  · simp [h]
  · simp [h]

/-- The first intake of a period, in the form that the state and supply of the device give it (R54, R443, R450). -/
theorem intake_of_running (ha : m.alive = true) (hr : m.tb.relock = none) (hd : m.dev.intakeDone = false) :
    intake trips q m = intakeEnds (if m.pwr.held then intakeHeld q m else if m.inState [.boot, .recovery] then intakeRom m else intakeWorking trips q m) :=
  if_neg (by simp [ha, hr, hd])

theorem intake_of_working (ha : m.alive = true) (hr : m.tb.relock = none) (hd : m.dev.intakeDone = false) (hh : m.pwr.held = false)
    (hs : m.inState [.boot, .recovery] = false) : intake trips q m = intakeEnds (intakeWorking trips q m) := by
  simp [intake_of_running ha hr hd, hh, hs]

theorem intake_of_rom (ha : m.alive = true) (hr : m.tb.relock = none) (hd : m.dev.intakeDone = false) (hh : m.pwr.held = false)
    (hs : m.inState [.boot, .recovery] = true) : intake trips q m = intakeEnds (intakeRom m) := by
  simp [intake_of_running ha hr hd, hh, hs]

theorem intake_of_held (ha : m.alive = true) (hr : m.tb.relock = none) (hd : m.dev.intakeDone = false) (hh : m.pwr.held = true) :
    intake trips q m = intakeEnds (intakeHeld q m) := by
  simp [intake_of_running ha hr hd, hh]

theorem intake_of_idle (h : m.alive = false ∨ m.tb.relock.isSome = true ∨ m.dev.intakeDone = true) : intake trips q m = m := by
  refine if_pos ?_
  obtain h | h | h := h
  · simp [h]
  · simp [h]
  · simp [h]

end Period

/-- Settles O42: the end of a period leaves the state and the supply of the device (`boundaryForm_periodEnds`), so the form of the boundary is the one at its start; each form is written out in the statement. -/
theorem periodStepsComplete : Obligations.PeriodStepsComplete := by
  unfold Obligations.PeriodStepsComplete
  refine ⟨fun env s ha hr hh hs => ?working, fun env s ha hr hh hs => ?rom, fun env s ha hr hh => ?held, fun env s h => ?idle,
    fun trips q s ha hr hd hh hs => ?intakeWorking, fun trips q s ha hr hd hh hs => ?intakeRom, fun trips q s ha hr hd hh => ?intakeHeld,
    fun trips q s h => ?intakeIdle⟩
  all_goals refine congrArg Host.Outcome.next (congrArg s.to ?_)
  case working => exact periodBoundary_of_working ha hr hh hs
  case rom => exact periodBoundary_of_rom ha hr hh hs
  case held => exact periodBoundary_of_held ha hr hh
  case idle => exact periodBoundary_of_idle h
  case intakeWorking =>
    refine (intake_of_working ha hr hd hh hs).trans ?_
    simp only [intakeEnds, intakeWorking, intakeBegin, firstEffects, snapshotUse]
  case intakeRom =>
    refine (intake_of_rom ha hr hd hh hs).trans ?_
    simp only [intakeEnds, intakeRom, firstEffects]
  case intakeHeld =>
    refine (intake_of_held ha hr hd hh).trans ?_
    simp only [intakeEnds, intakeHeld]
  case intakeIdle => exact intake_of_idle h

/-! ### The supervision of the lanes (R31, R183, R204, R205, R286) -/

section LinkLoss
variable {l h : Nat} {m : Mach} {c : Cdr}

/-- ZL_LINK_LOSS: the lane is lost once it has been silent for LOSS_N periods, the present one included (R204). -/
def linkLoss (l : Nat) (m : Mach) : Mach :=
  let x := countSilence (m.lane l)
  if x.up && decide (m.fld F.zlTimingLossN ≤ x.silent) then loseLane l m else m

theorem linkLoss_of_silent (hup : 8 ≤ (m.lane l).step) (hq : (m.lane l).heard = false) (hn : m.fld F.zlTimingLossN ≤ (m.lane l).silent + 1) :
    linkLoss l m = loseLane l m := by
  simp [linkLoss, countSilence, Lane.up, hup, hq, hn]

theorem linkLoss_of_heard (hh : (m.lane l).heard = true ∨ (m.lane l).silent + 1 < m.fld F.zlTimingLossN) (hpos : 0 < m.fld F.zlTimingLossN) :
    linkLoss l m = m := by
  refine if_neg ?_
  by_cases hup : 8 ≤ (m.lane l).step
  · obtain hh | hh := hh
    · simp [countSilence, Lane.up, hup, hh, Nat.ne_of_gt hpos]
    · cases hq : (m.lane l).heard with
      | true => simp [countSilence, Lane.up, hup, hq, Nat.ne_of_gt hpos]
      | false => simp [countSilence, Lane.up, hup, hq, hh]
  · simp [countSilence, Lane.up, hup]

/-- A lost lane whose entry the partner of a TWIN holds BOUND keeps it through the partner (R286). -/
theorem loseLane_of_partner (hb : (m.lane l).attach = .bound) (he : (m.lane l).entry = some h) (hc : m.conv.active = some c)
    (ht : m.pair.inTwin = true) (hp : bitOf (theirBound m) l = true) :
    loseLane l m = (m.setLane l (laneRestart (m.lane l))).modLane l fun y => { y with entry := some h, remote := true } := by
  unfold loseLane
  simp only [hb, he, hc, ht, hp, Bool.and_self, if_true]
  rfl

/-- A lost lane that no partner holds leaves its entry LOST (R31, R204). -/
theorem loseLane_of_bound (hb : (m.lane l).attach = .bound) (he : (m.lane l).entry = some h) (hc : m.conv.active = some c)
    (hp : m.pair.inTwin = false ∨ bitOf (theirBound m) l = false) :
    loseLane l m = (let m1 := m.setLane l (laneRestart (m.lane l))
      (invalidateHub h (c.hub h) true (flowLost (c.hub h) { m1 with conv := { m1.conv with bind := setAt m1.conv.bind h none } })).post 0x0105 []) := by
  have hkeep : (m.pair.inTwin && bitOf (theirBound m) l) = false := Bool.and_eq_false_iff.2 hp
  unfold loseLane
  simp only [hb, he, hc, hkeep, Bool.false_eq_true, if_false]
  rfl

theorem loseLane_of_not_bound (hb : (m.lane l).attach ≠ .bound) : loseLane l m = m.setLane l (laneRestart (m.lane l)) := by
  unfold loseLane
  dsimp only
  split
  next hbound _ _ => exact absurd hbound hb
  next => rfl

/-- The row ends as the loss of the lane ends, where it has been silent for LOSS_N periods (R204). -/
theorem run_zlLinkLoss_of_silent {s : State} {m1 : Mach} (up : Up s) (hl : l < 16) (hstep : 8 ≤ (s.start.lane l).step) (hq : (s.start.lane l).heard = false)
    (hn : s.start.fld F.zlTimingLossN ≤ (s.start.lane l).silent + 1) (he : loseLane l s.start = m1) : s.run (onLane l (linkLoss l)) = s.to m1 :=
  (run_onLane_of_up up hl (linkLoss l)).trans (congrArg s.to ((linkLoss_of_silent hstep hq hn).trans he))

end LinkLoss

section DelayTrack
variable {l h : Nat} {m : Mach} {x : Lane} {d : Int}

/-- How far the averaged frames lie from D, summed over them, in hundredths of its unit (R183). -/
def trackDiff (x : Lane) : Int := x.trackSum - 100 * x.trackCount * x.d

/-- D after tracking: moved by one unit where the mean lies more than two units away (R183). -/
def trackedD (x : Lane) : Int :=
  if 200 * (x.trackCount : Int) < trackDiff x then x.d + 1 else if trackDiff x < -(200 * (x.trackCount : Int)) then x.d - 1 else x.d

/-- SIG_HUB_DELAY of the lane's entry, where D has moved (R183, R208). -/
def showDelay (x : Lane) (d : Int) (m : Mach) : Mach := match x.entry with | some h => if d = x.d then m else putHub h 1 d.toNat m | none => m

theorem trackedD_of_near (hd : (trackDiff x).natAbs ≤ 200 * x.trackCount) : trackedD x = x.d := by
  unfold trackedD
  rw [if_neg (by omega), if_neg (by omega)]

theorem trackedD_of_above (hd : 200 * (x.trackCount : Int) < trackDiff x) : trackedD x = x.d + 1 := if_pos hd

theorem trackedD_of_below (hd : trackDiff x < -(200 * (x.trackCount : Int))) : trackedD x = x.d - 1 := by
  unfold trackedD
  rw [if_neg (by omega), if_pos hd]

theorem showDelay_same (m : Mach) : showDelay x x.d m = m := by
  unfold showDelay
  cases x.entry with
  | none => rfl
  | some h => exact if_pos rfl

theorem showDelay_moved (he : x.entry = some h) (hd : d ≠ x.d) (m : Mach) : showDelay x d m = putHub h 1 d.toNat m := by
  unfold showDelay
  rw [he]
  exact if_neg hd

/-- Tracking of a lane in step 8 with averaged frames: D as tracked, shown, and the average started afresh; the first excursion sets DRIFT (R183). -/
theorem delayTrack_of_count (hup : 8 ≤ (m.lane l).step) (hc : (m.lane l).trackCount ≠ 0) (hd : trackedD (m.lane l) = d) :
    delayTrack l m =
      (let far := decide (16 < (d - (m.lane l).dCal).natAbs)
       let m2 := showDelay (m.lane l) d (m.setLane l { m.lane l with d := d, trackSum := 0, trackCount := 0, drifted := far })
       if far && !(m.lane l).drifted then (m2.raise F.zlStatusDrift).post 0x0B04 [l, unsigned 32 (m.lane l).dCal, unsigned 32 d] else m2) := by
  subst hd
  refine if_neg ?_
  simp [Lane.up, hup, hc]

theorem delayTrack_within (hup : 8 ≤ (m.lane l).step) (hc : (m.lane l).trackCount ≠ 0) (hd : trackedD (m.lane l) = d)
    (hin : (d - (m.lane l).dCal).natAbs ≤ 16) :
    delayTrack l m = showDelay (m.lane l) d (m.setLane l { m.lane l with d := d, trackSum := 0, trackCount := 0, drifted := false }) := by
  have hfar : decide (16 < (d - (m.lane l).dCal).natAbs) = false := decide_eq_false (Nat.not_lt.2 hin)
  rw [delayTrack_of_count hup hc hd, hfar]
  rfl

theorem delayTrack_excursion (hup : 8 ≤ (m.lane l).step) (hc : (m.lane l).trackCount ≠ 0) (hd : trackedD (m.lane l) = d)
    (hout : 16 < (d - (m.lane l).dCal).natAbs) (hnew : (m.lane l).drifted = false) :
    delayTrack l m = ((showDelay (m.lane l) d (m.setLane l { m.lane l with d := d, trackSum := 0, trackCount := 0, drifted := true })).raise
      F.zlStatusDrift).post 0x0B04 [l, unsigned 32 (m.lane l).dCal, unsigned 32 d] := by
  have hfar : decide (16 < (d - (m.lane l).dCal).natAbs) = true := decide_eq_true hout
  rw [delayTrack_of_count hup hc hd, hfar, hnew]
  rfl

theorem delayTrack_of_idle (hidle : (m.lane l).step < 8 ∨ (m.lane l).trackCount = 0) : delayTrack l m = m := by
  refine if_pos ?_
  obtain hs | hc := hidle
  · simp [Lane.up, hs]
  · simp [hc]

end DelayTrack

section Margin
variable {l h n : Nat} {m : Mach}

/-- The margin of a lane kept; a BOUND one shows it in SIG_HUB_MARGIN (R205, R208). -/
def keepMargin (l n : Nat) (m : Mach) : Mach :=
  let m1 := m.setLane l { m.lane l with margin := n }
  match (m.lane l).attach, (m.lane l).entry with | .bound, some h => putHub h 6 n m1 | _, _ => m1

theorem keepMargin_of_bound (hb : (m.lane l).attach = .bound) (he : (m.lane l).entry = some h) :
    keepMargin l n m = putHub h 6 n (m.setLane l { m.lane l with margin := n }) := by
  simp [keepMargin, hb, he]

theorem keepMargin_of_free (he : (m.lane l).entry = none) : keepMargin l n m = m.setLane l { m.lane l with margin := n } := by
  unfold keepMargin
  rw [he]
  cases (m.lane l).attach <;> rfl

theorem marginLow_eq (hn : n < 256) :
    marginLow l n m = if m.fld F.zlAdaptMarginMin ≤ n then keepMargin l n m
      else if oncePerSecond m (m.lane l).marginAt then
        (((keepMargin l n m).raise F.zlStatusMarginLow).modLane l fun x => { x with marginAt := some m.tb.uptime }).post 0x0B05 [l]
      else (keepMargin l n m).raise F.zlStatusMarginLow := by
  have hmin : min n 255 = n := Nat.min_eq_left (Nat.le_of_lt_succ hn)
  unfold marginLow
  rw [hmin]
  rfl

theorem marginLow_of_enough (hn : n < 256) (hm : m.fld F.zlAdaptMarginMin ≤ n) : marginLow l n m = keepMargin l n m :=
  (marginLow_eq hn).trans (if_pos hm)

theorem marginLow_of_due (hn : n < 256) (hm : n < m.fld F.zlAdaptMarginMin) (ho : oncePerSecond m (m.lane l).marginAt = true) :
    marginLow l n m =
      (((keepMargin l n m).raise F.zlStatusMarginLow).modLane l fun x => { x with marginAt := some m.tb.uptime }).post 0x0B05 [l] :=
  (marginLow_eq hn).trans ((if_neg (Nat.not_le.2 hm)).trans (if_pos ho))

/-- A low margin within a second of the last event sets the flag alone (R205). -/
theorem marginLow_of_recent (hn : n < 256) (hm : n < m.fld F.zlAdaptMarginMin) (ho : oncePerSecond m (m.lane l).marginAt = false) :
    marginLow l n m = (keepMargin l n m).raise F.zlStatusMarginLow :=
  (marginLow_eq hn).trans ((if_neg (Nat.not_le.2 hm)).trans (if_neg (by simp [ho])))

end Margin

/-- Settles O38: each row acts in a device that is up, and each clause is the branch of its meaning that the hypotheses select. -/
theorem laneLinkStepsComplete : Obligations.LaneLinkStepsComplete := by
  unfold Obligations.LaneLinkStepsComplete
  refine ⟨fun l s up hl => ?blockLock, fun s up => ?lock, fun l h c s up hl hstep hq hn hb he hc ht => ?lossAlone,
    fun l h c s up hl hstep hq hn hb he hc ht hp => ?lossKept, fun l h c s up hl hstep hq hn hb he hc ht hp => ?lossOfTwin,
    fun l s up hl hstep hq hn hb => ?lossUnbound, fun l s up hl hh hpos => ?noLoss,
    fun l s up hl hstep hc hd hin => ?delayKept, fun l h s up hl hstep hc hd hin he => ?delayUp, fun l h s up hl hstep hc hd hin he => ?delayDown,
    fun l h s up hl hstep hc hd hout hnew he => ?driftUp, fun l h s up hl hstep hc hd hout hnew he => ?driftDown, fun l s up hl hidle => ?delayIdle,
    fun l h n s up hl hn hm hb he => ?marginShown, fun l h n s up hl hn hm hb he ho => ?marginDueShown, fun l n s up hl hn hm he ho => ?marginRecent,
    fun l n s up hl hn hm he => ?marginKept, fun l n s up hl hn hm he ho => ?marginDue, fun l s up hu => ?fault, fun l s up hu => ?noFault⟩
  case lock => exact congrArg Host.Outcome.next (run_whenAlive_of_up up _)
  case fault => exact congrArg Host.Outcome.next ((run_whenAlive_of_up up _).trans (congrArg s.to (if_pos hu)))
  case noFault => exact congrArg Host.Outcome.next ((run_whenAlive_of_up up _).trans (congrArg s.to (if_neg (by simp [hu]))))
  case blockLock => exact congrArg Host.Outcome.next (run_onLane_of_up up hl (declareLoss l))
  case lossAlone => exact congrArg Host.Outcome.next (run_zlLinkLoss_of_silent up hl hstep hq hn (loseLane_of_bound hb he hc (.inl ht)))
  case lossKept => exact congrArg Host.Outcome.next (run_zlLinkLoss_of_silent up hl hstep hq hn (loseLane_of_partner hb he hc ht hp))
  case lossOfTwin => exact congrArg Host.Outcome.next (run_zlLinkLoss_of_silent up hl hstep hq hn (loseLane_of_bound hb he hc (.inr hp)))
  case lossUnbound => exact congrArg Host.Outcome.next (run_zlLinkLoss_of_silent up hl hstep hq hn (loseLane_of_not_bound hb))
  case noLoss => exact congrArg Host.Outcome.next ((run_onLane_of_up up hl (linkLoss l)).trans (congrArg s.to (linkLoss_of_heard hh hpos)))
  all_goals refine congrArg Host.Outcome.next ((run_onLane_of_up up hl _).trans (congrArg s.to ?_))
  case delayKept => exact (delayTrack_within hstep hc (trackedD_of_near hd) hin).trans (showDelay_same _)
  case delayUp => exact (delayTrack_within hstep hc (trackedD_of_above hd) hin).trans (showDelay_moved he (by omega) _)
  case delayDown => exact (delayTrack_within hstep hc (trackedD_of_below hd) hin).trans (showDelay_moved he (by omega) _)
  case driftUp => rw [delayTrack_excursion hstep hc (trackedD_of_above hd) hout hnew, showDelay_moved he (by omega)]
  case driftDown => rw [delayTrack_excursion hstep hc (trackedD_of_below hd) hout hnew, showDelay_moved he (by omega)]
  case delayIdle => exact delayTrack_of_idle hidle
  case marginShown => rw [marginLow_of_enough hn hm, keepMargin_of_bound hb he]
  case marginDueShown => rw [marginLow_of_due hn hm ho, keepMargin_of_bound hb he]
  case marginRecent => rw [marginLow_of_recent hn hm ho, keepMargin_of_free he]
  case marginKept => rw [marginLow_of_enough hn hm, keepMargin_of_free he]
  case marginDue => rw [marginLow_of_due hn hm ho, keepMargin_of_free he]

end Sys2Proof.Machine
end

section
/-! Proofs of the family `03_block_library.md`: the bitwise meaning of the logic blocks (R100), and the input for which O21 fails. -/
namespace Sys2Proof.Machine

/-! ### Bits of words -/

section Bits
variable {i v : Nat}

theorem bitOf_eq_testBit (v i : Nat) : bitOf v i = v.testBit i := by
  rw [Nat.testBit_eq_decide_div_mod_eq, ← Nat.shiftRight_eq_div_pow]
  rfl

@[simp] theorem bitOf_and (v w i : Nat) : bitOf (v &&& w) i = (bitOf v i && bitOf w i) := by
  simp [bitOf_eq_testBit]

@[simp] theorem bitOf_or (v w i : Nat) : bitOf (v ||| w) i = (bitOf v i || bitOf w i) := by
  simp [bitOf_eq_testBit]

@[simp] theorem bitOf_xor (v w i : Nat) : bitOf (v ^^^ w) i = (bitOf v i ^^ bitOf w i) := by
  simp [bitOf_eq_testBit]

@[simp] theorem bitOf_zero (i : Nat) : bitOf 0 i = false := by
  simp [bitOf_eq_testBit]

/-- The word of all ones less a word is its inverse, bit by bit. -/
theorem bitOf_ones_sub (hi : i < 32) (hv : v < 2 ^ 32) : bitOf (0xFFFFFFFF - v) i = !bitOf v i := by
  have hsub : 0xFFFFFFFF - v = 2 ^ 32 - (v + 1) := by omega
  rw [hsub, bitOf_eq_testBit, bitOf_eq_testBit, Nat.testBit_two_pow_sub_succ hv, decide_eq_true hi, Bool.true_and]

theorem bitOf_ones (hi : i < 32) : bitOf 0xFFFFFFFF i = true := by
  simpa using bitOf_ones_sub (v := 0) hi (by decide)

/-- An output word keeps every bit of its value below 32. -/
theorem bitOf_oU (hi : i < 32) (v : Nat) : bitOf (oU v).value.toNat i = bitOf v i := by
  have hmod : (oU v).value.toNat = v % 2 ^ 32 := BitVec.toNat_ofNat v 32
  rw [hmod, bitOf_eq_testBit, bitOf_eq_testBit, Nat.testBit_mod_two_pow, decide_eq_true hi, Bool.true_and]

end Bits

/-! ### Folds over the words of the inputs -/

theorem bitOf_foldl_and (xs : List BIn) (v i : Nat) :
    bitOf ((xs.map fun x => x.value.toNat).foldl (· &&& ·) v) i = (bitOf v i && xs.all fun x => bitOf x.value.toNat i) := by
  induction xs generalizing v with
  | nil => simp
  | cons x xs ih => rw [List.map_cons, List.foldl_cons, ih, bitOf_and, List.all_cons, Bool.and_assoc]

theorem bitOf_foldl_or (xs : List BIn) (v i : Nat) :
    bitOf ((xs.map fun x => x.value.toNat).foldl (· ||| ·) v) i = (bitOf v i || xs.any fun x => bitOf x.value.toNat i) := by
  induction xs generalizing v with
  | nil => simp
  | cons x xs ih => rw [List.map_cons, List.foldl_cons, ih, bitOf_or, List.any_cons, Bool.or_assoc]

/-- A list one longer has the other parity. -/
theorem odd_succ_beq (n : Nat) : ((n + 1) % 2 == 1) = !(n % 2 == 1) := by
  obtain h | h := Nat.mod_two_eq_zero_or_one n <;> simp [Nat.add_mod, h]

theorem bitOf_foldl_xor (xs : List BIn) (v i : Nat) :
    bitOf ((xs.map fun x => x.value.toNat).foldl (· ^^^ ·) v) i
      = (bitOf v i ^^ ((xs.filter fun x => bitOf x.value.toNat i).length % 2 == 1)) := by
  induction xs generalizing v with
  | nil => simp
  | cons x xs ih =>
    rw [List.map_cons, List.foldl_cons, ih, bitOf_xor, Bool.xor_assoc]
    cases hx : bitOf x.value.toNat i with
    | false => simp [hx]
    | true => simp [hx, odd_succ_beq]

/-! ### The blocks, in terms of what they read (R54, R100)

AND, OR and XOR read the word of every input; NOT, SRFF and EDGE read `xU`, which is 0 for an input that is not connected. -/

/-- Bit `i` of output `k` of an execution. -/
def BRes.outBit (r : BRes) (k i : Nat) : Bool := bitOf ((r.outs.map BOut.value).getD k 0#32).toNat i

theorem xU_lt (x : List BIn) (i : Nat) : xU x i < 2 ^ 32 := by
  unfold xU
  split
  · exact (inAt x i).value.isLt
  · decide

/-- An input that carries 0 where it is not connected reads as its word. -/
theorem xU_eq_value {x : List BIn} {i : Nat} (h : (inAt x i).conn = false → (inAt x i).value = 0#32) : xU x i = (inAt x i).value.toNat := by
  cases hc : (inAt x i).conn with
  | true => exact if_pos hc
  | false => rw [h hc]; exact if_neg (by simp [hc])

theorem xU_of_not_conn {x : List BIn} {i : Nat} (h : (inAt x i).conn = false) : xU x i = 0 := if_neg (by simp [h])

/-- The inputs of a graph are of that kind: an unconnected port is read as the word 0 (R54). -/
theorem readPort_value_of_not_conn {m : Mach} {prior : List OutVal} {port : Port} (h : (readPort m prior port).conn = false) :
    (readPort m prior port).value = 0#32 := by
  unfold readPort at h ⊢
  cases hn : port.none with
  | true => simp
  | false =>
    simp only [hn, Bool.false_eq_true, if_false] at h
    split at h <;> cases h

section LogicBlocks
variable {i : Nat} (hi : i < 32) (p : List Word) (x : List BIn) (st : List Int) (sk : Nat) (want : Bool)
include hi

theorem outBit_and : (genExec 0x0501 p x st sk want).outBit 0 i = x.all fun b => bitOf b.value.toNat i :=
  (bitOf_oU hi _).trans (by rw [bitOf_foldl_and, bitOf_ones hi, Bool.true_and])

theorem outBit_or : (genExec 0x0502 p x st sk want).outBit 0 i = x.any fun b => bitOf b.value.toNat i :=
  (bitOf_oU hi _).trans (by rw [bitOf_foldl_or, bitOf_zero, Bool.false_or])

theorem outBit_xor :
    (genExec 0x0503 p x st sk want).outBit 0 i = ((x.filter fun b => bitOf b.value.toNat i).length % 2 == 1) :=
  (bitOf_oU hi _).trans (by rw [bitOf_foldl_xor, bitOf_zero, Bool.false_xor])

theorem outBit_not : (genExec 0x0504 p x st sk want).outBit 0 i = !bitOf (xU x 0) i :=
  (bitOf_oU hi _).trans (bitOf_ones_sub hi (xU_lt x 0))

theorem outBit_srff :
    (genExec 0x0505 p x st sk want).outBit 0 i = ((bitOf (sAt st 0).toNat i || bitOf (xU x 0) i) && !bitOf (xU x 1) i) :=
  (bitOf_oU hi _).trans (by rw [bitOf_and, bitOf_or, bitOf_ones_sub hi (xU_lt x 1)])

theorem outBit_edge_rise (hst : sAt st 0 ≠ 0) (hq : (sAt st 1).toNat < 2 ^ 32) :
    (genExec 0x0506 p x st sk want).outBit 0 i = (bitOf (xU x 0) i && !bitOf (sAt st 1).toNat i) :=
  (bitOf_oU hi _).trans (by rw [if_neg hst, bitOf_and, bitOf_ones_sub hi hq])

theorem outBit_edge_fall (hst : sAt st 0 ≠ 0) :
    (genExec 0x0506 p x st sk want).outBit 1 i = (bitOf (sAt st 1).toNat i && !bitOf (xU x 0) i) :=
  (bitOf_oU hi _).trans (by rw [if_neg hst, bitOf_and, bitOf_ones_sub hi (xU_lt x 0)])

/-- At its first execution EDGE compares the input with itself, so neither output has a bit set (R100). -/
theorem outBit_edge_first (hst : sAt st 0 = 0) :
    (genExec 0x0506 p x st sk want).outBit 0 i = false ∧ (genExec 0x0506 p x st sk want).outBit 1 i = false := by
  constructor <;>
    exact (bitOf_oU hi _).trans (by rw [if_pos hst, bitOf_and, bitOf_ones_sub hi (xU_lt x 0), Bool.and_not_self])

end LogicBlocks

/-- SRFF keeps the word that it gives (R100). -/
theorem srff_state (p : List Word) (x : List BIn) (st : List Int) (sk : Nat) (want : Bool) :
    (genExec 0x0505 p x st sk want).state = [((((genExec 0x0505 p x st sk want).outs.map BOut.value).getD 0 0#32).toNat : Int)] := by
  have hlt : ((sAt st 0).toNat ||| xU x 0) &&& (0xFFFFFFFF - xU x 1) < 2 ^ 32 := Nat.and_lt_two_pow _ (by omega)
  have hword : (oU (((sAt st 0).toNat ||| xU x 0) &&& (0xFFFFFFFF - xU x 1))).value.toNat
      = ((sAt st 0).toNat ||| xU x 0) &&& (0xFFFFFFFF - xU x 1) := (BitVec.toNat_ofNat _ 32).trans (Nat.mod_eq_of_lt hlt)
  exact congrArg (fun n : Nat => [(n : Int)]) hword.symm

/-- EDGE keeps the input and the mark of an execution (R100). -/
theorem edge_state (p : List Word) (x : List BIn) (st : List Int) (sk : Nat) (want : Bool) :
    (genExec 0x0506 p x st sk want).state = [1, (xU x 0 : Int)] := rfl

/-! ### O21 -/

/-- O21 for the inputs a graph can read (`readPort_value_of_not_conn`): where an unconnected input carries the word 0, the six blocks act bit by bit as R100 says. -/
theorem logicBlocks_act_on_read_inputs (p : List Word) (xs : List BIn) {a b : BIn} (ha : a.conn = false → a.value = 0#32)
    (hb : b.conn = false → b.value = 0#32) (sk : Nat) (want : Bool) {i : Nat} (hi : i < 32) :
    (genExec 0x0501 p xs [] sk want).outBit 0 i = (xs.all fun x => bitOf x.value.toNat i)
    ∧ (genExec 0x0502 p xs [] sk want).outBit 0 i = (xs.any fun x => bitOf x.value.toNat i)
    ∧ (genExec 0x0503 p xs [] sk want).outBit 0 i = ((xs.filter fun x => bitOf x.value.toNat i).length % 2 == 1)
    ∧ (genExec 0x0504 p [a] [] sk want).outBit 0 i = (!bitOf a.value.toNat i)
    ∧ (∀ q : Word, let r := genExec 0x0505 p [a, b] [(q.toNat : Int)] sk want;
        r.outBit 0 i = ((bitOf q.toNat i || bitOf a.value.toNat i) && !bitOf b.value.toNat i)
        ∧ r.state = [(((r.outs.map BOut.value).getD 0 0#32).toNat : Int)])
    ∧ (∀ q : Word, let r := genExec 0x0506 p [a] [1, (q.toNat : Int)] sk want;
        r.outBit 0 i = (bitOf a.value.toNat i && !bitOf q.toNat i) ∧ r.outBit 1 i = (bitOf q.toNat i && !bitOf a.value.toNat i)
        ∧ r.state = [1, (a.value.toNat : Int)])
    ∧ (let r := genExec 0x0506 p [a] [0, 0] sk want;
        r.outBit 0 i = false ∧ r.outBit 1 i = false ∧ r.state = [1, (a.value.toNat : Int)]) := by
  have hx : xU [a] 0 = a.value.toNat := xU_eq_value ha
  have hset : xU [a, b] 0 = a.value.toNat := xU_eq_value (x := [a, b]) (i := 0) ha
  have hclr : xU [a, b] 1 = b.value.toNat := xU_eq_value (x := [a, b]) (i := 1) hb
  have hran (q : Word) : sAt [1, (q.toNat : Int)] 0 ≠ 0 := Int.one_ne_zero
  refine ⟨outBit_and hi p xs [] sk want, outBit_or hi p xs [] sk want, outBit_xor hi p xs [] sk want, ?not, fun q => ⟨?srff, srff_state ..⟩,
    fun q => ⟨?rise, ?fall, ?edge⟩, ?first⟩
  case not => rw [outBit_not hi, hx]
  case srff => rw [outBit_srff hi, hset, hclr]; rfl
  case rise => rw [outBit_edge_rise hi _ _ _ _ _ (hran q) q.isLt, hx]; rfl
  case fall => rw [outBit_edge_fall hi _ _ _ _ _ (hran q), hx]; rfl
  case edge => rw [edge_state, hx]
  case first =>
    obtain ⟨hrise, hfall⟩ := outBit_edge_first hi p [a] [0, 0] sk want rfl
    exact ⟨hrise, hfall, by rw [edge_state, hx]⟩

/-- Refutes O21: the statement allows an unconnected input that carries a word other than 0. NOT reads it as 0 and sets bit 0, where the statement asks for the inverse of bit 0 of that word, which is set. -/
theorem not_logicBlocksWorkBitByBit : ¬ Obligations.LogicBlocksWorkBitByBit := by
  unfold Obligations.LogicBlocksWorkBitByBit
  intro h
  obtain ⟨-, -, -, hnot, -⟩ := h [] [] ⟨1#32, 0#8, false, false⟩ ⟨1#32, 0#8, false, false⟩ 0 false 0 (by decide)
  have hset : (genExec 0x0504 [] [⟨1#32, 0#8, false, false⟩] [] 0 false).outBit 0 0 = true := by
    rw [outBit_not (by decide), xU_of_not_conn rfl, bitOf_zero, Bool.not_false]
  exact absurd (hset.symm.trans hnot) (by decide)

end Sys2Proof.Machine
end

section
/-! Proofs of the family `04_grid_forming.md`: the mode and set-point commands (R130, R131, R133, R134, R136–R138). -/
namespace Sys2Proof.Machine

/-! ### MODE_CONFIG (R136) -/

/-- A command is taken only in a unit that exchanges nothing with a partner, and acceptance leaves the pair of such a unit as it was (R292). -/
theorem pair_accepts_of_taken {info : CmdInfo} {d : Desc} {s : State} (h : Taken info d s) : (s.accepts info d).pair = s.m.pair := by
  obtain ⟨-, hsolo, -⟩ := h
  exact State.accepts_pair s info d hsolo

/-- With every reference to the loop graph area declared, and outside TWIN, where no agreed set follows the references, the five bits are bound (R136, R285). -/
theorem effModeConfig_of_declared {c : Cmd} {m : Mach} {g : Graph} (hg : m.loop.graph = some g) (ht : m.pair.inTwin = false)
    (hd : (((List.range 5).map fun i => parseRef (c.f (4 * i) 4)).all fun b => match b.ref with
      | none => true
      | some (i, _) => decide (i < 0xE0000) || declared m i) = true) :
    effModeConfig c m =
      okDone { m with mode := { m.mode with configured := true, bits := (List.range 5).map fun i => parseRef (c.f (4 * i) 4) } } := by
  have hrefs := ne_true_of_eq_false (congrArg not hd)
  unfold effModeConfig
  rw [hg, ht]
  exact (if_neg Bool.false_ne_true).trans (if_neg hrefs)

/-! ### MODE_REQUEST (R130, R131) -/

section ModeRequest
variable {c : Cmd} {m : Mach} {t : Mode}

/-- The device with other bound bits. -/
def withBits (bits : List ModeBit) (m : Mach) : Mach := { m with mode := { m.mode with bits := bits } }

/-- The bound bits as a MODE_REQUEST on its own reads them from the Gallery (R130). -/
def bitsNow (m : Mach) : List ModeBit := (readBits m).map Prod.fst

/-- What a MODE_REQUEST does and completes with, for each outcome of the table of R131. -/
def modeAnswer (c : Cmd) (m : Mach) : ReqRes → Mach × Eff
  | .same => okEmpty m
  | .refuse => reject stSTATE m
  | .to n => okDone (modeMove n 0 (c.seq % 2 ^ 32) none m)

/-- A request for BLOCKED, or any with a mode configuration, is answered by the table of R131. -/
theorem effModeRequest_of_asked (hc : modeOfCode (c.f 0 1) = some t) (ha : m.mode.configured = true ∨ t = .blocked) :
    effModeRequest c m = modeAnswer c m (modeRequestTo m.mode.mode t (modeIn m.mode.bits)) := by
  have hasked : (!m.mode.configured && t != .blocked) = false := by
    obtain ha | ha := ha
    · simp [ha]
    · simp [ha]
  unfold effModeRequest
  rw [hc]
  refine (if_neg (ne_true_of_eq_false hasked)).trans ?_
  cases modeRequestTo m.mode.mode t (modeIn m.mode.bits) <;> rfl

/-- The answer neither reads nor changes the bound bits, so those that the request read leave no trace: the mode manager of the next intake takes their edges (R129). -/
theorem withBits_modeAnswer (bits : List ModeBit) (r : ReqRes) :
    withBits m.mode.bits (modeAnswer c (withBits bits m) r).1 = (modeAnswer c m r).1 := by
  cases r <;> rfl

theorem modeAnswer_withBits_eff (bits : List ModeBit) (r : ReqRes) : (modeAnswer c (withBits bits m) r).2 = (modeAnswer c m r).2 := by
  cases r <;> rfl

theorem modeAnswer_inState (r : ReqRes) (x : List DevState) : (modeAnswer c m r).1.inState x = m.inState x := by
  cases r <;> rfl

/-- On its own a request is answered on the bits as they stand in the Gallery, and SIG_CONV_MODE is written after it (R130). -/
theorem effModeRequestNow_of_asked {r : ReqRes} (hup : m.inState [.ready, .run] = true) (hc : modeOfCode (c.f 0 1) = some t)
    (ha : m.mode.configured = true ∨ t = .blocked) (hr : modeRequestTo m.mode.mode t (modeIn (bitsNow m)) = r) :
    effModeRequestNow c m = (writeMode (modeAnswer c m r).1, (modeAnswer c m r).2) := by
  have he : effModeRequest c (withBits (bitsNow m) m) = modeAnswer c (withBits (bitsNow m) m) r := by
    rw [effModeRequest_of_asked (m := withBits (bitsNow m) m) hc ha]
    exact congrArg (modeAnswer c _) hr
  have hnow : effModeRequestNow c m = (let a := effModeRequest c (withBits (bitsNow m) m)
      let m1 := withBits m.mode.bits a.1
      (if m1.inState [.ready, .run] then writeMode m1 else m1, a.2)) := rfl
  rw [hnow, he]
  simp only [withBits_modeAnswer, modeAnswer_withBits_eff, modeAnswer_inState, hup, if_true]

/-- A request taken in RUN, where alone its row acts, is answered so: acceptance leaves the mode manager as it was. -/
theorem effModeRequestNow_taken {d : Desc} {s : State} {r : ReqRes} (h : Taken infoModeRequest d s)
    (hc : modeOfCode ((s.held infoModeRequest d).f 0 1) = some t) (ha : s.m.mode.configured = true ∨ t = .blocked)
    (hr : modeRequestTo s.m.mode.mode t (modeIn (bitsNow (s.accepts infoModeRequest d))) = r) :
    effModeRequestNow (s.held infoModeRequest d) (s.accepts infoModeRequest d)
      = (writeMode (modeAnswer (s.held infoModeRequest d) (s.accepts infoModeRequest d) r).1,
        (modeAnswer (s.held infoModeRequest d) (s.accepts infoModeRequest d) r).2) := by
  have hrun : (s.accepts infoModeRequest d).inState [.run] = true := inState_accepts_of_taken h
  have hup : (s.accepts infoModeRequest d).inState [.ready, .run] = true := by
    simp only [Mach.inState, List.contains_eq_mem, decide_eq_true_eq] at hrun ⊢
    exact List.mem_cons_of_mem _ hrun
  refine effModeRequestNow_of_asked hup hc ?_ ?_
  · rwa [State.accepts_mode]
  · rwa [State.accepts_mode]

end ModeRequest

/-! ### SP_BIND (R138) -/

section SpBind
variable {c : Cmd} {m : Mach} {g : Graph}

/-- UNBIND of a bound slot frees it: its entry keeps its value with HELD set. -/
theorem effSpBind_of_unbind {x : SpSlot} (hg : m.loop.graph = some g) (hu : bitOf (c.f 1 1) 0 = true) (hx : m.slot (c.f 0 1) = some x) :
    effSpBind c m = okDone ((m.invalidate x.index true).setSlot (c.f 0 1) none) := by
  simp [effSpBind, hg, hu, hx, freeSlot]

theorem effSpBind_of_unbind_free (hg : m.loop.graph = some g) (hu : bitOf (c.f 1 1) 0 = true) (hx : m.slot (c.f 0 1) = none) :
    effSpBind c m = okEmpty m := by
  simp [effSpBind, hg, hu, hx]

/-- The slot that SP_BIND binds to an entry: it takes the entry's value, clamped to the limits. -/
def boundSlot (c : Cmd) (m : Mach) : SpSlot :=
  let v := (m.gv (c.f 4 4)).toInt
  let x := clampI v (signed 32 (c.f 8 4)) (signed 32 (c.f 12 4))
  ⟨c.f 4 4, signed 32 (c.f 8 4), signed 32 (c.f 12 4), x, qBit (m.g (c.f 4 4)).quality qSAT || x != v⟩

theorem effSpBind_of_bindable (hg : m.loop.graph = some g) (hu : bitOf (c.f 1 1) 0 = false) (hb : bindable m (c.f 0 1) (c.f 4 4) = true)
    (hx : m.slot (c.f 0 1) = none) :
    effSpBind c m = (writeSlot (boundSlot c m) (m.setSlot (c.f 0 1) (some (boundSlot c m))),
      .done { fin stDONE with flags := if (boundSlot c m).value != (m.gv (c.f 4 4)).toInt then cfCLAMP else 0 }) := by
  unfold effSpBind boundSlot
  simp only [hg, hu, hb, hx, Option.isNone_some, Bool.not_true, Bool.false_eq_true, if_false]

end SpBind

/-! ### SETPOINT (R133, R134) -/

section Setpoint
variable {c : Cmd} {m : Mach}

/-- With every slot named bound, the entries are written one after the other (R134). -/
theorem effSetpoint_of_bound (hn : 8 ≤ c.plen) (hb : ∀ j < c.plen / 8, (m.slot (c.f (8 * j) 1)).isSome = true) :
    effSetpoint c m = (let r := (List.range (c.plen / 8)).foldl (fun r j => setpointOne c j r) (m, 0)
      (r.1, .done ⟨stDONE, r.2, 0, if r.2 = 0 then 0 else cfCLAMP, []⟩)) := by
  have hsome : c.plen / 8 ≠ 0 := by omega
  have hfree : ¬((List.range (c.plen / 8)).any fun j => (m.slot (c.f (8 * j) 1)).isNone) = true := by
    simpa [Option.isSome_iff_ne_none] using hb
  exact (if_neg hsome).trans (if_neg hfree)

/-- One entry for a free slot refuses the whole command (R134). -/
theorem effSetpoint_of_free (hf : ∃ j < c.plen / 8, m.slot (c.f (8 * j) 1) = none) : effSetpoint c m = reject stSTATE m := by
  obtain ⟨j, hj, hfree⟩ := hf
  have hsome : c.plen / 8 ≠ 0 := Nat.ne_zero_of_lt hj
  have hany : ((List.range (c.plen / 8)).any fun j => (m.slot (c.f (8 * j) 1)).isNone) = true :=
    List.any_eq_true.2 ⟨j, List.mem_range.2 hj, by simp [hfree]⟩
  exact (if_neg hsome).trans (if_pos hany)

end Setpoint

/-- Settles O26: each row owes only its effect on the accepted command, and acceptance leaves the graph, the mode manager, the slots and the Gallery that the effect reads. -/
theorem modeAndSetpointCommandsComplete : Obligations.ModeAndSetpointCommandsComplete := by
  unfold Obligations.ModeAndSetpointCommandsComplete
  refine ⟨fun d s h g hg ht hd => ?config, fun d s h t n hc ha hr => ?move, fun d s h t hc ha hr => ?refused, fun d s h t hc ha hr => ?present,
    fun d s h g x hg hu hx => ?unbind, fun d s h g hg hu hx => ?unbindFree, fun d s h g hg hu hb hx => ?bind,
    fun d s h hn hb => ?setpoint, fun d s h hf => ?setpointFree⟩
  all_goals refine congrArg Host.Outcome.next (run_hostCommand_of_done h ?_)
  case config => exact effModeConfig_of_declared (by simpa using hg) (by rwa [pair_accepts_of_taken h]) hd
  case move => exact effModeRequestNow_taken h hc ha hr
  case refused => exact effModeRequestNow_taken h hc ha hr
  case present => exact effModeRequestNow_taken h hc ha hr
  case unbind => exact effSpBind_of_unbind (by simpa using hg) hu (by simpa using hx)
  case unbindFree => exact effSpBind_of_unbind_free (by simpa using hg) hu (by simpa using hx)
  case bind => exact effSpBind_of_bindable (by simpa using hg) hu hb (by simpa using hx)
  case setpoint => exact effSetpoint_of_bound hn (by simpa using hb)
  case setpointFree => exact effSetpoint_of_free (by simpa using hf)

end Sys2Proof.Machine
end

section
/-! Proofs of the family `05_arm_energy_and_flowstone.md`: the bytes of the lane map and the pool commands (R169–R174). -/
namespace Sys2Proof.Machine

/-! ### Little-endian fields of byte lists (R3) -/

@[simp] theorem leBytes_length (n v : Nat) : (leBytes n v).length = n := by
  induction n generalizing v with
  | zero => rfl
  | succ n ih => exact congrArg (· + 1) (ih (v / 256))

theorem leNat_leBytes (n v : Nat) : leNat (leBytes n v) = v % 256 ^ n := by
  induction n generalizing v with
  | zero => exact (Nat.mod_one v).symm
  | succ n ih =>
    have hcons : leNat (leBytes (n + 1) v) = v % 256 + 256 * leNat (leBytes n (v / 256)) :=
      congrArg (· + _) (BitVec.toNat_ofNat v 8)
    rw [hcons, ih, Nat.pow_succ', Nat.mod_mul]

theorem fieldLE_leBytes (n v : Nat) : fieldLE (leBytes n v) 0 n = v % 256 ^ n := by
  unfold fieldLE
  rw [List.drop_zero, List.take_of_length_le (Nat.le_of_eq (leBytes_length n v)), leNat_leBytes]

/-- A field that ends within the first part is that part's. -/
theorem fieldLE_append_of_fits {a : List Byte} {o k : Nat} (h : o + k ≤ a.length) (b : List Byte) :
    fieldLE (a ++ b) o k = fieldLE a o k := by
  unfold fieldLE
  rw [List.drop_append_of_le_length (by omega), List.take_append_of_le_length (by simp; omega)]

/-- A field that begins past the first part is one of the second. -/
theorem fieldLE_append_of_past {a : List Byte} {o : Nat} (h : a.length ≤ o) (b : List Byte) (k : Nat) :
    fieldLE (a ++ b) o k = fieldLE b (o - a.length) k := by
  unfold fieldLE
  rw [List.drop_append, List.drop_eq_nil_of_le h, List.nil_append]

theorem fieldLE_leBytes_append (n v : Nat) (b : List Byte) : fieldLE (leBytes n v ++ b) 0 n = v % 256 ^ n := by
  rw [fieldLE_append_of_fits (by simp), fieldLE_leBytes]

/-! ### Tables of records of one length -/

section Records
variable {α : Type} {f : α → List Byte} {n : Nat} (hf : ∀ x, (f x).length = n)
include hf

theorem records_length (xs : List α) : (xs.flatMap f).length = n * xs.length := by
  induction xs with
  | nil => rfl
  | cons x xs ih => rw [List.flatMap_cons, List.length_append, hf, ih, List.length_cons, Nat.mul_succ, Nat.add_comm]

/-- A field of record `i` of a table stands `n * i` bytes further than in the record. -/
theorem fieldLE_records {o k : Nat} (hk : o + k ≤ n) (d : α) (xs : List α) {i : Nat} (hi : i < xs.length) :
    fieldLE (xs.flatMap f) (n * i + o) k = fieldLE (f (xs.getD i d)) o k := by
  induction xs generalizing i with
  | nil => cases hi
  | cons x xs ih =>
    rw [List.flatMap_cons]
    cases i with
    | zero => rw [Nat.mul_zero, Nat.zero_add, fieldLE_append_of_fits (by rwa [hf]), List.getD_cons_zero]
    | succ i =>
      have hpast : n * (i + 1) + o - (f x).length = n * i + o := by rw [hf, Nat.mul_succ]; omega
      rw [fieldLE_append_of_past (by rw [hf, Nat.mul_succ]; omega), hpast, ih (Nat.lt_of_succ_lt_succ hi), List.getD_cons_succ]

end Records

/-! ### The record of a lane (R174) -/

section LaneRecord
variable (x : Lane)

theorem laneRecord_length : (laneRecord x).length = 16 := by
  simp [laneRecord]

theorem laneRecord_attach : fieldLE (laneRecord x) 0 1 = x.attach.code % 256 := by
  simp only [laneRecord, List.append_assoc, fieldLE_leBytes_append, Nat.pow_one]

theorem laneRecord_entry : fieldLE (laneRecord x) 1 1 = (if x.attach = .bound then x.entry.getD 0xFF else 0xFF) % 256 := by
  simp [laneRecord, fieldLE_append_of_past, fieldLE_leBytes_append]

theorem laneRecord_smCount : fieldLE (laneRecord x) 2 2 = (x.ident.getD ⟨0, 0, 0, 0, 0, 0, 0, 0⟩).smCount % 2 ^ 16 := by
  simp [laneRecord, fieldLE_append_of_past, fieldLE_leBytes_append]

theorem laneRecord_reserved : fieldLE (laneRecord x) 4 4 = 0 := by
  simp [laneRecord, fieldLE_append_of_past, fieldLE_leBytes_append]

theorem laneRecord_uid : fieldLE (laneRecord x) 8 8 = (x.ident.getD ⟨0, 0, 0, 0, 0, 0, 0, 0⟩).uid % 2 ^ 64 := by
  simp [laneRecord, fieldLE_append_of_past, fieldLE_leBytes]

end LaneRecord

/-- Settles O20: a field of the map is the same field of its lane's record, and each record field is the little-endian form of what the lane holds. -/
theorem laneMapRecordsAreRightBytes : Obligations.LaneMapRecordsAreRightBytes := by
  unfold Obligations.LaneMapRecordsAreRightBytes
  intro ls l hlen hl hentry b x
  have hrec {o k : Nat} (hk : o + k ≤ 16) : fieldLE b (16 * l + o) k = fieldLE (laneRecord x) o k :=
    fieldLE_records laneRecord_length hk laneInit ls (hlen ▸ hl)
  have hmem : ls.getD l laneInit ∈ ls := by
    have hin : l < ls.length := hlen ▸ hl
    rw [List.getD_eq_getElem?_getD, List.getElem?_eq_getElem hin, Option.getD_some]
    exact List.getElem_mem hin
  refine ⟨?length, (hrec (o := 0) (by decide)).trans ?attach, (hrec (by decide)).trans ?entry, (hrec (by decide)).trans ?smCount,
    (hrec (by decide)).trans (laneRecord_reserved x), (hrec (by decide)).trans ?uid⟩
  case length => rw [records_length laneRecord_length, hlen]
  case attach => rw [laneRecord_attach]; cases x.attach <;> rfl
  case entry =>
    rw [laneRecord_entry]
    cases ha : x.attach with
    | bound =>
      cases he : x.entry with
      | none => rfl
      | some h => exact Nat.mod_eq_of_lt (hentry h (List.mem_filterMap.2 ⟨x, hmem, he⟩))
    | unbound => rfl
    | waiting => rfl
    | refused => rfl
  case smCount => rw [laneRecord_smCount]; cases x.ident <;> rfl
  case uid => rw [laneRecord_uid]; cases x.ident <;> rfl

/-! ### The effects of the pool commands, branch by branch (R170–R173) -/

section Pool
variable {c : Cmd} {m : Mach} {cd : Cdr}

/-- SM_EXCLUDE of a covered submodule in the pool: one that is not AVAILABLE leaves the number of available ones as it is, and FORCE overrides the limit on it (R170). -/
theorem effSmExclude_of_free (ha : m.conv.active = some cd) (hx : cd.exists_ (c.f 0 4) = true) (hc : (m.sm (c.f 0 4)).pool ≠ .uncovered)
    (hr : (m.sm (c.f 0 4)).pool ≠ .retired) (he : (m.sm (c.f 0 4)).pool ≠ .excluded)
    (hf : (m.sm (c.f 0 4)).pool ≠ .available ∨ bitOf (c.f 5 1) 0 = true) :
    effSmExclude c m = okDone (m.setSm (c.f 0 4) { (m.sm (c.f 0 4)).fresh with pool := .excluded, cause := c.f 4 1, stranded := false }) := by
  have hin : ¬((m.sm (c.f 0 4)).pool = .retired ∨ (m.sm (c.f 0 4)).pool = .excluded) := not_or.2 ⟨hr, he⟩
  have hlimit : ¬((m.sm (c.f 0 4)).pool = .available
      ∧ (availOf m cd (armOf (c.f 0 4))).length < (cd.armRec (armOf (c.f 0 4))).required + 1 ∧ bitOf (c.f 5 1) 0 = false) := by
    rintro ⟨havail, -, hforce⟩
    exact hf.elim (absurd havail) (ne_true_of_eq_false hforce)
  simp only [effSmExclude, ha, hx, hc, hin, hlimit, Bool.not_true, Bool.false_eq_true, if_false]

theorem effSmExclude_of_out (ha : m.conv.active = some cd) (hx : cd.exists_ (c.f 0 4) = true)
    (ho : (m.sm (c.f 0 4)).pool = .retired ∨ (m.sm (c.f 0 4)).pool = .excluded) : effSmExclude c m = okEmpty m := by
  have hc : (m.sm (c.f 0 4)).pool ≠ .uncovered := by
    obtain h | h := ho <;> simp [h]
  simp only [effSmExclude, ha, hx, hc, ho, Bool.not_true, Bool.false_eq_true, if_false, if_true]

/-- SM_RESTORE of an EXCLUDED submodule, or in READY of a RETIRED one (R170). -/
theorem effSmRestore_of_out (ha : m.conv.active = some cd) (hx : cd.exists_ (c.f 0 4) = true)
    (ho : (m.sm (c.f 0 4)).pool = .excluded ∨ ((m.sm (c.f 0 4)).pool = .retired ∧ m.dev.state = .ready)) :
    effSmRestore c m =
      okDone (m.setSm (c.f 0 4) { (m.sm (c.f 0 4)).fresh with pool := if coveredBound m cd (c.f 0 4) then .joining else .absent }) := by
  obtain hp | ⟨hp, hs⟩ := ho
  · simp [effSmRestore, ha, hx, hp]
  · simp [effSmRestore, ha, hx, hp, hs, Mach.inState]

theorem effWearRead_of_some (hn : c.b 4 4 ≠ 0) :
    effWearRead c m = okDone (writeBufAt c 8 ((List.range (c.b 4 4)).flatMap fun i => leBytes 4 (swCount m (c.b 0 4 + i))) m) := if_neg hn

theorem effWearRead_of_zero (hn : c.b 4 4 = 0) : effWearRead c m = okEmpty m := if_pos hn

/-- The submodule numbers and switching counts that a WEAR_WRITE carries (R171). -/
def wearCounts (c : Cmd) : List (Nat × Nat) := (List.range (c.b 4 4)).map fun i => (c.b 0 4 + i, c.b (8 + 4 * i) 4)

/-- WEAR_WRITE with a count, none of its values a nonzero one for a number beyond SM_COUNT (R171). -/
theorem effWearWrite_of_ok (ha : m.conv.active = some cd) (hn : c.b 4 4 ≠ 0)
    (hz : ((wearCounts c).any fun x => !cd.exists_ x.1 && x.2 != 0) = false) :
    effWearWrite c m = okDone
      ((wearCounts c).foldl (fun m x => if cd.exists_ x.1 then m.modSm x.1 (fun s => { s with count := 1024 * x.2 }) else m) m) := by
  have hsome : ¬(wearCounts c).isEmpty = true := by simpa [wearCounts] using hn
  unfold effWearWrite
  rw [ha]
  exact (if_neg hsome).trans (if_neg (ne_true_of_eq_false hz))

theorem effFswTarget_of_active (ha : m.conv.active = some cd) :
    effFswTarget c m = okDone { m with flow := { m.flow with
      arms := (m.flow.arms.zipIdx).map fun p => if c.f 0 1 = 0xFF ∨ c.f 0 1 = p.2 then { p.1 with fsw := c.f 4 4 } else p.1 } } := by
  simp only [effFswTarget, ha]

/-- ARM_FLAG_CLEAR of at least one arm clears the sticky flags and their copies in the Gallery (R173). -/
theorem effArmFlagClear_of_some (ha : m.conv.active = some cd) (hn : c.f 0 1 ≠ 0) :
    effArmFlagClear c m = okDone (((List.range m.flow.arms.length).filter fun a => bitOf (c.f 0 1) a).foldl clearSticky
      { m with flow := { m.flow with arms := (m.flow.arms.zipIdx).map fun p => if bitOf (c.f 0 1) p.2 then { p.1 with sticky := 0 } else p.1 } }) := by
  simp only [effArmFlagClear, ha, hn, if_false]

theorem effArmFlagClear_of_zero (ha : m.conv.active = some cd) (hn : c.f 0 1 = 0) : effArmFlagClear c m = okEmpty m := by
  simp [effArmFlagClear, ha, hn]

end Pool

/-- Settles O27: each row owes only its effect on the accepted command, and acceptance leaves the record, the submodules, the arms and the lanes that the effect reads. -/
theorem poolCommandsComplete : Obligations.PoolCommandsComplete := by
  unfold Obligations.PoolCommandsComplete
  refine ⟨fun d s h cd ha hx hc hr he hf => ?exclude, fun d s h cd ha hx ho => ?excludeOut, fun d s h cd ha hx ho => ?restore,
    fun d s h => ?report, fun d s h hn => ?wearRead, fun d s h hn => ?wearReadZero, fun d s h cd ha hn hz => ?wearWrite,
    fun d s h cd ha => ?fswTarget, fun d s h cd ha hn => ?flagClear, fun d s h cd ha hn => ?flagClearZero, fun d s h => ?laneMap⟩
  all_goals refine congrArg Host.Outcome.next (run_hostCommand_of_done h ?_)
  case exclude =>
    exact effSmExclude_of_free (by simpa using ha) hx (by simpa using hc) (by simpa using hr) (by simpa using he) (by simpa using hf)
  case excludeOut => exact effSmExclude_of_out (by simpa using ha) hx (by simpa using ho)
  case restore => exact effSmRestore_of_out (by simpa using ha) hx (by simpa using ho)
  case report => exact congrArg okDone (writeBuf_taken h _)
  case wearRead => exact (effWearRead_of_some hn).trans (congrArg okDone (writeBufAt_taken h 8 _))
  case wearReadZero => exact effWearRead_of_zero hn
  case wearWrite => exact effWearWrite_of_ok (by simpa using ha) hn hz
  case fswTarget => exact effFswTarget_of_active (by simpa using ha)
  case flagClear => exact effArmFlagClear_of_some (by simpa using ha) hn
  case flagClearZero => exact effArmFlagClear_of_zero (by simpa using ha) hn
  case laneMap => exact congrArg okDone (writeBuf_taken h _)

end Sys2Proof.Machine
end

section
/-! Proofs of the family `06_zeldlink.md`: the report frames of a lane, and the training, identity and calibration of a lane (R180–R182, R194, R196, R198, R201, R206, R208, R286, R443). -/
namespace Sys2Proof.Machine

/-! ### The lanes as a list -/

section LaneList
variable {l : Nat} {m : Mach}

theorem lane_setLane_same (hl : l < m.zl.lanes.length) (x : Lane) : (m.setLane l x).lane l = x :=
  List.getD_eq_getElem?_getD.trans (congrArg (·.getD laneInit) (List.getElem?_set_self hl))

@[simp] theorem setLane_setLane (x y : Lane) : (m.setLane l x).setLane l y = m.setLane l y :=
  congrArg (fun ls => { m with zl := { m.zl with lanes := ls } }) (List.set_set x)

/-- A lane beyond the list reads as after reset, which is not BOUND. -/
theorem lane_listed_of_bound (hb : (m.lane l).attach = .bound) : l < m.zl.lanes.length := by
  refine Nat.lt_of_not_le fun hout => ?_
  have hinit : m.lane l = laneInit := List.getD_eq_getElem?_getD.trans (congrArg (·.getD laneInit) (List.getElem?_eq_none hout))
  rw [hinit] at hb
  cases hb

end LaneList

/-! ### The outcome of R194 for a report frame -/

section ReportResult
variable {m : Mach} {hub : HubRec} {b : List Byte} {z : Int} {r : RepRes}

theorem reportRes_of_badFrame (hf : frameOk b = false) : reportRes m hub b z = .malformed := by simp [reportRes, reportOk, hf]

/-- Any outcome but malformed is that of a REPORT frame whose length and CRC hold, one that counts for link supervision (R194, R204). -/
theorem goodReport_of_not_malformed (hr : reportRes m hub b z = r) (hn : r ≠ .malformed) : (frameOk b && fieldLE b 0 1 == 0x81) = true := by
  have hok : reportOk b = true := by
    cases hbad : reportOk b with
    | true => rfl
    | false => exact absurd (hr.symm.trans (by simp [reportRes, hbad])) hn
  simp only [reportOk, Bool.and_eq_true] at hok
  obtain ⟨⟨⟨hframe, htyp⟩, -⟩, -⟩ := hok
  exact Bool.and_eq_true_iff.2 ⟨hframe, htyp⟩

end ReportResult

/-! ### A report frame on a lane, with the Stewards running or held -/

section ReportFrame
variable {l h : Nat} {c : Cdr} {b : List Byte} {a z : Int} {m : Mach} {s : State} {r : RepRes}

/-- A good report frame counts for link supervision (R204). -/
def hearReport (l : Nat) (m : Mach) : Mach := m.setLane l { m.lane l with heard := true }

/-- The counters and the flag by which R194 discards a report frame. -/
def countReport (l : Nat) : RepRes → Mach → Mach
  | .used, m => m
  | .malformed, m => m.bump (F.zlLaneCrcErr l) 1
  | .badSeq, m => m.bump (F.zlLaneLateCnt l) 1
  | .late, m => (m.bump (F.zlLaneLateCnt l) 1).raise F.zlStatusLate

theorem forwardReport_of_alone (ht : m.pair.inTwin = false) : forwardReport l b m = m := if_neg (by simp [ht])

/-- With the Stewards held a good frame of a BOUND lane is heard and counted, and no more (R443). -/
theorem reportHeld_of_good (hb : (m.lane l).attach = .bound) (he : (m.lane l).entry = some h) (hc : m.conv.active = some c)
    (hr : reportRes m (c.hub h) b z = r) (hn : r ≠ .malformed) : reportHeld l b z m = countReport l r (hearReport l m) := by
  have hgood := goodReport_of_not_malformed hr hn
  unfold reportHeld
  simp only [hb, he, hc, hr, hgood, if_true]
  cases r <;> rfl

theorem reportHeld_of_badFrame (hb : (m.lane l).attach = .bound) (he : (m.lane l).entry = some h) (hc : m.conv.active = some c)
    (hf : frameOk b = false) : reportHeld l b z m = countReport l .malformed m := by
  unfold reportHeld
  simp [hb, he, hc, reportRes_of_badFrame hf, hf, countReport]

/-- A good frame of a BOUND lane that R194 discards is forwarded as it arrives, and counted (R194, R286). -/
theorem reportRx_of_discarded (hb : (m.lane l).attach = .bound) (he : (m.lane l).entry = some h) (hc : m.conv.active = some c)
    (hr : reportRes m (c.hub h) b z = r) (hn : r ≠ .malformed) (hu : r ≠ .used) :
    reportRx l b a z m = countReport l r (forwardReport l b (hearReport l m)) := by
  have hgood := goodReport_of_not_malformed hr hn
  unfold reportRx
  simp only [hb, he, hc, hr, hgood, if_true]
  cases r with
  | used => exact absurd rfl hu
  | malformed => exact absurd rfl hn
  | late => rfl
  | badSeq => rfl

theorem reportRx_of_badFrame (hb : (m.lane l).attach = .bound) (he : (m.lane l).entry = some h) (hc : m.conv.active = some c)
    (hf : frameOk b = false) : reportRx l b a z m = countReport l .malformed m := by
  unfold reportRx
  simp [hb, he, hc, reportRes_of_badFrame hf, hf, countReport]

/-- A frame of a BOUND lane that R194 admits: used at once outside TWIN, and kept for the agreement in TWIN (R194, R286). -/
theorem reportRx_of_used (hb : (m.lane l).attach = .bound) (he : (m.lane l).entry = some h) (hc : m.conv.active = some c)
    (hr : reportRes m (c.hub h) b z = .used) :
    reportRx l b a z m =
      (let m1 := trackSample l (c.hub h).total a (forwardReport l b (hearReport l m))
       if m.pair.inTwin then (sendReceipt l h b m1).modLane l fun x => { x with pend := some b } else useReport l h c b m1) := by
  have hgood := goodReport_of_not_malformed hr (by decide)
  unfold reportRx
  simp only [hb, he, hc, hr, hgood, if_true]
  rfl

theorem reportRx_of_used_alone (hb : (m.lane l).attach = .bound) (he : (m.lane l).entry = some h) (hc : m.conv.active = some c)
    (hr : reportRes m (c.hub h) b z = .used) (ht : m.pair.inTwin = false) :
    reportRx l b a z m = useReport l h c b (trackSample l (c.hub h).total a (hearReport l m)) := by
  have hkeep : forwardReport l b (hearReport l m) = hearReport l m := forwardReport_of_alone ht
  simp [reportRx_of_used hb he hc hr, ht, hkeep]

theorem reportRx_of_used_twin (hb : (m.lane l).attach = .bound) (he : (m.lane l).entry = some h) (hc : m.conv.active = some c)
    (hr : reportRes m (c.hub h) b z = .used) (ht : m.pair.inTwin = true) :
    reportRx l b a z m =
      (sendReceipt l h b (trackSample l (c.hub h).total a (forwardReport l b (hearReport l m)))).modLane l fun x => { x with pend := some b } :=
  (reportRx_of_used hb he hc hr).trans (if_pos ht)

theorem reportRx_of_not_bound (hb : (m.lane l).attach ≠ .bound) : reportRx l b a z m = m := by
  unfold reportRx
  dsimp only
  split
  next hbound _ _ => exact absurd hbound hb
  next => rfl

theorem run_reportRow_of_up (up : Up s) (hl : l < 16) : s.run (reportRow l b a z) = s.to (reportRx l b a z s.start) := by
  obtain ⟨ha, hh⟩ := up
  have hrow : reportRow l b a z s.start = reportRx l b a z s.start := by simp [reportRow, hl, ha, hh]
  exact congrArg s.to hrow

theorem run_reportRow_of_held (ha : s.m.alive = true) (hh : s.m.pwr.held = true) (hl : l < 16) :
    s.run (reportRow l b a z) = s.to (reportHeld l b z s.start) := by
  have hrow : reportRow l b a z s.start = reportHeld l b z s.start := by simp [reportRow, hl, ha, hh]
  exact congrArg s.to hrow

/-- What a used report does beyond the fast slots, in a period `k`: its alarms and marks, its shares of the slow record, the signals of its entry and its claim (R195–R198, R201, R208). -/
def keepReport (l h : Nat) (c : Cdr) (b : List Byte) (k : Nat) (m : Mach) : Mach :=
  let u := ulHead b
  let reps := parseReports b u.count
  let share := reps.map fun r => if bitOf r.f 22 then none else some r.s
  let w := takeAlarms h (c.hub h) b m
  let m2 := w.1.modLane l fun x => { x with used := some ⟨reps, w.2⟩, slow := if k % 8 = 0 then [share] else if x.slow.length = k % 8 then x.slow ++ [share] else [] }
  claimSeen l u.accClaim (putHubRep h 4 ((u.disc.zipIdx).foldl (fun a d => a + d.1 * 256 ^ d.2) 0)
    (putHubRep h 3 (u.miss + 256 * u.tmo + 65536 * u.flags) (putHubRep h 2 u.accClaim m2)))

/-- The fast slots of every submodule of a report (R194). -/
def putFastSlots (h : Nat) (c : Cdr) (b : List Byte) (m : Mach) : Mach :=
  ((c.hub h).sms.zip (parseReports b (ulHead b).count)).foldl (fun m p => fastSlots c h p.1 p.2 m) m

theorem useReport_eq : useReport l h c b m = keepReport l h c b m.tb.k (if m.inState [.safe] then m else putFastSlots h c b m) := rfl

theorem useReport_of_safe (hs : m.dev.state = .safe) : useReport l h c b m = keepReport l h c b m.tb.k m := by
  simp [useReport_eq, Mach.inState, hs]

theorem useReport_of_not_safe (hs : m.dev.state ≠ .safe) : useReport l h c b m = keepReport l h c b m.tb.k (putFastSlots h c b m) := by
  simp [useReport_eq, Mach.inState, hs]

end ReportFrame

/-- Settles O39: the outcome of R194 chooses the branch of the row, and any outcome but malformed is that of a good REPORT, which is heard and forwarded. -/
theorem reportFrameIsUsedOrCounted : Obligations.ReportFrameIsUsedOrCounted := by
  unfold Obligations.ReportFrameIsUsedOrCounted
  refine ⟨fun l h c b a z s up hl hb he hc hf => ?badFrame, fun l h c b a z s up hl hb he hc hr => ?badSeq, fun l h c b a z s up hl hb he hc hr => ?late,
    fun l h c b a z s up hl hb he hc hr ht hs => ?used, fun l h c b a z s up hl hb he hc hr ht hs => ?usedSafe,
    fun l h c b a z s up hl hb he hc hr ht => ?usedTwin, fun l h c b a z s ha hh hl hb he hc hr => ?heldUsed,
    fun l h c b a z s ha hh hl hb he hc hr => ?heldBadSeq, fun l h c b a z s ha hh hl hb he hc hf => ?heldBadFrame,
    fun l b a z s up hl hb => ?notBound⟩
  case heldUsed => exact congrArg Host.Outcome.next ((run_reportRow_of_held ha hh hl).trans (congrArg s.to (reportHeld_of_good hb he hc hr (by decide))))
  case heldBadSeq => exact congrArg Host.Outcome.next ((run_reportRow_of_held ha hh hl).trans (congrArg s.to (reportHeld_of_good hb he hc hr (by decide))))
  case heldBadFrame => exact congrArg Host.Outcome.next ((run_reportRow_of_held ha hh hl).trans (congrArg s.to (reportHeld_of_badFrame hb he hc hf)))
  all_goals refine congrArg Host.Outcome.next ((run_reportRow_of_up up hl).trans (congrArg s.to ?_))
  case badFrame => exact reportRx_of_badFrame hb he hc hf
  case badSeq => exact reportRx_of_discarded hb he hc hr (by decide) (by decide)
  case late => exact reportRx_of_discarded hb he hc hr (by decide) (by decide)
  case used => exact (reportRx_of_used_alone hb he hc hr ht).trans (useReport_of_not_safe hs)
  case usedSafe => exact (reportRx_of_used_alone hb he hc hr ht).trans (useReport_of_safe hs)
  case usedTwin => exact reportRx_of_used_twin hb he hc hr ht
  case notBound => exact reportRx_of_not_bound hb

/-! ### Training, identity and calibration, branch by branch (R180–R182) -/

section Training
variable {l : Nat} {b : List Byte} {m : Mach}

theorem laneLock_of_unlocked (hk : (m.lane l).lock = false) :
    laneLock l m = m.setLane l { m.lane l with lock := true, step := max (m.lane l).step 1, trainCount := 0, farReady := false, identReq := false } := by
  simp [laneLock, Mach.modLane, hk]

/-- A lane that trains: it has block lock, is enabled and has not passed step 4 (R180). -/
abbrev Trains (l : Nat) (m : Mach) : Prop := (m.lane l).lock = true ∧ laneEnabled m l = true ∧ (m.lane l).step ≤ 4

/-- A frame that trains a lane: a good TRAIN frame without reports and alarms (R180). -/
def goodTrain (b : List Byte) : Bool := frameOk b && b.length == 36 && bareHead b && fieldLE b 0 1 == 0x90

theorem goodTrain_of (hf : frameOk b = true) (hn : b.length = 36) (hd : bareHead b = true) (ht : fieldLE b 0 1 = 0x90) : goodTrain b = true := by
  simp [goodTrain, hf, hn, hd, ht]

theorem trainTx_of_trains (h : Trains l m) :
    trainTx l m = m.send (.zlTrain l (plainFrame m 0x06 (4 * b2n (m.lane l).identReq + 8 * b2n (rxReady (m.lane l).trainCount))
      (m.fld F.zlTxeqPre + 256 * m.fld F.zlTxeqPost))) := by
  obtain ⟨hk, hen, hst⟩ := h
  exact if_pos (by simp [hk, hen, hst])

/-- A lane after a good TRAIN frame: `n` of them in a row so far, `far` the RX_READY of the far side (R180 steps 2 to 4). -/
def trained (n : Nat) (far : Bool) (x : Lane) : Lane :=
  { x with trainCount := n, farReady := far, step := if rxReady n then (if far then 4 else max x.step 3) else max x.step 2, identReq := x.identReq || (rxReady n && far) }

theorem trainRx_of_good (h : Trains l m) (hg : goodTrain b = true) :
    trainRx l b m = m.setLane l (trained (min ((m.lane l).trainCount + 1) 4096) (bitOf (fieldLE b 1 1) 4) (m.lane l)) := by
  obtain ⟨hk, hen, hst⟩ := h
  have htrains : (!(m.lane l).lock || !laneEnabled m l || decide (4 < (m.lane l).step)) = false := by simp [hk, hen, hst]
  exact (if_neg (ne_true_of_eq_false htrains)).trans (if_neg (by simpa [goodTrain] using hg))

theorem trainRx_of_bad (h : Trains l m) (hg : goodTrain b = false) : trainRx l b m = m.setLane l { m.lane l with trainCount := 0 } := by
  obtain ⟨hk, hen, hst⟩ := h
  have htrains : (!(m.lane l).lock || !laneEnabled m l || decide (4 < (m.lane l).step)) = false := by simp [hk, hen, hst]
  have hbad : (!goodTrain b) = true := by simp [hg]
  exact (if_neg (ne_true_of_eq_false htrains)).trans (if_pos hbad)

theorem trained_of_few {n : Nat} (hn : n < 4096) (far : Bool) (x : Lane) :
    trained n far x = { x with trainCount := n, farReady := far, step := max x.step 2 } := by
  have hr : rxReady n = false := decide_eq_false (Nat.not_le.2 hn)
  simp [trained, hr]

theorem trained_of_both (x : Lane) : trained 4096 true x = { x with trainCount := 4096, farReady := true, step := 4, identReq := true } := by
  simp [trained, rxReady]

theorem trained_of_own (x : Lane) : trained 4096 false x = { x with trainCount := 4096, farReady := false, step := max x.step 3 } := by
  simp [trained, rxReady]

/-- A lane that has not completed step 4 in time restarts; its event is due at most once per second (R180). -/
theorem trainTimeout_of_due (hen : laneEnabled m l = true) (hst : (m.lane l).step < 5) (ho : oncePerSecond m (m.lane l).trainFailAt = true) :
    trainTimeout l m = (m.setLane l { laneRestart (m.lane l) with trainFailAt := some m.tb.uptime }).post 0x0B01 [l] := by
  simp [trainTimeout, hen, Nat.not_le.2 hst, ho]

/-- A well formed identity on a lane past step 3 that is not BOUND is judged (R181). -/
theorem identRx_of_ok (hk : (m.lane l).lock = true) (hst : 4 ≤ (m.lane l).step) (hb : (m.lane l).attach ≠ .bound) (hi : identOk b = true) :
    identRx l b m =
      if (parseIdent b).proto ≠ 1 || decide ((parseIdent b).cap < (parseIdent b).smCount)
          || !(decide (1 ≤ (parseIdent b).smType) && decide ((parseIdent b).smType ≤ 3)) then
        (if 5 ≤ (m.lane l).step then m else m.post 0x0B02 [l])
      else m.setLane l { m.lane l with ident := some (parseIdent b), identNew := (m.lane l).identNew || (m.lane l).attach == .unbound, step := 5 } :=
  if_neg (by simp [hk, hst, hb, hi])

theorem identRx_of_good (hk : (m.lane l).lock = true) (hst : 4 ≤ (m.lane l).step) (hu : (m.lane l).attach = .unbound) (hi : identOk b = true)
    (hp : (parseIdent b).proto = 1) (hcap : (parseIdent b).smCount ≤ (parseIdent b).cap) (hlo : 1 ≤ (parseIdent b).smType)
    (hhi : (parseIdent b).smType ≤ 3) :
    identRx l b m = m.setLane l { m.lane l with ident := some (parseIdent b), identNew := true, step := 5 } := by
  rw [identRx_of_ok hk hst (by simp [hu]) hi, if_neg (by simp [hp, hcap, hlo, hhi])]
  simp [hu]

theorem identRx_of_bad (hk : (m.lane l).lock = true) (hst : (m.lane l).step = 4) (hu : (m.lane l).attach = .unbound) (hi : identOk b = true)
    (hbad : (parseIdent b).proto ≠ 1 ∨ (parseIdent b).cap < (parseIdent b).smCount) : identRx l b m = m.post 0x0B02 [l] := by
  have hfail : ((parseIdent b).proto ≠ 1 || decide ((parseIdent b).cap < (parseIdent b).smCount)) = true := by simpa using hbad
  rw [identRx_of_ok hk (Nat.le_of_eq hst.symm) (by simp [hu]) hi, hfail, hst]
  rfl

end Training

section Calibration
variable {l h dtQ : Nat} {b : List Byte} {m : Mach} {x : List Int}

/-- The sample D_s of an exchange: half of the round trip less the far side's turn, its ASYM taken in (R182). -/
def calSample (l dtQ : Nat) (b : List Byte) (m : Mach) : Int := roundDiv ((dtQ : Int) - fieldLE b 32 4 + 2 * asymOf m l) 2

/-- A lane with one more sample of its calibration (R182). -/
def addSample (v : Int) (x : Lane) : Lane := { x with samples := x.samples ++ [v], calOpen := false }

theorem calRsp_of_good (hcal : (m.lane l).calibrating = true) (ho : (m.lane l).calOpen = true) (hf : frameOk b = true) (hd : bareHead b = true)
    (ht : fieldLE b 0 1 = 0x82) (hn : b.length = 44) :
    calRsp l b dtQ m = calStep l (m.setLane l (addSample (calSample l dtQ b m) (m.lane l))) :=
  if_pos (by simp [hcal, ho, hf, hd, ht, hn])

theorem lane_listed_of_calibrating (hcal : (m.lane l).calibrating = true) : l < m.zl.lanes.length := by
  simp only [Lane.calibrating, Bool.and_eq_true, beq_iff_eq] at hcal
  obtain ⟨⟨hb, -⟩, -⟩ := hcal
  exact lane_listed_of_bound hb

theorem calStep_of_open (hn : (m.lane l).samples.length + (m.lane l).lost ≠ 64) : calStep l m = m := if_neg hn

theorem calStep_of_all (hn : (m.lane l).samples.length + (m.lane l).lost = 64) : calStep l m = finishCal l m := if_pos hn

/-- A calibration that passes its tests: D is the median of the samples, shown as SIG_HUB_DELAY, and CONFIG goes out (R182). -/
theorem finishCal_of_pass (hx : calTest (m.lane l).samples (m.lane l).lost 1000 = none) (he : (m.lane l).entry = some h) :
    finishCal l m = sendConfig l (putHub h 1 (medianOf (m.lane l).samples).toNat
      (m.setLane l { m.lane l with
        d := medianOf (m.lane l).samples, dCal := medianOf (m.lane l).samples, spread := (spreadOf (m.lane l).samples).toNat
        drifted := false, trackSum := 0, trackCount := 0, calOpen := false, step := 7 })) := by
  simp [finishCal, hx, he]

/-- A sample that is not the last exchange of its calibration is kept (R182). -/
theorem calStep_of_more (hl : l < m.zl.lanes.length) (hn : (m.lane l).samples.length + (m.lane l).lost < 63) (v : Int) :
    calStep l (m.setLane l (addSample v (m.lane l))) = m.setLane l (addSample v (m.lane l)) := by
  refine calStep_of_open ?_
  rw [lane_setLane_same hl]
  simp only [addSample, List.length_append, List.length_singleton]
  omega

/-- The sample of the last exchange ends the calibration (R182). -/
theorem calStep_of_last (hl : l < m.zl.lanes.length) (hn : (m.lane l).samples.length + (m.lane l).lost = 63) (v : Int) :
    calStep l (m.setLane l (addSample v (m.lane l))) = finishCal l (m.setLane l (addSample v (m.lane l))) := by
  refine calStep_of_all ?_
  rw [lane_setLane_same hl]
  simp only [addSample, List.length_append, List.length_singleton]
  omega

theorem finishCal_of_last {v : Int} (hl : l < m.zl.lanes.length) (hx : x = (m.lane l).samples ++ [v]) (hpass : calTest x (m.lane l).lost 1000 = none)
    (he : (m.lane l).entry = some h) :
    finishCal l (m.setLane l (addSample v (m.lane l))) = sendConfig l (putHub h 1 (medianOf x).toNat (m.setLane l { m.lane l with
      samples := x, d := medianOf x, dCal := medianOf x, spread := (spreadOf x).toNat
      drifted := false, trackSum := 0, trackCount := 0, calOpen := false, step := 7 })) := by
  subst hx
  have hlane := lane_setLane_same hl (addSample v (m.lane l))
  rw [finishCal_of_pass (by rw [hlane]; exact hpass) (by rw [hlane]; exact he), hlane, setLane_setLane]
  rfl

/-- The row after a failed calibration declares the loss of the lane (R182). -/
theorem run_zlCalRetry_of_failed {s : State} (up : Up s) (hl : l < 16) (hfail : (s.start.lane l).calFailed = true) :
    exec (.zlCalRetry l) s = .next (s.to (s.start.setLane l { s.start.lane l with lossDue := true })) :=
  congrArg Host.Outcome.next ((run_onLane_of_up up hl _).trans (congrArg s.to (if_pos hfail)))

end Calibration

/-- Settles O37: each row acts on its lane in a device that is up, and each clause is the branch of its meaning that the hypotheses select. -/
theorem laneTrainingStepsComplete : Obligations.LaneTrainingStepsComplete := by
  unfold Obligations.LaneTrainingStepsComplete
  refine ⟨fun l s up hl hk => ?lock, fun l s up hl hk hen hst => ?trainTx, fun l b s up hl hk hen hst hg => ?trainBad,
    fun l b s up hl hk hen hst hf hn hd ht hc => ?trainMore, fun l b s up hl hk hen hst hf hn hd ht hc hfar => ?trainBoth,
    fun l b s up hl hk hen hst hf hn hd ht hc hfar => ?trainOwn, fun l s up hl hen hst ho => ?timeout,
    fun l b s up hl hk hst hu hi hp hcap hlo hhi => ?identGood, fun l b s up hl hk hst hu hi hbad => ?identBad,
    fun l dtQ b s up hl hcal ho hf hd ht hn hmore => ?sample, fun l dtQ h b x s up hl hcal ho hf hd ht hn hlast hx hpass he => ?lastSample,
    fun l s up hl hfail => run_zlCalRetry_of_failed up hl hfail⟩
  all_goals refine congrArg Host.Outcome.next ((run_onLane_of_up up hl _).trans (congrArg s.to ?_))
  case lock => exact laneLock_of_unlocked hk
  case trainTx => exact trainTx_of_trains ⟨hk, hen, hst⟩
  case trainBad => exact trainRx_of_bad ⟨hk, hen, hst⟩ hg
  case trainMore =>
    rw [trainRx_of_good ⟨hk, hen, hst⟩ (goodTrain_of hf hn hd ht), Nat.min_eq_left (by omega), trained_of_few (by omega)]
  case trainBoth =>
    rw [trainRx_of_good ⟨hk, hen, hst⟩ (goodTrain_of hf hn hd ht), Nat.min_eq_right (by omega), hfar, trained_of_both]
  case trainOwn =>
    rw [trainRx_of_good ⟨hk, hen, hst⟩ (goodTrain_of hf hn hd ht), Nat.min_eq_right (by omega), hfar, trained_of_own]
  case timeout => exact trainTimeout_of_due hen hst ho
  case identGood => exact identRx_of_good hk hst hu hi hp hcap hlo hhi
  case identBad => exact identRx_of_bad hk hst hu hi hbad
  case sample => exact (calRsp_of_good hcal ho hf hd ht hn).trans (calStep_of_more (lane_listed_of_calibrating hcal) hmore _)
  case lastSample =>
    have hin := lane_listed_of_calibrating hcal
    exact (calRsp_of_good hcal ho hf hd ht hn).trans ((calStep_of_last hin hlast _).trans (finishCal_of_last hin hx hpass he))

end Sys2Proof.Machine
end

section
/-! Proofs of the family `07_timebase.md`: commands whose own boundary has passed, the servo, the timebase commands and events, the PTP messages, and the accesses to the setup window (R211–R237, R247–R256, R337, R339, R417–R431). -/
namespace Sys2Proof.Machine

/-! ### An accepted command whose own boundary is not the present one (R247–R256) -/

section Acceptance
variable {info : CmdInfo} {eff : Cmd → Mach → Mach × Eff} {c : Cmd} {m : Mach} {d : Desc} {s : State} {b : Nat}

/-- An accepted command is found as acceptance lists it, where no other of its ring has its SEQ. -/
theorem accCmd_acceptNow (hr : ∀ p ∈ m.host.accepted, p.cmd.ring = c.ring → p.cmd.seq ≠ c.seq) : (acceptNow c m).accCmd c = listedCmd c m := by
  have hskip : ∀ p ∈ m.host.accepted, (p.cmd.ring == c.ring && p.cmd.seq == c.seq) = false := fun p hp => by
    simpa using hr p hp
  have hfound : (acceptNow c m).findCmd c.ring c.seq = some ⟨listedCmd c m, false⟩ := by
    unfold Mach.findCmd
    rw [acceptNow_accepted]
    exact find_append_skip _ _ _ hskip (by simp [listedCmd])
  simp [Mach.accCmd, hfound]

/-- Only commands of its ring with a lower SEQ stand before an accepted command, and none before a CANCEL (R253, R263). -/
theorem ringBlocked_acceptNow (hr : ∀ p ∈ m.host.accepted, p.cmd.ring = c.ring → c.op = 0x0F03 ∨ c.seq < p.cmd.seq) :
    ringBlocked (listedCmd c m) (acceptNow c m) = false := by
  unfold ringBlocked
  rw [acceptNow_accepted, Bool.and_eq_false_iff, List.any_append, Bool.or_eq_false_iff]
  by_cases hop : c.op = 0x0F03
  · exact .inl (by simp [listedCmd, hop])
  · refine .inr ⟨List.any_eq_false.2 fun p hp => ?_, by simp [listedCmd]⟩
    by_cases hring : p.cmd.ring = c.ring
    · have hlater : c.seq < p.cmd.seq := (hr p hp hring).resolve_left hop
      simp [listedCmd, Nat.not_lt_of_lt hlater]
    · simp [listedCmd, hring]

/-- A descriptor that passes its checks in a unit that exchanges with no partner is accepted (R251, R252, R292). -/
theorem takeDesc_of_passed {m0 : Mach} {resv : Nat} (hm : { m0 with host := { m0.host with fetched := c.ring :: m0.host.fetched } } = m)
    (hx : m0.pair.exchanging = false) (hrom : romRefuses c m = false) (hc : checkCmd info resv c m = none) (acc : Mach → Mach) :
    takeDesc (some info) resv c acc m0 = acc m := by
  unfold takeDesc
  simp only [hm, hc, hrom, hx, Bool.false_and, Bool.false_eq_true, if_false]

/-- What follows the acceptance of a command whose own boundary is known and that neither its ring nor the engine makes wait (R253, R468). -/
theorem actNow_of_due (hown : ownOf c m.tb.k m = some b)
    (hr : ∀ p ∈ m.host.accepted, p.cmd.ring = c.ring → p.cmd.seq ≠ c.seq ∧ (c.op = 0x0F03 ∨ c.seq < p.cmd.seq)) (hw : haltWaits c m = false) :
    actNow info eff c m = takeEffect info eff (listedCmd c m) (acceptNow c m) := by
  have hacc := accCmd_acceptNow fun p hp hring => (hr p hp hring).1
  have hfree := ringBlocked_acceptNow fun p hp hring => (hr p hp hring).2
  have hruns : haltWaits (listedCmd c m) (acceptNow c m) = false := by simpa [haltWaits, listedCmd] using hw
  have hknown : (listedCmd c m).own.isNone = false := by simp [listedCmd, hown]
  simp [actNow, hacc, hfree, hruns, hknown]

/-- A command row whose descriptor passes its checks, whose launch time maps to a boundary and whose turn it is: it acts as acceptance lists it (R251–R255). -/
theorem hostCommand_of_due (hf : fetchable d.ring s.start = true) (hx : s.m.pair.exchanging = false)
    (hrom : romRefuses (d.cmd info.op) (s.fetching d.ring) = false) (hc : checkCmd info d.resv (d.cmd info.op) (s.fetching d.ring) = none)
    (hown : ownOf (d.cmd info.op) s.m.tb.k (s.fetching d.ring) = some b)
    (hr : ∀ p ∈ s.m.host.accepted, p.cmd.ring = d.ring → p.cmd.seq ≠ d.seq ∧ (info.op = 0x0F03 ∨ d.seq < p.cmd.seq))
    (hw : haltWaits (d.cmd info.op) s.start = false) :
    hostCommand info eff d s.start = takeEffect info eff { s.held info d with own := some b } (s.accepts info d) := by
  have hlist : listedCmd (d.cmd info.op) (s.fetching d.ring) = { s.held info d with own := some b } :=
    congrArg (fun o => { s.held info d with own := o }) hown
  have hact : actNow info eff (d.cmd info.op) (s.fetching d.ring) = takeEffect info eff { s.held info d with own := some b } (s.accepts info d) :=
    (actNow_of_due hown hr hw).trans (congrArg (takeEffect info eff · _) hlist)
  have htake := takeDesc_of_passed (m0 := s.start) rfl hx hrom hc (actNow info eff (d.cmd info.op))
  have hfetch : fetchable (d.cmd info.op).ring s.start = true := hf
  exact (if_neg (by simp [hfetch])).trans (htake.trans hact)

theorem takeEffect_of_expired (he : expired c = true) (hl : bitOf c.flags 1 = false) : takeEffect info eff c m = complete c (fin stEXPIRED) m :=
  if_pos (by simp [he, hl])

/-- With LATE_OK an expired command takes effect at its first boundary, as its own, and its completion carries LATE (R254). -/
theorem takeEffect_of_late (he : expired c = true) (hl : bitOf c.flags 1 = true) (hs : m.inState info.states = true) :
    takeEffect info eff c m = settleEff { c with own := some c.first, late := true } (eff { c with own := some c.first, late := true } m) := by
  have hlate : lateCmd c = { c with own := some c.first, late := true } := if_pos (by simp [he, hl])
  simp [takeEffect, he, hl, hlate, inStates, hs]

theorem expired_of_past (hb : b < s.m.tb.k) : expired { s.held info d with own := some b } = true := decide_eq_true hb

end Acceptance

/-- Settles O13: the command acts as acceptance lists it, with the boundary of its launch time as its own; that boundary precedes its first, so it has expired, and bit 1 of FLAGS decides between the two outcomes of R254. -/
theorem lateCommandsExpireUnlessTheyMayBeLate : Obligations.LateCommandsExpireUnlessTheyMayBeLate := by
  unfold Obligations.LateCommandsExpireUnlessTheyMayBeLate
  intro info eff d s hf hrom hc hx b htimed hmap hpast hr hw
  have hown : ownOf (d.cmd info.op) s.m.tb.k (s.fetching d.ring) = some b := (if_pos htimed).trans hmap
  have hdue := hostCommand_of_due (eff := eff) hf hx hrom hc hown hr hw
  have hexp : expired { s.held info d with own := some b } = true := expired_of_past hpast
  refine ⟨fun hlate => ?expires, fun hlate hstate => ?acts⟩
  all_goals refine congrArg s.to (hdue.trans ?_)
  case expires => exact takeEffect_of_expired hexp hlate
  case acts => exact takeEffect_of_late hexp hlate (by simpa using hstate)

/-! ### The servo (R222, R224) -/

section Clamp
variable {x lo hi : Int}

theorem le_clampI (h : lo ≤ hi) (x : Int) : lo ≤ clampI x lo hi := Int.le_min.2 ⟨Int.le_max_right x lo, h⟩

theorem clampI_le (x lo hi : Int) : clampI x lo hi ≤ hi := Int.min_le_right (max x lo) hi

theorem clampI_of_mem (hlo : lo ≤ x) (hhi : x ≤ hi) : clampI x lo hi = x := by
  rw [clampI, Int.max_eq_left hlo, Int.min_eq_left hhi]

/-- A clamp to a range may meet its two limits in either order. -/
theorem clampI_eq_max_min (h : lo ≤ hi) (x : Int) : clampI x lo hi = max lo (min hi x) := by
  rw [Int.max_min_distrib_left, Int.max_eq_right h, Int.max_comm lo x, Int.min_comm, clampI]

end Clamp

section Servo
variable (theta : Int) (m : Mach)

theorem neg_yLim_le_yLim : -yLim ≤ yLim := by decide

theorem servoLaw_i : (servoLaw theta m).tb.i = clampI (m.tb.i - gainTerm (m.fld F.tbServoKi) theta m.tb.ts) (-yLim) yLim := rfl

theorem servoLaw_y :
    (servoLaw theta m).tb.y = min (clampI ((servoLaw theta m).tb.i - gainTerm (m.fld F.tbServoKp) theta m.tb.ts) (-yLim) yLim) (yMax m) := rfl

theorem servoLaw_y_eq :
    (servoLaw theta m).tb.y = min (max (-yLim) (min yLim ((servoLaw theta m).tb.i - gainTerm (m.fld F.tbServoKp) theta m.tb.ts))) (yMax m) := by
  rw [servoLaw_y, clampI_eq_max_min neg_yLim_le_yLim]

end Servo

/-- Settles O22: i and the law's y are clamps to ±200 ppm, and y in force is the lesser of the latter and the largest y that FMAX permits. -/
theorem servoStaysWithinItsClamps : Obligations.ServoStaysWithinItsClamps := by
  unfold Obligations.ServoStaysWithinItsClamps
  intro theta m
  have hlaw := servoLaw_y theta m
  have hilo : -yLim ≤ (servoLaw theta m).tb.i := le_clampI neg_yLim_le_yLim _
  have hihi : (servoLaw theta m).tb.i ≤ yLim := clampI_le _ _ _
  have hmax : (servoLaw theta m).tb.y ≤ yMax m := hlaw ▸ Int.min_le_right _ _
  have hupper : (servoLaw theta m).tb.y ≤ yLim := hlaw ▸ Int.le_trans (Int.min_le_left _ _) (clampI_le _ _ _)
  have hlower (hfmax : -yLim ≤ yMax m) : -yLim ≤ (servoLaw theta m).tb.y := hlaw ▸ Int.le_min.2 ⟨le_clampI neg_yLim_le_yLim _, hfmax⟩
  have hunclamped (i : Int) (he : i = m.tb.i - gainTerm (m.fld F.tbServoKi) theta m.tb.ts) (hlo : -yLim ≤ i) (hhi : i ≤ yLim) :
      (servoLaw theta m).tb.i = i := by
    rw [servoLaw_i, ← he, clampI_of_mem hlo hhi]
  exact ⟨hilo, hihi, hmax, hupper, hlower, servoLaw_y_eq theta m, rfl, hunclamped, rfl, rfl, rfl⟩

/-! ### The effects of the timebase commands, branch by branch (R216, R223, R225, R227, R235–R237) -/

/-- A command taken in this step whose effect holds it stays in effect as that effect leaves the device (R256). -/
theorem run_hostCommand_of_hold {info : CmdInfo} {eff : Cmd → Mach → Mach × Eff} {d : Desc} {s : State} {upd : Mach → Mach}
    (h : Taken info d s) (he : eff (s.held info d) (s.accepts info d) = (upd (s.accepts info d), .hold)) :
    s.run (hostCommand info eff d) = s.inEffect info d upd := by
  have hm := hostCommand_taken (eff := eff) h
  rw [he] at hm
  exact congrArg s.to hm

section TimebaseCommands
variable {c : Cmd} {m : Mach}

theorem effTbPeriod_of_new (hp : c.f 0 4 ≠ m.tb.p ∨ m.tb.pNext ≠ none) (hk : periodOk m (c.f 0 4) = true) :
    effTbPeriod c m = ({ m with tb := { m.tb with pNext := some (c.f 0 4) } }, .hold) := by
  have hnew : ¬(c.f 0 4 = m.tb.p ∧ m.tb.pNext.isNone = true) := by
    rw [Option.isNone_iff_eq_none]
    exact Decidable.not_and_iff_not_or_not.2 hp
  exact (if_neg hnew).trans (if_neg (by simp [hk]))

theorem effTbPeriod_of_same (hp : c.f 0 4 = m.tb.p) (hn : m.tb.pNext = none) : effTbPeriod c m = okEmpty m :=
  if_pos ⟨hp, by simp [hn]⟩

/-- TB_SOURCE in effect: an authorised convergence ends, and the source of a code with its ports is named for the next boundary (R225, R227). -/
def nameSource (code ports : Nat) (m : Mach) : Mach :=
  { m with tb := { m.tb with srcDue := some (srcOfCode code, ports) }, pair := { m.pair with lastSrc := some (code, ports) } }

theorem effTbSource_of_not_ptp (hs : m.tb.src ≠ .pair) (hc : c.f 0 1 ≠ 1) :
    effTbSource c m = okDone (nameSource (c.f 0 1) (endConverge m).tb.ports (endConverge m)) := by
  simp [effTbSource, nameSource, hs, hc]

/-- PTP is named on ports that are enabled (R236). -/
theorem effTbSource_of_ptp (hs : m.tb.src ≠ .pair) (hc : c.f 0 1 = 1) (ha : bitOf (c.f 1 1) 0 = true → m.flag F.ethCtrlEnA = true)
    (hb : bitOf (c.f 1 1) 1 = true → m.flag F.ethCtrlEnB = true) :
    effTbSource c m = okDone (nameSource 1 (c.f 1 1) (endConverge m)) := by
  have hen : ((bitOf (c.f 1 1) 0 && !m.flag F.ethCtrlEnA) || (bitOf (c.f 1 1) 1 && !m.flag F.ethCtrlEnB)) = false := by
    simpa using ⟨ha, hb⟩
  simp [effTbSource, nameSource, hs, hc, hen]

theorem effTbConverge_of_refused (hs : c.f 0 1 = 1 ∨ m.dev.state ≠ .run) (hr : m.tb.refusedRun = true) :
    effTbConverge c m = ({ endConverge m with tb := { (endConverge m).tb with converge := some (if c.f 0 1 = 1 then .slew (c.f 4 4) else .step) } }, .hold) := by
  have hpermitted : ¬(c.f 0 1 = 2 ∧ m.inState [.run] = true) := by
    rintro ⟨hstep, hrun⟩
    obtain hslew | hout := hs
    · omega
    · exact hout (by simpa [Mach.inState] using hrun)
  exact (if_neg hpermitted).trans (if_neg (by simp [hr]))

theorem effTbSet_of_free (hptp : m.tb.src ≠ .ptp) (hpair : m.tb.src ≠ .pair) :
    effTbSet c m = okDone { m with tb := { m.tb with setDue := some (c.f 0 8 * 1000000000 + c.f 8 4) } } := by
  simp [effTbSet, hptp, hpair]

theorem effTbBand_of_usable (hu : usable m (c.f 0 1) = true) (hn : c.f 0 1 ≠ m.tb.band) :
    effTbBand c m = ((let m1 := clearTimeValid m; { m1.raise F.zlStatusLockLost with
      tb := { m1.tb with relock := some (c.f 0 1), fmax := m.reg.raw (F.tbBandFmax (c.f 0 1)), pllLock := false, nfrac := 0, nfracShadow := 0 }
      zl := { m1.zl with lanes := m1.zl.lanes.map fun x => { x with lossDue := x.lossDue || decide (1 ≤ x.step) } } }), .hold) :=
  (if_neg (by simp [hu])).trans (if_neg hn)

end TimebaseCommands

/-- Settles O28: each row owes only its effect on the accepted command, and acceptance leaves the timebase, the record, the graph and the device state that the effect reads. -/
theorem timebaseCommandsComplete : Obligations.TimebaseCommandsComplete := by
  unfold Obligations.TimebaseCommandsComplete
  refine ⟨fun d s h hp hk => ?period, fun d s h hp hn => ?samePeriod, fun d s h hs hc => ?source, fun d s h hs hc ha hb => ?sourcePtp,
    fun d s h hs hr => ?converge, fun d s h hptp hpair => ?set, fun d s h hu hn => ?band, fun d s h => ?report⟩
  case period => exact congrArg Host.Outcome.next (run_hostCommand_of_hold h (effTbPeriod_of_new (by simpa using hp) (by simpa using hk)))
  case converge => exact congrArg Host.Outcome.next (run_hostCommand_of_hold h (effTbConverge_of_refused (by simpa using hs) (by simpa using hr)))
  case band => exact congrArg Host.Outcome.next (run_hostCommand_of_hold h (effTbBand_of_usable hu (by simpa using hn)))
  all_goals refine congrArg Host.Outcome.next (run_hostCommand_of_done h ?_)
  case samePeriod => exact effTbPeriod_of_same (by simpa using hp) (by simpa using hn)
  case source => exact effTbSource_of_not_ptp (by simpa using hs) hc
  case sourcePtp => exact effTbSource_of_ptp (by simpa using hs) hc ha hb
  case set => exact effTbSet_of_free (by simpa using hptp) (by simpa using hpair)
  case report => rw [effTbReport, writeBuf_taken h]; rfl

/-! ### The events of the timebase, branch by branch (R211, R222, R223, R225, R229, R232, R234) -/

section TimebaseEvents
variable {m : Mach} {at16 w ns n p : Nat}

theorem coastTimeout_of_following (hs : m.tb.sync = .acquiring ∨ m.tb.sync = .locked) :
    coastTimeout m = ({ m with tb := { m.tb with sync := .coasting, inRun := 0, outRun := 0 }.putY m.tb.i }).post 0x0503 [] := if_pos hs

/-- The uptime at which an edge on PPSI is captured (R232). -/
def edgeUptime (m : Mach) (at16 : Nat) : Nat := ((m.tb.uptime : Int) + (at16 / 65536 : Nat) - m.now).toNat

theorem ppsiEdge_of_short_or_other (h : w < 100 ∨ m.tb.src ≠ .ppsi) : ppsiEdge at16 w m = m := if_pos h

/-- An edge within 0.9 s of the last one is a glitch (R232). -/
theorem ppsiEdge_of_glitch {a : Nat} (hw : 100 ≤ w) (hs : m.tb.src = .ppsi) (ha : m.tb.ppsiAt = some a) (hg : edgeUptime m at16 < a + 900000000) :
    ppsiEdge at16 w m = m.bump F.tbCountPpsGlitch 1 := by
  have hgood : ¬(w < 100 ∨ m.tb.src ≠ .ppsi) := by simp [Nat.not_lt.2 hw, hs]
  refine (if_neg hgood).trans (if_pos ?_)
  rw [ha]
  exact decide_eq_true hg

/-- The first edge is kept and gives its distance from the nearest whole second as a sample (R232). -/
theorem ppsiEdge_of_first (hw : 100 ≤ w) (hs : m.tb.src = .ppsi) (ha : m.tb.ppsiAt = none) :
    ppsiEdge at16 w m =
      (let r := ((at16 : Int) - m.sfld F.tbPpsPpsiDelay (-10000) 10000 * 65536) % (1000000000 * 65536)
       servoSample (if 1000000000 * 65536 < 2 * r then r - 1000000000 * 65536 else r) 1000000000 m.tb.secondsKnown
         { m with tb := { m.tb with ppsiAt := some (edgeUptime m at16) } }) := by
  have hgood : ¬(w < 100 ∨ m.tb.src ≠ .ppsi) := by simp [Nat.not_lt.2 hw, hs]
  refine (if_neg hgood).trans (if_neg ?_)
  rw [ha]
  exact Bool.false_ne_true

/-- PPSO stands at the other level than the one its instant calls for: it is brought to that level (R234). -/
theorem ppsoPulse_of_change {v : Bool} (hv : ppsoAt m (m.now + ns) = v) (hn : m.tb.ppso = !v) :
    ppsoPulse ns m = { m.send (.ppso v) with tb := { m.tb with ppso := v } } := by
  subst hv
  refine if_neg ?_
  rw [hn]
  cases ppsoAt m (m.now + ns) <;> decide

theorem ppsoAt_of_pulse {t : Nat} (hv : m.tb.timeValid = true)
    (hw : ((t : Int) - m.sfld F.tbPpsPpsoOfs (-10000) 10000) % 1000000000 < (1000 * m.fld F.tbPpsPpsoWidth : Nat)) : ppsoAt m t = true := by
  simp only [ppsoAt, hv, decide_eq_true hw, Bool.and_self]

theorem ppsoAt_of_outside {t : Nat}
    (h : m.tb.timeValid = false ∨ (1000 * m.fld F.tbPpsPpsoWidth : Nat) ≤ ((t : Int) - m.sfld F.tbPpsPpsoOfs (-10000) 10000) % 1000000000) :
    ppsoAt m t = false := by
  refine Bool.and_eq_false_iff.2 (h.imp_right fun hw => ?_)
  exact decide_eq_false (Int.not_lt.2 hw)

/-- PPSO runs while the Stewards are held, too (R429). -/
theorem run_ppsoPulse_of_change {s : State} {v : Bool} (ha : s.start.alive = true) (hv : ppsoAt s.start (s.start.now + ns) = v)
    (hn : s.start.tb.ppso = !v) :
    exec (.ppsoPulse ns) s = .next (s.to { s.start.send (.ppso v) with tb := { s.start.tb with ppso := v } }) :=
  congrArg (fun m => Host.Outcome.next (s.to m)) ((if_pos ha).trans (ppsoPulse_of_change hv hn))

theorem ptpFailover_of_selected (hp : m.tb.ptp.sel = some p) :
    ptpFailover m = reselect (m.modPtp p fun x => { x with master := none, sync := none }) := by
  simp [ptpFailover, hp]

theorem pllLocked_of_relock (hr : m.tb.relock = some n) : pllLocked m = { m with tb := { m.tb with band := n, relock := none, pllLock := true } } := by
  simp [pllLocked, hr]

theorem pllLocked_of_none (hr : m.tb.relock = none) : pllLocked m = { m with tb := { m.tb with pllLock := true } } := by
  simp [pllLocked, hr]

section Counter
variable {a b c : Nat}

theorem counterDisagree_of_majority (hne : ¬(a = b ∧ b = c)) (htwo : a = b ∨ a = c ∨ b = c) :
    counterDisagree a b c m = (({ m with tb := m.tb.setTime (vote a b c) }).raise F.tbStatusVoteFix).bump F.tbCountVoteFixCnt 1 :=
  (if_neg hne).trans (if_pos htwo)

theorem counterDisagree_of_none (hab : a ≠ b) (hac : a ≠ c) (hbc : b ≠ c) :
    counterDisagree a b c m = clearTimeValid { m with tb := { m.tb with timeA := a, timeB := b, timeC := c } } :=
  (if_neg fun h => hab h.1).trans (if_neg (by simp [hab, hac, hbc]))

end Counter

end TimebaseEvents

/-- Settles O40: each row but PPSO acts in a device that is up, and each clause is the branch of its meaning that the hypotheses select. -/
theorem timebaseStepsComplete : Obligations.TimebaseStepsComplete := by
  unfold Obligations.TimebaseStepsComplete
  refine ⟨fun s up hs => ?coast, fun at16 w a s up hw hs ha hg => ?glitch, fun at16 w s up hw hs ha => ?firstEdge, fun at16 w s up h => ?noEdge,
    fun ns s ha hv hw hn => run_ppsoPulse_of_change ha (ppsoAt_of_pulse hv hw) hn, fun ns s ha hw hn => run_ppsoPulse_of_change ha (ppsoAt_of_outside hw) hn,
    fun p s up hp => ?failover, fun n s up hr => ?relocked, fun s up hr => ?locked, fun s up => ?lockLost,
    fun a b c s up hne htwo => ?oneDiffers, fun a b c s up hab hac hbc => ?allDiffer, fun s up => ?bandEdge⟩
  all_goals refine congrArg Host.Outcome.next ((run_whenAlive_of_up up _).trans (congrArg s.to ?_))
  case coast => exact coastTimeout_of_following hs
  case glitch => exact ppsiEdge_of_glitch hw hs ha hg
  case firstEdge => exact ppsiEdge_of_first hw hs ha
  case noEdge => exact ppsiEdge_of_short_or_other h
  case failover => exact ptpFailover_of_selected hp
  case relocked => exact pllLocked_of_relock hr
  case locked => exact pllLocked_of_none hr
  case lockLost => rfl
  case oneDiffers => exact counterDisagree_of_majority hne htwo
  case allDiffer => exact counterDisagree_of_none hab hac hbc
  case bandEdge => rfl

/-! ### The PTP messages, one lemma for each kind (R228, R229, R339) -/

/-- A row of a port that is up runs its meaning there. -/
theorem run_onPort_of_up {s : State} (up : Up s) {p : Nat} (hp : p < 2) (f : Mach → Mach) : s.run (onPort p f) = s.to (f s.start) := by
  have he : s.run (onPort p f) = s.run (whenAlive f) := congrArg s.to (if_pos hp)
  rw [he, run_whenAlive_of_up up]

/-- A row of a port whose meaning there leaves the device as it is has no effect, whatever the port. -/
theorem run_onPort_of_idle {s : State} {p : Nat} {f : Mach → Mach} (hf : f s.start = s.start) : s.run (onPort p f) = s.to s.start := by
  have hrow : onPort p f s.start = s.start := by
    unfold onPort
    split
    · exact (whenAlive_cases f s.start).elim id fun h => h.trans hf
    · rfl
  exact congrArg s.to hrow

/-- The engine acts on a message: the port takes it, it is of the device's domain, and the port is in use (R228). -/
abbrev ActsOn (m : Mach) (p x : Nat) (a : PtpMsg) : Prop :=
  ptpTakes m p x a = true ∧ a.domain = some (m.fld F.tbCtrlDomain) ∧ bitOf m.tb.ports p = true

section PtpReceived
variable {m : Mach} {p x src seq o t2 t3 t4 rx : Nat} {c d li : Int} {dom : Nat}

theorem not_discarded_of_actsOn {a : PtpMsg} (h : ActsOn m p x a) :
    ¬(!ptpTakes m p x a || decide (a.domain ≠ some (m.fld F.tbCtrlDomain)) || !bitOf m.tb.ports p) = true := by
  obtain ⟨htakes, hdomain, hport⟩ := h
  simp [htakes, hdomain, hport]

theorem ptpRx_of_discarded {a : PtpMsg} (h : ptpTakes m p x a = false ∨ a.domain ≠ some (m.fld F.tbCtrlDomain) ∨ bitOf m.tb.ports p = false) :
    ptpRx p x a m = m := by
  refine if_pos ?_
  obtain htakes | hdomain | hport := h
  · simp [htakes]
  · simp [hdomain]
  · simp [hport]

/-- The first Announce on a port makes its sender the master of the port (R228). -/
theorem ptpRx_announce_first {a : Announce} (h : ActsOn m p x (.announce dom a)) (hm : (m.tb.ptp.port p).master = none) :
    ptpRx p x (.announce dom a) m = reselect (m.modPtp p fun y => { y with master := some a }) := by
  refine (if_neg (not_discarded_of_actsOn h)).trans ?_
  simp [hm]

theorem ptpRx_sync_twoStep (h : ActsOn m p x (.sync dom src seq true o c rx li)) (hf : followed m p src = true) :
    ptpRx p x (.sync dom src seq true o c rx li) m = m.modPtp p fun y => { y with sync := some ⟨src, seq, rx, c, li⟩ } := by
  refine (if_neg (not_discarded_of_actsOn h)).trans ?_
  simp [hf]

theorem ptpRx_sync_oneStep (h : ActsOn m p x (.sync dom src seq false o c rx li)) (hf : followed m p src = true) :
    ptpRx p x (.sync dom src seq false o c rx li) m = ptpSample p ((rx : Int) - o - c) li m := by
  refine (if_neg (not_discarded_of_actsOn h)).trans ?_
  simp [hf]

theorem ptpRx_followUp {y : SyncPend} (h : ActsOn m p x (.followUp dom src seq o c)) (hy : (m.tb.ptp.port p).sync = some y)
    (hsrc : y.src = src) (hseq : y.seq = seq) :
    ptpRx p x (.followUp dom src seq o c) m =
      ptpSample p ((y.rx : Int) - o - c - y.corr) y.logInterval (m.modPtp p fun z => { z with sync := none }) := by
  refine (if_neg (not_discarded_of_actsOn h)).trans ?_
  simp [hy, hsrc, hseq]

theorem ptpRx_pdelayReq (h : ActsOn m p x (.pdelayReq dom seq rx)) :
    ptpRx p x (.pdelayReq dom seq rx) m = ptpQueue p (rx / 65536) ⟨.pdelayResp, dom, seq, none, rx, 0⟩ m :=
  if_neg (not_discarded_of_actsOn h)

theorem ptpRx_pdelayResp_oneStep {y : PdelayPend} (h : ActsOn m p x (.pdelayResp dom seq false t2 c rx))
    (hy : (m.tb.ptp.port p).pdelay = some y) (hseq : y.seq = seq) :
    ptpRx p x (.pdelayResp dom seq false t2 c rx) m =
      m.modPtp p fun z => { z with pdelay := none, linkDelay := roundDiv ((rx : Int) - y.t1 - c) 2 } := by
  refine (if_neg (not_discarded_of_actsOn h)).trans ?_
  simp [hy, hseq]

theorem ptpRx_pdelayResp_twoStep {y : PdelayPend} (h : ActsOn m p x (.pdelayResp dom seq true t2 c rx))
    (hy : (m.tb.ptp.port p).pdelay = some y) (hseq : y.seq = seq) :
    ptpRx p x (.pdelayResp dom seq true t2 c rx) m = m.modPtp p fun z => { z with pdelay := some { y with resp := some (rx, t2, c) } } := by
  refine (if_neg (not_discarded_of_actsOn h)).trans ?_
  simp [hy, hseq]

theorem ptpRx_pdelayRespFollowUp {y : PdelayPend} (h : ActsOn m p x (.pdelayRespFollowUp dom seq t3 c))
    (hy : (m.tb.ptp.port p).pdelay = some y) (hseq : y.seq = seq) (hresp : y.resp = some (t4, t2, d)) :
    ptpRx p x (.pdelayRespFollowUp dom seq t3 c) m =
      m.modPtp p fun z => { z with pdelay := none, linkDelay := roundDiv ((t4 : Int) - y.t1 - ((t3 : Int) - t2) - d - c) 2 } := by
  refine (if_neg (not_discarded_of_actsOn h)).trans ?_
  simp [hy, hseq, hresp]

end PtpReceived

section PtpSent
variable {m : Mach} {p a : Nat}

theorem ptpTx_of_unused (hp : bitOf m.tb.ports p = false) (kind : PtpTx) : ptpTx p kind a m = m := if_pos (by simp [hp])

theorem ptpTx_pdelayReq (hp : bitOf m.tb.ports p = true) : ptpTx p .pdelayReq a m = ptpOut p .pdelayReq none a (reselect m) :=
  if_neg (by simp [hp])

theorem ptpTx_announce (hp : bitOf m.tb.ports p = true) :
    ptpTx p .announce a m =
      if (reselect m).tb.ptp.isMaster then ptpOut p .announce (some (ownAnnounce (reselect m) p)) a (reselect m) else reselect m :=
  if_neg (by simp [hp])

theorem ptpTx_sync (hp : bitOf m.tb.ports p = true) :
    ptpTx p .sync a m = if (reselect m).tb.ptp.isMaster then ptpOut p .sync none a (reselect m) else reselect m :=
  if_neg (by simp [hp])

end PtpSent

/-- Settles O41: a message received acts where the port takes it in its domain, one sent where the port is in use, and each kind has its own lemma. -/
theorem ptpMessagesComplete : Obligations.PtpMessagesComplete := by
  unfold Obligations.PtpMessagesComplete
  refine ⟨fun p x a s up hp ht hu hm => ?announce, fun p x src seq o rx c li s up hp ht hu hf => ?syncTwoStep,
    fun p x src seq o rx c li s up hp ht hu hf => ?syncOneStep, fun p x src seq o c y s up hp ht hu hy hsrc hseq => ?followUp,
    fun p x seq rx s up hp ht hu => ?pdelayReq, fun p x seq t2 rx c y s up hp ht hu hy hseq => ?respOneStep,
    fun p x seq t2 rx c y s up hp ht hu hy hseq => ?respTwoStep, fun p x seq t2 t3 t4 c d y s up hp ht hu hy hseq hresp => ?respFollowUp,
    fun p x a s up h => ?discarded, fun p a s up hp hu => ?pdelayReqSent, fun p a s up hp hu hmaster => ?announceSent,
    fun p a s up hp hu hmaster => ?syncSent, fun p a s up hp hu hslave => ?noAnnounce, fun p a s up hp hu hslave => ?noSync,
    fun p a s up hp hu => ?pdelayReqUnused, fun p a s up hp hu => ?announceUnused, fun p a s up hp hu => ?syncUnused⟩
  case discarded => exact congrArg Host.Outcome.next (run_onPort_of_idle (ptpRx_of_discarded h))
  all_goals refine congrArg Host.Outcome.next ((run_onPort_of_up up hp _).trans (congrArg s.to ?_))
  case announce => exact ptpRx_announce_first ⟨ht, rfl, hu⟩ hm
  case syncTwoStep => exact ptpRx_sync_twoStep ⟨ht, rfl, hu⟩ hf
  case syncOneStep => exact ptpRx_sync_oneStep ⟨ht, rfl, hu⟩ hf
  case followUp => exact ptpRx_followUp ⟨ht, rfl, hu⟩ hy hsrc hseq
  case pdelayReq => exact ptpRx_pdelayReq ⟨ht, rfl, hu⟩
  case respOneStep => exact ptpRx_pdelayResp_oneStep ⟨ht, rfl, hu⟩ hy hseq
  case respTwoStep => exact ptpRx_pdelayResp_twoStep ⟨ht, rfl, hu⟩ hy hseq
  case respFollowUp => exact ptpRx_pdelayRespFollowUp ⟨ht, rfl, hu⟩ hy hseq hresp
  case pdelayReqSent => exact ptpTx_pdelayReq hu
  case announceSent => exact (ptpTx_announce hu).trans (if_pos hmaster)
  case syncSent => exact (ptpTx_sync hu).trans (if_pos hmaster)
  case noAnnounce => exact (ptpTx_announce hu).trans (if_neg (by simp [hslave]))
  case noSync => exact (ptpTx_sync hu).trans (if_neg (by simp [hslave]))
  case pdelayReqUnused => exact ptpTx_of_unused hu _
  case announceUnused => exact ptpTx_of_unused hu _
  case syncUnused => exact ptpTx_of_unused hu _

/-! ### The accesses to the setup window and the errors of on-chip SRAM (R417–R431) -/

section SetupWindow
variable {m : Mach} {s : State} {o off be : Nat} {v : Word}

/-- A row that needs the supply and no reset alone runs its meaning there, the Stewards held or not. -/
theorem run_of_alive (ha : s.start.alive = true) (f : Mach → Mach) : s.run (fun m => if m.alive then f m else m) = s.to (f s.start) :=
  congrArg s.to (if_pos ha)

theorem hostWriteReg_of_bad (ns : Nat) (h : o % 4 ≠ 0 ∨ be ≠ 15) : hostWriteReg ns o be v m = (m.raise F.devStatusBadAccess).post 0x0E04 [o] :=
  if_pos h

theorem hostWriteReg_of_word (ns : Nat) (h : o % 4 = 0) : hostWriteReg ns o 15 v m = writeWord ns (decodeOff m o) v.toNat m :=
  if_neg (by simp [h])

/-- An access that is refused changes no bit (R417, R422). -/
theorem changesReserved_of_bad (h : o % 4 ≠ 0 ∨ be ≠ 15) : changesReserved o be v m = false := by
  obtain hoff | hbe := h
  · simp [changesReserved, hoff]
  · simp [changesReserved, hbe]

/-- A register write that changes no reserved bit is carried out (R420, R422). -/
theorem exec_registerWrite_of_kept (ha : s.start.alive = true) (hr : changesReserved o be v s.m = false) :
    exec (.registerWrite o be v) s = .next (s.to (hostWriteReg (writeNs s.start) o be v s.start)) :=
  (if_neg (by simp [hr])).trans (congrArg Host.Outcome.next (run_of_alive ha fun m => hostWriteReg (writeNs m) o be v m))

theorem exec_lockSet_of_lock (ha : s.start.alive = true) (hl : isLock (decodeOff s.start o) = true) :
    exec (.lockSet o) s = .next (s.to (writeWord 0 (decodeOff s.start o) 1 s.start)) :=
  congrArg (fun m => Host.Outcome.next (s.to m)) (if_pos (Bool.and_eq_true_iff.2 ⟨ha, hl⟩))

theorem exec_lockSet_of_other (hl : isLock (decodeOff s.start o) = false) : exec (.lockSet o) s = .next (s.to s.start) :=
  congrArg (fun m => Host.Outcome.next (s.to m)) (if_neg (ne_true_of_eq_false (Bool.and_eq_false_iff.2 (.inr hl))))

theorem exec_hostEnable_of_kept {l : List Host.Cell} (ha : s.start.alive = true) (hr : changesReserved 0x404 15 v s.m = false) :
    exec (.hostEnable v l) s = .next (s.to (writeWord 0 0x404 v.toNat { s.start with hostMem := hostStores s.start.hostMem l })) :=
  (if_neg (by simp [hr])).trans
    (congrArg Host.Outcome.next (run_of_alive ha fun m => writeWord 0 0x404 v.toNat { m with hostMem := hostStores m.hostMem l }))

/-- GO: DBG_MDIO written whole where the window is decoded (R418). -/
def goWrite (v : Word) (m : Mach) : Mach := if m.inState [.boot, .recovery] || m.dev.test then m else writeWord 0 0x440C v.toNat m

theorem goWrite_of_decoded (hs : m.inState [.boot, .recovery] = false) (ht : m.dev.test = false) : goWrite v m = writeWord 0 0x440C v.toNat m :=
  if_neg (by simp [hs, ht])

theorem goWrite_of_undecoded (h : m.inState [.boot, .recovery] = true ∨ m.dev.test = true) : goWrite v m = m :=
  if_pos (Bool.or_eq_true_iff.2 h)

theorem exec_go_of_kept (up : Up s) (hr : changesReserved 0x440C 15 v s.m = false) : exec (.go v) s = .next (s.to (goWrite v s.start)) :=
  (if_neg (by simp [hr])).trans (congrArg Host.Outcome.next (run_whenAlive_of_up up (goWrite v)))

/-- A read of one byte touches the one word that holds it (R417). -/
theorem hostRead_one : hostRead o 1 m = hostReadWord m (o - o % 4) := by
  have hone : (o % 4 + 1 + 3) / 4 = 1 := by omega
  simp [hostRead, hone]

theorem exec_sramEccError_of_served {r a : Nat} {fixed : Bool} {l : Option Nat} (ha : s.start.alive = true)
    (hserved : s.m.pwr.held = false ∨ l = none ∨ fixed = true) :
    exec (.sramEccError r a fixed l) s = .next (s.to (eccError r a fixed l s.start)) := by
  have hacts : (s.start.alive && !(s.start.pwr.held && l.isSome && !fixed)) = true := by
    obtain hheld | hl | hfixed := hserved
    · simp [ha, hheld]
    · simp [ha, hl]
    · simp [ha, hfixed]
  exact congrArg (fun m => Host.Outcome.next (s.to m)) (if_pos hacts)

/-- An uncorrectable error in a word of a lane has no effect while the Stewards are held (R62, R443). -/
theorem exec_sramEccError_of_held {r a l : Nat} (hh : s.m.pwr.held = true) : exec (.sramEccError r a false (some l)) s = .next (s.to s.start) := by
  have hstays : ¬(s.start.alive && !(s.start.pwr.held && (some l).isSome && !false)) = true := by simp [hh]
  exact congrArg (fun m => Host.Outcome.next (s.to m)) (if_neg hstays)

end SetupWindow

/-- Settles O59: each row acts in a device with supply out of reset; a write is carried out where it changes no reserved bit, and the other clauses are the branches of the row's meaning. -/
theorem setupWindowStepsComplete : Obligations.SetupWindowStepsComplete := by
  unfold Obligations.SetupWindowStepsComplete
  refine ⟨fun o be v s ha h => ?badWrite, fun o v s ha ho hr => ?write, fun o s ha hl => exec_lockSet_of_lock ha hl, fun o s _ hl => exec_lockSet_of_other hl,
    fun ns s ha => ?snap, fun v l s ha hr => exec_hostEnable_of_kept ha hr, fun v s up hs ht hr => ?go, fun v s up h hr => ?goUndecoded,
    fun o u s ha => ?read, fun r a l s ha => ?corrected, fun r a l s ⟨ha, hh⟩ => ?inLane, fun r a l s _ hh => exec_sramEccError_of_held hh,
    fun r a s ha => ?elsewhere⟩
  case badWrite => rw [exec_registerWrite_of_kept ha (changesReserved_of_bad h), hostWriteReg_of_bad _ h]
  case write => rw [exec_registerWrite_of_kept ha hr, hostWriteReg_of_word _ ho]
  case snap => exact congrArg Host.Outcome.next (run_of_alive ha (snapTime ns))
  case go => rw [exec_go_of_kept up hr, goWrite_of_decoded hs ht]
  case goUndecoded => rw [exec_go_of_kept up hr, goWrite_of_undecoded h]
  case read =>
    exact congrArg Host.Outcome.next ((run_of_alive ha fun m => hostRead o 1 (u.foldl upsetWord m)).trans (congrArg s.to hostRead_one))
  case corrected => exact exec_sramEccError_of_served ha (.inr (.inr rfl))
  case inLane => exact exec_sramEccError_of_served ha (.inl hh)
  case elsewhere => exact exec_sramEccError_of_served ha (.inr (.inl rfl))

end Sys2Proof.Machine
end

section
/-! Proofs of the family `08_host_rings.md`: what every step keeps of the output balls, a device without supply, what posting a completion touches, the checks and the turn of a command, the housekeeping commands, and the rows of the ring service (R239–R270, R292, R294, R376, R382, R400, R429). -/
namespace Sys2Proof.Machine

/-! ### The levels of the output balls (R270, R294, R376, R382, R400, R429) -/

section Balls
variable {m : Mach} {n cnt : Nat} {f : Nat → Bool}

/-- A word spelled out bit by bit reads back its bits. -/
theorem bitOf_bitsToNat (l : List Bool) (n : Nat) : bitOf (bitsToNat l) n = l.getD n false := by
  induction l generalizing n with
  | nil => simp [bitsToNat]
  | cons b bs ih =>
    have hcons : bitsToNat (b :: bs) = b2n b + 2 * bitsToNat bs := rfl
    have hbit : b2n b < 2 := by cases b <;> decide
    have hlow : bitsToNat (b :: bs) % 2 = b2n b := by omega
    have hhigh : bitsToNat (b :: bs) / 2 = bitsToNat bs := by omega
    cases n with
    | zero =>
      rw [bitOf_eq_testBit, Nat.testBit_zero, hlow]
      cases b <;> rfl
    | succ n => rw [bitOf_eq_testBit, Nat.testBit_add_one, hhigh, ← bitOf_eq_testBit, ih]; rfl

/-- A bit of a mask is on exactly where it is counted and its condition holds. -/
theorem bitOf_maskOf (cnt : Nat) (f : Nat → Bool) (n : Nat) : bitOf (maskOf cnt f) n = (decide (n < cnt) && f n) := by
  rw [maskOf, bitOf_bitsToNat, List.getD_eq_getElem?_getD, List.getElem?_map]
  by_cases h : n < cnt
  · simp [h]
  · simp [h]

/-- A mask whose condition holds nowhere is zero. -/
theorem maskOf_eq_zero (h : ∀ n, f n = false) : maskOf cnt f = 0 := by
  refine Nat.eq_of_testBit_eq fun n => ?_
  rw [← bitOf_eq_testBit, bitOf_maskOf, h, Bool.and_false, Nat.zero_testBit]

/-- The interlock of a leg never lets both sides on (R376). -/
theorem legLevels_apart (c : PwmCh) : ¬((legLevels c).1 = true ∧ (legLevels c).2 = true) := by
  cases hh : c.h <;> simp [legLevels, hh]

/-- The two sides of a PWM leg are never on together (R376). -/
theorem pwmLevel_apart (m : Mach) (n : Nat) : ¬(pwmLevel m .high n = true ∧ pwmLevel m .low n = true) := by
  rintro ⟨hh, hl⟩
  simp only [pwmLevel, Bool.and_eq_true] at hh hl
  exact legLevels_apart _ ⟨hh.2, hl.2⟩

/-- The two sides of a Lantern driver are never on together: the refresh pulse alone drives the low side while the leg is high, and it cuts the high side (R376, R384). -/
theorem lanLevel_apart (m : Mach) (n : Nat) : ¬(lanLevel m .high n = true ∧ lanLevel m .low n = true) := by
  rintro ⟨hh, hl⟩
  simp only [lanLevel, Bool.and_eq_true, Bool.or_eq_true, beq_iff_eq] at hh hl
  obtain ⟨-, ⟨hleg, -⟩, hnone⟩ := hh
  obtain ⟨-, hlow | ⟨-, hpulse⟩⟩ := hl
  · exact legLevels_apart _ ⟨hleg, hlow⟩
  · rw [hnone] at hpulse; cases hpulse

/-- A unit drives its outputs only in a situation of R294. -/
theorem drivesOutputs_of_mayDrive (h : mayDrive m = true) : m.drivesOutputs := by
  unfold mayDrive at h
  split at h
  · next hr hs => exact .inl ⟨hr, hs⟩
  · next hr hs => exact .inr (.inl ⟨hr, .inl hs⟩)
  · next hr hs => exact .inr (.inl ⟨hr, .inr hs⟩)
  · next hr hs =>
    rw [Bool.not_eq_true', Bool.or_eq_false_iff] at h
    exact .inr (.inr ⟨hr, hs, h⟩)
  · cases h

theorem driving_of_not_drivesOutputs (h : ¬m.drivesOutputs) : driving m = false := by
  have hm : mayDrive m = false := Bool.eq_false_iff.2 fun hd => h (drivesOutputs_of_mayDrive hd)
  simp [driving, hm]

theorem pwmLevel_of_not_driving (h : driving m = false) (x : Side) (n : Nat) : pwmLevel m x n = false := by simp [pwmLevel, h]
theorem lanLevel_of_not_driving (h : driving m = false) (x : Side) (n : Nat) : lanLevel m x n = false := by simp [lanLevel, h]

/-- A channel that drives a Lantern driver has no PWM output (R382). -/
theorem pwmLevel_of_lantern (h : onLantern m n = true) (x : Side) : pwmLevel m x n = false := by simp [pwmLevel, h]
/-- A Lantern driver whose LAN_EN is clear is off (R382). -/
theorem lanLevel_of_no_lantern (h : onLantern m n = false) (x : Side) : lanLevel m x n = false := by simp [lanLevel, h]

/-- The output balls that follow from the state are in order, whatever the state: each clause is read off the level of its ball. -/
theorem settle_ballsOk (m : Mach) : (settle m).BallsOk where
  legs n := by
    simp only [settle, pinsOf, bitOf_maskOf, Bool.and_eq_true]
    exact ⟨fun h => pwmLevel_apart m n ⟨h.1.2, h.2.2⟩, fun h => lanLevel_apart m n ⟨h.1.2, h.2.2⟩⟩
  driven h := by
    have hd : driving m = false := driving_of_not_drivesOutputs h
    exact ⟨maskOf_eq_zero (pwmLevel_of_not_driving hd _), maskOf_eq_zero (pwmLevel_of_not_driving hd _),
      maskOf_eq_zero (lanLevel_of_not_driving hd _), maskOf_eq_zero (lanLevel_of_not_driving hd _)⟩
  lantern n hn := by
    have hon : onLantern m n = bitOf ((settle m).fld F.lanCtrlLanEn) n := by simp [onLantern, hn, Mach.fld]
    rw [← hon]
    simp only [settle, pinsOf, bitOf_maskOf]
    exact ⟨fun h => by simp [pwmLevel_of_lantern h], fun h => by simp [lanLevel_of_no_lantern h]⟩
  safeN h := by
    have hs : safeNLevel m = true := h
    simpa [safeNLevel, Mach.inState] using And.left (Bool.and_eq_true_iff.1 hs)
  safety h := by
    have hoff : safetyLive m = false := by
      simp only [settle_dev] at h
      rcases h with h | h | h <;> simp [safetyLive, Mach.inState, h]
    simp [settle, pinsOf, hoff]
  hrdy h := by
    have hr : hrdyLevel m = true := h
    simp only [hrdyLevel, Bool.and_eq_true] at hr
    exact hr.1.1

end Balls

/-! ### Every row is a meaning after which the balls settle -/

/-- A row guarded by the reserved bits of a write either stops, or runs its meaning (R422). -/
theorem run_of_guarded {b : Bool} {x : Fault} {s t : State} {f : Mach → Mach}
    (h : (if b then Host.Outcome.fault x else .next (s.run f) : Host.Outcome State Fault Refusal) = .next t) : t = s.run f := by
  cases b
  · exact (Host.Outcome.next.inj h).symm
  · cases h

/-- A command that answers a next state has run a meaning on the device: no row sets the output balls by itself. -/
theorem exec_next_run {c : Instr} {s t : State} (h : exec c s = .next t) : ∃ f, t = s.run f := by
  cases c
  case registerWrite | hostEnable | go | luwinWrite => exact ⟨_, run_of_guarded h⟩
  all_goals exact ⟨_, (Host.Outcome.next.inj h).symm⟩

/-- Settles O6: a step on an empty queue changes nothing, and any other ends with the balls settled, which puts them in order whatever the state. -/
theorem everyStepKeepsTheBallsOk : Obligations.EveryStepKeepsTheBallsOk := by
  unfold Obligations.EveryStepKeepsTheBallsOk
  intro s t hok hstep
  unfold step at hstep
  cases hq : s.pending with
  | nil =>
    rw [hq] at hstep
    cases hstep
    exact hok
  | cons c rest =>
    rw [hq] at hstep
    obtain ⟨f, rfl⟩ := exec_next_run hstep
    exact settle_ballsOk _

/-! ### A device without supply (R239, R436–R441)

Every row outside the thirteen asks first for a device that is up, for one whose networks or measurement work, or for rings that are served: none of these holds in OFF or DORMANT. -/

section Unsupplied

/-- The device has no supply (R436, R438). -/
def Mach.Unsupplied (m : Mach) : Prop := m.dev.state = .off ∨ m.dev.state = .dormant

variable {m : Mach} {s : State} {f : Mach → Mach}

theorem alive_of_unsupplied (h : m.Unsupplied) : m.alive = false := by
  rcases h with h | h <;> simp [Mach.alive, Mach.inState, h]

theorem working_of_unsupplied (h : m.Unsupplied) : m.working = false := by
  rcases h with h | h <;> simp [Mach.working, Mach.inState, h]

theorem measures_of_unsupplied (h : m.Unsupplied) : m.measures = false := by
  rcases h with h | h <;> simp [Mach.measures, Mach.inState, h]

theorem service_of_unsupplied (h : m.Unsupplied) : m.service = false := by
  simp [Mach.service, Mach.hostReach, alive_of_unsupplied h]

theorem fetchable_of_unsupplied (h : m.Unsupplied) (r : Nat) : fetchable r m = false := by
  simp [fetchable, alive_of_unsupplied h]

theorem changesReserved_of_unsupplied (h : m.Unsupplied) (off be : Nat) (v : Word) : changesReserved off be v m = false := by
  simp [changesReserved, alive_of_unsupplied h]

/-- What is done only in a device that is up is not done. -/
theorem ite_alive_of_unsupplied (h : m.Unsupplied) {x : Mach} : (if m.alive then x else m) = m := if_neg (by simp [alive_of_unsupplied h])

theorem whenAlive_of_unsupplied (h : m.Unsupplied) : whenAlive f m = m := if_neg (by simp [alive_of_unsupplied h])

theorem whenWorking_of_unsupplied (h : m.Unsupplied) : whenWorking f m = m := if_neg (by simp [working_of_unsupplied h])

theorem onLane_of_unsupplied (h : m.Unsupplied) {l : Nat} : onLane l f m = m := by simp [onLane, whenAlive_of_unsupplied h]

theorem onPort_of_unsupplied (h : m.Unsupplied) {p : Nat} : onPort p f m = m := by simp [onPort, whenAlive_of_unsupplied h]

theorem onPath_of_unsupplied (h : m.Unsupplied) {p : Nat} : onPath p f m = m := by simp [onPath, whenAlive_of_unsupplied h]

theorem pairMsg_of_unsupplied (h : m.Unsupplied) {p typ : Nat} {b : List Byte} {g : Nat → List Byte → Mach → Mach} : pairMsg p typ b g m = m :=
  if_pos (by simp [alive_of_unsupplied h])

theorem heartbeatRx_of_unsupplied (h : m.Unsupplied) {p q : Nat} {b : List Byte} : heartbeatRx p b q m = m :=
  if_pos (by simp [alive_of_unsupplied h])

theorem reportRow_of_unsupplied (h : m.Unsupplied) {l : Nat} {b : List Byte} {a z : Int} : reportRow l b a z m = m :=
  if_neg (by simp [alive_of_unsupplied h])

theorem rstPin_of_unsupplied (h : m.Unsupplied) : rstPin m = m :=
  if_pos (by rcases h with h | h <;> simp [Mach.inState, h])

theorem lockstepMismatch_of_unsupplied (h : m.Unsupplied) : lockstepMismatch m = m := if_pos (by simp [alive_of_unsupplied h])

theorem fetchDesc_of_unsupplied (h : m.Unsupplied) {i : Nat → Option CmdInfo} {r slow : Nat} {b buf : List Byte} : fetchDesc i r b buf slow m = m :=
  if_pos (by simp [fetchable_of_unsupplied h])

theorem hostCommand_of_unsupplied (h : m.Unsupplied) {info : CmdInfo} {eff : Cmd → Mach → Mach × Eff} {d : Desc} : hostCommand info eff d m = m :=
  if_pos (by simp [fetchable_of_unsupplied h])

/-- A row whose meaning does nothing leaves the device as it is. -/
theorem next_run_of_idle (hf : f s.start = s.start) :
    (Host.Outcome.next (s.run f) : Host.Outcome State Fault Refusal) = .next (s.to s.start) :=
  congrArg (fun m => Host.Outcome.next (s.to m)) hf

/-- A continuous trigger starts nothing in a device that does not measure (R304). -/
theorem adcContinuousTrigger_of_unsupplied (h : s.start.Unsupplied) (q at_ : Nat) :
    exec (.adcContinuousTrigger q at_) s = .next (s.to s.start) := by
  refine next_run_of_idle ?_
  split
  · exact if_neg (by simp [measures_of_unsupplied h])
  · rfl

/-- A row guarded by the reserved bits of a write that changes none, and whose meaning does nothing. -/
theorem guarded_run_of_idle {b : Bool} {x : Fault} (hb : b = false) (hf : f s.start = s.start) :
    (if b then Host.Outcome.fault x else .next (s.run f) : Host.Outcome State Fault Refusal) = .next (s.to s.start) := by
  subst hb
  exact next_run_of_idle hf

end Unsupplied

/-- Settles O7: the rows fall into families by the guard they ask, and each guard fails in a device without supply; the thirteen that ask none are excluded. -/
theorem deviceWithoutSupplyIgnoresCommands : Obligations.DeviceWithoutSupplyIgnoresCommands := by
  unfold Obligations.DeviceWithoutSupplyIgnoresCommands
  intro c s hoff hc
  have hm : s.m.Unsupplied := hoff
  have h : s.start.Unsupplied := hoff
  cases c
  case vinRise | resetRelease | vinFail | thermalShutdown | thermalRestart | wake | alarmExpiry | lockstepReset | perstN
      | pcieLinkChange | pciePowerState | attnPulseEnd | trgOutEnd => cases hc
  case periodBoundary => exact next_run_of_idle (periodBoundary_of_idle (.inl (alive_of_unsupplied h)))
  case intake => exact next_run_of_idle (intake_of_idle (.inl (alive_of_unsupplied h)))
  case outputCommit | loopOverrun | replacementEval | laneFault | zlLockLost | tbCoastTimeout | ppsiEdge | ptpPortFailover | pllLockDetected
      | pllLockLost | timeCounterDisagree | tbBandEdge | hostReadFault | pairPartnerLost | cutWaitTimeout | copyTimeout | serverChange | svFrame
      | svLostTimeout | trgEdge | ethFrameDeparture | tripLatch | sleep | halt | stepPeriod | stepBlock | resume | releaseAll | newChallenge | submit
      | endLevel | reset | mdioFrameDone | luwinFrameAbandon | haltHoldExpiry | debugLevelExpiry | challengeExpiry | pwrVinLow | pwrThermal
      | bootFromFlash | hostBoot | flashWriteDone | activateReset | quoteSigned | agreeCut =>
    exact next_run_of_idle (whenAlive_of_unsupplied h)
  case hubIdent | zlBlockLockLost | zlTrainFrame | zlTrainTimeout | zlCalRsp | zlCalRetry | zlLinkLoss | zlDelayTrack | zlMarginLow =>
    exact next_run_of_idle (onLane_of_unsupplied h)
  case ptpMessage | ptpMessageTx => exact next_run_of_idle (onPort_of_unsupplied h)
  case pairPathCal | pairPathDown | pairTrainFrame | pairCalReq | pairCalRetry => exact next_run_of_idle (onPath_of_unsupplied h)
  case blockLockAcquired link | trainFrameTx link =>
    cases link with
    | lane l => exact next_run_of_idle (onLane_of_unsupplied h)
    | path p => exact next_run_of_idle (onPath_of_unsupplied h)
  case cut | agree | receipt | forward | journal | jack | posted | copy | safeNote | joinReq | joinAck | joinNak | leave | swap | verified =>
    exact next_run_of_idle (pairMsg_of_unsupplied h)
  case heartbeat => exact next_run_of_idle (heartbeatRx_of_unsupplied h)
  case reportFrame => exact next_run_of_idle (reportRow_of_unsupplied h)
  case ppsoPulse | safetyTelegram | safetyCycle | testPulse | safetyDiscrepancy | soDarkTest | soReadbackFault | safetyTestDue | safetyTestOverdue
      | safetyTelegramTx | safetyTelWatchdog | safetyTelCmpWin | selftestDone | snap | luwinRead | votedFieldRead =>
    exact next_run_of_idle (ite_alive_of_unsupplied h)
  case lockSet | sramEccError => exact next_run_of_idle (if_neg (by simp [alive_of_unsupplied hm]))
  case ethLinkChange | ethUnknownFrame | gooseFrame | gooseRetransmit | gooseTalExpiry | prpSupervisionFrame | prpSupervisionTx | prpNodeForget
      | farTelegram | farLossTimeout | canFrameReceived | canTxAck | canBitError | canBusRecovery | canScheduleEntry | canAutobaudDwell
      | pwmCarrierStart | pwmCompareMatch | deadTimeExpiry | pwmTrigger | bootUv | bootUvRecover | bootstrapRefresh | lanternShort | ethBadFrame
      | canCycleStart | canAutobaudTimeout => exact next_run_of_idle (whenWorking_of_unsupplied h)
  case siphonRequest => exact next_run_of_idle (if_neg (by simp [working_of_unsupplied h]))
  case adcConversionDone => exact next_run_of_idle (if_neg (by simp [measures_of_unsupplied h]))
  case adcContinuousTrigger => exact adcContinuousTrigger_of_unsupplied h _ _
  case doorbellRead => exact next_run_of_idle (if_neg (by simp [service_of_unsupplied h]))
  case descriptorFetch => exact next_run_of_idle (fetchDesc_of_unsupplied h)
  case rstN => exact next_run_of_idle (rstPin_of_unsupplied h)
  case lockstepMismatch => exact next_run_of_idle (lockstepMismatch_of_unsupplied h)
  case registerWrite | hostEnable =>
    exact guarded_run_of_idle (changesReserved_of_unsupplied hm _ _ _) (if_neg (by simp [alive_of_unsupplied hm]))
  case go => exact guarded_run_of_idle (changesReserved_of_unsupplied hm _ _ _) (whenAlive_of_unsupplied h)
  case luwinWrite => exact guarded_run_of_idle (by simp [alive_of_unsupplied hm]) (if_neg (by simp [alive_of_unsupplied hm]))
  all_goals exact next_run_of_idle (hostCommand_of_unsupplied h)

/-! ### What posting a completion leaves of a ring (R244, R248, R256) -/

section Rings
variable {m : Mach} {x : Ring} {q r : Nat}

theorem ring_setRing (m : Mach) (q : Nat) (x : Ring) (r : Nat) :
    (m.setRing q x).ring r = if q = r ∧ q < m.host.rings.length then x else m.ring r := by
  simp only [Mach.ring, Mach.setRing, setAt, List.getD_eq_getElem?_getD, List.getElem?_set]
  by_cases hq : q = r
  · subst hq
    by_cases hl : q < m.host.rings.length
    · simp [hl]
    · simp [hl]
  · simp [hq]

theorem ring_setRing_same (h : q < m.host.rings.length) (x : Ring) : (m.setRing q x).ring q = x := by
  rw [ring_setRing, if_pos ⟨rfl, h⟩]

/-- What posting leaves of a ring: where its completions and results stand, and where its next descriptor does. -/
def Ring.settings (x : Ring) : Nat × Nat × Nat × Nat × Nat := (x.cplE, x.cplAddr, x.resAddr, x.nextSeq, x.cmdCi)

theorem cplE_of_settings {x y : Ring} (h : x.settings = y.settings) : x.cplE = y.cplE := congrArg Prod.fst h
theorem cplAddr_of_settings {x y : Ring} (h : x.settings = y.settings) : x.cplAddr = y.cplAddr := congrArg (·.2.1) h
theorem resAddr_of_settings {x y : Ring} (h : x.settings = y.settings) : x.resAddr = y.resAddr := congrArg (·.2.2.1) h
theorem nextSeq_of_settings {x y : Ring} (h : x.settings = y.settings) : x.nextSeq = y.nextSeq := congrArg (·.2.2.2.1) h
theorem cmdCi_of_settings {x y : Ring} (h : x.settings = y.settings) : x.cmdCi = y.cmdCi := congrArg (·.2.2.2.2) h

/-- A ring replaced by one of the same settings leaves the settings of every ring. -/
theorem settings_setRing (h : x.settings = (m.ring q).settings) : ((m.setRing q x).ring r).settings = (m.ring r).settings := by
  rw [ring_setRing]
  split
  · next hq => rw [h, hq.1]
  · rfl

theorem settings_advanceTerm (n : Nat) (x : Ring) : (advanceTerm n x).settings = x.settings := by
  induction n generalizing x with
  | zero => rfl
  | succ n ih =>
    unfold advanceTerm
    split
    · rw [ih]; rfl
    · rfl

theorem settings_markTerm (seq : Nat) (x : Ring) : (markTerm seq x).settings = x.settings := by
  unfold markTerm
  split
  · exact settings_advanceTerm _ _
  · rfl

/-- Counting a completion moves the counts of its ring alone. -/
theorem settings_countCpl (c : Cpl) (x : Ring) : (countCpl c x).settings = x.settings := by
  unfold countCpl
  dsimp only
  split
  · rfl
  · rw [settings_markTerm]; rfl

theorem ring_hostWrite (m : Mach) (a : Nat) (bs : List Byte) (r : Nat) : (m.hostWrite a bs).ring r = m.ring r := rfl

theorem ring_oweAttention (m : Mach) (b : Bool) (r : Nat) : (m.oweAttention b).ring r = m.ring r := by
  unfold Mach.oweAttention
  split <;> rfl

theorem ring_writeBufs (c : Cpl) (m : Mach) (r : Nat) : (writeBufs c m).ring r = m.ring r := by
  unfold writeBufs Mach.ring
  simp only [writes_host]

theorem ring_postedOf (c : Cpl) (m : Mach) (r : Nat) : (postedOf c m).ring r = m.ring r := by
  unfold Mach.ring
  rw [postedOf_host]

/-- The place in its ring that the next completion takes. -/
def cplSlot (c : Cpl) (m : Mach) : Nat := (m.ring c.ring).cplPi % max (m.ring c.ring).cplE 1

/-- The result slot of a completion written, where it carries one (R257). -/
def writeResult (c : Cpl) (m : Mach) : Mach :=
  if c.slot.isEmpty then m else m.hostWrite ((m.ring c.ring).resAddr + 64 * cplSlot c m) ((c.slot ++ List.replicate 64 0#8).take 64)

/-- The entry of a completion written (R256). -/
def writeCplEntry (c : Cpl) (m : Mach) : Mach :=
  m.hostWrite ((m.ring c.ring).cplAddr + 32 * cplSlot c m) (cplBytes c (phaseOf (m.ring c.ring).cplPi (m.ring c.ring).cplE))

/-- A completion counted in its ring. -/
def countPosted (c : Cpl) (m : Mach) : Mach := m.setRing c.ring { countCpl c (m.ring c.ring) with cplPi := (m.ring c.ring).cplPi + 1 }

/-- A completion is written in four strokes, and attention may be owed: the waiting bytes of its buffer, its result slot, its entry, its counts (R240, R256, R257). -/
theorem writeCpl_eq (c : Cpl) (m : Mach) :
    writeCpl c m = (countPosted c (writeCplEntry c (writeResult c (writeBufs c m)))).oweAttention
      (c.status != stACCEPTED && bitOf c.flags 6 && (writeBufs c m).flag F.hostAttnMaskCpl) := by
  unfold writeCpl countPosted writeCplEntry writeResult cplSlot
  cases c.slot.isEmpty <;> simp only [Bool.false_eq_true, if_false, if_true, ring_hostWrite]

theorem ring_writeResult (c : Cpl) (m : Mach) (r : Nat) : (writeResult c m).ring r = m.ring r := by
  unfold writeResult
  split <;> rfl

theorem settings_countPosted (c : Cpl) (m : Mach) (r : Nat) : ((countPosted c m).ring r).settings = (m.ring r).settings :=
  settings_setRing (settings_countCpl c (m.ring c.ring))

theorem settings_writeCpl (c : Cpl) (m : Mach) (r : Nat) : ((writeCpl c m).ring r).settings = (m.ring r).settings := by
  rw [writeCpl_eq, ring_oweAttention, settings_countPosted, writeCplEntry, ring_hostWrite, ring_writeResult, ring_writeBufs]

theorem settings_drainCpls (q : Nat) (l : List Cpl) (m : Mach) (r : Nat) : ((drainCpls q l m).ring r).settings = (m.ring r).settings := by
  induction l generalizing m with
  | nil => exact settings_setRing rfl
  | cons c cs ih =>
    unfold drainCpls
    split
    · exact settings_setRing rfl
    · rw [ih, ring_postedOf, settings_writeCpl]

theorem settings_postHeld (q : Nat) (m : Mach) (r : Nat) : ((postHeld q m).ring r).settings = (m.ring r).settings := by
  unfold postHeld
  split
  · exact settings_drainCpls _ _ _ _
  · rfl

theorem settings_postCpl (c : Cpl) (m : Mach) (r : Nat) : ((postCpl c m).ring r).settings = (m.ring r).settings :=
  (settings_postHeld _ _ _).trans (settings_setRing (m := m.send (.completion c)) rfl)

theorem settings_modPairRing (f : Ring → Ring) (hf : ∀ x, (f x).settings = x.settings) (q : Nat) (m : Mach) (r : Nat) :
    ((m.modPairRing q f).ring r).settings = (m.ring r).settings := by
  unfold Mach.modPairRing
  split
  · rfl
  · exact settings_setRing (hf _)

theorem settings_mirrorCpl (c : Cpl) (m : Mach) (r : Nat) : ((mirrorCpl c m).ring r).settings = (m.ring r).settings := by
  unfold mirrorCpl
  dsimp only
  split <;> exact settings_modPairRing _ (settings_countCpl c) _ _ _

/-- A completion of a command leaves the settings of every ring, whoever posts it (R256, R292). -/
theorem settings_postFor (c : Cmd) (f : Fin) (n : Nat) (m : Mach) (r : Nat) : ((postFor c f n m).ring r).settings = (m.ring r).settings := by
  obtain h | ⟨y, -, h⟩ | ⟨y, -, h⟩ := postFor_cases c f n m
  · rw [h]
  · rw [h, settings_mirrorCpl]
  · rw [h, settings_postCpl]

end Rings

/-! ### Where posting a completion writes (R240, R243, R256–R258) -/

section Posting
variable {m m' m'' : Mach} {r : Nat} {c : Cpl}

/-- A byte apart from all that is written is as before. -/
theorem Memory.get_write_outside (bs : List Byte) (a i : Nat) {l : List Host.Cell} (w : Memory.wf l = true) (h : i < a ∨ a + bs.length ≤ i) :
    Memory.get (Memory.write l a bs) i = Memory.get l i := by
  induction bs generalizing a l with
  | nil => rfl
  | cons b bs ih =>
    rw [List.length_cons] at h
    have hi : i ≠ a := by omega
    have hrest : i < a + 1 ∨ a + 1 + bs.length ≤ i := by omega
    exact (ih (a + 1) (Memory.put_wf a b w) hrest).trans ((Memory.get_put a b i w).trans (if_neg hi))

/-- An address that lies in no entry of the completion ring, in no slot of the result area of a ring, and in no buffer whose bytes wait for the host. -/
def Mach.spares (m : Mach) (r x : Nat) : Prop :=
  (∀ i, i < (m.ring r).cplE → (x < (m.ring r).cplAddr + 32 * i ∨ (m.ring r).cplAddr + 32 * i + 32 ≤ x)
    ∧ (x < (m.ring r).resAddr + 64 * i ∨ (m.ring r).resAddr + 64 * i + 64 ≤ x))
  ∧ ∀ w ∈ m.host.bufHeld, x < w.addr ∨ w.addr + w.bytes.length ≤ x

/-- From one device to the next, host memory keeps its form and every byte that completions of the ring spare; the ring keeps its settings, and no buffer begins to wait. -/
structure PostsWithin (r : Nat) (m m' : Mach) : Prop where
  wf : Memory.wf m.hostMem = true → Memory.wf m'.hostMem = true
  get : Memory.wf m.hostMem = true → ∀ x, m.spares r x → Memory.get m'.hostMem x = Memory.get m.hostMem x
  settings : (m'.ring r).settings = (m.ring r).settings
  waiting : ∀ w ∈ m'.host.bufHeld, w ∈ m.host.bufHeld

theorem PostsWithin.spares (h : PostsWithin r m m') {x : Nat} (hx : m.spares r x) : m'.spares r x := by
  obtain ⟨hring, hbuf⟩ := hx
  refine ⟨?_, fun w hw => hbuf w (h.waiting w hw)⟩
  rw [cplE_of_settings h.settings, cplAddr_of_settings h.settings, resAddr_of_settings h.settings]
  exact hring

theorem PostsWithin.trans (h : PostsWithin r m m') (h' : PostsWithin r m' m'') : PostsWithin r m m'' where
  wf w := h'.wf (h.wf w)
  get w x hx := (h'.get (h.wf w) x (h.spares hx)).trans (h.get w x hx)
  settings := h'.settings.trans h.settings
  waiting w hw := h.waiting w (h'.waiting w hw)

/-- An update that writes no host memory. -/
theorem PostsWithin.of_memory_kept (hmem : m'.hostMem = m.hostMem) (hset : (m'.ring r).settings = (m.ring r).settings)
    (hbuf : ∀ w ∈ m'.host.bufHeld, w ∈ m.host.bufHeld) : PostsWithin r m m' where
  wf w := by rwa [hmem]
  get _ x _ := by rw [hmem]
  settings := hset
  waiting := hbuf

/-- Bytes written where no spared address lies. -/
theorem hostWrite_postsWithin {a : Nat} {bs : List Byte} (h : ∀ x, m.spares r x → x < a ∨ a + bs.length ≤ x) : PostsWithin r m (m.hostWrite a bs) where
  wf := Mach.hostWrite_wf m a bs
  get w x hx := Memory.get_write_outside bs a x w (h x hx)
  settings := rfl
  waiting _ hw := hw

theorem setRing_postsWithin {q : Nat} {x : Ring} (h : x.settings = (m.ring q).settings) : PostsWithin r m (m.setRing q x) :=
  .of_memory_kept rfl (settings_setRing h) fun _ hw => hw

theorem oweAttention_postsWithin (b : Bool) : PostsWithin r m (m.oweAttention b) := by
  unfold Mach.oweAttention
  split <;> exact .of_memory_kept rfl rfl fun _ hw => hw

theorem postedOf_postsWithin : PostsWithin r m (postedOf c m) :=
  .of_memory_kept (postedOf_hostMem c m) (congrArg Ring.settings (ring_postedOf c m r)) fun w hw => by rwa [postedOf_host] at hw

/-- Writing buffers that no spared address lies in keeps every spared byte. -/
theorem writes_keep (l : List BufWrite) (m : Mach) (w : Memory.wf m.hostMem = true) :
    Memory.wf (l.foldl (fun m b => m.hostWrite b.addr b.bytes) m).hostMem = true
    ∧ ∀ x, (∀ b ∈ l, x < b.addr ∨ b.addr + b.bytes.length ≤ x) →
        Memory.get (l.foldl (fun m b => m.hostWrite b.addr b.bytes) m).hostMem x = Memory.get m.hostMem x := by
  induction l generalizing m with
  | nil => exact ⟨w, fun _ _ => rfl⟩
  | cons b l ih =>
    obtain ⟨hwf, hget⟩ := ih (m.hostWrite b.addr b.bytes) (Mach.hostWrite_wf m _ _ w)
    refine ⟨hwf, fun x hx => ?_⟩
    obtain ⟨hb, hl⟩ := List.forall_mem_cons.1 hx
    exact (hget x hl).trans (Memory.get_write_outside _ _ _ w hb)

theorem writeBufs_postsWithin : PostsWithin r m (writeBufs c m) where
  wf w := by
    refine (writes_keep _ _ ?_).1
    exact w
  get w x hx := by
    refine (writes_keep _ _ ?_).2 x fun b hb => hx.2 b (List.mem_filter.1 hb).1
    exact w
  settings := congrArg Ring.settings (ring_writeBufs c m r)
  waiting w hw := by
    simp only [writeBufs, writes_host] at hw
    exact (List.mem_filter.1 hw).1

theorem cplBytes_length (c : Cpl) (phase : Bool) : (cplBytes c phase).length = 32 := by simp [cplBytes]

/-- The place of the next completion of a ring is one of its entries. -/
theorem cplSlot_lt (h : 0 < (m.ring c.ring).cplE) : cplSlot c m < (m.ring c.ring).cplE := by
  rw [cplSlot, Nat.max_eq_left h]
  exact Nat.mod_lt _ h

/-- The result slot of a completion is a slot of the result area of its ring (R257). -/
theorem writeResult_postsWithin (he : 0 < (m.ring c.ring).cplE) : PostsWithin c.ring m (writeResult c m) := by
  unfold writeResult
  split
  · exact .of_memory_kept rfl rfl fun _ hw => hw
  · refine hostWrite_postsWithin fun x hx => ?_
    rw [List.length_take_of_le (by simp)]
    exact (hx.1 _ (cplSlot_lt he)).2

/-- The entry of a completion is an entry of its ring (R256). -/
theorem writeCplEntry_postsWithin (he : 0 < (m.ring c.ring).cplE) : PostsWithin c.ring m (writeCplEntry c m) := by
  refine hostWrite_postsWithin fun x hx => ?_
  rw [cplBytes_length]
  exact (hx.1 _ (cplSlot_lt he)).1

theorem countPosted_postsWithin : PostsWithin r m (countPosted c m) := by
  refine setRing_postsWithin ?_
  exact settings_countCpl c _

theorem writeCpl_postsWithin (he : 0 < (m.ring c.ring).cplE) : PostsWithin c.ring m (writeCpl c m) := by
  have hbufs : PostsWithin c.ring m (writeBufs c m) := writeBufs_postsWithin
  have hslot := writeResult_postsWithin (c := c) (m := writeBufs c m) (by rwa [cplE_of_settings hbufs.settings])
  have hentry := writeCplEntry_postsWithin (c := c) (m := writeResult c (writeBufs c m)) (by rwa [ring_writeResult, cplE_of_settings hbufs.settings])
  rw [writeCpl_eq]
  exact ((hbufs.trans hslot).trans hentry).trans (countPosted_postsWithin.trans (oweAttention_postsWithin _))

/-- Completions of a ring are posted within it (R258). -/
theorem drainCpls_postsWithin (l : List Cpl) (hl : ∀ c ∈ l, c.ring = r) (he : 0 < (m.ring r).cplE) : PostsWithin r m (drainCpls r l m) := by
  induction l generalizing m with
  | nil => exact setRing_postsWithin rfl
  | cons c cs ih =>
    obtain ⟨rfl, hcs⟩ := List.forall_mem_cons.1 hl
    unfold drainCpls
    split
    · exact (PostsWithin.of_memory_kept rfl rfl fun _ hw => hw : PostsWithin c.ring m (m.raise _)).trans (setRing_postsWithin rfl)
    · have hstep := (writeCpl_postsWithin he).trans (postedOf_postsWithin (c := c))
      exact hstep.trans (ih hcs (by rwa [cplE_of_settings hstep.settings]))

theorem postHeld_postsWithin (h : ∀ c ∈ (m.ring r).held, c.ring = r) : PostsWithin r m (postHeld r m) := by
  unfold postHeld
  split
  · next hgo => exact drainCpls_postsWithin _ h (by simpa using (Bool.and_eq_true_iff.1 hgo).2)
  · exact .of_memory_kept rfl rfl fun _ hw => hw

theorem postCpl_postsWithin (h : ∀ x ∈ (m.ring c.ring).held, x.ring = c.ring) : PostsWithin c.ring m (postCpl c m) := by
  have hsend : PostsWithin c.ring m (m.send (.completion c)) := .of_memory_kept rfl rfl fun _ hw => hw
  have hheld : PostsWithin c.ring (m.send (.completion c)) ((m.send (.completion c)).setRing c.ring { m.ring c.ring with held := (m.ring c.ring).held ++ [c] }) :=
    setRing_postsWithin rfl
  refine (hsend.trans hheld).trans (postHeld_postsWithin ?_)
  rw [ring_setRing]
  split
  · intro x hx
    rcases List.mem_append.1 hx with hx | hx
    · exact h x hx
    · exact congrArg Cpl.ring (List.mem_singleton.1 hx)
  · exact h

/-- The completion of a command (R256). -/
def cplOf (c : Cmd) (f : Fin) (n : Nat) (m : Mach) : Cpl :=
  ⟨c.ring, c.seq, c.op, f.status,
    f.flags + n + (if c.late then cfLATE else 0) + (if f.slot.isEmpty then 0 else cfRESULT) + (if bitOf c.flags 2 then cfATTN else 0),
    f.detail, m.tb.k, f.result, f.slot⟩

theorem postFor_eq (c : Cmd) (f : Fin) (n : Nat) (m : Mach) :
    postFor c f n m =
      if mirrored c m then (if inMemory (cplOf c f n m) (m.pairRings.getD c.ring ringInit) then m else mirrorCpl (cplOf c f n m) m)
      else if inMemory (cplOf c f n m) (m.ring c.ring) then m else postCpl (cplOf c f n m) m := rfl

/-- A completion of a command is in memory already, is the other unit's, or is posted after those its ring holds (R256, R258, R292). -/
theorem postFor_memory {c : Cmd} (f : Fin) (n : Nat) (h : ∀ x ∈ (m.ring c.ring).held, x.ring = c.ring) :
    (postFor c f n m).hostMem = m.hostMem ∨ PostsWithin c.ring m (postFor c f n m) := by
  rw [postFor_eq]
  split
  · split
    · exact .inl rfl
    · exact .inl (mirrorCpl_hostMem _ _)
  · split
    · exact .inl rfl
    · exact .inr (postCpl_postsWithin (c := cplOf c f n m) h)

theorem lateCmd_ring (c : Cmd) : (lateCmd c).ring = c.ring := by
  unfold lateCmd
  split <;> rfl

/-- The device in which a command is no longer listed as accepted. -/
def unlist (c : Cmd) (m : Mach) : Mach :=
  { m with host := { m.host with accepted := m.host.accepted.filter fun p => !(p.cmd.ring == c.ring && p.cmd.seq == c.seq) } }

theorem complete_eq (c : Cmd) (f : Fin) (m : Mach) : complete c f m = postFor (lateCmd c) f 0 (unlist c m) := rfl

/-- A terminal completion takes its command off the accepted list, which lies in no host memory, and is then posted (R256). -/
theorem complete_memory {c : Cmd} (f : Fin) (h : ∀ x ∈ (m.ring c.ring).held, x.ring = c.ring) :
    (complete c f m).hostMem = m.hostMem ∨ PostsWithin c.ring m (complete c f m) := by
  have hlisted : PostsWithin c.ring m (unlist c m) := .of_memory_kept rfl rfl fun _ hw => hw
  have hmem := postFor_memory (c := lateCmd c) (m := unlist c m) f 0
  rw [lateCmd_ring] at hmem
  rw [complete_eq]
  exact (hmem h).imp id hlisted.trans

end Posting

/-- Settles O8: `PostsWithin` follows a posting write by write; a completion that is not posted writes nothing. -/
theorem postingStaysInItsRing : Obligations.PostingStaysInItsRing := by
  unfold Obligations.PostingStaysInItsRing
  intro c f m hwf hown
  obtain hmem | hpost := complete_memory f hown
  · rw [hmem]
    exact ⟨hwf, fun _ _ _ => rfl⟩
  · exact ⟨hpost.wf hwf, fun x hring hbuf => hpost.get hwf x ⟨hring, hbuf⟩⟩

/-! ### Of the registers, posting a completion touches CPL_STALL alone (R258) -/

section Registers
variable {g : FieldRef} {m : Mach}

/-- A value that is not the default, written at another key, leaves what a key reads as, whatever the default it is read with. -/
theorem sget_sput_ne {α : Type} [DecidableEq α] {d d' : Nat → α} {i k : Nat} {a : α} (hi : i ≠ k) (ha : a ≠ d k) (l : List (Nat × α)) :
    sget d' (sput d k a l) i = sget d' l i := by
  induction l with
  | nil => by_cases hlt : i < k <;> simp [sput, sget, ha, hi, hlt]
  | cons p t ih =>
    obtain ⟨j, b⟩ := p
    unfold sput
    split
    · next hk =>
      by_cases hlt : i < k
      · have hij : i < j := Nat.lt_trans hlt hk
        simp [sget, hi, hlt, hij, Nat.ne_of_lt hij]
      · simp [sget, hi, hlt]
    · split
      · next hk =>
        subst hk
        simp [sget, hi]
      · simp [sget, ih]

/-- CPL_STALL raised leaves every other field as it reads. -/
theorem raw_raise_cplStall (h : g.key ≠ F.hostStatusCplStall.key) (m : Mach) : (m.raise F.hostStatusCplStall).reg.raw g = m.reg.raw g := by
  have hput : (m.raise F.hostStatusCplStall).reg = { m.reg with a := sput (fun _ => 0) F.hostStatusCplStall.key 1 m.reg.a } := rfl
  rw [hput]
  unfold RegSt.raw
  simp only [sget_sput_ne (d := fun _ => 0) h (Nat.one_ne_zero)]

theorem raw_drainCpls (h : g.key ≠ F.hostStatusCplStall.key) (r : Nat) (l : List Cpl) (m : Mach) : (drainCpls r l m).reg.raw g = m.reg.raw g := by
  induction l generalizing m with
  | nil => rfl
  | cons c cs ih =>
    unfold drainCpls
    split
    · exact raw_raise_cplStall h m
    · rw [ih, postedOf_reg, writeCpl_reg]

theorem raw_postHeld (h : g.key ≠ F.hostStatusCplStall.key) (r : Nat) (m : Mach) : (postHeld r m).reg.raw g = m.reg.raw g := by
  unfold postHeld
  split
  · exact raw_drainCpls h _ _ _
  · rfl

theorem raw_postCpl (h : g.key ≠ F.hostStatusCplStall.key) (c : Cpl) (m : Mach) : (postCpl c m).reg.raw g = m.reg.raw g :=
  raw_postHeld h _ _

theorem raw_postFor (h : g.key ≠ F.hostStatusCplStall.key) (c : Cmd) (f : Fin) (n : Nat) (m : Mach) : (postFor c f n m).reg.raw g = m.reg.raw g := by
  obtain he | ⟨y, -, he⟩ | ⟨y, -, he⟩ := postFor_cases c f n m
  · rw [he]
  · rw [he, mirrorCpl_reg]
  · rw [he, raw_postCpl h]

theorem raw_complete (h : g.key ≠ F.hostStatusCplStall.key) (c : Cmd) (f : Fin) (m : Mach) : (complete c f m).reg.raw g = m.reg.raw g := by
  rw [complete_eq, raw_postFor h]
  rfl

theorem raw_accepts (h : g.key ≠ F.hostStatusCplStall.key) (s : State) (i : CmdInfo) (d : Desc) : (s.accepts i d).reg.raw g = s.m.reg.raw g := by
  unfold State.accepts acceptNow acceptCmd
  dsimp only
  rw [sendPosted_reg, raw_postFor h]
  rfl

end Registers

/-! ### A command accepted and completed, part by part (R251, R252, R256) -/

section Completed
variable {c : Cmd} {m : Mach} {g : Ring → Ring}

/-- A unit that exchanges with no partner changes its own ring. -/
theorem modRingOf_pair (h : m.pair.exchanging = false) : (m.modRingOf c g).pair = m.pair := by simp [Mach.modRingOf, mirrored_alone h]

/-- The SEQ of a command noted as the last one in effect of its ring (R252). -/
def noteApplied (c : Cmd) (m : Mach) : Mach := m.modRingOf c fun x => { x with applied := c.seq }

/-- The SEQ is noted in a ring of the unit, or in one of the pair (R291). -/
theorem noteApplied_cases (c : Cmd) (m : Mach) : (∃ r x, noteApplied c m = m.setRing r x) ∨ ∃ r f, noteApplied c m = m.modPairRing r f := by
  unfold noteApplied Mach.modRingOf
  split
  · exact .inr ⟨_, _, rfl⟩
  · exact .inl ⟨_, _, rfl⟩

theorem noteApplied_reg (c : Cmd) (m : Mach) : (noteApplied c m).reg = m.reg := by
  obtain ⟨r, x, h⟩ | ⟨r, f, h⟩ := noteApplied_cases c m <;> simp [h]

/-- A command that completes: its update on the device once accepted, its SEQ noted, and its terminal completion posted. -/
theorem completed_m (s : State) (info : CmdInfo) (d : Desc) (f : Fin) (upd : Mach → Mach) :
    (s.completed info d f upd).m = settle (complete (s.held info d) f (noteApplied (s.held info d) (upd (s.accepts info d)))) := rfl

end Completed

/-- Settles O9: a terminal completion changes the device part by part as its posting does, and so does the acceptance before the update. -/
theorem postingLeavesTheDeviceAlone : Obligations.PostingLeavesTheDeviceAlone := by
  unfold Obligations.PostingLeavesTheDeviceAlone
  intro info d f upd s
  dsimp only
  rw [completed_m]
  generalize hu : upd (s.accepts info d) = u
  have hpair : u.pair.exchanging = false → (complete (s.held info d) f (noteApplied (s.held info d) u)).pair = u.pair := fun h => by
    have hn : (noteApplied (s.held info d) u).pair = u.pair := modRingOf_pair h
    rw [complete_pair _ _ _ (by rwa [hn]), hn]
  have hreg : ∀ g : FieldRef, g.key ≠ F.hostStatusCplStall.key →
      (complete (s.held info d) f (noteApplied (s.held info d) u)).reg.raw g = u.reg.raw g := fun g hg => by
    rw [raw_complete hg, noteApplied_reg]
  refine ⟨?_, ?_, ?_, ?_, ?_, ?_, ?_, ?_, hpair, ?_, ?_, ?_, ?_, ?_, ?_, ?_, ?_, ?_, ?_, ?_, ?_, ?_, ?_, ?_, ?_, ?_, ?_, ?_, ?_, ?_, ?_, ?_, ?_, rfl,
    fun g hg => ⟨hreg g hg, raw_accepts hg s info d⟩⟩
  all_goals obtain ⟨r, x, hnoted⟩ | ⟨r, x, hnoted⟩ := noteApplied_cases (s.held info d) u
  all_goals simp +contextual [hnoted]

/-! ### A descriptor taken from its ring (R248, R250, R251, R450) -/

section Fetch
variable {info : CmdInfo} {eff : Cmd → Mach → Mach × Eff} {c : Cmd} {d : Desc} {s : State} {m m0 : Mach} {resv st v : Nat} {acc : Mach → Mach}

/-- The device that has taken a descriptor of a ring in this period (R250). -/
def taking (r : Nat) (m : Mach) : Mach := { m with host := { m.host with fetched := r :: m.host.fetched } }

/-- A descriptor of an unknown opcode is rejected (R251). -/
theorem takeDesc_of_unknown : takeDesc none resv c acc m0 =
    rejectCmd c stMALFORMED (if c.seq = (m0.ring c.ring).nextSeq then 0 else (m0.ring c.ring).nextSeq % 2 ^ 32) (taking c.ring m0) := rfl

/-- A descriptor that fails a check is rejected with it (R251). -/
theorem takeDesc_of_failed (hc : checkCmd info resv c (taking c.ring m0) = some (st, v)) :
    takeDesc (some info) resv c acc m0 = rejectCmd c st v (taking c.ring m0) := by
  unfold taking at *
  simp only [takeDesc, hc]

/-- A command that the ROM does not serve, where it serves, is rejected (R450). -/
theorem takeDesc_of_romRefused (hc : checkCmd info resv c (taking c.ring m0) = none) (hrom : romRefuses c (taking c.ring m0) = true) :
    takeDesc (some info) resv c acc m0 = rejectCmd c stSTATE 0 (taking c.ring m0) := by
  unfold taking at *
  simp only [takeDesc, hc, hrom, if_true]

/-- A command that passes its checks in a unit that serves the rings of a pair that exchanges waits for JACK (R292). -/
theorem takeDesc_of_journalled (hc : checkCmd info resv c (taking c.ring m0) = none) (hrom : romRefuses c (taking c.ring m0) = false)
    (hx : m0.pair.exchanging = true) (hs : m0.pair.server = true) (hr : m0.pair.role ≠ .shadow) :
    takeDesc (some info) resv c acc m0 =
      (let m1 := consume c.ring (taking c.ring m0); sendJournal c { m1 with host := { m1.host with jackWait := m1.host.jackWait ++ [c] } }) := by
  unfold taking at *
  simp [takeDesc, hc, hrom, hx, hs, hr]

theorem hostCommand_of_not_fetchable (hf : fetchable d.ring m = false) : hostCommand info eff d m = m :=
  if_pos (congrArg (fun b => !b) hf)

theorem hostCommand_of_fetchable (hf : fetchable d.ring m = true) :
    hostCommand info eff d m = takeDesc (some info) d.resv (d.cmd info.op) (actNow info eff (d.cmd info.op)) m := by
  have hring : fetchable (d.cmd info.op).ring m = true := hf
  exact if_neg (by simp [hring])

/-- Where a descriptor of its ring is to be fetched, a command row whose descriptor fails a check rejects it (R251). -/
theorem run_hostCommand_of_failed (hf : fetchable d.ring s.start = true)
    (hc : checkCmd info d.resv (d.cmd info.op) (s.fetching d.ring) = some (st, v)) :
    s.run (hostCommand info eff d) = s.to (rejectCmd (d.cmd info.op) st v (s.fetching d.ring)) :=
  congrArg s.to ((hostCommand_of_fetchable hf).trans (takeDesc_of_failed hc))

/-- A SEQ that is not the expected one fails the first check, and its RESULT is the expected one (R248, R251). -/
theorem checkCmd_of_wrongSeq (h : c.seq ≠ (m.ring c.ring).nextSeq) : checkCmd info resv c m = some (stMALFORMED, (m.ring c.ring).nextSeq % 2 ^ 32) :=
  if_pos h

end Fetch

/-! ### The SEQ that a ring expects (R248) -/

section ExpectedSeq
variable {c : Cmd} {m : Mach} {st v : Nat}

theorem nextSeq_reset (r : Nat) : (State.reset.m.ring r).nextSeq = 1 := by
  unfold Mach.ring
  rw [List.getD_eq_getElem?_getD]
  cases h : State.reset.m.host.rings[r]? with
  | none => rfl
  | some x => exact ring_nextSeq_reset (List.mem_of_getElem? h)

/-- A rejection with a SEQ that is not the expected one counts its descriptor as consumed and leaves the expected one (R248). -/
theorem rejectCmd_of_wrongSeq (h : c.seq ≠ (m.ring c.ring).nextSeq) :
    rejectCmd c st v m = postFor c ⟨st, 0, v, 0, []⟩ 1 (m.setRing c.ring { m.ring c.ring with cmdCi := (m.ring c.ring).cmdCi + 1 }) := by
  have hseq : (c.seq == (m.ring c.ring).nextSeq) = false := by simpa using h
  unfold rejectCmd
  simp only [hseq]
  rfl

/-- The expected SEQ and the next descriptor of a ring after a completion of its own, on a ring set before it. -/
theorem settings_postFor_setRing (hr : c.ring < m.host.rings.length) (f : Fin) (n : Nat) (x : Ring) :
    ((postFor c f n (m.setRing c.ring x)).ring c.ring).settings = x.settings := by
  rw [settings_postFor, ring_setRing_same hr]

theorem nextSeq_rejectCmd (hr : c.ring < m.host.rings.length) (h : c.seq = (m.ring c.ring).nextSeq) :
    ((rejectCmd c st v m).ring c.ring).nextSeq = c.seq + 1 := by
  unfold rejectCmd
  dsimp only
  rw [nextSeq_of_settings (settings_postFor_setRing hr _ _ _)]
  simp [h, b2n]

theorem ring_sendPosted (q seq f : Nat) (m : Mach) (r : Nat) : (sendPosted q seq st f m).ring r = m.ring r := by
  unfold Mach.ring
  rw [sendPosted_host]

/-- The acceptance of a command leaves the settings of every ring as the consumption of its descriptor does (R252). -/
theorem settings_acceptCmd (c : Cmd) (f : Nat) (m : Mach) (r : Nat) : ((acceptCmd c f m).ring r).settings = (m.ring r).settings := by
  unfold acceptCmd
  dsimp only
  rw [ring_sendPosted, settings_postFor]
  rfl

theorem nextSeq_acceptNow (hr : c.ring < m.host.rings.length) (h : c.seq = (m.ring c.ring).nextSeq) :
    ((acceptNow c m).ring c.ring).nextSeq = c.seq + 1 := by
  rw [acceptNow, nextSeq_of_settings (settings_acceptCmd c m.tb.k (consume c.ring m) c.ring), consume, ring_setRing_same hr, h]
  rfl

end ExpectedSeq

/-- Settles O10: the wrong SEQ fails the first check of R251, and a rejection moves the expected SEQ only where it was met; posting leaves what it says of every ring (`settings_postFor`). -/
theorem wrongSeqIsConsumedAndRejected : Obligations.WrongSeqIsConsumedAndRejected := by
  unfold Obligations.WrongSeqIsConsumedAndRejected
  refine ⟨nextSeq_reset, fun info eff d s hf hr hseq => ?rejected, fun c m hr hseq => ⟨nextSeq_acceptNow hr hseq, fun st v => nextSeq_rejectCmd hr hseq⟩⟩
  case rejected =>
    have hwrong : (d.cmd info.op).seq ≠ ((s.fetching d.ring).ring (d.cmd info.op).ring).nextSeq := hseq
    have hrow := run_hostCommand_of_failed (eff := eff) hf (checkCmd_of_wrongSeq hwrong)
    rw [rejectCmd_of_wrongSeq hwrong] at hrow
    intro t x c
    have ht : t = s.to (postFor c ⟨0x10, 0, x.nextSeq % 2 ^ 32, 0, []⟩ 1 ((s.fetching d.ring).setRing d.ring { x with cmdCi := x.cmdCi + 1 })) := hrow
    have hset : (t.m.ring d.ring).settings = Ring.settings { x with cmdCi := x.cmdCi + 1 } := by
      rw [ht]
      exact settings_postFor_setRing (c := c) (m := s.fetching d.ring) hr _ _ _
    have hnext := nextSeq_of_settings hset
    have hci := cmdCi_of_settings hset
    exact ⟨ht, hnext, hci, by simp [ht, State.to], by simp [ht, State.to], by simp [ht, State.to],
      by simp [ht, State.to], by simp [ht, State.to]⟩

/-! ### The turn of a command (R252, R253, R292, R468) -/

section Turn
variable {info : CmdInfo} {eff : Cmd → Mach → Mach × Eff} {c : Cmd} {d : Desc} {s : State} {m : Mach}

/-- A command whose state its row does not list completes with REJECT_STATE at its own boundary, with no effect (R251). -/
theorem takeEffect_of_unlisted (hs : m.inState info.states = false) (h : expired c = false) :
    takeEffect info eff c m = settleEff c (m, .done (fin stSTATE)) := by
  have hl : lateCmd c = c := if_neg (by simp [h])
  simp [takeEffect, h, hl, inStates, hs, reject]

/-- A command held for the present boundary has not expired (R253, R254). -/
theorem expired_held (s : State) (info : CmdInfo) (d : Desc) : expired (s.held info d) = false := by simp [expired, State.held]

/-- An earlier command of the ring that has not taken effect at this boundary stands before a command other than CANCEL (R253, R263). -/
theorem ringBlocked_acceptNow_of_earlier (hop : c.op ≠ 0x0F03)
    (h : ∃ p ∈ m.host.accepted, p.cmd.ring = c.ring ∧ p.cmd.seq < c.seq ∧ actedNow p m = false) :
    ringBlocked (listedCmd c m) (acceptNow c m) = true := by
  obtain ⟨p, hp, hring, hseq, hact⟩ := h
  have hact' : actedNow p (acceptNow c m) = false := by simpa [actedNow] using hact
  unfold ringBlocked
  rw [acceptNow_accepted, Bool.and_eq_true, List.any_eq_true]
  exact ⟨by simpa [listedCmd] using hop, p, List.mem_append_left _ hp, by simp [listedCmd, hring, hseq, hact']⟩

/-- A command that waits for its ring, for its launch time, or for the engine is accepted, and no more (R252, R253, R468). -/
theorem actNow_of_waiting (hr : ∀ p ∈ m.host.accepted, p.cmd.ring = c.ring → p.cmd.seq ≠ c.seq)
    (hw : (c.op ≠ 0x0F03 ∧ ∃ p ∈ m.host.accepted, p.cmd.ring = c.ring ∧ p.cmd.seq < c.seq ∧ actedNow p m = false)
      ∨ ownOf c m.tb.k m = none ∨ haltWaits c m = true) :
    actNow info eff c m = acceptNow c m := by
  unfold actNow
  simp only [accCmd_acceptNow hr]
  refine if_pos ?_
  obtain ⟨hop, hp⟩ | hown | hhalt := hw
  · simp [ringBlocked_acceptNow_of_earlier hop hp]
  · simp [listedCmd, hown]
  · have hh : haltWaits (listedCmd c m) (acceptNow c m) = true := by simpa [haltWaits, listedCmd] using hhalt
    simp [hh]

end Turn

/-- Settles O11: a descriptor that is to be fetched meets the checks in the order of `takeDesc`; one that passes, and waits for nothing, is refused by its state alone. -/
theorem firstFailingCheckRejects : Obligations.FirstFailingCheckRejects := by
  unfold Obligations.FirstFailingCheckRejects
  refine ⟨fun info eff d s hf => congrArg s.to (hostCommand_of_not_fetchable hf), fun info eff d s hf st v hc => run_hostCommand_of_failed hf hc,
    fun info eff d s hf hc hrom => ?rom, fun info eff d s hf hrom hc hx hown hr hw hs => ?state⟩
  case rom => exact congrArg s.to ((hostCommand_of_fetchable hf).trans (takeDesc_of_romRefused hc hrom))
  case state =>
    have hdue := hostCommand_of_due (eff := eff) hf hx hrom hc hown hr hw
    exact congrArg s.to (hdue.trans (takeEffect_of_unlisted (by simpa using hs) (expired_held s info d)))

/-- Settles O12: what makes a command wait is found in the device once it is accepted; in a pair that exchanges it waits for JACK before that. -/
theorem commandsOfARingWaitTheirTurn : Obligations.CommandsOfARingWaitTheirTurn := by
  unfold Obligations.CommandsOfARingWaitTheirTurn
  refine ⟨fun info eff d s hf hrom hc hx hr hw => ?waits, fun info eff d s h => hostCommand_journalled h⟩
  case waits =>
    have hpass := takeDesc_of_passed (m0 := s.start) rfl hx hrom hc (actNow info eff (d.cmd info.op))
    exact congrArg s.to ((hostCommand_of_fetchable hf).trans (hpass.trans (actNow_of_waiting hr hw)))

/-! ### The housekeeping commands (R262, R263) -/

section Housekeeping
variable {c : Cmd} {m : Mach} {p : Pending}

theorem effFence_of_free (h : (m.host.accepted.any fun p => decide (p.cmd.order < c.order) && (bitOf (c.f 0 1) 0 || p.cmd.ring == c.ring)) = false) :
    effFence c m = (m, .done (fin stDONE)) := if_neg (by simp [h])

theorem effFence_of_pending (h : (m.host.accepted.any fun p => decide (p.cmd.order < c.order) && (bitOf (c.f 0 1) 0 || p.cmd.ring == c.ring)) = true) :
    effFence c m = (m, .wait) := if_pos h

theorem effCancel_of_waiting (hp : m.findCmd (c.f 0 1) (c.f 8 8) = some p) (he : p.inEffect = false) (hne : p.cmd.ring ≠ c.ring ∨ p.cmd.seq ≠ c.seq) :
    effCancel c m = (complete p.cmd (fin stSUPERSEDED) m, .done (fin stDONE)) := by
  have hother : (p.inEffect || (p.cmd.ring == c.ring && p.cmd.seq == c.seq)) = false := by
    obtain h | h := hne <;> simp [he, h]
  simp [effCancel, hp, hother, okDone]

theorem effCancel_of_inEffect (hp : m.findCmd (c.f 0 1) (c.f 8 8) = some p) (he : p.inEffect = true) :
    effCancel c m = (m, .done (fin stDONEEMPTY)) := by simp [effCancel, hp, he, okEmpty]

theorem effCancel_of_none (hp : m.findCmd (c.f 0 1) (c.f 8 8) = none) : effCancel c m = (m, .done (fin stDONEEMPTY)) := by
  simp [effCancel, hp, okEmpty]

/-- A command taken in this step whose effect waits stays as accepted. -/
theorem run_hostCommand_of_wait {info : CmdInfo} {eff : Cmd → Mach → Mach × Eff} {d : Desc} {s : State} (h : Taken info d s)
    (he : eff (s.held info d) (s.accepts info d) = (s.accepts info d, .wait)) : s.run (hostCommand info eff d) = s.to (s.accepts info d) := by
  have hm := hostCommand_taken (eff := eff) h
  rw [he] at hm
  exact congrArg s.to hm

end Housekeeping

/-- Settles O36: each row owes the equation of its effect on the accepted command; a FENCE that waits leaves the device as accepted. -/
theorem housekeepingCommandsComplete : Obligations.HousekeepingCommandsComplete := by
  unfold Obligations.HousekeepingCommandsComplete
  refine ⟨fun d s h => ?nop, fun d s h hfree => ?free, fun d s h hpend => ?pending, fun d s h p hp he hne => ?cancelled,
    fun d s h p hp he => ?inEffect, fun d s h hp => ?none⟩
  all_goals refine congrArg Host.Outcome.next ?_
  case nop => exact run_hostCommand_of_done h (by simp [effNop, finR])
  case free => exact run_hostCommand_of_done h (effFence_of_free hfree)
  case pending => exact run_hostCommand_of_wait h (effFence_of_pending hpend)
  case cancelled => exact run_hostCommand_of_done h (effCancel_of_waiting hp he hne)
  case inEffect => exact run_hostCommand_of_done h (effCancel_of_inEffect hp he)
  case none => exact run_hostCommand_of_done h (effCancel_of_none hp)

/-! ### The rows of the ring service (R241, R242, R246, R250–R252, R270, R292) -/

section Service
variable {m : Mach} {s : State} {r slow st v : Nat} {b buf : List Byte} {infos : Nat → Option CmdInfo} {info : CmdInfo} {w : HostRead} {a : Nat}

/-- The command that the bytes of a descriptor spell (R247). -/
def fetchedCmd (r : Nat) (b buf : List Byte) : Cmd := (parseDesc r b buf).cmd (fieldLE b 0 2)

/-- What follows the checks of a descriptor fetched with its payload: it is accepted with F the next boundary, plus the periods its transfer is slow (R252). -/
def acceptFetched (r slow : Nat) (b buf : List Byte) (m : Mach) : Mach := acceptCmd (fetchedCmd r b buf) (m.tb.k + 1 + slow) (consume r m)

theorem fetchDesc_of_not_fetchable (hf : fetchable r m = false) : fetchDesc infos r b buf slow m = m := if_pos (by simp [hf])

theorem fetchDesc_of_fetchable (hf : fetchable r m = true) :
    fetchDesc infos r b buf slow m = takeDesc (infos (fieldLE b 0 2)) (parseDesc r b buf).resv (fetchedCmd r b buf) (acceptFetched r slow b buf) m :=
  if_neg (by simp [hf])

/-- A descriptor of a known opcode, where it is to be fetched, is taken with what its row says of it (R250, R264). -/
theorem fetchDesc_of_known (hf : fetchable r m = true) (hi : infos (fieldLE b 0 2) = some info) :
    fetchDesc infos r b buf slow m = takeDesc (some info) (parseDesc r b buf).resv (fetchedCmd r b buf) (acceptFetched r slow b buf) m := by
  rw [fetchDesc_of_fetchable hf, hi]

theorem readFault_of_unserved (h : m.service = false) : readFault w a m = m := if_pos (by simp [h])

/-- The device that has noted a read fault: READ_FAULT, and no more descriptors of its ring in the period (R241). -/
def noteReadFault (w : HostRead) (m : Mach) : Mach :=
  { m with host := { m.host with readStuck := w.ring?.toList ++ m.host.readStuck } }.raise F.hostStatusReadFault

/-- The count of read faults is no part of what makes a pair a TWIN (R281). -/
theorem inTwin_readFaults (p : PairSt) (n : Nat) : ({ p with readFaults := n } : PairSt).inTwin = p.inTwin := rfl

/-- The first read fault of a run posts its event (R241, R293). -/
theorem readFault_of_first (hs : m.service = true) (hf : m.host.faultAt = none) (ht : m.pair.inTwin = false) :
    readFault w a m = (let m1 := (noteReadFault w m).post 0x0F01 (w64 a)
      { m1 with host := { m1.host with faultAt := some m.tb.k }, pair := { m1.pair with readFaults := 1 } }) := by
  unfold readFault noteReadFault
  simp [hs, hf, inTwin_readFaults, ht]

/-- A further read fault of a run counts and posts nothing (R241, R293). -/
theorem readFault_of_further (hs : m.service = true) (hk : 0 < m.tb.k) (hf : m.host.faultAt = some (m.tb.k - 1)) (ht : m.pair.inTwin = false) :
    readFault w a m = (let m1 := noteReadFault w m
      { m1 with host := { m1.host with faultAt := some m.tb.k }, pair := { m1.pair with readFaults := m.pair.readFaults + 1 } }) := by
  have hne : m.tb.k - 1 ≠ m.tb.k := by omega
  unfold readFault noteReadFault
  simp [hs, hf, hne, inTwin_readFaults, ht]

end Service

/-- Settles O45: a descriptor fetched meets the outcomes of `takeDesc` in their order, and each other row has one clause for each of its guards. -/
theorem hostServiceStepsComplete : Obligations.HostServiceStepsComplete := by
  unfold Obligations.HostServiceStepsComplete
  refine ⟨fun ws s hs => ?doorbell, fun ws s hs => ?noDoorbell, fun r slow b buf s hf hi => ?unknown,
    fun r slow v w b buf info s hf hi hc => ?failed, fun r slow b buf info s hf hi hc hrom => ?rom,
    fun r slow b buf info s hf hi hc hrom hx hs hr => ?journalled, fun r slow b buf info s hf hi hc hrom hx => ?accepted,
    fun r slow b buf s hf => ?notFetched, fun w a s up hs hf ht => ?firstFault, fun w a s up hs hk hf ht => ?furtherFault,
    fun w a s up hs => ?unserved, fun up bm s => rfl, fun d3 s => rfl, fun s => rfl⟩
  all_goals refine congrArg Host.Outcome.next ?_
  case doorbell => exact congrArg s.to (if_pos hs)
  case noDoorbell => exact congrArg s.to (if_neg (Bool.eq_false_iff.1 hs))
  case unknown =>
    refine congrArg s.to ((fetchDesc_of_fetchable hf).trans ?_)
    rw [hi]
    exact takeDesc_of_unknown
  case failed => exact congrArg s.to ((fetchDesc_of_known hf hi).trans (takeDesc_of_failed hc))
  case rom => exact congrArg s.to ((fetchDesc_of_known hf hi).trans (takeDesc_of_romRefused hc hrom))
  case journalled => exact congrArg s.to ((fetchDesc_of_known hf hi).trans (takeDesc_of_journalled hc hrom hx hs hr))
  case accepted => exact congrArg s.to ((fetchDesc_of_known hf hi).trans (takeDesc_of_passed rfl hx hrom hc _))
  case notFetched => exact congrArg s.to (fetchDesc_of_not_fetchable hf)
  case firstFault => exact (run_whenAlive_of_up up _).trans (congrArg s.to (readFault_of_first hs hf ht))
  case furtherFault => exact (run_whenAlive_of_up up _).trans (congrArg s.to (readFault_of_further hs hk hf ht))
  case unserved => exact (run_whenAlive_of_up up _).trans (congrArg s.to (readFault_of_unserved hs))

end Sys2Proof.Machine
end

section
/-! Proofs of the family `09_morkai_pairing.md`: the output balls after reset, the messages of the partner, the pairing commands, and the steps of a pair path (R276–R298, R376, R382, R429). -/
namespace Sys2Proof.Machine

/-! ### The output balls after reset (R294, R376, R382, R429) -/

/-- After reset every output ball already stands at the level that the state gives it. -/
theorem settle_reset : settle State.reset.m = State.reset.m := rfl

/-- Settles O5: the balls after reset are those that follow from the state, and these are in order whatever the state (`settle_ballsOk`). -/
theorem resetBallsAreOk : Obligations.ResetBallsAreOk := by
  unfold Obligations.ResetBallsAreOk
  rw [← settle_reset]
  exact settle_ballsOk _

/-! ### A message of the partner on a path (R277, R278, R285) -/

section Messages
variable {p typ code : Nat} {b : List Byte} {m : Mach} {s : State} {f : Nat → List Byte → Mach → Mach}

/-- What bars a unit from a message on a path: there is no such path, the unit is not up, or the path is out of service (R278). -/
def deaf (p : Nat) (m : Mach) : Bool := decide (2 ≤ p) || !m.alive || m.pwr.held || !(m.path p).inService

theorem not_deaf_of_up (up : Up s) (hp : p < 2) (hin : (s.start.path p).inService = true) : deaf p s.start = false := by
  obtain ⟨ha, hh⟩ := up
  simp only [State.start_path] at hin
  simp [deaf, ha, hh, hp, hin]

theorem streamEnds_of_other (ht : fieldLE b 0 1 ≠ 3) : streamEnds p b m = m := if_neg fun h => ht h.1

/-- Noting the end of a stream changes the paths alone (R285). -/
theorem streamEnds_eq (p : Nat) (b : List Byte) (m : Mach) :
    streamEnds p b m = { m with pair := { m.pair with paths := (streamEnds p b m).pair.paths } } := by
  unfold streamEnds
  split <;> rfl

theorem pairMsg_of_bad (hd : deaf p m = false) (hb : pairOk b = false) : pairMsg p typ b f m = m.bump (F.pairPathCrcErr p) 1 :=
  (if_neg (ne_true_of_eq_false hd)).trans (if_pos (by simp [hb]))

/-- A good message of its type acts once: a further copy only marks the end of a stream on its path (R278, R285). -/
theorem pairMsg_of_good (hd : deaf p m = false) (hb : pairOk b = true) (ht : fieldLE b 0 1 = typ) :
    pairMsg p typ b f m =
      if m.pair.taken.contains (pairKey typ b) || m.pair.takenPrev.contains (pairKey typ b) then streamEnds p b m
      else f (fieldLE b 8 8) (pairBody b)
        { streamEnds p b m with pair := { (streamEnds p b m).pair with taken := m.pair.taken ++ [pairKey typ b] } } :=
  (if_neg (ne_true_of_eq_false hd)).trans ((if_neg (by simp [hb])).trans (if_neg (not_not_intro ht)))

theorem pairMsg_of_repeated (hd : deaf p m = false) (hb : pairOk b = true) (ht : fieldLE b 0 1 = typ)
    (hk : m.pair.taken.contains (pairKey typ b) = true ∨ m.pair.takenPrev.contains (pairKey typ b) = true) :
    pairMsg p typ b f m = streamEnds p b m :=
  (pairMsg_of_good hd hb ht).trans (if_pos (Bool.or_eq_true_iff.2 hk))

/-- The row of a message whose frame is not good (R278). -/
theorem run_pairMsg_of_bad (up : Up s) (hp : p < 2) (hin : (s.start.path p).inService = true) (hb : pairOk b = false) :
    s.run (pairMsg p typ b f) = s.to (s.start.bump (F.pairPathCrcErr p) 1) :=
  congrArg s.to (pairMsg_of_bad (not_deaf_of_up up hp hin) hb)

/-- The row of a further copy of a message other than AGREE (R278). -/
theorem run_pairMsg_of_repeated (hne : typ ≠ 3) (up : Up s) (hp : p < 2) (hin : (s.start.path p).inService = true) (hb : pairOk b = true)
    (ht : fieldLE b 0 1 = typ)
    (hk : s.start.pair.taken.contains (pairKey typ b) = true ∨ s.start.pair.takenPrev.contains (pairKey typ b) = true) :
    s.run (pairMsg p typ b f) = s.to s.start :=
  congrArg s.to ((pairMsg_of_repeated (not_deaf_of_up up hp hin) hb ht hk).trans (streamEnds_of_other (ht ▸ hne)))

/-- The row of the first copy of a message: its meaning, once the message is noted as taken (R278). -/
theorem run_pairMsg_of_first (h : PairIn p typ b s) : s.run (pairMsg p typ b f) = s.to (f (fieldLE b 8 8) (pairBody b) (s.noted p typ b)) := by
  obtain ⟨hp, up, hin, hb, ht, hnew, hnewPrev⟩ := h
  refine congrArg s.to ((pairMsg_of_good (not_deaf_of_up up hp hin) hb ht).trans (if_neg ?_))
  simp only [State.start_pair, hnew, hnewPrev]
  decide

/-- The row of the first copy of a CONTROL message of its code (R279). -/
theorem run_controlRx_of_first {g : List Byte → Mach → Mach} (h : PairIn p 10 b s) (hc : fieldLE (pairBody b) 0 1 = code) :
    s.run (controlRx p code b g) = s.to (g (pairBody b) (s.noted p 10 b)) :=
  (run_pairMsg_of_first h).trans (congrArg s.to (if_pos hc))

end Messages

/-! ### What noting a message leaves as it was (R278, R285) -/

section Noted
variable (s : State) (p typ : Nat) (b : List Byte)

/-- Of the pair, noting a message changes the messages taken and the ends of streams on the paths. -/
theorem noted_eq : s.noted p typ b =
    { s.start with pair := { s.m.pair with paths := (streamEnds p b s.start).pair.paths, taken := s.m.pair.taken ++ [pairKey typ b] } } := by
  unfold State.noted
  rw [streamEnds_eq]
  rfl

@[simp] theorem noted_dev : (s.noted p typ b).dev = s.m.dev := by rw [noted_eq]; rfl
@[simp] theorem noted_tb : (s.noted p typ b).tb = s.m.tb := by rw [noted_eq]; rfl
@[simp] theorem noted_host : (s.noted p typ b).host = s.m.host := by rw [noted_eq]; rfl
@[simp] theorem noted_inTwin : (s.noted p typ b).pair.inTwin = s.m.pair.inTwin := by rw [noted_eq]; rfl
@[simp] theorem noted_role : (s.noted p typ b).pair.role = s.m.pair.role := by rw [noted_eq]
@[simp] theorem noted_roleDue : (s.noted p typ b).pair.roleDue = s.m.pair.roleDue := by rw [noted_eq]
@[simp] theorem noted_acceptJoin : (s.noted p typ b).pair.acceptJoin = s.m.pair.acceptJoin := by rw [noted_eq]
@[simp] theorem noted_unit : (s.noted p typ b).pair.unit = s.m.pair.unit := by rw [noted_eq]
@[simp] theorem noted_epoch : (s.noted p typ b).pair.epoch = s.m.pair.epoch := by rw [noted_eq]
@[simp] theorem noted_held : (s.noted p typ b).pair.held = s.m.pair.held := by rw [noted_eq]
@[simp] theorem noted_copy : (s.noted p typ b).pair.copy = s.m.pair.copy := by rw [noted_eq]
@[simp] theorem noted_journal : (s.noted p typ b).pair.journal = s.m.pair.journal := by rw [noted_eq]

end Noted

/-! ### The messages of the exchange, branch by branch (R277–R279, R284–R286, R289, R292) -/

section Exchange
variable {q seq ns : Nat} {y : List Byte} {m : Mach} {c : Cmd} {cp : CopySt} {i : Image} {j : JournalCopy}

/-- The device that holds the partner's CUT; at a senior it shows that the shadow runs in lockstep (R284, R289). -/
def keepCut (y : List Byte) (m : Mach) : Mach :=
  { m with pair := { m.pair with cutTheirs := some ⟨BitVec.ofNat 64 (fieldLE y 0 8), fieldLE y 8 1 == 1⟩
                                 copy := m.pair.copy.map fun c => { c with lockstep := true } } }

theorem cutRx_of_other (hk : seq ≠ m.tb.k) : cutRx q seq y m = m := if_pos hk

theorem cutRx_of_present (hk : seq = m.tb.k) :
    cutRx q seq y m =
      if m.pair.held then resolveCuts q (keepCut y m) else if m.pair.inTwin then keepCut y m else verifyDigest (keepCut y m) :=
  if_neg (not_not_intro hk)

theorem cutRx_of_held (hk : seq = m.tb.k) (hh : m.pair.held = true) : cutRx q seq y m = resolveCuts q (keepCut y m) :=
  (cutRx_of_present hk).trans (if_pos hh)

theorem cutRx_of_twin (hk : seq = m.tb.k) (hh : m.pair.held = false) (ht : m.pair.inTwin = true) : cutRx q seq y m = keepCut y m := by
  rw [cutRx_of_present hk, hh, ht]; rfl

theorem cutRx_of_verifying (hk : seq = m.tb.k) (hh : m.pair.held = false) (ht : m.pair.inTwin = false) :
    cutRx q seq y m = verifyDigest (keepCut y m) := by
  rw [cutRx_of_present hk, hh, ht]; rfl

theorem agreeRx_of_present (hk : seq = m.tb.k) (hi : m.dev.intakeDone = false) :
    agreeRx seq y m = { m with pair := { m.pair with
      theirs := (parseAgree y).foldl (fun a r => streamPut r.1 r.2 a) m.pair.theirs
      theirsEnd := m.pair.theirsEnd || bitOf (fieldLE y 2 1) 0 } } :=
  if_neg (by simp [hk, hi])

theorem agreeRx_of_other (h : seq ≠ m.tb.k ∨ m.dev.intakeDone = true) : agreeRx seq y m = m := if_pos (by simpa using h)

theorem receiptRx_of_present (hk : seq = m.tb.k) :
    receiptRx seq y m = { m with pair := { m.pair with receiptsTheirs := m.pair.receiptsTheirs ++ [Receipt.mk (fieldLE y 0 1) (fieldLE y 1 1) (fieldLE y 4 4)] } } :=
  if_neg (not_not_intro hk)

theorem receiptRx_of_other (hk : seq ≠ m.tb.k) : receiptRx seq y m = m := if_pos hk

theorem forwardRx_of_present {a z : Int} (hk : seq = m.tb.k) :
    forwardRx a z seq y m = { m with pair := { m.pair with fwd := some ⟨fieldLE y 0 1, withCrc (y.drop 4), a, z⟩ } } :=
  if_neg (not_not_intro hk)

theorem forwardRx_of_other {a z : Int} (hk : seq ≠ m.tb.k) : forwardRx a z seq y m = m := if_pos hk

/-- A segment that carries its command whole, where no copy is held, is kept and answered by JACK (R292). -/
theorem journalRx_of_whole (hj : m.pair.journal = []) (hl : descPayload (sliceBytes y 8 64) ≤ (y.drop 72).length) :
    journalRx seq y m =
      { m with pair := { m.pair with journal := [⟨fieldLE y 0 1, sliceBytes y 8 64, y.drop 72, true, none⟩] } }.pairSend 0x07
        (leBytes 1 (fieldLE y 0 1) ++ leBytes 7 0 ++ leBytes 8 (fieldLE (sliceBytes y 8 64) 8 8)) := by
  have hdone : (decide (descPayload (sliceBytes y 8 64) ≤ (y.drop 72).length) || (y.drop 72).isEmpty) = true := by simp only [hl, decide_true, Bool.true_or]
  unfold journalRx
  simp only [hj, List.find?_nil, List.nil_append, List.filter_nil, hdone, if_true]

/-- A change record replaces the image that a shadow has not taken over yet (R289). -/
theorem changeRx_of_shadow (hr : m.pair.role = .shadow) (hc : m.pair.copy = some cp) (hv : cp.verified = none) :
    changeRx i m = { m with pair := { m.pair with copy := some { cp with changed := some i } } } := by
  unfold changeRx
  simp only [hr, hc, hv, Option.isSome_none, Bool.false_eq_true, if_false]

/-- The command that a JACK names (R292). -/
def jackNames (y : List Byte) (c : Cmd) : Bool := c.ring == fieldLE y 0 1 && c.seq == fieldLE y 8 8

/-- The device in which the command that a JACK names waits for it no more (R292). -/
def endJackWait (y : List Byte) (m : Mach) : Mach :=
  { m with host := { m.host with jackWait := m.host.jackWait.filter fun c => !jackNames y c } }

theorem jackRx_of_found (hf : m.host.jackWait.find? (jackNames y) = some c) :
    jackRx ns seq y m =
      if cplRoom c.ring m then acceptCmd c (jackFirst ns m) (endJackWait y m)
      else { endJackWait y m with host := { (endJackWait y m).host with jacked := m.host.jacked ++ [c] } } := by
  have hfind : m.host.jackWait.find? (fun c => c.ring == fieldLE y 0 1 && c.seq == fieldLE y 8 8) = some c := hf
  simp only [jackRx, hfind]
  rfl

theorem jackRx_of_room (hf : m.host.jackWait.find? (jackNames y) = some c) (hr : cplRoom c.ring m = true) :
    jackRx ns seq y m = acceptCmd c (jackFirst ns m) (endJackWait y m) :=
  (jackRx_of_found hf).trans (if_pos hr)

theorem jackRx_of_no_room (hf : m.host.jackWait.find? (jackNames y) = some c) (hr : cplRoom c.ring m = false) :
    jackRx ns seq y m = { endJackWait y m with host := { (endJackWait y m).host with jacked := m.host.jacked ++ [c] } } :=
  (jackRx_of_found hf).trans (if_neg (ne_true_of_eq_false hr))

/-- F is the present boundary where POSTED goes 100 ns before the intake, and else the next (R292). -/
theorem jackFirst_eq (ns : Nat) (m : Mach) : jackFirst ns m = if m.dev.intakeDone = false ∧ ns + 100 ≤ 1200 then m.tb.k else m.tb.k + 1 := by
  simp [jackFirst]

/-- The command of a journal copy (R247, R292). -/
def journalCmd (ring : Nat) (j : JournalCopy) : Cmd := (parseDesc ring j.desc j.payload).cmd (fieldLE j.desc 0 2)

/-- F noted with the journal copy of a command (R292). -/
def noteFirst (y : List Byte) (m : Mach) : Mach :=
  { m with pair := { m.pair with journal := m.pair.journal.map fun x => if x.ring == fieldLE y 0 1 && fieldLE x.desc 8 8 == fieldLE y 8 8 then { x with f := some (fieldLE y 24 8) } else x } }

/-- An ACCEPTED POSTED enters the command of the copy it names with its F (R292). -/
theorem postedRx_of_accepted (ha : fieldLE y 16 1 = stACCEPTED) (hj : m.pair.journal = [j]) (hr : j.ring = fieldLE y 0 1)
    (hs : fieldLE j.desc 8 8 = fieldLE y 8 8) (hd : j.complete = true) :
    postedRx seq y m =
      noteFirst y (acceptCmd (journalCmd (fieldLE y 0 1) j) (fieldLE y 24 8) (m.modPairRing (fieldLE y 0 1) Ring.consumed)) := by
  have hfind : [j].find? (fun j => (j.ring == fieldLE y 0 1 && fieldLE j.desc 8 8 == fieldLE y 8 8) && j.complete) = some j := by
    simp [hr, hs, hd]
  unfold postedRx
  simp only [ha, if_true, hj, hfind]
  rfl

/-- What a unit held of a command that the partner has completed, dropped (R292). -/
def dropPosted (y : List Byte) (m : Mach) : Mach :=
  { m with pair := { m.pair with journal := m.pair.journal.filter fun j => !(j.ring == fieldLE y 0 1 && fieldLE j.desc 8 8 == fieldLE y 8 8) }
           host := { m.host with mirror := m.host.mirror.filter fun c => !(c.ring == fieldLE y 0 1 && c.seq == fieldLE y 8 8) } }

/-- A terminal POSTED of a SEQ already consumed marks it terminal (R292). -/
theorem postedRx_of_terminal (ha : fieldLE y 16 1 ≠ stACCEPTED) (hn : fieldLE y 8 8 ≠ (m.pairRings.getD (fieldLE y 0 1) ringInit).nextSeq) :
    postedRx seq y m = (dropPosted y m).modPairRing (fieldLE y 0 1) fun x =>
      markTerm (fieldLE y 8 8) { x with held := x.held.filter fun c => c.seq != fieldLE y 8 8 } := by
  unfold postedRx
  simp only [ha, hn, if_false]
  rfl

/-- The first chunk of a copy of more than one is kept by its number (R289). -/
theorem copyRx_of_first {image : Option Image} (hr : m.pair.role = .shadow) (hc : m.pair.copy = some cp) (hn : cp.chunks = [])
    (ht : 1 < fieldLE y 4 4) :
    copyRx image seq y m =
      { m with pair := { m.pair with copy := some { cp with chunks := [(fieldLE y 0 4, y.drop 8)], total := fieldLE y 4 4 } } } := by
  unfold copyRx
  simp only [hr, hc, hn, List.any_nil, Bool.false_eq_true, if_false, List.nil_append, List.length_singleton, ht, decide_true, Bool.true_or, if_true]

end Exchange

/-- Settles O46: what a path does with a frame is said once for all eight messages; the first copy of each then owes the branch of its own meaning, of the message as noted. -/
theorem pairExchangeMessagesComplete : Obligations.PairExchangeMessagesComplete := by
  unfold Obligations.PairExchangeMessagesComplete
  refine ⟨fun p b q s up hp hin hb => ?badCut, fun p b q s up hp hin hb ht hk => ?againCut, fun p b s up hp hin hb => ?badAgree,
    fun p b s up hp hin hb ht hk => ?againAgree, fun p b s up hp hin hb => ?badReceipt, fun p b s up hp hin hb ht hk => ?againReceipt,
    fun p b a z s up hp hin hb => ?badForward, fun p b a z s up hp hin hb ht hk => ?againForward, fun p b i s up hp hin hb => ?badJournal,
    fun p b i s up hp hin hb ht hk => ?againJournal, fun p b ns s up hp hin hb => ?badJack, fun p b ns s up hp hin hb ht hk => ?againJack,
    fun p b s up hp hin hb => ?badPosted, fun p b s up hp hin hb ht hk => ?againPosted, fun p b i s up hp hin hb => ?badCopy,
    fun p b i s up hp hin hb ht hk => ?againCopy, fun p b q s h hk hh => ?cutHeld, fun p b q s h hk hh ht => ?cutTwin,
    fun p b q s h hk hh ht => ?cutVerified, fun p b q s h hk => ?cutOther, fun p b s h hk hi => ?agree, fun p b s h hk => ?agreeOther,
    fun p b s h hk => ?receipt, fun p b s h hk => ?receiptOther, fun p b a z s h hk => ?forward, fun p b a z s h hk => ?forwardOther,
    fun p b s h hj hl => ?journal, fun p b i c s h hr hc hv => ?change, fun p b ns c s h hf hr => ?jack, fun p b ns c s h hf hr => ?jackWaits,
    fun p b j s h ha hj hr hs hd => ?accepted, fun p b s h ha hn => ?terminal, fun p b i c s h hr hc hn ht => ?chunk⟩
  case badCut | badAgree | badReceipt | badForward | badJournal | badJack | badPosted | badCopy =>
    exact congrArg Host.Outcome.next (run_pairMsg_of_bad up hp hin hb)
  case againCut | againReceipt | againForward | againJournal | againJack | againPosted | againCopy =>
    exact congrArg Host.Outcome.next (run_pairMsg_of_repeated (by decide) up hp hin hb ht hk)
  case againAgree => exact congrArg (fun m => Host.Outcome.next (s.to m)) (pairMsg_of_repeated (not_deaf_of_up up hp hin) hb ht hk)
  all_goals refine congrArg Host.Outcome.next ((run_pairMsg_of_first h).trans (congrArg s.to ?_))
  case cutHeld => exact cutRx_of_held (by simpa using hk) (by simpa using hh)
  case cutTwin => exact cutRx_of_twin (by simpa using hk) (by simpa using hh) (by simpa using ht)
  case cutVerified => exact cutRx_of_verifying (by simpa using hk) (by simpa using hh) (by simpa using ht)
  case cutOther => exact cutRx_of_other (by simpa using hk)
  case agree => exact agreeRx_of_present (by simpa using hk) (by simpa using hi)
  case agreeOther => exact agreeRx_of_other (by simpa using hk)
  case receipt => exact receiptRx_of_present (by simpa using hk)
  case receiptOther => exact receiptRx_of_other (by simpa using hk)
  case forward => exact forwardRx_of_present (by simpa using hk)
  case forwardOther => exact forwardRx_of_other (by simpa using hk)
  case journal => exact journalRx_of_whole (by simpa using hj) hl
  case change => exact changeRx_of_shadow (by simpa using hr) (by simpa using hc) hv
  case jack =>
    have hfirst := jackFirst_eq ns (s.noted p 7 b)
    rw [noted_dev] at hfirst
    rw [← hfirst]
    exact jackRx_of_room (by rwa [noted_host]) hr
  case jackWaits => exact jackRx_of_no_room (by rwa [noted_host]) hr
  case accepted => exact postedRx_of_accepted (m := s.noted p 8 b) ha (by simpa using hj) hr hs hd
  case terminal => exact postedRx_of_terminal ha hn
  case chunk => exact copyRx_of_first (by simpa using hr) (by simpa using hc) hn ht

/-! ### The control messages, branch by branch (R279, R282, R289, R296, R298) -/

section Control
variable {y : List Byte} {m : Mach} {n : Nat}

/-- No SOLO unit is in TWIN (R281). -/
theorem not_inTwin_of_solo {x : PairSt} (h : x.role = .solo) : x.inTwin = false := by simp [PairSt.inTwin, h]

/-- No SHADOW is in TWIN (R281). -/
theorem not_inTwin_of_shadow {x : PairSt} (h : x.role = .shadow) : x.inTwin = false := by simp [PairSt.inTwin, h]

/-- A senior whose pair is not yet in TWIN, which a JOIN_REQ reaches again (R289). -/
def joinsAgain (m : Mach) : Bool := m.pair.role == .senior && !m.pair.inTwin

/-- JOIN_NAK with the cause that names what failed (R282). -/
def sendJoinNak (n : Nat) (m : Mach) : Mach := sendControl 3 (Config.unstatedArg 0x0808 n % 256) 0 [] m

/-- The copy begun anew at a senior: JOIN_ACK, then the chunks (R289). -/
def restartCopy (m : Mach) : Mach :=
  let m1 := { m with pair := { m.pair with copy := some ⟨[], 0, none, 0, m.tb.uptime, some 0, none, false⟩ } }
  sendCopy (sendControl 2 0 0 (joinDigests m1) m1)

theorem joinReqRx_eq (y : List Byte) (m : Mach) :
    joinReqRx y m =
      if !(m.pair.role == .solo || joinsAgain m) then sendJoinNak 6 m
      else if !m.pair.acceptJoin && !joinsAgain m then sendJoinNak 5 m
      else if !m.inState [.ready, .run] then sendJoinNak 7 m
      else match joinFailing y m with
        | some n => sendJoinNak n m
        | none => if joinsAgain m then restartCopy m else m.roleAt .senior := rfl

theorem joinsAgain_of_solo (hr : m.pair.role = .solo) : joinsAgain m = false := by simp [joinsAgain, hr]

theorem joinsAgain_of_senior (hr : m.pair.role = .senior) (ht : m.pair.inTwin = false) : joinsAgain m = true := by simp [joinsAgain, hr, ht]

/-- A unit in TWIN, or in a role that takes no partner, answers JOIN_NAK (R282). -/
theorem joinReqRx_of_role (h : m.pair.inTwin = true ∨ (m.pair.role ≠ .solo ∧ m.pair.role ≠ .senior)) : joinReqRx y m = sendJoinNak 6 m := by
  refine if_pos ?_
  obtain ht | ⟨hsolo, hsenior⟩ := h
  · have hsolo : m.pair.role ≠ .solo := fun hr => by simp [not_inTwin_of_solo hr] at ht
    simp [hsolo, ht]
  · simp [hsolo, hsenior]

/-- A unit that a JOIN_REQ may reach: a SOLO unit that accepts joins, or a senior not yet in TWIN (R282, R289). -/
def openToJoin (m : Mach) : Prop := (m.pair.role = .solo ∧ m.pair.acceptJoin = true) ∨ (m.pair.role = .senior ∧ m.pair.inTwin = false)

theorem joinReqRx_of_open (h : openToJoin m) :
    joinReqRx y m =
      if !m.inState [.ready, .run] then sendJoinNak 7 m
      else match joinFailing y m with
        | some n => sendJoinNak n m
        | none => if joinsAgain m then restartCopy m else m.roleAt .senior := by
  rw [joinReqRx_eq]
  obtain ⟨hr, ha⟩ | ⟨hr, ht⟩ := h
  · rw [joinsAgain_of_solo hr]; simp [hr, ha]
  · rw [joinsAgain_of_senior hr ht]; simp

theorem joinReqRx_of_closed (hr : m.pair.role = .solo) (ha : m.pair.acceptJoin = false) : joinReqRx y m = sendJoinNak 5 m := by
  rw [joinReqRx_eq, joinsAgain_of_solo hr]
  simp [hr, ha]

theorem joinReqRx_of_state (h : openToJoin m) (hready : m.dev.state ≠ .ready) (hrun : m.dev.state ≠ .run) : joinReqRx y m = sendJoinNak 7 m :=
  (joinReqRx_of_open h).trans (if_pos (by simp [Mach.inState, hready, hrun]))

theorem joinReqRx_of_working (h : openToJoin m) (hs : m.dev.state = .ready ∨ m.dev.state = .run) :
    joinReqRx y m = match joinFailing y m with
      | some n => sendJoinNak n m
      | none => if joinsAgain m then restartCopy m else m.roleAt .senior :=
  (joinReqRx_of_open h).trans (if_neg (by rcases hs with hs | hs <;> simp [Mach.inState, hs]))

theorem joinReqRx_of_failing (h : openToJoin m) (hs : m.dev.state = .ready ∨ m.dev.state = .run) (hf : joinFailing y m = some n) :
    joinReqRx y m = sendJoinNak n m := by
  rw [joinReqRx_of_working h hs, hf]

theorem joinReqRx_of_first (hr : m.pair.role = .solo) (ha : m.pair.acceptJoin = true) (hs : m.dev.state = .ready ∨ m.dev.state = .run)
    (hf : joinFailing y m = none) : joinReqRx y m = m.roleAt .senior := by
  rw [joinReqRx_of_working (.inl ⟨hr, ha⟩) hs, hf, joinsAgain_of_solo hr]
  rfl

theorem joinReqRx_of_again (hr : m.pair.role = .senior) (ht : m.pair.inTwin = false) (hs : m.dev.state = .ready ∨ m.dev.state = .run)
    (hf : joinFailing y m = none) : joinReqRx y m = restartCopy m := by
  rw [joinReqRx_of_working (.inr ⟨hr, ht⟩) hs, hf, joinsAgain_of_senior hr ht]
  rfl

theorem joinAckRx_of_joinable (hr : m.pair.role = .shadow) (hf : joinFailing y m = none) (hc : m.pair.copy = none) :
    joinAckRx y m = { m with pair := { m.pair with
      copy := some ⟨[], 0, none, 0, m.tb.uptime, none, none, false⟩, copyAttempts := m.pair.copyAttempts + 1 } }.post 0x0807 [] := by
  simp [joinAckRx, hr, hf, hc]

theorem joinAckRx_of_failing (hr : m.pair.role = .shadow) (hf : joinFailing y m = some n) : joinAckRx y m = copyAbort 4 m := by
  simp [joinAckRx, hr, hf]

theorem joinNakRx_of_shadow (hr : m.pair.role = .shadow) : joinNakRx m = copyAbort 4 m := if_pos (by simp [hr])

theorem joinNakRx_of_other (hr : m.pair.role ≠ .shadow) (hd : m.pair.roleDue ≠ some .shadow) : joinNakRx m = m := if_neg (by simp [hr, hd])

/-- A senior that its partner leaves is SOLO from the next boundary, its epoch kept (R282). -/
theorem leaveRx_of_senior (hr : m.pair.role = .senior) :
    leaveRx m =
      (let m1 := completeOp 0x0806 (fin stDONE) (acceptWaiting m)
       { m1 with pair := { m1.pair with partner := none, copy := none, takeover := if m1.pair.server then none else some 0, safeSeen := true } }.roleAt .solo) := by
  simp only [leaveRx, hr]

theorem leaveRx_of_shadow (hr : m.pair.role = .shadow) : leaveRx m = copyAbort (Config.unstatedArg 0x0808 5) m := by simp only [leaveRx, hr]

theorem leaveRx_of_other (hsenior : m.pair.role ≠ .senior) (hshadow : m.pair.role ≠ .shadow) : leaveRx m = m := by
  unfold leaveRx
  split
  next hr => exact absurd hr hsenior
  next hr => exact absurd hr hshadow
  next => rfl

/-- The new senior of a swap, under the raised claim (R280, R296). -/
def seniorOf (m : Mach) : Mach :=
  { m with pair := { m.pair with epoch := m.pair.epoch + 1, claim := 2 * (m.pair.epoch + 1) + m.pair.unit % 2, role := .senior
                                 partner := m.pair.partner.map fun q => { q with role := 2 }, takeover := some 0, safeSeen := true } }

/-- A swap at the TWIN: it is the senior, its events are posted, and its source of time returns (R288, R296). -/
theorem doSwap_of_twin (hr : m.pair.role = .twin) (he : m.pair.epoch < 0x7FFFFFFF) :
    doSwap m =
      (let m2 := returnSource (((seniorOf m).post 0x080A []).post 0x0804 [m.pair.epoch + 1, 2 * (m.pair.epoch + 1) + m.pair.unit % 2])
       { m2 with pair := { m2.pair with takeover := if m2.pair.server then none else some 0 } }) := by
  unfold doSwap
  rw [if_neg (Nat.not_le.2 he), hr]
  rfl

theorem swapRx_of_next (ht : m.pair.inTwin = true) (he : fieldLE y 4 4 = m.pair.epoch + 1) : swapRx y m = doSwap m := if_pos (by simp [ht, he])

theorem swapRx_of_other (h : m.pair.inTwin = false ∨ fieldLE y 4 4 ≠ m.pair.epoch + 1) : swapRx y m = m := by
  refine if_neg ?_
  rcases h with ht | he
  · simp [ht]
  · simp [he]

theorem verifiedRx_of_copying (hr : m.pair.role = .senior) (hc : m.pair.copy.isSome = true) :
    verifiedRx m = { m with pair := { m.pair with
      copy := none, twinAt := m.tb.k, partner := m.pair.partner.map fun q => { q with role := 2 }, pairRings := m.pair.server } } :=
  if_pos (by simp [hr, hc])

theorem verifiedRx_of_other (h : m.pair.role ≠ .senior ∨ m.pair.copy = none) : verifiedRx m = m := by
  refine if_neg ?_
  rcases h with hr | hc
  · simp [hr]
  · simp [hc]

/-- A SOLO unit that loses its partner only forgets it (R282). -/
theorem partnerLost_of_solo (hr : m.pair.role = .solo) : partnerLost m = { m with pair := { m.pair with partner := none, missed := 0 } } := by
  simp only [partnerLost, hr]

theorem safeNoteRx_of_solo (hr : m.pair.role = .solo) :
    safeNoteRx m = { m with pair := { m.pair with partner := none, missed := 0, safeSeen := true } } := by
  unfold safeNoteRx
  rw [partnerLost_of_solo hr]

end Control

/-- Settles O47: a CONTROL message of its code has the meaning of its row on the device that has noted it, and noting leaves the role, the state and the copy that the meaning asks for. -/
theorem pairControlMessagesComplete : Obligations.PairControlMessagesComplete := by
  unfold Obligations.PairControlMessagesComplete
  refine ⟨fun p b s h hc hr ha hs hf => ?reqFirst, fun p b s h hc hr ha => ?reqClosed, fun p b s h hc hr ha hready hrun => ?reqState,
    fun p b n s h hc hr ha hs hf => ?reqFailing, fun p b s h hc hr => ?reqRole, fun p b s h hc hr ht hs hf => ?reqAgain,
    fun p b n s h hc hr ht hs hf => ?reqAgainFailing, fun p b s h hc hr ht hready hrun => ?reqAgainState, fun p b s h hc hr hf hn => ?ack,
    fun p b n s h hc hr hf => ?ackFailing, fun p b s h hc hr => ?nak, fun p b s h hc hr hd => ?nakOther, fun p b s h hc hr => ?leaveSenior,
    fun p b s h hc hr => ?leaveShadow, fun p b s h hc hr hr' => ?leaveOther, fun p b s h hc hr ht he hlim => ?swap,
    fun p b s h hc he => ?swapOther, fun p b s h hc hr hcp => ?verified, fun p b s h hc hr => ?verifiedOther,
    fun p b s h => ?safe, fun p b s h hr => ?safeSolo⟩
  case safe => exact congrArg Host.Outcome.next (run_pairMsg_of_first h)
  case safeSolo =>
    exact congrArg Host.Outcome.next ((run_pairMsg_of_first h).trans (congrArg s.to (safeNoteRx_of_solo (by simpa using hr))))
  all_goals refine congrArg Host.Outcome.next ((run_controlRx_of_first h hc).trans (congrArg s.to ?_))
  case reqFirst => exact joinReqRx_of_first (by simpa using hr) (by simpa using ha) (by simpa using hs) hf
  case reqClosed => exact joinReqRx_of_closed (by simpa using hr) (by simpa using ha)
  case reqState => exact joinReqRx_of_state (.inl (by simp [hr, ha])) (by simpa using hready) (by simpa using hrun)
  case reqFailing => exact joinReqRx_of_failing (.inl (by simp [hr, ha])) (by simpa using hs) hf
  case reqRole => exact joinReqRx_of_role (by simpa using hr)
  case reqAgain => exact joinReqRx_of_again (by simpa using hr) (by simpa using ht) (by simpa using hs) hf
  case reqAgainFailing => exact joinReqRx_of_failing (.inr (by simp [hr, ht])) (by simpa using hs) hf
  case reqAgainState => exact joinReqRx_of_state (.inr (by simp [hr, ht])) (by simpa using hready) (by simpa using hrun)
  case ack => exact joinAckRx_of_joinable (by simpa using hr) hf (by simpa using hn)
  case ackFailing => exact joinAckRx_of_failing (by simpa using hr) hf
  case nak => exact joinNakRx_of_shadow (by simpa using hr)
  case nakOther => exact joinNakRx_of_other (by simpa using hr) (by simpa using hd)
  case leaveSenior => exact leaveRx_of_senior (by simpa using hr)
  case leaveShadow => exact leaveRx_of_shadow (by simpa using hr)
  case leaveOther => exact leaveRx_of_other (by simpa using hr) (by simpa using hr')
  case swap =>
    refine (swapRx_of_next (by simpa using ht) (by simpa using he)).trans ((doSwap_of_twin (by simpa using hr) (by simpa using hlim)).trans ?_)
    simp only [seniorOf, noted_epoch, noted_unit]
  case swapOther => exact swapRx_of_other (by simpa using he)
  case verified => exact verifiedRx_of_copying (by simpa using hr) (by simpa using hcp)
  case verifiedOther => exact verifiedRx_of_other (by simpa using hr)

/-! ### The pairing commands, branch by branch (R292, R296–R298) -/

section Commands
variable {c : Cmd} {m : Mach} {info : CmdInfo} {eff : Cmd → Mach → Mach × Eff}

/-- A command in time and in a state of its row takes effect as its row says (R251, R254). -/
theorem takeEffect_of_listed (he : expired c = false) (hs : m.inState info.states = true) : takeEffect info eff c m = settleEff c (eff c m) := by
  have hl : lateCmd c = c := if_neg (by simp [he])
  simp [takeEffect, he, hl, inStates, hs]

/-- PAIR_JOIN of a unit alone, with no other command accepted: JOIN_REQ goes out, and it is the shadow from the next boundary (R282, R298). -/
theorem effPairJoin_of_free (hr : m.pair.role = .solo ∨ m.pair.role = .deposed) (hd : m.pair.roleDue = none)
    (ha : (m.host.accepted.any fun p => !(p.cmd.ring == c.ring && p.cmd.seq == c.seq)) = false) (hj : joinable m = true)
    (hn : (agreedSet m).length ≤ 2048) : effPairJoin c m = ((sendJoinReq m).roleAt .shadow, .hold) := by
  have halone : (m.pair.role == .solo || m.pair.role == .deposed) = true := by simpa using hr
  unfold effPairJoin
  simp only [halone, hd, ha, hj, Nat.not_lt.2 hn, Option.isSome_none, Bool.not_true, Bool.or_self, Bool.false_eq_true, if_false]

theorem effPairLeave_of_solo (hr : m.pair.role = .solo) : effPairLeave c m = okEmpty m := by
  simp [effPairLeave, not_inTwin_of_solo hr, hr]

theorem effPairLeave_of_shadow (hr : m.pair.role = .shadow) :
    effPairLeave c m = okDone (copyAbort (Config.unstatedArg 0x0808 5) (sendControl 4 0 0 [] m)) := by
  simp [effPairLeave, not_inTwin_of_shadow hr, hr]

/-- PAIR_LEAVE that names the senior of a TWIN is rejected, at either unit (R298). -/
theorem effPairLeave_of_senior_named (ht : m.pair.inTwin = true) (hn : (c.f 0 1 == m.pair.unit % 2) = (m.pair.role == .senior)) :
    effPairLeave c m = reject stSTATE m := by
  simp [effPairLeave, ht, hn]

theorem effPairLeave_of_twin_named (ht : m.pair.inTwin = true) (hr : m.pair.role = .twin) (hn : (c.f 0 1 == m.pair.unit % 2) = true) :
    effPairLeave c m = (leavePair m, .done (fin stDONE)) := by
  simp [effPairLeave, ht, hr, hn]

theorem effPairSwap_of_apart (ht : m.pair.inTwin = false) : effPairSwap c m = reject stSTATE m := if_pos (by simp [ht])

theorem effPairSwap_of_twin (ht : m.pair.inTwin = true) : effPairSwap c m = okDone (swapNow m) := if_neg (by simp [ht])

theorem effPairFwUpdate_of_apart (ht : m.pair.inTwin = false) : effPairFwUpdate c m = reject stSTATE m := if_pos (by simp [ht])

/-- At the senior PAIR_FW_UPDATE of the TWIN stays in effect until that unit has left (R298). -/
theorem effPairFwUpdate_of_other_named (ht : m.pair.inTwin = true) (hr : m.pair.role = .senior) (hn : (c.f 0 1 == m.pair.unit % 2) = false) :
    effPairFwUpdate c m = (m, .hold) := by
  simp [effPairFwUpdate, ht, hr, hn]

theorem effPairFwUpdate_of_twin_named (ht : m.pair.inTwin = true) (hr : m.pair.role = .twin) (hn : (c.f 0 1 == m.pair.unit % 2) = true)
    (hi : m.sec.staged.isSome = true) : effPairFwUpdate c m = (activateStaged (leavePair m), .done (fin stDONE)) := by
  have hstaged : m.sec.staged.isNone = false := by simpa using hi
  simp [effPairFwUpdate, ht, hr, hn, hstaged]

/-- A command accepted where none was is the only one. -/
theorem no_other_accepted {d : Desc} {s : State} (ha : s.m.host.accepted = []) :
    ((s.accepts info d).host.accepted.any fun p => !(p.cmd.ring == (s.held info d).ring && p.cmd.seq == (s.held info d).seq)) = false := by
  rw [State.accepts, acceptNow_accepted, State.fetching_accepted, ha]
  simp [listedCmd, State.held]

end Commands

/-- Settles O33: a row taken at once owes its effect on the accepted command, a row in a pair that exchanges is journalled as any other (`hostCommand_journalled`), and at the boundary of effect each owes its effect on the device as it then is. -/
theorem pairCommandsTakeEffect : Obligations.PairCommandsTakeEffect := by
  unfold Obligations.PairCommandsTakeEffect
  refine ⟨fun d s h => ?config, fun d s h hr hd ha hj hn => ?join, fun d s h hr => ?leaveSolo, fun d s h hr => ?leaveShadow,
    fun d s h ht => ?swapApart, fun d s h => ?report, fun d s h ht => ?updateApart, fun d s h => ?leaveJournalled,
    fun d s h => ?swapJournalled, fun d s h => ?updateJournalled, fun c m he hs ht => ?swap, fun c m he hs ht hn => ?leaveSenior,
    fun c m he hs ht hr hn => ?leaveTwin, fun c m he hs ht hr hn => ?updateOther, fun c m he hs ht hr hn hi => ?updateTwin⟩
  case swap => exact (takeEffect_of_listed he hs).trans (congrArg (settleEff c) (effPairSwap_of_twin ht))
  case leaveSenior => exact (takeEffect_of_listed he hs).trans (congrArg (settleEff c) (effPairLeave_of_senior_named ht hn))
  case leaveTwin => exact (takeEffect_of_listed he hs).trans (congrArg (settleEff c) (effPairLeave_of_twin_named ht hr hn))
  case updateOther => exact (takeEffect_of_listed he hs).trans (congrArg (settleEff c) (effPairFwUpdate_of_other_named ht hr hn))
  case updateTwin => exact (takeEffect_of_listed he hs).trans (congrArg (settleEff c) (effPairFwUpdate_of_twin_named ht hr hn hi))
  all_goals refine congrArg Host.Outcome.next ?_
  case leaveJournalled | swapJournalled | updateJournalled => exact hostCommand_journalled h
  all_goals have hpair := pair_accepts_of_taken h
  case config => exact run_hostCommand_of_done h rfl
  case join =>
    exact run_hostCommand_of_hold h (effPairJoin_of_free (by rwa [hpair]) (by rwa [hpair]) (no_other_accepted ha) hj hn)
  case leaveSolo => exact run_hostCommand_of_done h (effPairLeave_of_solo (by rwa [hpair]))
  case leaveShadow => exact run_hostCommand_of_done h (effPairLeave_of_shadow (by rwa [hpair]))
  case swapApart => exact run_hostCommand_of_done h (effPairSwap_of_apart (by rwa [hpair]))
  case report => exact run_hostCommand_of_done h (congrArg okDone (writeBuf_taken h _))
  case updateApart => exact run_hostCommand_of_done h (effPairFwUpdate_of_apart (by rwa [hpair]))

/-! ### The steps of a pair path, branch by branch (R276, R278, R282, R284, R285, R288, R289, R293) -/

section Steps
variable {p q turn n : Nat} {b : List Byte} {m : Mach} {s : State} {a : CutMsg} {c : CopySt} {cells : List Host.Cell} {l : List Int}

theorem run_onPath_of_up (up : Up s) (hp : p < 2) (f : Mach → Mach) : s.run (onPath p f) = s.to (f s.start) := by
  have he : s.run (onPath p f) = s.run (whenAlive f) := congrArg s.to (if_pos hp)
  rw [he, run_whenAlive_of_up up]

/-- A row that acts in a unit that is up answers what its meaning gives there (R443). -/
theorem next_run_of_up {f : Mach → Mach} {m : Mach} (up : Up s) (h : f s.start = m) :
    (Host.Outcome.next (s.run (whenAlive f)) : Host.Outcome State Fault Refusal) = .next (s.to m) := by
  rw [run_whenAlive_of_up up, h]

theorem heartbeatRx_of_bad (hd : deaf p m = false) (hb : pairOk b = false) : heartbeatRx p b q m = m.bump (F.pairPathCrcErr p) 1 :=
  (if_neg (ne_true_of_eq_false hd)).trans (if_pos (by simp [hb]))

/-- A heartbeat that carries this unit's own strap (R282). -/
theorem heartbeatRx_of_own_strap (hd : deaf p m = false) (hb : pairOk b = true) (ht : fieldLE b 0 1 = 1)
    (hu : fieldLE b 1 1 % 2 = m.pair.unit % 2) : heartbeatRx p b q m = claimConflict m :=
  (if_neg (ne_true_of_eq_false hd)).trans ((if_neg (by simp [hb])).trans ((if_neg (not_not_intro ht)).trans (if_pos hu)))

theorem modPath_role (f : PathSt → PathSt) : (m.modPath p f).pair.role = m.pair.role := rfl

/-- What a heartbeat notes on its path is no sample where the servo does not follow the partner (R288). -/
theorem pairSample_of_other_source {y : List Byte} {t : Nat} {f : PathSt → PathSt} (hs : m.tb.src ≠ .pair) :
    pairSample p y t (m.modPath p f) = m.modPath p f := if_pos (by simp [Mach.modPath, hs])

/-- The device that has noted a heartbeat of the partner: its arrival on the path, and what it says (R278, R282, R288). -/
def noteHeartbeat (p q : Nat) (b : List Byte) (m : Mach) : Mach :=
  let m1 := m.modPath p fun x => { x with heard := true, missed := 0, rxT := 4 * m.now + q }
  { m1 with pair := { m1.pair with partner := some (parsePartner b), heard := m1.pair.heard || !m1.dev.intakeDone
                                   takeover := m1.pair.takeover.map fun _ => 0, yielded := m1.pair.yielded && !(parsePartner b).server } }

/-- A heartbeat of a partner out of SAFE at a SOLO unit that does not take its time from the pair link is noted, and no more (R282, R288). -/
theorem heartbeatRx_of_solo (hd : deaf p m = false) (hb : pairOk b = true) (ht : fieldLE b 0 1 = 1) (hu : fieldLE b 1 1 % 2 ≠ m.pair.unit % 2)
    (hs : (parsePartner b).devState ≠ 5) (hr : m.pair.role = .solo) (hsrc : m.tb.src ≠ .pair) : heartbeatRx p b q m = noteHeartbeat p q b m := by
  have hsafe : (parsePartner b).devState ≠ DevState.safe.code := hs
  have hlone : (noteHeartbeat p q b m).pair.inTwin = false := not_inTwin_of_solo hr
  refine (if_neg (ne_true_of_eq_false hd)).trans ((if_neg (by simp [hb])).trans ((if_neg (not_not_intro ht)).trans ((if_neg hu).trans ?_)))
  dsimp only
  rw [pairSample_of_other_source hsrc]
  refine (if_neg hsafe).trans ((if_neg ?_).trans (if_neg ?_))
  · simp [modPath_role, hr]
  · exact ne_true_of_eq_false (Bool.and_eq_false_iff.2 (.inl hlone))

/-- The row of PAIR_PARTNER_LOST: the partner is lost once HB_MISS boundaries, the present one included, have passed without a heartbeat (R282). -/
def lossRow (m : Mach) : Mach :=
  let n := if m.pair.heard then 0 else if m.dev.intakeDone then m.pair.missed else m.pair.missed + 1
  if m.pair.partner.isSome && decide (m.fld F.pairCtrlHbMiss ≤ n) then partnerLost m else m

theorem lossRow_of_missed (hp : m.pair.partner.isSome = true)
    (hn : m.fld F.pairCtrlHbMiss ≤ if m.pair.heard then 0 else if m.dev.intakeDone then m.pair.missed else m.pair.missed + 1) :
    lossRow m = partnerLost m :=
  if_pos (Bool.and_eq_true_iff.2 ⟨hp, decide_eq_true hn⟩)

theorem lossRow_of_none (hp : m.pair.partner = none) : lossRow m = m := if_neg (by simp [hp])

theorem cutTimeout_of_held (hh : m.pair.held = true) (ha : m.pair.cutOwn = some a) :
    cutTimeout q m =
      (let m1 := { m with pair := { m.pair with held := false, undo := none } }.bump F.pairCountCutMiss 1
       if a.abandoned then sendHold q m1 else sendCut q m1) := by
  simp only [cutTimeout, hh, ha, Bool.not_true, Bool.false_eq_true, if_false]

theorem cutTimeout_of_free (hh : m.pair.held = false) : cutTimeout q m = m := if_pos (by simp [hh])

theorem copyTimeout_of_open (hr : m.pair.role = .shadow) (hc : m.pair.copy = some c) (hv : c.verified = none) : copyTimeout m = copyFail 2 m := by
  simp [copyTimeout, hr, hc, hv]

theorem copyTimeout_of_none (h : m.pair.role ≠ .shadow ∨ m.pair.copy = none) : copyTimeout m = m := by
  unfold copyTimeout
  split
  next hr hc =>
    rcases h with hne | hnone
    · exact absurd hr hne
    · simp [hnone] at hc
  next => rfl

/-- A copy that fails is begun again while its attempts last (R289). -/
theorem copyFail_of_attempts (hc : m.pair.copy = some c) (hn : c.attempts < m.fld F.pairCtrlCopyRetry) :
    copyFail n m =
      (let m1 := leaveRun (m.raise F.pairStatusCopyFail)
       sendJoinReq { m1 with pair := { m1.pair with copy := some ⟨[], 0, none, c.attempts + 1, m1.tb.uptime, none, none, false⟩ } }) := by
  simp only [copyFail, hc, Nat.not_le.2 hn, if_false]

/-- The last attempt ends PAIR_JOIN (R289). -/
theorem copyFail_of_last (hc : m.pair.copy = some c) (hn : m.fld F.pairCtrlCopyRetry ≤ c.attempts) : copyFail n m = copyAbort n m := by
  simp only [copyFail, hc, hn, if_true]

theorem cutStream_of_exchanging (hx : m.pair.exchanging = true) (hc : m.pair.cutAgree = false) : cutStream m = agreeCut (streamInputs m) :=
  if_neg (by simp [hx, hc])

theorem cutStream_of_idle (h : m.pair.exchanging = false ∨ m.pair.cutAgree = true) : cutStream m = m := if_pos (by simpa using h)

/-- The row of SERVER_CHANGE: a new server posts its Echo records after the rebuild (R293, R326). -/
def serverRow (cells : List Host.Cell) (m : Mach) : Mach :=
  let r := serverChange cells m
  if r.pair.server && !m.pair.server then echoAfterServer r else r

theorem serverChange_of_idle (h : m.pair.server = true ∨ mayServe m = false ∨ m.hostReach = false) : serverChange cells m = m :=
  if_pos (by simpa [or_assoc] using h)

/-- A unit that may serve and reaches the host becomes the server and rebuilds from the ring-state block (R293). -/
theorem serverRow_of_due (hs : m.pair.server = false) (hm : mayServe m = true) (hh : m.hostReach = true) :
    serverRow cells m =
      (let m1 := rebuild true ({ m with hostMem := hostStores m.hostMem cells, pair := { m.pair with server := true, pairRings := true, takeover := none } }.post 0x080B [])
       if m1.pair.server then echoAfterServer m1 else m1) := by
  simp only [serverRow, serverChange, hs, hm, hh, Bool.not_true, Bool.or_self, Bool.false_eq_true, if_false, Bool.not_false, Bool.and_true]

theorem serverRow_of_idle (h : m.pair.server = true ∨ mayServe m = false ∨ m.hostReach = false) : serverRow cells m = m := by
  simp [serverRow, serverChange_of_idle h]

theorem pathLock_of_unlocked (hk : (m.path p).lock = false) :
    pathLock p m = m.setPath p { m.path p with lock := true, step := max (m.path p).step 1, trainCount := 0, farReady := false } := by
  simp [pathLock, Mach.modPath, hk]

theorem pathTrainTx_of_training (hk : (m.path p).lock = true) (hin : (m.path p).inService = false) (hst : (m.path p).step < 4) :
    pathTrainTx p m = (let f := plainFrame m 0x06 (8 * b2n (rxReady (m.path p).trainCount)) 0
      m.send (.pairFrame p (pairFrame m 0x10 (f.take (f.length - 4))))) :=
  if_pos (by simp [hk, hin, hst])

/-- A path with block lock that is out of service (R276). -/
abbrev PathTrains (p : Nat) (m : Mach) : Prop := (m.path p).lock = true ∧ (m.path p).inService = false

theorem not_barred_of_pathTrains (h : PathTrains p m) : ¬(!(m.path p).lock || (m.path p).inService) = true := by
  obtain ⟨hk, hin⟩ := h
  simp [hk, hin]

/-- A path after a TRAIN frame that makes `n` in a row (R276, R180). -/
def pathTrained (n : Nat) (b : List Byte) (x : PathSt) : PathSt :=
  { x with trainCount := n, farReady := bitOf (fieldLE (pairBody b) 1 1) 3, step := if rxReady n then 3 else max x.step 2 }

theorem pathTrainRx_of_train (h : PathTrains p m) (hb : pairOk b = true) (ht : fieldLE b 0 1 = 0x10) :
    pathTrainRx p b m = m.setPath p (pathTrained (min ((m.path p).trainCount + 1) 4096) b (m.path p)) :=
  (if_neg (not_barred_of_pathTrains h)).trans ((if_neg (by simp [hb])).trans (if_neg (not_not_intro ht)))

theorem pathTrainRx_of_many (h : PathTrains p m) (hb : pairOk b = true) (ht : fieldLE b 0 1 = 0x10) (hn : 4095 ≤ (m.path p).trainCount) :
    pathTrainRx p b m = m.setPath p { m.path p with trainCount := 4096, farReady := bitOf (fieldLE (pairBody b) 1 1) 3, step := 3 } := by
  rw [pathTrainRx_of_train h hb ht, Nat.min_eq_right (by omega)]
  rfl

theorem pathTrainRx_of_few (h : PathTrains p m) (hb : pairOk b = true) (ht : fieldLE b 0 1 = 0x10) (hn : (m.path p).trainCount < 4095) :
    pathTrainRx p b m = m.setPath p { m.path p with
      trainCount := (m.path p).trainCount + 1, farReady := bitOf (fieldLE (pairBody b) 1 1) 3, step := max (m.path p).step 2 } := by
  have hr : rxReady ((m.path p).trainCount + 1) = false := decide_eq_false (by omega)
  rw [pathTrainRx_of_train h hb ht, Nat.min_eq_left (by omega), pathTrained, hr]
  rfl

theorem pathTrainRx_of_other (h : PathTrains p m) (hb : pairOk b = true) (ht : fieldLE b 0 1 ≠ 0x10) :
    pathTrainRx p b m = m.setPath p { m.path p with trainCount := 0 } :=
  (if_neg (not_barred_of_pathTrains h)).trans ((if_neg (by simp [hb])).trans (if_pos ht))

theorem pathTrainRx_of_bad (h : PathTrains p m) (hb : pairOk b = false) :
    pathTrainRx p b m = (m.setPath p { m.path p with trainCount := 0 }).bump (F.pairPathCrcErr p) 1 :=
  (if_neg (not_barred_of_pathTrains h)).trans (if_pos (by simp [hb]))

/-- A path whose 64 exchanges are made and judged now (R276). -/
abbrev PathCalibrates (p : Nat) (m : Mach) : Prop :=
  (m.path p).inService = false ∧ (m.path p).step = 3 ∧ (m.path p).farReady = true ∧ (m.path p).calFailed = false

/-- The samples of a path, of the differences that were answered: half of each, its ASYM taken in (R182, R276). -/
def pathSamples (p : Nat) (l : List Int) (m : Mach) : List Int := l.map fun d => roundDiv (d + 2 * pathAsym m p) 2

/-- A path that its calibration brings into service (R276). -/
def pathUp (x : List Int) (y : PathSt) : PathSt :=
  { y with step := 4, inService := true, delay := (medianOf x).toNat, missed := 0, heard := false, wasUp := true }

theorem pathCal_of_calibrating (h : PathCalibrates p m) :
    pathCal p l m = match calTest (pathSamples p l m) (64 - l.length) 400 with
      | some _ => m.setPath p { m.path p with calFailed := true }
      | none =>
        let m1 := m.setPath p (pathUp (pathSamples p l m) (m.path p))
        if (m.path p).wasUp then m1.post 0x0802 [] else m1 := by
  obtain ⟨hin, hst, hfar, hok⟩ := h
  have hlen : (pathSamples p l m).length = l.length := List.length_map _
  rw [← hlen]
  exact if_neg (by simp [hin, hst, hfar, hok])

theorem pathCal_of_pass (h : PathCalibrates p m) (hw : (m.path p).wasUp = false) (ht : calTest (pathSamples p l m) (64 - l.length) 400 = none) :
    pathCal p l m = m.setPath p (pathUp (pathSamples p l m) (m.path p)) := by
  rw [pathCal_of_calibrating h, ht, hw]
  rfl

theorem pathCal_of_fail (h : PathCalibrates p m) (ht : calTest (pathSamples p l m) (64 - l.length) 400 = some n) :
    pathCal p l m = m.setPath p { m.path p with calFailed := true } := by
  rw [pathCal_of_calibrating h, ht]

theorem pathCalReq_of_good (hk : (m.path p).lock = true) (hb : pairOk b = true) (ht : fieldLE b 0 1 = 0x0E) :
    pathCalReq p b turn m = m.send (.pairFrame p (pairFrame m 0x0F (leBytes 1 0x82 ++ List.replicate 31 0#8 ++ leBytes 4 turn ++ leBytes 4 0))) :=
  (if_neg (by simp [hk])).trans ((if_neg (by simp [hb])).trans (if_neg (not_not_intro ht)))

/-- At a unit that is no shadow a path leaves service without a copy to restart (R278, R289). -/
theorem pathLeaves_of_not_shadow {lost : Bool} (hr : m.pair.role ≠ .shadow) : pathLeaves p lost m = pathDown p lost m := by
  unfold pathLeaves
  dsimp only
  split
  next hshadow _ => exact absurd hshadow hr
  next => rfl

/-- A path in service that fails keeps its block lock and retrains; PATH_DOWN and its event tell of it (R278). -/
theorem pathDown_of_service (hin : (m.path p).inService = true) :
    pathDown p false m = ((m.setPath p { pathInit with lock := (m.path p).lock, step := b2n (m.path p).lock, wasUp := (m.path p).wasUp }).raise
      F.pairStatusPathDown).post 0x0801 [] := by
  simp [pathDown, hin]

theorem pathFails_of_silent (hin : (m.path p).inService = true) (hq : (m.path p).heard = false) (ho : (m.path (1 - p)).heard = true)
    (hn : 3 ≤ (m.path p).missed) : pathFails p .heartbeats m = pathLeaves p false m := if_pos (by simp [hin, hq, ho, hn])

theorem pathFails_of_heard (h : (m.path p).heard = true ∨ (m.path (1 - p)).heard = false ∨ (m.path p).missed < 3) :
    pathFails p .heartbeats m = m := by
  refine if_neg ?_
  rcases h with hh | ho | hn
  · simp [hh]
  · simp [ho]
  · simp [Nat.not_le.2 hn]

end Steps

/-- Settles O48: each row acts in a unit that is up, on its path where it has one, and each clause is the branch of its meaning that the hypotheses select. -/
theorem pairPathStepsComplete : Obligations.PairPathStepsComplete := by
  unfold Obligations.PairPathStepsComplete
  refine ⟨fun p q b s up hp hin hb ht hu hs hr hsrc => ?heartbeat, fun p q b s up hp hin hb ht hu hr => ?conflict,
    fun p q b s up hp hin hb => ?badHeartbeat, fun s up hpart hn => ?lost, fun s up hpart => ?noPartner, fun q a s up hh ha => ?cutWait,
    fun q s up hh => ?noCutWait, fun c s up hr hc hv hn => ?copyAgain, fun c s up hr hc hv hn => ?copyEnds, fun s up h => ?noCopy,
    fun s up hx hc => ?agreeCut, fun s up h => ?noAgreeCut, fun cells s up hs hm hh => ?server, fun cells s up h => ?noServer,
    fun p s up hp hk => ?lock, fun p s up hp hk hin hst => ?trainTx, fun p b s up hp hk hin hb ht hn => ?trainMany,
    fun p b s up hp hk hin hb ht hn => ?trainFew, fun p b s up hp hk hin hb ht => ?trainOther, fun p b s up hp hk hin hb => ?trainBad,
    fun p l s up hp hin hst hf hc hw ht => ?calPass, fun p n l s up hp hin hst hf hc ht => ?calFail,
    fun p turn b s up hp hk hb ht => ?calReq, fun p s up hp hc => ?calRetry, fun p s up hp hc => ?noCalRetry,
    fun p s up hp hr => ?lockLost, fun p s up hp hr hin => ?hiBer, fun p s up hp hr hin hq ho hn => ?silent, fun p s up hp h => ?notSilent⟩
  case heartbeat => exact congrArg (fun m => Host.Outcome.next (s.to m)) (heartbeatRx_of_solo (not_deaf_of_up up hp hin) hb ht hu hs hr hsrc)
  case conflict => exact congrArg (fun m => Host.Outcome.next (s.to m)) (heartbeatRx_of_own_strap (not_deaf_of_up up hp hin) hb ht hu)
  case badHeartbeat => exact congrArg (fun m => Host.Outcome.next (s.to m)) (heartbeatRx_of_bad (not_deaf_of_up up hp hin) hb)
  case lost => exact next_run_of_up (f := lossRow) up (lossRow_of_missed hpart hn)
  case noPartner => exact next_run_of_up (f := lossRow) up (lossRow_of_none hpart)
  case cutWait => exact next_run_of_up up (cutTimeout_of_held hh ha)
  case noCutWait => exact next_run_of_up up (cutTimeout_of_free hh)
  case copyAgain => exact next_run_of_up up ((copyTimeout_of_open hr hc hv).trans (copyFail_of_attempts hc hn))
  case copyEnds => exact next_run_of_up up ((copyTimeout_of_open hr hc hv).trans (copyFail_of_last hc hn))
  case noCopy => exact next_run_of_up up (copyTimeout_of_none h)
  case agreeCut => exact next_run_of_up up (cutStream_of_exchanging hx hc)
  case noAgreeCut => exact next_run_of_up up (cutStream_of_idle h)
  case server => exact next_run_of_up (f := serverRow cells) up (serverRow_of_due hs hm hh)
  case noServer => exact next_run_of_up (f := serverRow cells) up (serverRow_of_idle h)
  all_goals refine congrArg Host.Outcome.next ((run_onPath_of_up up hp _).trans (congrArg s.to ?_))
  case lock => exact pathLock_of_unlocked hk
  case trainTx => exact pathTrainTx_of_training hk hin hst
  case trainMany => exact pathTrainRx_of_many ⟨hk, hin⟩ hb ht hn
  case trainFew => exact pathTrainRx_of_few ⟨hk, hin⟩ hb ht hn
  case trainOther => exact pathTrainRx_of_other ⟨hk, hin⟩ hb ht
  case trainBad => exact pathTrainRx_of_bad ⟨hk, hin⟩ hb
  case calPass => exact pathCal_of_pass ⟨hin, hst, hf, hc⟩ hw ht
  case calFail => exact pathCal_of_fail ⟨hin, hst, hf, hc⟩ ht
  case calReq => exact pathCalReq_of_good hk hb ht
  case calRetry => exact if_pos hc
  case noCalRetry => exact if_neg (ne_true_of_eq_false hc)
  case lockLost => exact pathLeaves_of_not_shadow hr
  case hiBer => exact (pathLeaves_of_not_shadow hr).trans (pathDown_of_service hin)
  case silent => exact (pathFails_of_silent hin hq ho hn).trans (pathLeaves_of_not_shadow hr)
  case notSilent => exact pathFails_of_heard h

end Sys2Proof.Machine
end

section
/-! Proofs of the family `10_measurement_and_echo.md`: the measurement commands and the Echo commands (R304, R308, R311–R316, R321–R334). -/
namespace Sys2Proof.Machine

/-! ### The effects of the measurement commands, branch by branch (R304, R308, R311–R316, R321) -/

section MeasurementCommands
variable {c : Cmd} {m : Mach}

theorem effAdcSeqConfig_of_fits (hfit : ((parseAdc c).seqs.zipIdx.all fun x => seqFits m x.2 x.1) = true) :
    effAdcSeqConfig c m = okDone { m with meas := { m.meas with adc := some (parseAdc c), seqs := List.replicate 4 seqRunInit } } := if_pos hfit

/-- The request of an ADC_URGENT, in order of effect (R308). -/
def hostReq (c : Cmd) (m : Mach) : AdcReq :=
  urgentReq (.host c.ring c.seq) false 16 (intakeAt m) (16 + m.meas.urgentOrder) ⟨c.f 1 1, c.f 2 1, c.f 4 2, 0⟩

/-- The device with one more ADC_URGENT counted. -/
def countUrgent (m : Mach) : Mach := { m with meas := { m.meas with urgentOrder := m.meas.urgentOrder + 1 } }

theorem effAdcUrgent_of_room (hfew : hostRequests (m.core (c.f 0 1)) < 4) (hfirst : (m.core (c.f 0 1)).waiting = []) :
    effAdcUrgent c m = (request (c.f 0 1) (hostReq c m) (countUrgent m), .hold) := by
  have hroom : (decide (hostRequests (m.core (c.f 0 1)) < 4) && (m.core (c.f 0 1)).waiting.isEmpty) = true := by simp [hfew, hfirst]
  exact if_pos hroom

/-- A fifth ADC_URGENT of a core waits behind those that wait already (R308). -/
theorem effAdcUrgent_of_full (hfull : 4 ≤ hostRequests (m.core (c.f 0 1)) ∨ (m.core (c.f 0 1)).waiting ≠ []) :
    effAdcUrgent c m =
      ((countUrgent m).setCore (c.f 0 1) { m.core (c.f 0 1) with waiting := (m.core (c.f 0 1)).waiting ++ [hostReq c m] }, .hold) := by
  have hnoRoom : ¬(decide (hostRequests (m.core (c.f 0 1)) < 4) && (m.core (c.f 0 1)).waiting.isEmpty) = true := by
    intro hroom
    obtain ⟨hfew, hfirst⟩ := Bool.and_eq_true_iff.1 hroom
    exact hfull.elim (Nat.not_le.2 (of_decide_eq_true hfew)) fun hne => hne (List.isEmpty_iff.1 hfirst)
  exact if_neg hnoRoom

/-- A chain configured as a whole outside RUN starts from its reset state (R311, R313). -/
theorem effChainConfig_of_whole (hr : m.dev.state = .ready) (hslow : outSlow m (parseChain c) = true) (hwhole : bitOf (c.b 0x24 4) 0 = false) :
    effChainConfig c m = okDone (m.setChain (c.b 0 1) { chainInit with cfg := some (parseChain c), sat := (m.chain (c.b 0 1)).sat }) := by
  have hnotRun : m.inState [.run] = false := by simp [Mach.inState, hr]
  simp [effChainConfig, hnotRun, hslow, hwhole]

theorem effChainBankSwap_of_some (hmask : c.f 0 2 ≠ 0 ∨ c.f 2 2 ≠ 0) :
    effChainBankSwap c m =
      okDone { m with meas := { m.meas with chains := (m.meas.chains.zipIdx).map fun p => let x1 := if bitOf (c.f 2 2) p.2 then { p.1 with sat := false } else p.1; if bitOf (c.f 0 2) p.2 then { x1 with swaps := p.1.swaps ++ [(intakeAt m : Int)] } else x1 } } :=
  if_neg (Decidable.not_and_iff_not_or_not.2 hmask)

theorem effChainBankSwap_of_zero (hswap : c.f 0 2 = 0) (hclear : c.f 2 2 = 0) : effChainBankSwap c m = okEmpty m := if_pos ⟨hswap, hclear⟩

theorem effSvSubscribe_of_ports_on (hon : portOff m (c.b 6 1) = false) :
    effSvSubscribe c m = okDone (m.setStream (c.b 0 1) { svInit with sub := some ⟨c.b 1 1, c.b 2 1, c.b 3 1, c.b 4 2, c.b 6 1, c.b 7 1, c.b 8 6, c.b 0x10 4, (c.buf.drop 0x18).take (c.b 0x14 1)⟩, state := .waiting }) :=
  if_neg (ne_true_of_eq_false hon)

theorem effSvUnsubscribe_of_subscribed {u : SvSub} (hsub : (m.stream (c.f 0 1)).sub = some u) :
    effSvUnsubscribe c m = okDone ((svHold (c.f 0 1) u.nch (m.invalidate (svBase (c.f 0 1)) true)).setStream (c.f 0 1) svInit) := by
  simp [effSvUnsubscribe, hsub]

theorem effSvUnsubscribe_of_free (hfree : (m.stream (c.f 0 1)).sub = none) : effSvUnsubscribe c m = okEmpty m := by
  simp [effSvUnsubscribe, hfree]

end MeasurementCommands

/-- Settles O29: acceptance leaves the cores, chains and streams that an effect reads, so each row owes only the branch of its effect; ADC_URGENT alone stays in effect. -/
theorem measurementCommandsComplete : Obligations.MeasurementCommandsComplete := by
  unfold Obligations.MeasurementCommandsComplete
  refine ⟨fun d s h hfit => ?seqConfig, fun d s h hfew hfirst => ?urgent, fun d s h hfull => ?urgentFull, fun d s h hr hslow hwhole => ?chain,
    fun d s h hmask => ?swap, fun d s h hswap hclear => ?swapNone, fun d s h => ?rim, fun d s h hon => ?subscribe,
    fun d s h u hsub => ?unsubscribe, fun d s h hfree => ?unsubscribeFree⟩
  case urgent => exact congrArg Host.Outcome.next (run_hostCommand_of_hold h (effAdcUrgent_of_room (by simpa using hfew) (by simpa using hfirst)))
  case urgentFull => exact congrArg Host.Outcome.next (run_hostCommand_of_hold h (effAdcUrgent_of_full (by simpa using hfull)))
  all_goals refine congrArg Host.Outcome.next (run_hostCommand_of_done h ?_)
  case seqConfig => exact effAdcSeqConfig_of_fits (by simpa using hfit)
  case chain => exact effChainConfig_of_whole (by simpa using hr) (by simpa using hslow) hwhole
  case swap => exact effChainBankSwap_of_some hmask
  case swapNone => exact effChainBankSwap_of_zero hswap hclear
  case rim => rfl
  case subscribe => exact effSvSubscribe_of_ports_on hon
  case unsubscribe => exact effSvUnsubscribe_of_subscribed (by simpa using hsub)
  case unsubscribeFree => exact effSvUnsubscribe_of_free (by simpa using hfree)

/-! ### The effects of the Echo commands, by the state of the slot (R322, R325, R327) -/

section EchoCommands
variable {c : Cmd} {m : Mach} {g : EchoCfg}

theorem effEchoArm_of_free (hfree : (m.echo (c.b 0 1)).cfg = none) (hfit : echoAlloc (parseEcho c) ≤ echoFree m) :
    effEchoArm c m = okDone (m.setEcho (c.b 0 1) (echoArmed (parseEcho c) (m.echo (c.b 0 1)))) :=
  (if_neg (by simp [hfree])).trans (if_neg (Nat.not_lt.2 hfit))

theorem effEchoArm_of_armed (harmed : (m.echo (c.b 0 1)).cfg = some g) : effEchoArm c m = reject stSTATE m := if_pos (by simp [harmed])

theorem effEchoTrigger_of_some_armed (hsome : ((List.range 8).all fun n => !bitOf (c.f 0 1) n || (m.echo n).cfg.isNone) = false) :
    effEchoTrigger c m =
      okDone ((List.range 8).foldl (fun m n => if bitOf (c.f 0 1) n then echoNote n ⟨0xFF, 5, 0, intakeAt m * 65536, m.tb.k⟩ m else m) m) :=
  if_neg (ne_true_of_eq_false hsome)

theorem effEchoTrigger_of_none_armed (hnone : ((List.range 8).all fun n => !bitOf (c.f 0 1) n || (m.echo n).cfg.isNone) = true) :
    effEchoTrigger c m = okEmpty m := if_pos hnone

/-- A slot that is armed, and that none of the triggers it has met triggers, is freed (R325). -/
theorem effEchoDisarm_of_not_triggered (harmed : (m.echo (c.f 0 1)).cfg = some g) (hwait : (m.echo (c.f 0 1)).waiting = none)
    (htrig : ((echoTakeAll (c.f 0 1) m).echo (c.f 0 1)).trig = none) :
    effEchoDisarm c m = okDone (m.setEcho (c.f 0 1) { echoInit with last := (m.echo (c.f 0 1)).last }) := by
  simp [effEchoDisarm, harmed, hwait, htrig]

/-- The record of a slot that is recording is complete as it stands (R325). -/
theorem effEchoDisarm_of_recording (harmed : (m.echo (c.f 0 1)).cfg = some g) (hwait : (m.echo (c.f 0 1)).waiting = none)
    (htrig : ((echoTakeAll (c.f 0 1) m).echo (c.f 0 1)).trig.isSome = true) :
    effEchoDisarm c m =
      okDone (let m1 := echoTakeAll (c.f 0 1) m; echoComplete (chainTs m) (c.f 0 1) (m1.setEcho (c.f 0 1) { m1.echo (c.f 0 1) with trunc := true })) := by
  simp [effEchoDisarm, harmed, hwait, htrig]

theorem effEchoDisarm_of_waiting (harmed : (m.echo (c.f 0 1)).cfg = some g) (hwait : (m.echo (c.f 0 1)).waiting.isSome = true) :
    effEchoDisarm c m = okDone (m.setEcho (c.f 0 1) { m.echo (c.f 0 1) with cfg := some { g with autoRearm := false } }) := by
  simp [effEchoDisarm, harmed, hwait]

theorem effEchoDisarm_of_free (hfree : (m.echo (c.f 0 1)).cfg = none) : effEchoDisarm c m = okEmpty m := by
  simp [effEchoDisarm, hfree]

theorem effEchoRead_of_fits {x : List Byte} (hlast : (m.echo (c.b 0 1)).last = some x) (hlen : x.length ≤ c.len) :
    effEchoRead c m = okDone (writeBuf c x m) := by
  simp [effEchoRead, hlast, Nat.not_lt.2 hlen]

theorem effEchoRead_of_none (hnone : (m.echo (c.b 0 1)).last = none) : effEchoRead c m = okEmpty m := by
  simp [effEchoRead, hnone]

end EchoCommands

/-- Settles O30: acceptance leaves the Echo slots, so each row owes only the branch of its effect that the state of the slot selects. -/
theorem echoCommandsComplete : Obligations.EchoCommandsComplete := by
  unfold Obligations.EchoCommandsComplete
  refine ⟨fun d s h hfree hfit => ?arm, fun d s h g harmed => ?armAgain, fun d s h hsome => ?trigger, fun d s h hnone => ?triggerNone,
    fun d s h g harmed hwait htrig => ?disarmArmed, fun d s h g harmed hwait htrig => ?disarmRecording, fun d s h g harmed hwait => ?disarmWaiting,
    fun d s h hfree => ?disarmFree, fun d s h x hlast hlen => ?read, fun d s h hnone => ?readNone⟩
  all_goals refine congrArg Host.Outcome.next (run_hostCommand_of_done h ?_)
  case arm => exact effEchoArm_of_free (by simpa using hfree) (by simpa using hfit)
  case armAgain => exact effEchoArm_of_armed (by simpa using harmed)
  case trigger => exact effEchoTrigger_of_some_armed (by simpa using hsome)
  case triggerNone => exact effEchoTrigger_of_none_armed (by simpa using hnone)
  case disarmArmed => exact effEchoDisarm_of_not_triggered (by simpa using harmed) (by simpa using hwait) htrig
  case disarmRecording => exact effEchoDisarm_of_recording (by simpa using harmed) (by simpa using hwait) htrig
  case disarmWaiting => exact effEchoDisarm_of_waiting (by simpa using harmed) (by simpa using hwait)
  case disarmFree => exact effEchoDisarm_of_free (by simpa using hfree)
  case read => exact (effEchoRead_of_fits (by simpa using hlast) hlen).trans (congrArg okDone (writeBuf_taken h _))
  case readNone => exact effEchoRead_of_none (by simpa using hnone)

end Sys2Proof.Machine
end

section
/-! Proofs of the family `10_measurement_and_echo.md`: conversions, continuous triggers, trigger lines and Siphon (R303–R310, R323, R324, R329, R366). -/
namespace Sys2Proof.Machine

/-! ### A row whose meaning is guarded by the state of the device -/

section Rows
variable {s : State} {m : Mach} {f : Mach → Mach}

theorem next_run_of_eq (h : f s.start = m) : (Host.Outcome.next (s.run f) : Host.Outcome State Fault Refusal) = .next (s.to m) :=
  congrArg (fun m => Host.Outcome.next (s.to m)) h

theorem next_run_of_measures (hm : s.start.measures = true) (h : f s.start = m) :
    (Host.Outcome.next (s.run fun m => if m.measures then f m else m) : Host.Outcome State Fault Refusal) = .next (s.to m) :=
  next_run_of_eq ((if_pos hm).trans h)

theorem next_run_of_working (hw : s.start.working = true) (h : f s.start = m) :
    (Host.Outcome.next (s.run (whenWorking f)) : Host.Outcome State Fault Refusal) = .next (s.to m) :=
  next_run_of_eq ((if_pos hw).trans h)

/-- A row that does nothing where the device works does nothing in any state. -/
theorem next_run_whenWorking_of_idle (h : f s.start = s.start) :
    (Host.Outcome.next (s.run (whenWorking f)) : Host.Outcome State Fault Refusal) = .next (s.to s.start) :=
  next_run_of_idle ((ite_congr rfl (fun _ => h) fun _ => rfl).trans (ite_self _))

end Rows

/-! ### The end of a conversion (R303, R306, R307, R310) -/

section Conversions
variable {m : Mach} {k vref x y : Nat} {v : Int} {src : AdcSrc} {a : AdcRun}

theorem beginIdle_of_running (hrun : (m.core k).running = some a) (p : Nat → Bool) : beginIdle k p m = m := if_pos (by simp [hrun])

theorem beginIdle_of_none_due (hrun : (m.core k).running = none) (hlow : (m.seqRun (2 * k)).due = []) (hhigh : (m.seqRun (2 * k + 1)).due = [])
    (p : Nat → Bool) : beginIdle k p m = m := by
  simp [beginIdle, seqHead, hrun, hlow, hhigh]

/-- The core that made a conversion goes on to the next one (R306, R309). -/
def freeCore (k : Nat) (a : AdcRun) (m : Mach) : Mach := nextConv k a.endQ (m.setCore k { m.core k with running := none })

/-- Where the code of a conversion goes: to its sequencer entry, to its urgent slot, or to the ADC_URGENT that asked for it (R307, R310). -/
def giveCode (k : Nat) (a : AdcRun) (code : Int × Bool) (m : Mach) : AdcSrc → Mach
  | .entry s e => adcResult (0xC4000 + 16 * s + e) (0x30 + s) code a.sampleQ a.endQ (some (s, e)) m
  | .slot u => if siphonLost m 7 then m else adcResult (0xC4040 + u) (if k = 0 then 0x30 else 0x32) code a.sampleQ a.endQ none m
  | .host ring seq => completeLater ring seq ⟨stDONE, nanosOf (a.sampleQ / 4), unsigned 32 code.1, if code.2 then cfCLAMP else 0, []⟩ m

theorem conversionDone_of_running (hrun : (m.core k).running = some a) (hsrc : a.req.src = src) :
    conversionDone k src v vref a.sampleQ a.endQ m = giveCode k a (adcCode a.req.entry.input v a.req.entry.gain vref) (freeCore k a m) src := by
  subst hsrc
  have his : a.is a.req.src a.sampleQ a.endQ = true := by simp [AdcRun.is]
  simp only [conversionDone, beginIdle_of_running hrun, hrun, Option.filter_some, his, if_true]
  rfl

theorem conversionDone_of_none (hrun : (m.core k).running = none) (hlow : (m.seqRun (2 * k)).due = []) (hhigh : (m.seqRun (2 * k + 1)).due = []) :
    conversionDone k src v vref x y m = m := by
  simp [conversionDone, beginIdle_of_none_due hrun hlow hhigh, hrun]

/-- The end of a conversion that the core does not make is none (R307). -/
theorem conversionDone_of_other (hrun : (m.core k).running = some a) (hother : a.req.src ≠ src ∨ a.sampleQ ≠ x ∨ a.endQ ≠ y) :
    conversionDone k src v vref x y m = m := by
  have his : a.is src x y = false := by
    simpa [AdcRun.is, Decidable.imp_iff_not_or, or_assoc] using hother
  simp only [conversionDone, beginIdle_of_running hrun, hrun, Option.filter_some, his, Bool.false_eq_true, if_false]

end Conversions

/-! ### Continuous triggers and trigger lines (R304, R305, R323, R324) -/

section Triggers
variable {m : Mach} {n a l w : Nat} {q : AdcSeq} {s : State}

theorem seqTrigger_of_span_fits (hq : m.seqCfg n = some q) (hmode : q.mode = 2) (hspan : spanQ (m.core (n / 2)).low q.entries ≤ 4 * q.repeatNs) :
    seqTrigger n a m =
      skipped n 0 (m.setSeq n { m.seqRun n with due := (m.seqRun n).due ++ q.entries.zipIdx.map fun x => ⟨.entry n x.2, false, 16, a, x.2, x.1, 4 * (a + x.1.tSample)⟩ }) := by
  simp [seqTrigger, hq, hmode, hspan]

/-- A trigger whose span overruns the next one asks for nothing (R305). -/
theorem seqTrigger_of_span_too_long (hq : m.seqCfg n = some q) (hmode : q.mode = 2) (hspan : 4 * q.repeatNs < spanQ (m.core (n / 2)).low q.entries) :
    seqTrigger n a m = skipped n q.entries.length (m.setSeq n (m.seqRun n)) := by
  simp [seqTrigger, hq, hmode, Nat.not_le.2 hspan]

/-- A sequencer is triggered at an instant of its grid alone (R304). -/
theorem exec_adcContinuousTrigger_of_due {t : Mach} (hm : s.start.measures = true) (hq : s.start.seqCfg n = some q) (hmode : q.mode = 2)
    (hgrid : ((a : Int) - s.start.tb.anchor) % (q.repeatNs : Int) = 0) (h : seqTrigger n a s.start = t) :
    exec (.adcContinuousTrigger n a) s = .next (s.to t) := by
  have hdue : (s.start.measures && q.mode == 2 && ((a : Int) - s.start.tb.anchor) % (q.repeatNs : Int) == 0) = true := by simp only [hm, hmode, hgrid]; rfl
  refine next_run_of_eq ?_
  rw [hq]
  exact (if_pos hdue).trans h

theorem exec_adcContinuousTrigger_of_not_due (hq : s.start.seqCfg n = some q)
    (hout : q.mode ≠ 2 ∨ ((a : Int) - s.start.tb.anchor) % (q.repeatNs : Int) ≠ 0) : exec (.adcContinuousTrigger n a) s = .next (s.to s.start) := by
  refine next_run_of_idle ?_
  rw [hq]
  refine if_neg fun hdue => ?_
  obtain ⟨hmode, hgrid⟩ := Bool.and_eq_true_iff.1 hdue
  obtain ⟨-, hmode⟩ := Bool.and_eq_true_iff.1 hmode
  exact hout.elim (absurd (beq_iff_eq.1 hmode)) (absurd (beq_iff_eq.1 hgrid))

theorem trgEdge_of_ignored (h : w < 20 ∨ m.meas.trgDriven.getD l false = true) : trgEdge l a w m = m := by
  refine if_pos ?_
  obtain hshort | hdriven := h
  · simp [hshort]
  · rw [hdriven, Bool.or_true, Bool.true_or]

/-- An edge from outside: wide enough, on a line that the device does not drive, in a device that measures (R323, R324). -/
abbrev EdgeCounts (m : Mach) (l w : Nat) : Prop := 20 ≤ w ∧ m.meas.trgDriven.getD l false = false ∧ m.measures = true

theorem not_ignored_of_edgeCounts (h : EdgeCounts m l w) : ¬(decide (w < 20) || m.meas.trgDriven.getD l false || !m.measures) = true := by
  obtain ⟨hwide, hfree, hmeasures⟩ := h
  rw [hfree, hmeasures, decide_eq_false (Nat.not_lt.2 hwide)]
  decide

theorem trgEdge_of_input_off (h : EdgeCounts m l w) (hin : bitOf ((triggerSlots l a m).fld F.echoTrgInEn) l = false) :
    trgEdge l a w m = triggerSlots l a m :=
  (if_neg (not_ignored_of_edgeCounts h)).trans (if_neg (ne_true_of_eq_false hin))

theorem trgEdge_of_input_on (h : EdgeCounts m l w) (hin : bitOf ((triggerSlots l a m).fld F.echoTrgInEn) l = true) :
    trgEdge l a w m =
      (let m1 := triggerSlots l a m; echoResolveAll (chainTs m1) false (echoEvent (fun d => d.kind == 3 && d.which == l) 3 (a * 65536) m1)) :=
  (if_neg (not_ignored_of_edgeCounts h)).trans (if_pos hin)

end Triggers

/-! ### The Siphon channels as a list -/

section SiphonList
variable {m : Mach} {c i : Nat} {x y : SiphonCh}

theorem siphonCh_setSiphon_same (hc : c < m.meas.siphon.length) : (m.setSiphon c x).siphonCh c = x :=
  List.getD_eq_getElem?_getD.trans (congrArg (·.getD siphonInit) (List.getElem?_set_self hc))

theorem setSiphon_setSiphon : (m.setSiphon c x).setSiphon c y = m.setSiphon c y :=
  congrArg (fun l => { m with meas := { m.meas with siphon := l } }) (List.set_set x)

/-- The device in which a burst of a channel has moved and has left the channel as `y`: the turn stands at it (R329). -/
def afterBurst (c : Nat) (y : SiphonCh) (m : Mach) : Mach :=
  { m with meas := { m.meas with siphonTurn := c, siphon := setAt m.meas.siphon c y } }

theorem afterBurst_setSiphon : afterBurst c y (m.setSiphon c x) = afterBurst c y m :=
  congrArg (fun l => { m with meas := { m.meas with siphonTurn := c, siphon := l } }) (List.set_set x)

theorem siphonReady_setSiphon_other (hi : i ≠ c) : siphonReady (m.setSiphon c x) i = siphonReady m i := by
  have hch : (m.setSiphon c x).siphonCh i = m.siphonCh i := by
    simp [Mach.siphonCh, Mach.setSiphon, setAt, List.getD_eq_getElem?_getD, List.getElem?_set_ne hi.symm]
  simp only [siphonReady, hch]

theorem siphonReady_of_paced (ha : (m.siphonCh c).active = true) (hp : (m.siphonCh c).paced = true) : siphonReady m c = (m.siphonCh c).burst := by
  simp [siphonReady, ha, hp]

theorem siphonReady_of_inactive (ha : (m.siphonCh c).active = false) : siphonReady m c = none := by simp [siphonReady, ha]

theorem siphonReady_siphonCopy (d : SiphonDesc) : siphonReady (siphonCopy d m) i = siphonReady m i := by
  unfold siphonCopy
  split <;> rfl

end SiphonList

/-! ### The channel whose burst moves next (R329) -/

section SiphonPick
variable {m : Mach} {c b f : Nat}

/-- One channel weighed against the best of those before it. -/
def pickStep (m : Mach) (best : Option (Nat × Nat)) (ch : Nat) : Option (Nat × Nat) :=
  match siphonReady m ch with
  | none => best
  | some b => match best with
    | none => some (ch, b)
    | some x => if (m.siphonCh ch).prio < (m.siphonCh x.1).prio then some (ch, b) else best

/-- The channels in turn, from the one after the channel that moved last. -/
def siphonOrder (m : Mach) : List Nat := (List.range 32).map fun i => (m.meas.siphonTurn + 1 + i) % 32

theorem siphonPick_eq : siphonPick m = (siphonOrder m).foldl (pickStep m) none := rfl

theorem mem_siphonOrder : c ∈ siphonOrder m ↔ c < 32 := by
  simp only [siphonOrder, List.mem_map, List.mem_range]
  constructor
  · rintro ⟨i, -, rfl⟩
    exact Nat.mod_lt _ (by decide)
  · intro hc
    exact ⟨(c + 31 * (m.meas.siphonTurn + 1)) % 32, Nat.mod_lt _ (by decide), by omega⟩

theorem pickStep_of_idle {i : Nat} (hi : siphonReady m i = none) (best : Option (Nat × Nat)) : pickStep m best i = best := by
  simp [pickStep, hi]

theorem foldl_pickStep_of_idle {l : List Nat} (hidle : ∀ i ∈ l, siphonReady m i = none) (best : Option (Nat × Nat)) :
    l.foldl (pickStep m) best = best := by
  induction l with
  | nil => rfl
  | cons i l ih => rw [List.foldl_cons, pickStep_of_idle (hidle i List.mem_cons_self), ih fun j hj => hidle j (List.mem_cons_of_mem i hj)]

/-- The one channel that is ready is the best as soon as its turn has come. -/
theorem foldl_pickStep_of_only {l : List Nat} (hc : siphonReady m c = some b) (hidle : ∀ i ∈ l, i ≠ c → siphonReady m i = none)
    {best : Option (Nat × Nat)} (hbest : best = none ∨ best = some (c, b)) :
    l.foldl (pickStep m) best = if c ∈ l then some (c, b) else best := by
  induction l generalizing best with
  | nil => rfl
  | cons i l ih =>
    have ih' := @ih fun j hj => hidle j (List.mem_cons_of_mem i hj)
    by_cases hi : i = c
    · subst hi
      have hstep : pickStep m best i = some (i, b) := by
        obtain rfl | rfl := hbest <;> simp [pickStep, hc]
      rw [List.foldl_cons, hstep, ih' (.inr rfl), ite_self, if_pos List.mem_cons_self]
    · rw [List.foldl_cons, pickStep_of_idle (hidle i List.mem_cons_self hi), ih' hbest]
      simp [Ne.symm hi]

theorem siphonRun_of_idle (hidle : ∀ i, i < 32 → siphonReady m i = none) : siphonRun f m = m := by
  cases f with
  | zero => rfl
  | succ f =>
    have hpick : siphonPick m = none :=
      siphonPick_eq.trans (foldl_pickStep_of_idle (fun i hi => hidle i (mem_siphonOrder.1 hi)) none)
    simp [siphonRun, hpick]

/-- Where one channel alone is ready and none is after its burst, that burst is all that moves. -/
theorem siphonRun_of_only {m' : Mach} (hc : c < 32) (hready : siphonReady m c = some b) (hothers : ∀ i, i < 32 → i ≠ c → siphonReady m i = none)
    (hburst : siphonBurst c b m = m') (hafter : ∀ i, i < 32 → siphonReady m' i = none) : siphonRun (f + 1) m = m' := by
  have hpick : siphonPick m = some (c, b) := by
    rw [siphonPick_eq, foldl_pickStep_of_only hready (fun i hi => hothers i (mem_siphonOrder.1 hi)) (.inl rfl), if_pos (mem_siphonOrder.2 hc)]
  simp only [siphonRun, hpick, hburst]
  exact siphonRun_of_idle hafter

end SiphonPick

/-! ### A request of a channel's peripheral (R329, R366) -/

section SiphonRequests
variable {m : Mach} {c n b : Nat} {d : SiphonDesc}

theorem siphonRequest_of_reserved (hc : 22 ≤ c) (next : Option SiphonDesc) : siphonRequest c n next m = m := if_pos hc

theorem siphonBurst_of_part (hd : (m.siphonCh c).desc = some d) (hh : (m.siphonCh c).host = false) (hb : b < (m.siphonCh c).remain) :
    siphonBurst c b m = afterBurst c { m.siphonCh c with remain := (m.siphonCh c).remain - b, burst := none } m := by
  simp only [siphonBurst, hd, hh, Bool.false_and, Bool.false_eq_true, if_false, if_pos (Nat.sub_pos_of_lt hb)]
  rfl

/-- The last burst completes the descriptor of a channel that has none linked (R329). -/
theorem siphonBurst_of_last (hd : (m.siphonCh c).desc = some d) (hh : (m.siphonCh c).host = false) (hl : (m.siphonCh c).linked = false)
    (hb : (m.siphonCh c).remain ≤ b) :
    siphonBurst c b m =
      (siphonCopy d (afterBurst c { siphonInit with doneCnt := ((m.siphonCh c).doneCnt + 1) % 65536 } m)).send (.siphonEvent c true) := by
  have hdone : ¬0 < (m.siphonCh c).remain - b := by omega
  simp only [siphonBurst, hd, hh, hl, Bool.false_and, Bool.false_eq_true, if_false, if_neg hdone]
  rfl

/-- A channel at the pace of its peripheral, not bound for the host and with no descriptor linked, while no other channel has a burst to move. -/
structure PacedAlone (m : Mach) (c : Nat) (d : SiphonDesc) : Prop where
  served : c < 22
  listed : c < m.meas.siphon.length
  active : (m.siphonCh c).active = true
  paced : (m.siphonCh c).paced = true
  desc : (m.siphonCh c).desc = some d
  host : (m.siphonCh c).host = false
  linked : (m.siphonCh c).linked = false
  others : ∀ i, i < 32 → i ≠ c → siphonReady m i = none

/-- The device with the burst that a channel's peripheral has requested. -/
def requested (c n : Nat) (m : Mach) : Mach := m.setSiphon c { m.siphonCh c with burst := some (max n 1) }

theorem siphonCh_requested (h : PacedAlone m c d) : (requested c n m).siphonCh c = { m.siphonCh c with burst := some (max n 1) } :=
  siphonCh_setSiphon_same h.listed

theorem siphonRequest_of_paced (h : PacedAlone m c d) : siphonRequest c n none m = siphonRun 32 (requested c n m) := by
  have hpaced : ((m.siphonCh c).active && (m.siphonCh c).paced) = true := by rw [h.active, h.paced]; rfl
  exact (if_neg (Nat.not_le.2 h.served)).trans (congrArg (siphonRun 32) (if_pos hpaced))

/-- A request of the one channel with a burst to move moves that burst and no more, where the burst leaves the channel as `y`. -/
theorem siphonRequest_of_alone (h : PacedAlone m c d) {y : SiphonCh} {m' : Mach} (hburst : siphonBurst c (max n 1) (requested c n m) = m')
    (hready : ∀ i, siphonReady m' i = siphonReady (m.setSiphon c y) i) (hy : y.active = false ∨ y.paced = true ∧ y.burst = none) :
    siphonRequest c n none m = m' := by
  rw [siphonRequest_of_paced h]
  refine siphonRun_of_only (h.served.trans (by decide)) ?_ (fun i hi hne => (siphonReady_setSiphon_other hne).trans (h.others i hi hne)) hburst fun i hi => ?_
  · rw [siphonReady_of_paced] <;> simp [siphonCh_requested h, h.active, h.paced]
  rw [hready]
  by_cases hne : i = c
  · subst hne
    simp only [siphonReady, siphonCh_setSiphon_same h.listed]
    obtain hoff | ⟨hpaced, hnone⟩ := hy
    · simp [hoff]
    · simp [hpaced, hnone]
  · exact (siphonReady_setSiphon_other hne).trans (h.others i hi hne)

theorem siphonRequest_of_part (h : PacedAlone m c d) (hmore : max n 1 < (m.siphonCh c).remain) :
    siphonRequest c n none m = afterBurst c { m.siphonCh c with remain := (m.siphonCh c).remain - max n 1, burst := none } m := by
  have hch := siphonCh_requested (n := n) h
  refine siphonRequest_of_alone h ?_ (fun _ => rfl) (.inr ⟨h.paced, rfl⟩)
  rw [siphonBurst_of_part (by rw [hch]; exact h.desc) (by rw [hch]; exact h.host) (by rw [hch]; exact hmore), hch]
  exact afterBurst_setSiphon

theorem siphonRequest_of_last (h : PacedAlone m c d) (hlast : (m.siphonCh c).remain ≤ max n 1) :
    siphonRequest c n none m =
      (siphonCopy d (afterBurst c { siphonInit with doneCnt := ((m.siphonCh c).doneCnt + 1) % 65536 } m)).send (.siphonEvent c true) := by
  have hch := siphonCh_requested (n := n) h
  refine siphonRequest_of_alone h ?_ (fun i => siphonReady_siphonCopy d) (.inl rfl)
  rw [siphonBurst_of_last (by rw [hch]; exact h.desc) (by rw [hch]; exact h.host) (by rw [hch]; exact h.linked) (by rw [hch]; exact hlast), hch]
  exact congrArg (fun m => (siphonCopy d m).send (.siphonEvent c true)) afterBurst_setSiphon

/-- A channel stopped on a bad descriptor, with its flag and event (R329). -/
def siphonStopped (c : Nat) (m : Mach) : Mach :=
  ((m.setSiphon c { siphonInit with stopped := true, doneCnt := (m.siphonCh c).doneCnt }).setF F.siphonStatusBad
    (putBits (m.reg.raw F.siphonStatusBad) c 1 1)).post 0x060D [c]

/-- A channel as it stands on a descriptor of which nothing has moved. -/
def siphonLoaded (c : Nat) (d : SiphonDesc) (burst : Option Nat) (m : Mach) : SiphonCh :=
  { siphonInit with desc := some d, remain := d.count, prio := siphonPrio c d, active := true, paced := d.paced, host := d.host, linked := d.linked, doneCnt := (m.siphonCh c).doneCnt, burst := burst }

theorem siphonStart_of_bad (hbad : d.bad = true) : siphonStart c d m = siphonStopped c m := if_pos hbad

theorem siphonStart_of_good (hgood : d.bad = false) (hcount : 0 < d.count) : siphonStart c d m = m.setSiphon c (siphonLoaded c d none m) :=
  (if_neg (ne_true_of_eq_false hgood)).trans (if_neg hcount.ne')

/-- A request with a descriptor on an idle channel starts it; the request then is for its first burst where the channel is paced (R329). -/
theorem siphonRequest_of_start (hserved : c < 22) (hlisted : c < m.meas.siphon.length) (hidle : (m.siphonCh c).active = false) (hcount : 0 < d.count) :
    siphonRequest c n (some d) m = siphonRun 32 (if d.bad then siphonStopped c m
      else m.setSiphon c (siphonLoaded c d (if d.paced then some (max n 1) else none) m)) := by
  have hstart : siphonRequest c n (some d) m = siphonRun 32
      (if ((siphonStart c d m).siphonCh c).active && ((siphonStart c d m).siphonCh c).paced then requested c n (siphonStart c d m) else siphonStart c d m) := by
    simp only [siphonRequest, if_neg (Nat.not_le.2 hserved), hidle, Bool.false_eq_true, if_false]
    rfl
  refine hstart.trans (congrArg (siphonRun 32) ?_)
  cases hbad : d.bad
  case true =>
    have hch : (siphonStopped c m).siphonCh c = { siphonInit with stopped := true, doneCnt := (m.siphonCh c).doneCnt } := siphonCh_setSiphon_same hlisted
    rw [siphonStart_of_bad hbad, hch]
    rfl
  case false =>
    have hch : (m.setSiphon c (siphonLoaded c d none m)).siphonCh c = siphonLoaded c d none m := siphonCh_setSiphon_same hlisted
    rw [siphonStart_of_good hbad hcount, requested, hch, setSiphon_setSiphon]
    cases hpaced : d.paced <;> simp [siphonLoaded, hpaced]

end SiphonRequests

/-- Settles O49: a conversion asks that the device measures, a trigger line that it is up, and a Siphon request that it works; each clause is the branch of the meaning that its hypotheses select. -/
theorem conversionStepsComplete : Obligations.ConversionStepsComplete := by
  unfold Obligations.ConversionStepsComplete
  refine ⟨fun k vref n e v a s hm hrun hsrc => ?entry, fun k vref u v a s hm hrun hsrc hmoves => ?slot, fun k vref r q v a s hm hrun hsrc => ?urgent,
    fun k vref x y src v s hm hrun hlow hhigh => ?noneRuns, fun k vref x y src v a s hm hrun hother => ?otherRuns,
    fun n a q s hm hq hmode hgrid hspan => ?triggered, fun n a q s hm hq hmode hgrid hspan => ?tooLong, fun n a q s hq hout => ?offGrid,
    fun l a w s up hwide hfree hm hin => ?edge, fun l a w s up hwide hfree hm hin => ?edgeToEcho, fun l a w s up h => ?noEdge, fun l s => rfl,
    fun c n d s hw hc hlen ha hp hd hh hl hothers hmore => ?burst, fun c n d s hw hc hlen ha hp hd hh hl hothers hlast => ?lastBurst,
    fun c n d s hw hc hlen ha hcount => ?start, fun c n d s hc => ?reserved⟩
  case entry => exact next_run_of_measures hm (conversionDone_of_running hrun hsrc)
  case slot => exact next_run_of_measures hm ((conversionDone_of_running hrun hsrc).trans (if_neg (ne_true_of_eq_false hmoves)))
  case urgent => exact next_run_of_measures hm (conversionDone_of_running hrun hsrc)
  case noneRuns => exact next_run_of_measures hm (conversionDone_of_none hrun hlow hhigh)
  case otherRuns => exact next_run_of_measures hm (conversionDone_of_other hrun hother)
  case triggered => exact exec_adcContinuousTrigger_of_due hm hq hmode hgrid (seqTrigger_of_span_fits hq hmode hspan)
  case tooLong => exact exec_adcContinuousTrigger_of_due hm hq hmode hgrid (seqTrigger_of_span_too_long hq hmode hspan)
  case offGrid => exact exec_adcContinuousTrigger_of_not_due hq hout
  case edge => exact next_run_of_up up (trgEdge_of_input_off ⟨hwide, hfree, hm⟩ hin)
  case edgeToEcho => exact next_run_of_up up (trgEdge_of_input_on ⟨hwide, hfree, hm⟩ hin)
  case noEdge => exact next_run_of_up up (trgEdge_of_ignored h)
  case burst => exact next_run_of_working hw (siphonRequest_of_part ⟨hc, hlen, ha, hp, hd, hh, hl, hothers⟩ hmore)
  case lastBurst => exact next_run_of_working hw (siphonRequest_of_last ⟨hc, hlen, ha, hp, hd, hh, hl, hothers⟩ hlast)
  case start => exact next_run_of_working hw (siphonRequest_of_start hc hlen ha hcount)
  case reserved => exact next_run_whenWorking_of_idle (siphonRequest_of_reserved hc d)

end Sys2Proof.Machine
end

section
/-! Proofs of the family `10_measurement_and_echo.md`: the sampled-value streams, GOOSE blocks and far channels (R318–R321, R337–R352). -/
namespace Sys2Proof.Machine

/-! ### Sampled-value streams (R318, R319, R321) -/

/-- A frame without a redundancy trailer is no second copy, and nothing is noted of it (R341). -/
theorem prpTake_of_none (src port : Nat) (m : Mach) : prpTake src port none m = (m, false) := by
  unfold prpTake
  split
  next h => cases h
  next => rfl

section Streams
variable {m : Mach} {f : SvFrame} {n : Nat}

theorem svRx_of_not_taken (h : portTakes m f.port f.dest = false ∨ m.measures = false) : svRx f m = m := by
  refine if_pos ?_
  obtain hport | hmeasures := h
  · rw [hport]; rfl
  · rw [hmeasures, Bool.not_false, Bool.or_true]

theorem taken_of_portTakes_of_measures (hport : portTakes m f.port f.dest = true) (hm : m.measures = true) :
    ¬(!portTakes m f.port f.dest || !m.measures) = true := by simp [hport, hm]

/-- A simulated frame counts as unknown (R318). -/
theorem svRx_of_simulated (hport : portTakes m f.port f.dest = true) (hm : m.measures = true) (hsim : f.sim = true) :
    svRx f m = m.bump (F.ethCountRxUnknown f.port) 1 :=
  (if_neg (taken_of_portTakes_of_measures hport hm)).trans (if_pos hsim)

/-- A frame has one to eight ASDUs with counts below the rate, and an APPID of the range of R318. -/
structure SvFrame.Good (f : SvFrame) : Prop where
  some : f.asdus ≠ []
  few : f.asdus.length ≤ 8
  counts : (f.asdus.any fun a => decide (f.rate ≤ a.smpCnt)) = false
  appidLow : 0x4000 ≤ f.appid
  appidHigh : f.appid ≤ 0x7FFF

theorem SvFrame.Good.not_malformed (h : f.Good) :
    ¬(f.asdus.isEmpty = true ∨ 8 < f.asdus.length ∨ (f.asdus.any fun a => decide (f.rate ≤ a.smpCnt)) = true
      ∨ (!(decide (0x4000 ≤ f.appid) && decide (f.appid ≤ 0x7FFF))) = true) := by
  rintro (hempty | hmany | hcount | happid)
  · exact h.some (List.isEmpty_iff.1 hempty)
  · exact Nat.not_lt.2 h.few hmany
  · exact absurd hcount (ne_true_of_eq_false h.counts)
  · simp [h.appidLow, h.appidHigh] at happid

/-- A good frame is offered to every stream (R321). -/
theorem svRx_of_good (hport : portTakes m f.port f.dest = true) (hm : m.measures = true) (hsim : f.sim = false) (hmoves : siphonLost m 4 = false)
    (hrct : f.rct = none) (hgood : f.Good) : svRx f m = (List.range 64).foldl (svStream f) m := by
  refine (if_neg (taken_of_portTakes_of_measures hport hm)).trans ((if_neg (ne_true_of_eq_false hsim)).trans
    ((if_neg (ne_true_of_eq_false hmoves)).trans ((if_neg hgood.not_malformed).trans ?_)))
  rw [hrct, prpTake_of_none]
  rfl

theorem svLost_of_active {u : SvSub} (hs : (m.stream n).state = .active) (hu : (m.stream n).sub = some u) :
    svLost n m =
      ((svHold n u.nch (m.setStream n { m.stream n with state := .lost, sample := none, lateSample := none })).raise F.adcStatusSvLost).post 0x0607 [] := by
  simp only [svLost, hs, hu]

theorem svLost_of_not_active (hs : (m.stream n).state ≠ .active) : svLost n m = m := by
  unfold svLost
  dsimp only
  split
  next hactive _ => exact absurd hactive hs
  next => rfl

end Streams

/-! ### GOOSE blocks (R342, R343, R345, R346) -/

section Goose
variable {m : Mach} {f : GooseFrame} {n a : Nat}

theorem gooseRx_of_not_taken (h : portTakes m f.port f.dest = false ∨ f.sim = true) : gooseRx f m = m := by
  refine if_pos ?_
  obtain hport | hsim := h
  · rw [hport]; rfl
  · rw [hsim, Bool.or_true]

theorem gooseRx_of_taken (hport : portTakes m f.port f.dest = true) (hsim : f.sim = false) (hrct : f.rct = none) :
    gooseRx f m = (List.range 128).foldl (gooseStream f) m := by
  refine (if_neg (by simp [hport, hsim])).trans ?_
  rw [hrct, prpTake_of_none]
  rfl

/-- A published block after a retransmission: sqNum counts, and the interval lengthens up to T_MAX (R345). -/
def retransmitted (g : GooseCfg) (x : GoosePub) : GoosePub :=
  { x with sqNum := wrapTo1 x.sqNum, elapsed := x.elapsed + x.interval, interval := min (x.elapsed + x.interval) (1000 * g.tMax) }

theorem gooseRetransmit_of_sent {x : GoosePub} {g : GooseCfg} (hx : m.net.pubs[n]? = some x) (hg : x.cfg = some g) (hsent : x.sent = true)
    (hdue : x.due = false) :
    gooseRetransmit n a m = gooseSend (retransmitted g x) a { m with net := { m.net with pubs := setAt m.net.pubs n (retransmitted g x) } } := by
  have hgo : ¬(!x.sent || x.due) = true := by simp [hsent, hdue]
  simp only [gooseRetransmit, hx, hg, if_neg hgo, retransmitted]

theorem gooseSend_of_cfg {x : GoosePub} {g : GooseCfg} (hg : x.cfg = some g) :
    gooseSend x a m = queueFrame g.ports true (fun _ rct => ⟨.goose, a, m.net.txOrder, none, false, 0, 0, .goose (gooseOut g x) rct⟩) m := by
  simp only [gooseSend, hg]

theorem gooseRetransmit_of_not_sent {x : GoosePub} (hx : m.net.pubs[n]? = some x) (h : x.cfg = none ∨ x.sent = false ∨ x.due = true) :
    gooseRetransmit n a m = m := by
  simp only [gooseRetransmit, hx]
  split
  next g hg =>
    have hwait : x.sent = false ∨ x.due = true := h.resolve_left (by simp [hg])
    exact if_pos (by simpa using hwait)
  next => rfl

theorem gooseLost_of_active {g : GooseCfg} (hs : (m.gooseSub n).state = .active) (hg : (m.gooseSub n).cfg = some g) :
    gooseLost n m = (gooseHold g (m.setGooseSub n { m.gooseSub n with state := .lost, waiting := none })).post 0x0702 [] := by
  simp only [gooseLost, hs, hg]

theorem gooseLost_of_not_active (hs : (m.gooseSub n).state ≠ .active) : gooseLost n m = m := by
  unfold gooseLost
  dsimp only
  split
  next hactive _ => exact absurd hactive hs
  next => rfl

end Goose

/-! ### Far channels (R349, R351, R352) -/

section Far
variable {m : Mach} {c p x src a : Nat} {b : List Byte} {g : FarCfg}

theorem farRx_of_not_taken (h : portTakes m p x = false ∨ farOk b = false) (r : Option Nat) : farRx p x src r b a m = m := by
  refine if_pos ?_
  obtain hport | hok := h
  · rw [hport]; rfl
  · rw [hok, Bool.not_false, Bool.or_true]

/-- The channel that a telegram names. -/
abbrev farChan (m : Mach) (b : List Byte) : FarCh := m.farCh (fieldLE b 3 1)

/-- A DATA telegram in time for the intake is the first one that its channel accepts, in a device without valid time (R351). -/
structure FirstData (m : Mach) (p x a : Nat) (b : List Byte) (g : FarCfg) : Prop where
  port : portTakes m p x = true
  moves : siphonLost m 14 = false
  ok : farOk b = true
  chan : fieldLE b 3 1 ≤ 3
  cfg : (farChan m b).cfg = some g
  rxEn : g.rxEn = true
  link : g.linkId = fieldLE b 4 4
  first : (farChan m b).lastSeq = none
  waiting : (farChan m b).state = 1
  data : fieldLE b 2 1 = 1
  inTime : tooLate m a = false
  noTime : m.tb.timeValid = false

/-- The channel once it has accepted the telegram: ACTIVE, with the values of its records. -/
def farHeard (m : Mach) (a : Nat) (b : List Byte) : FarCh :=
  { farChan m b with state := 2, lastSeq := some (fieldLE b 8 8), loss := incSat 32 (farChan m b).loss 0, lossRun := false, noTime := bitOf (fieldLE b 0x1C 1) 1, heardAt := a, data := some ((List.range (fieldLE b 0x1E 2 / 8)).map fun j => (fieldLE b (0x20 + 8 * j) 4, fieldLE b (0x24 + 8 * j) 1)) }

theorem farRx_of_firstData (h : FirstData m p x a b g) :
    farRx p x src none b a m = (m.setFar (fieldLE b 3 1) (farHeard m a b)).post 0x0705 [] := by
  have htaken : ¬(!portTakes m p x || siphonLost m 14 || !farOk b) = true := by simp [h.port, h.moves, h.ok]
  refine (if_neg htaken).trans ?_
  simp [prpTake_of_none, h.cfg, h.rxEn, h.link, h.first, h.waiting, h.data, h.inTime, h.noTime, Nat.not_lt.2 h.chan, farHeard]

theorem farLost_of_active (hg : (m.farCh c).cfg = some g) (hs : (m.farCh c).state = 2) :
    farLost c m = ((List.range g.count).foldl (fun m j => m.invalidate (farBase c + 0x10 + j) true)
      (m.setFar c { m.farCh c with state := 3, data := none, lateData := none })).post 0x0706 [] := by
  simp only [farLost, hg, hs, if_true]

theorem farLost_of_not_active (hs : (m.farCh c).state ≠ 2) : farLost c m = m := by
  unfold farLost
  dsimp only
  split
  next => exact if_neg hs
  next => rfl

end Far

/-- Settles O50: the rows of sampled values ask that the device is up, those of the networks that it works; a clause without that premise is of a meaning that does nothing. -/
theorem streamAndFrameStepsComplete : Obligations.StreamAndFrameStepsComplete := by
  unfold Obligations.StreamAndFrameStepsComplete
  refine ⟨fun f s up hport hm hsim => ?svSimulated, fun f s up hport hm hsim hmoves hrct hsome hfew hcounts hlow hhigh => ?svGood,
    fun f s up h => ?svNotTaken, fun n u s up hs hu => ?svLost, fun n s up hs => ?svNotLost, fun f s hw hport hsim hrct => ?goose,
    fun f s h => ?gooseNotTaken, fun n a x g s hw hx hg hsent hdue => ?retransmit, fun n a x s hx h => ?notRetransmitted,
    fun n g s hw hn hs hg => ?gooseLost, fun n s h => ?gooseNotLost,
    fun p x src a b g s hw hport hmoves hok hchan hcfg hrx hlink hfirst hwait hdata hin hno => ?far, fun p x src a r b s h => ?farNotTaken,
    fun c g s hw hg hs => ?farLost, fun c s hs => ?farNotLost⟩
  case svSimulated => exact next_run_of_up up (svRx_of_simulated hport hm hsim)
  case svGood => exact next_run_of_up up (svRx_of_good hport hm hsim hmoves hrct ⟨hsome, hfew, hcounts, hlow, hhigh⟩)
  case svNotTaken => exact next_run_of_up up (svRx_of_not_taken h)
  case svLost => exact next_run_of_up up (svLost_of_active hs hu)
  case svNotLost => exact next_run_of_up up (svLost_of_not_active hs)
  case goose => exact next_run_of_working hw (gooseRx_of_taken hport hsim hrct)
  case gooseNotTaken => exact next_run_whenWorking_of_idle (gooseRx_of_not_taken h)
  case retransmit => exact next_run_of_working hw ((gooseRetransmit_of_sent hx hg hsent hdue).trans (gooseSend_of_cfg hg))
  case notRetransmitted => exact next_run_whenWorking_of_idle (gooseRetransmit_of_not_sent hx h)
  case gooseLost => exact next_run_of_working hw ((if_neg (Nat.not_lt.2 hn)).trans (gooseLost_of_active hs hg))
  case gooseNotLost =>
    refine next_run_whenWorking_of_idle ?_
    obtain hpublished | hs := h
    · exact if_pos hpublished
    · exact (ite_congr rfl (fun _ => rfl) fun _ => gooseLost_of_not_active hs).trans (ite_self _)
  case far => exact next_run_of_working hw (farRx_of_firstData ⟨hport, hmoves, hok, hchan, hcfg, hrx, hlink, hfirst, hwait, hdata, hin, hno⟩)
  case farNotTaken => exact next_run_whenWorking_of_idle (farRx_of_not_taken h r)
  case farLost => exact next_run_of_working hw (farLost_of_active hg hs)
  case farNotLost => exact next_run_whenWorking_of_idle (farLost_of_not_active hs)

end Sys2Proof.Machine
end

section
/-! Proofs of the family `14_register_behaviour.md`: a step and its queue, the writes that stop, reserved offsets, voted fields and the entry into SAFE (R419, R422, R425, R429, R430, R432). -/
namespace Sys2Proof.Machine

/-! ### A step takes the front of the queue, and a command leaves the queue alone -/

/-- Settles O1: a step is defined by the front of the queue. -/
theorem stepRunsTheFrontCommand : Obligations.StepRunsTheFrontCommand := fun _ _ _ => rfl

/-- Settles O2: every row runs a meaning on the device, and `State.run` keeps the queue. -/
theorem execLeavesTheQueue : Obligations.ExecLeavesTheQueue := by
  unfold Obligations.ExecLeavesTheQueue
  intro c s t h
  obtain ⟨f, rfl⟩ := exec_next_run h
  exact State.run_pending f s

/-! ### The rows that can stop (R422) -/

section Stops
variable {c : Instr} {s : State} {b : Bool} {x : Fault} {t : State}

/-- A row that writes no word of the setup window runs its meaning, whatever the state. -/
theorem exec_of_not_writesWord (hc : c.writesWord = false) (s : State) : ∃ f, exec c s = .next (s.run f) := by
  cases c
  case registerWrite | hostEnable | go | luwinWrite => cases hc
  all_goals exact ⟨_, rfl⟩

/-- What a guarded row answers: never a refusal, and a fault exactly where its guard holds. -/
theorem guarded_stops :
    (∀ r, (if b then Host.Outcome.fault x else .next t : Host.Outcome State Fault Refusal) ≠ .refused r)
      ∧ ((∃ f, (if b then Host.Outcome.fault x else .next t : Host.Outcome State Fault Refusal) = .fault f) ↔ b = true) := by
  cases b
  · exact ⟨fun _ h => (nomatch h), fun ⟨_, h⟩ => (nomatch h), fun h => (nomatch h)⟩
  · exact ⟨fun _ h => (nomatch h), fun _ => rfl, fun _ => ⟨x, rfl⟩⟩

end Stops

/-- Settles O3: a row that writes no word runs its meaning (`exec_of_not_writesWord`), and the four that write one are guarded by the reserved bits of the write. -/
theorem onlyReservedBitWritesStop : Obligations.OnlyReservedBitWritesStop := by
  unfold Obligations.OnlyReservedBitWritesStop
  intro c s
  cases hc : c.writesWord with
  | false =>
    obtain ⟨f, hf⟩ := exec_of_not_writesWord hc s
    rw [hf]
    refine ⟨fun _ h => (nomatch h), fun ⟨_, h⟩ => (nomatch h), ?_⟩
    rintro (⟨_, _, _, rfl, -⟩ | ⟨_, _, rfl, -⟩ | ⟨_, rfl, -⟩ | ⟨_, _, _, _, _, rfl, -⟩) <;> cases hc
  | true =>
    cases c
    case registerWrite | hostEnable | go =>
      refine ⟨guarded_stops.1, guarded_stops.2.trans ?_⟩
      simp
    case luwinWrite h a w crc b =>
      refine ⟨guarded_stops.1, guarded_stops.2.trans (Bool.and_eq_true_iff.trans ?_)⟩
      refine ⟨fun hres => .inr (.inr (.inr ⟨h, a, w, crc, b, rfl, hres⟩)), ?_⟩
      rintro (⟨_, _, _, he, -⟩ | ⟨_, _, he, -⟩ | ⟨_, he, -⟩ | ⟨_, _, _, _, _, he, hres⟩) <;> cases he
      exact hres
    all_goals cases hc

/-- A step on a queue without word writes answers a next state, whose queue is what remains. -/
theorem step_of_no_wordWrites {s : State} (h : ∀ c ∈ s.pending, c.writesWord = false) :
    ∃ t, step s = .next t ∧ ∀ c ∈ t.pending, c.writesWord = false := by
  obtain ⟨m, q⟩ := s
  cases q with
  | nil => exact ⟨_, rfl, h⟩
  | cons c rest =>
    obtain ⟨f, hf⟩ := exec_of_not_writesWord (h c List.mem_cons_self) ⟨m, rest⟩
    exact ⟨_, hf, fun d hd => h d (List.mem_cons_of_mem c hd)⟩

/-- Settles O4, by induction on the number of steps: a step leaves a queue without word writes. -/
theorem runsWithoutWordWritesNeverStop : Obligations.RunsWithoutWordWritesNeverStop := by
  unfold Obligations.RunsWithoutWordWritesNeverStop
  intro n
  induction n with
  | zero => exact fun _ _ => trivial
  | succ n ih =>
    intro s h
    obtain ⟨t, hstep, ht⟩ := step_of_no_wordWrites h
    exact ⟨t, hstep, ih t ht⟩

/-! ### Reserved offsets (R419) -/

section ReservedOffsets
variable {m : Mach} {off : Nat}

theorem regRead_of_reserved (hal : off % 4 = 0) (hres : fieldsAt (decodeOff m off) = []) : regRead m off = 0#32 := by
  simp [regRead, hal, hres]

theorem writeWord_of_reserved (hres : fieldsAt off = []) (ns v : Nat) : writeWord ns off v m = m := if_pos (by simp [hres])

theorem hostWriteReg_of_reserved (hal : off % 4 = 0) (hres : fieldsAt (decodeOff m off) = []) (ns : Nat) (v : Word) :
    hostWriteReg ns off 15 v m = m := (hostWriteReg_of_word ns hal).trans (writeWord_of_reserved hres ns v.toNat)

/-- A word with no field has no reserved bit that a write may change (R422). -/
theorem changesReserved_of_reserved (hres : fieldsAt (decodeOff m off) = []) (be : Nat) (v : Word) : changesReserved off be v m = false := by
  simp [changesReserved, hres]

end ReservedOffsets

/-- Settles O14: an offset at which no table lists a field reads the empty sum, and no step of a write finds a field. -/
theorem reservedOffsetsReadZeroAndIgnoreWrites : Obligations.ReservedOffsetsReadZeroAndIgnoreWrites := by
  unfold Obligations.ReservedOffsetsReadZeroAndIgnoreWrites
  intro off s hal hres
  have hstart : fieldsAt (decodeOff s.start off) = [] := hres
  refine ⟨regRead_of_reserved hal hres, fun ns v => hostWriteReg_of_reserved hal hres ns v, fun v => ?_⟩
  refine guarded_run_of_idle (changesReserved_of_reserved hres 15 v) ?_
  exact (ite_congr rfl (fun _ => hostWriteReg_of_reserved hal hstart _ v) fun _ => rfl).trans (ite_self _)

/-! ### Voted fields (R425, R432) -/

section Voting
variable {a b c v : Nat}

/-- The vote gives a value that two copies hold. -/
theorem vote_of_majority (h : (a = v ∧ b = v) ∨ (a = v ∧ c = v) ∨ (b = v ∧ c = v)) : vote a b c = v := by
  obtain ⟨rfl, rfl⟩ | ⟨rfl, rfl⟩ | ⟨rfl, rfl⟩ := h
  · exact if_pos (.inl rfl)
  · exact if_pos (.inr rfl)
  · unfold vote
    split
    next hab => exact hab.elim id id
    next => exact if_pos rfl

theorem vote_of_distinct (hab : a ≠ b) (hac : a ≠ c) (hbc : b ≠ c) : vote a b c = min a (min b c) :=
  (if_neg (not_or.2 ⟨hab, hac⟩)).trans (if_neg hbc)

end Voting

/-- Settles O15: `voteField` asks whether the copies agree, then whether two of them do; the value it takes is the vote. -/
theorem votedFieldsHoldTheMajority : Obligations.VotedFieldsHoldTheMajority := by
  unfold Obligations.VotedFieldsHoldTheMajority
  intro m r g a b c
  refine ⟨fun hab hbc => if_pos ⟨hab, hbc⟩, fun v hne hmaj => ?corrected, fun hab hac hbc => ?torn⟩
  case corrected =>
    have htwo : a = b ∨ b = c ∨ a = c := by omega
    refine (if_neg hne).trans ((if_pos htwo).trans ?_)
    rw [← vote_of_majority hmaj]
  case torn =>
    have hnone : ¬(a = b ∨ b = c ∨ a = c) := by omega
    refine (if_neg fun h => hab h.1).trans ((if_neg hnone).trans ?_)
    rw [← vote_of_distinct hab hac hbc]

/-! ### Entry into SAFE (R429, R430) -/

section EntryIntoSafe
variable {cause sub : Nat} {m : Mach}

theorem enterSafe_of_converting (h : m.dev.state = .ready ∨ m.dev.state = .run) :
    enterSafe cause sub m =
      ((((safeOutputs m (cause == 6)).setF F.devSafeCauseCause cause).setF F.devSafeCauseSub sub).setF F.devSafeCausePeriod m.tb.k).post 0x0E06
        ([cause, sub] ++ w64 m.tb.k) :=
  if_pos (by simpa [Mach.inState] using h)

theorem enterSafe_of_other (hready : m.dev.state ≠ .ready) (hrun : m.dev.state ≠ .run) : enterSafe cause sub m = m :=
  if_neg (by simp [Mach.inState, hready, hrun])

theorem enterSafe_state (h : m.dev.state = .ready ∨ m.dev.state = .run) : (enterSafe cause sub m).dev.state = .safe := by
  rw [enterSafe_of_converting h]; rfl

@[simp] theorem holdOutputs_tb (sel : Nat → Bool) (m : Mach) : (holdOutputs sel m).tb = m.tb := by
  unfold holdOutputs
  split
  · rfl
  · refine foldl_keeps Mach.tb (fun m p => ?_) _ m
    split
    · refine foldl_keeps Mach.tb (fun m o => ?_) _ m
      dsimp only
      split <;> rfl
    · rfl

@[simp] theorem pairSafe_tb (m : Mach) (conflict : Bool) : (pairSafe m conflict).tb = m.tb := by
  unfold pairSafe
  dsimp only
  split <;> rfl

@[simp] theorem modeLeave_tb (st : DevState) (m : Mach) : (modeLeave st m).tb = m.tb := by
  unfold modeLeave
  dsimp only
  split <;> split <;> rfl

/-- The entry into SAFE takes no time: the boundary that its event names is the present one (R432). -/
@[simp] theorem safeOutputs_tb (m : Mach) (conflict : Bool) : (safeOutputs m conflict).tb = m.tb := by
  simp [safeOutputs, modeBlocked]

/-- The last event posted by an entry into SAFE is SAFE_ENTERED (R429). -/
theorem enterSafe_told (h : m.dev.state = .ready ∨ m.dev.state = .run) :
    (enterSafe cause sub m).host.evNew.getLast? = some ⟨0x0E06, 0, m.tb.k, [cause, sub, m.tb.k % 2 ^ 32, m.tb.k / 2 ^ 32 % 2 ^ 32], none⟩ := by
  rw [enterSafe_of_converting h]
  simp [Mach.post, w64]

end EntryIntoSafe

/-- Settles O16: in READY and RUN the entry ends with its event and in SAFE, and `enterSafe` leaves a device in any other state as it is. -/
theorem entryIntoSafeIsLatchedAndTold : Obligations.EntryIntoSafeIsLatchedAndTold := by
  unfold Obligations.EntryIntoSafeIsLatchedAndTold
  intro cause sub m
  refine ⟨fun h => ⟨enterSafe_state h, enterSafe_told h, fun c2 s2 => ?_⟩, enterSafe_of_other⟩
  have hsafe : (enterSafe cause sub m).dev.state = .safe := enterSafe_state h
  exact enterSafe_of_other (by simp [hsafe]) (by simp [hsafe])

end Sys2Proof.Machine
end

section
/-! Proofs of the families `14_register_behaviour.md` and `16_luwin_debug.md`: the control word of the debug unit, its MDIO frame and the expiry of a halt, and the transactions of the Luwin port (R421, R426, R427, R458, R462–R474). -/
namespace Sys2Proof.Machine

/-! ### The control word (R427, R467, R472, R474) -/

section DebugControl
variable {s : State} {m t : Mach} {v : Nat}

/-- The control word is out of reach where the window is not decoded (R427). -/
theorem dbgRow_of_undecoded (h : m.inState [.boot, .recovery] = true ∨ m.dev.test = true) : dbgRow v m = m := if_pos (Bool.or_eq_true_iff.2 h)

theorem dbgRow_of_decoded (hs : m.inState [.boot, .recovery] = false) (ht : m.dev.test = false) : dbgRow v m = writeDbgCtrl v m :=
  if_neg (by simp [hs, ht])

theorem next_dbgRow_of_undecoded (up : Up s) (h : s.start.inState [.boot, .recovery] = true ∨ s.start.dev.test = true) :
    (Host.Outcome.next (s.run (whenAlive (dbgRow v))) : Host.Outcome State Fault Refusal) = .next (s.to s.start) :=
  next_run_of_up up (dbgRow_of_undecoded h)

theorem next_dbgRow_of_decoded (up : Up s) (hs : s.start.inState [.boot, .recovery] = false) (ht : s.start.dev.test = false)
    (h : writeDbgCtrl v s.start = t) : (Host.Outcome.next (s.run (whenAlive (dbgRow v))) : Host.Outcome State Fault Refusal) = .next (s.to t) :=
  next_run_of_up up ((dbgRow_of_decoded hs ht).trans h)

/-- At level 2 a word of engine bits alone is their row (R467). -/
theorem writeDbgCtrl_of_engine (hv : v < 16) (hl : 2 ≤ m.dbg.level) :
    writeDbgCtrl v m = engineBits (bitOf v 0) (bitOf v 1) (bitOf v 2) (bitOf v 3) m := by
  have hhigh : ∀ n, 4 ≤ n → bitOf v n = false := fun n hn => by
    rw [bitOf_eq_testBit]
    exact Nat.testBit_lt_two_pow (Nat.lt_of_lt_of_le hv (Nat.pow_le_pow_right Nat.two_pos hn))
  simp [writeDbgCtrl, hhigh, hl, Nat.not_lt.2 hl]

/-- Below level 2 a word that asks for more than a challenge, a token check or the end of the level is a lock violation and nothing else (R472). -/
theorem writeDbgCtrl_of_low (hl : m.dbg.level < 2) (hv : v &&& 0x11F ≠ 0) (hother : bitOf v 5 = false ∧ bitOf v 6 = false ∧ bitOf v 7 = false) :
    writeDbgCtrl v m = lockViolation 0x4404 m := by
  obtain ⟨h5, h6, h7⟩ := hother
  simp [writeDbgCtrl, h5, h6, h7, hv, hl, Nat.not_le.2 hl]

/-- A word without engine bits leaves the engine. -/
@[simp] theorem engineBits_none (m : Mach) : engineBits false false false false m = m := by
  cases he : m.dbg.engine <;> simp [engineBits, he]

theorem engineBits_halt_of_running (he : m.dbg.engine = .running) : engineBits true false false false m = (askHalt 0 m).raise F.dbgCtrlHalt := by
  simp [engineBits, he]

theorem engineBits_halt_of_stopped (he : m.dbg.engine ≠ .running) : engineBits true false false false m = m := by
  cases h : m.dbg.engine
  case running => exact absurd h he
  all_goals simp [engineBits, h]

/-- On a running engine a step or RESUME names no transition (R467). -/
theorem engineBits_of_running (he : m.dbg.engine = .running) (p b r : Bool) : engineBits false p b r m = m := by
  simp [engineBits, he]

/-- On a halted engine a step is due at the next period, and RESUME sets it running; the first bit that has a row applies (R467). -/
theorem engineBits_of_halted (he : m.dbg.engine = .halted) (p b r : Bool) :
    engineBits false p b r m =
      if b then { m with dbg := { m.dbg with blockDue := true } }
      else if p then { m with dbg := { m.dbg with stepDue := true } }
      else if r then dbgResume evalRest m
      else m := by
  simp only [engineBits, he]

/-- In a stepped period a step goes on with it, or to its end (R467). -/
theorem engineBits_of_blockStep (he : m.dbg.engine = .blockStep) (p b r : Bool) :
    engineBits false p b r m = if b then nextBlock m else if p then finishPeriod m else if r then dbgResume evalRest m else m := by
  simp only [engineBits, he]

theorem askHalt_of_none (h : m.dbg.haltDue = none) (c : Nat) : askHalt c m = { m with dbg := { m.dbg with haltDue := some c } } := by
  simp [askHalt, h]

theorem askHalt_of_due (h : m.dbg.haltDue ≠ none) (c : Nat) : askHalt c m = m := if_pos (Option.isSome_iff_ne_none.2 h)

theorem dbgResume_of_halted {rest : Mach → StepRun → Eval} (he : m.dbg.engine = .halted) (hr : m.dbg.stepRun = none) :
    dbgResume rest m =
      ({ m with dbg := { m.dbg with engine := .running, stepRun := none, stepDue := false, blockDue := false, haltBlocked := false } } : Mach).post 0x0D02
        [m.dbg.haltedPeriods] := by
  simp [dbgResume, he, hr]

theorem writeDbgCtrl_releaseAll (hl : 2 ≤ m.dbg.level) : writeDbgCtrl 0x010 m = { m with dbg := { m.dbg with releaseDue := true } } := by
  simp [writeDbgCtrl, bitOf, hl, Nat.not_lt.2 hl]

theorem writeDbgCtrl_reset (hl : 2 ≤ m.dbg.level) : writeDbgCtrl 0x100 m = deviceReset .debug m := by
  simp [writeDbgCtrl, bitOf, hl, Nat.not_lt.2 hl]

theorem writeDbgCtrl_newChallenge : writeDbgCtrl 0x020 m = newChallenge m := by simp [writeDbgCtrl, bitOf]

theorem writeDbgCtrl_submit : writeDbgCtrl 0x040 m = submitToken m := by simp [writeDbgCtrl, bitOf]

theorem writeDbgCtrl_endLevel_of_none (hl : m.dbg.level = 0) : writeDbgCtrl 0x080 m = lockViolation 0x4404 m := by
  simp [writeDbgCtrl, bitOf, hl]

theorem writeDbgCtrl_endLevel_of_some (hl : m.dbg.level ≠ 0) : writeDbgCtrl 0x080 m = endLevel m := by
  have hone : 1 ≤ m.dbg.level := Nat.pos_of_ne_zero hl
  simp [writeDbgCtrl, bitOf, hl, hone]

theorem endLevel_of_one (hl : m.dbg.level = 1) : endLevel m = ({ m with dbg := { m.dbg with level := 0, remain := 0 } } : Mach).post 0x0A08 [] := by
  simp [endLevel, hl]

/-- Level 2 ends after its release of the engine (R467). -/
theorem endLevel_of_two (hl : m.dbg.level = 2) :
    endLevel m = ({ dbgRelease m with dbg := { (dbgRelease m).dbg with level := 0, remain := 0 } } : Mach).post 0x0A08 [] := by
  simp [endLevel, hl]

/-- Outside test mode a token ends no session of level 3 (R458). -/
theorem endsTest_of_not_three (hl : m.dbg.level ≠ 3) (after : Mach) : endsTest m after = false := by simp [endsTest, hl]

end DebugControl

/-! ### The MDIO frame and the expiry of a halt (R426, R470) -/

section MdioAndHold
variable {m : Mach} {v : Nat}

theorem mdioDone_of_idle (hb : m.dbg.mdioBusy = false) : mdioDone v m = m := if_pos (by simp [hb])

theorem mdioDone_of_again (hb : m.dbg.mdioBusy = true) (ha : m.dbg.mdioAgain = true) :
    mdioDone v m = mdioStart (if 2 ≤ m.reg.raw F.dbgMdioOp then m.setF F.dbgMdioData v else m) := by
  have hstays : (if 2 ≤ m.reg.raw F.dbgMdioOp then m.setF F.dbgMdioData v else m).dbg.mdioAgain = true := by split <;> exact ha
  exact (if_neg (by simp [hb])).trans (if_pos hstays)

theorem mdioDone_of_read (hb : m.dbg.mdioBusy = true) (ha : m.dbg.mdioAgain = false) (hop : 2 ≤ m.reg.raw F.dbgMdioOp) :
    mdioDone v m = { (m.setF F.dbgMdioData v).setF F.dbgMdioGo 0 with dbg := { m.dbg with mdioBusy := false } } := by
  simp [mdioDone, hb, ha, hop]

theorem mdioDone_of_write (hb : m.dbg.mdioBusy = true) (ha : m.dbg.mdioAgain = false) (hop : m.reg.raw F.dbgMdioOp < 2) :
    mdioDone v m = { m.setF F.dbgMdioGo 0 with dbg := { m.dbg with mdioBusy := false } } := by
  simp [mdioDone, hb, ha, Nat.not_le.2 hop]

theorem holdExpiry_of_reached (he : m.dbg.engine ≠ .running) (hs : m.dev.state = .run) (hm : m.flag F.dbgCfgHaltMode = false)
    (hb : m.dbg.haltBlocked = false) (hn : m.fld F.dbgCfgHoldMax ≤ m.dbg.haltedPeriods) :
    holdExpiry m = ({ m with dbg := { m.dbg with haltBlocked := true } } : Mach).post 0x0D04 [] :=
  if_pos (by simp [he, hs, hm, hb, hn, Mach.inState])

theorem holdExpiry_of_not_reached (h : m.dbg.engine = .running ∨ m.dev.state ≠ .run ∨ m.flag F.dbgCfgHaltMode = true ∨ m.dbg.haltBlocked = true
    ∨ m.dbg.haltedPeriods < m.fld F.dbgCfgHoldMax) : holdExpiry m = m := by
  refine if_neg ?_
  simp only [Bool.and_eq_true, bne_iff_ne, Bool.not_eq_true', decide_eq_true_eq, Mach.inState, List.contains_eq_mem, List.mem_singleton]
  rintro ⟨⟨⟨⟨he, hs⟩, hm⟩, hb⟩, hn⟩
  obtain h | h | h | h | h := h
  · exact he h
  · exact h hs
  · exact absurd h (ne_true_of_eq_false hm)
  · exact absurd h (ne_true_of_eq_false hb)
  · exact Nat.not_le.2 h hn

end MdioAndHold

/-- Settles O58: a row of the control word is a write of one bit, which the decoding of the window, then the level in force, then the engine judge. -/
theorem debugUnitStepsComplete : Obligations.DebugUnitStepsComplete := by
  unfold Obligations.DebugUnitStepsComplete
  refine ⟨fun s up h => next_dbgRow_of_undecoded up h, fun s up h => next_dbgRow_of_undecoded up h, fun s up h => next_dbgRow_of_undecoded up h,
    fun s up h => next_dbgRow_of_undecoded up h, fun s up h => next_dbgRow_of_undecoded up h, fun s up h => next_dbgRow_of_undecoded up h,
    fun s up h => next_dbgRow_of_undecoded up h, fun s up h => next_dbgRow_of_undecoded up h, fun s up h => next_dbgRow_of_undecoded up h,
    fun s up hs ht hl he hd => ?halt, fun s up hs ht hl he hd => ?haltAgain, fun s up hs ht hl he => ?haltStopped,
    fun s up hs ht hl he => ?stepPeriod, fun s up hs ht hl he => ?finishPeriod, fun s up hs ht hl he => ?stepPeriodRunning,
    fun s up hs ht hl he => ?stepBlock, fun s up hs ht hl he => ?nextBlock, fun s up hs ht hl he => ?stepBlockRunning,
    fun s up hs ht hl he hr => ?resume, fun s up hs ht hl he => ?resumeSteps, fun s up hs ht hl he => ?resumeRunning,
    fun s up hs ht hl => ?releaseAll, fun s up hs ht hl => ?reset,
    fun s up hs ht hl => ?lowHalt, fun s up hs ht hl => ?lowStepPeriod, fun s up hs ht hl => ?lowStepBlock, fun s up hs ht hl => ?lowResume,
    fun s up hs ht hl => ?lowReleaseAll, fun s up hs ht hl => ?lowReset,
    fun s up hs ht => ?challenge, fun s up hs ht hl => ?submit, fun s up hs ht hl => ?noLevel, fun s up hs ht hl => ?endOne, fun s up hs ht hl => ?endTwo,
    fun v s up hb ha hop => ?mdioRead, fun v s up hb ha hop => ?mdioWrite, fun v s up hb ha => ?mdioAgain, fun v s up hb => ?mdioIdle,
    fun s up he hs hm hb hn => ?hold, fun s up h => ?noHold⟩
  case mdioRead => exact next_run_of_up up (mdioDone_of_read hb ha hop)
  case mdioWrite => exact next_run_of_up up (mdioDone_of_write hb ha hop)
  case mdioAgain => exact next_run_of_up up (mdioDone_of_again hb ha)
  case mdioIdle => exact next_run_of_up up (mdioDone_of_idle hb)
  case hold => exact next_run_of_up up (holdExpiry_of_reached he hs hm hb hn)
  case noHold => exact next_run_of_up up (holdExpiry_of_not_reached h)
  all_goals refine next_dbgRow_of_decoded up hs ht ?_
  case releaseAll => exact writeDbgCtrl_releaseAll hl
  case reset => exact writeDbgCtrl_reset hl
  case challenge => exact writeDbgCtrl_newChallenge
  case submit => exact writeDbgCtrl_submit.trans (if_neg (ne_true_of_eq_false (endsTest_of_not_three hl _)))
  case noLevel => exact writeDbgCtrl_endLevel_of_none hl
  case endOne => exact (writeDbgCtrl_endLevel_of_some (by rw [hl]; decide)).trans (endLevel_of_one hl)
  case endTwo => exact (writeDbgCtrl_endLevel_of_some (by rw [hl]; decide)).trans (endLevel_of_two hl)
  case lowHalt | lowStepPeriod | lowStepBlock | lowResume | lowReleaseAll | lowReset => exact writeDbgCtrl_of_low hl (by decide) (by decide)
  all_goals refine (writeDbgCtrl_of_engine (by decide) hl).trans ?_
  case halt => exact (engineBits_halt_of_running he).trans (congrArg (Mach.raise · F.dbgCtrlHalt) (askHalt_of_none hd 0))
  case haltAgain => exact (engineBits_halt_of_running he).trans (congrArg (Mach.raise · F.dbgCtrlHalt) (askHalt_of_due hd 0))
  case haltStopped => exact engineBits_halt_of_stopped he
  case stepPeriod | stepBlock => exact engineBits_of_halted he _ _ _
  case finishPeriod | nextBlock | resumeSteps => exact engineBits_of_blockStep he _ _ _
  case stepPeriodRunning | stepBlockRunning | resumeRunning => exact engineBits_of_running he _ _ _
  case resume => exact (engineBits_of_halted he _ _ _).trans (dbgResume_of_halted he hr)

/-! ### The transactions of the Luwin port (R421, R462–R466, R472) -/

section Luwin
variable {s : State} {m t : Mach} {h a c n : Nat} {b : Bool} {w : List Word}

theorem luwinRead_of_bad (hbad : lwBad 1 h a [] c = true) : luwinRead h a c b m = (lwSeen m).lwSend 0x96 [] := if_pos hbad

theorem luwinRead_of_refused (hbad : lwBad 1 h a [] c = false) (hbar : firstBar ((lwAddrs h a).map (lwReadBar (lwSeen m))) = some n) :
    luwinRead h a c b m = (lwSeen m).lwSend n [] := by
  simp [luwinRead, hbad, hbar]

/-- A read whose every word is permitted: its address, then the port, decide whether it is carried out (R464). -/
theorem luwinRead_of_permitted (hbad : lwBad 1 h a [] c = false) (hbar : firstBar ((lwAddrs h a).map (lwReadBar (lwSeen m))) = none) :
    luwinRead h a c b m =
      if a % 4 ≠ 0 then (lwSeen m).lwSend 0x69 []
      else if b then (lwSeen m).lwSend 0x5A []
      else ((lwAddrs h a).foldl lwReadWord ([], lwSeen m)).2.lwSend 0x3C ((lwAddrs h a).foldl lwReadWord ([], lwSeen m)).1 := by
  simp [luwinRead, hbad, hbar, lwBARRED, lwBUSY, lwDONE]

/-- What refuses the words of a WRITE is the same before and after the port is noted to clock (R462). -/
theorem lwWriteStatus_lwSeen (s : State) : lwWriteStatus h a w c b (lwSeen s.start) = lwWriteStatus h a w c b s.m := rfl

theorem lwWriteStatus_of_bad (hbad : lwBad 2 h a w c = true) : lwWriteStatus h a w c b m = lwBADFRAME := if_pos hbad

theorem lwWriteStatus_of_refused (hbad : lwBad 2 h a w c = false)
    (hbar : firstBar (((lwAddrs h a).zip w).map fun x => lwWriteBar m x.1 x.2) = some n) : lwWriteStatus h a w c b m = n := by
  simp [lwWriteStatus, hbad, hbar]

theorem lwWriteStatus_of_permitted (hbad : lwBad 2 h a w c = false)
    (hbar : firstBar (((lwAddrs h a).zip w).map fun x => lwWriteBar m x.1 x.2) = none) :
    lwWriteStatus h a w c b m = if a % 4 ≠ 0 then lwBARRED else if b then lwBUSY else lwDONE := by
  simp [lwWriteStatus, hbad, hbar]

/-- A WRITE that is not carried out changes no reserved bit (R422). -/
theorem lwReserved_of_not_done (hs : lwWriteStatus h a w c b m ≠ lwDONE) : lwReserved h a w c b m = false := by
  simp [lwReserved, hs]

/-- A WRITE by its status (R464): DONE writes its words, a refusal counts its violations, and any other status changes nothing. -/
theorem luwinWrite_of_done (hs : lwWriteStatus h a w c b (lwSeen m) = lwDONE) :
    luwinWrite h a w c b m = (((lwAddrs h a).zip w).foldl lwWriteWord (lwSeen m)).lwSend 0x3C [] := by
  simp only [luwinWrite, hs, if_true]
  rfl

theorem luwinWrite_of_refused (hs : lwWriteStatus h a w c b (lwSeen m) = n) (hn : n = lwREFUSED ∨ n = lwBARRED) :
    luwinWrite h a w c b m = (lwViolations ((lwAddrs h a).zip w) (lwSeen m)).lwSend n [] := by
  have hnd : n ≠ lwDONE := by obtain rfl | rfl := hn <;> decide
  simp only [luwinWrite, hs, if_neg hnd, if_pos hn]

theorem luwinWrite_of_unheard (hs : lwWriteStatus h a w c b (lwSeen m) = n) (hn : n = lwBADFRAME ∨ n = lwBUSY) :
    luwinWrite h a w c b m = (lwSeen m).lwSend n [] := by
  have hnd : n ≠ lwDONE := by obtain rfl | rfl := hn <;> decide
  have hnr : ¬(n = lwREFUSED ∨ n = lwBARRED) := by obtain rfl | rfl := hn <;> decide
  simp only [luwinWrite, hs, if_neg hnd, if_neg hnr]

theorem exec_luwinRead_of_alive (ha : s.start.alive = true) (h1 : luwinRead h a c b s.start = t) :
    exec (.luwinRead h a c b) s = .next (s.to t) :=
  next_run_of_eq ((if_pos ha).trans h1)

/-- A WRITE that changes no reserved bit is answered (R422, R464). -/
theorem exec_luwinWrite_of_kept (ha : s.start.alive = true) (hr : lwReserved h a w c b s.m = false) (h1 : luwinWrite h a w c b s.start = t) :
    exec (.luwinWrite h a w c b) s = .next (s.to t) :=
  (if_neg (by simp [hr])).trans (next_run_of_eq ((if_pos ha).trans h1))

/-- A WRITE whose status is not DONE is answered whatever its words are. -/
theorem exec_luwinWrite_of_not_done (ha : s.start.alive = true) (hs : lwWriteStatus h a w c b (lwSeen s.start) = n) (hn : n ≠ lwDONE)
    (h1 : luwinWrite h a w c b s.start = t) : exec (.luwinWrite h a w c b) s = .next (s.to t) :=
  exec_luwinWrite_of_kept ha (lwReserved_of_not_done (by rw [← lwWriteStatus_lwSeen, hs]; exact hn)) h1

end Luwin

/-- Settles O60: the status of a frame is decided by its check, then its words, then its address and the port; a WRITE acts by its status alone. -/
theorem luwinStepsComplete : Obligations.LuwinStepsComplete := by
  unfold Obligations.LuwinStepsComplete
  refine ⟨fun h a c b s ha hbad => exec_luwinRead_of_alive ha (luwinRead_of_bad hbad),
    fun h a c n b s ha hbad hbar => exec_luwinRead_of_alive ha (luwinRead_of_refused hbad hbar), fun h a c b s ha hbad hal hbar => ?readUnaligned,
    fun h a c s ha hbad hal hbar => ?readBusy, fun h a c s ha hbad hal hbar => ?read, fun h a c w b s ha hbad => ?badWrite,
    fun h a c n w b s ha hbad hbar hn => ?refused, fun h a c w b s ha hbad hal hbar => ?writeUnaligned, fun h a c w s ha hbad hal hbar => ?writeBusy,
    fun h a c w s ha hbad hal hbar hr => ?write, fun s up => next_run_of_up up rfl⟩
  case readUnaligned => exact exec_luwinRead_of_alive ha ((luwinRead_of_permitted hbad hbar).trans (if_pos hal))
  case readBusy => exact exec_luwinRead_of_alive ha ((luwinRead_of_permitted hbad hbar).trans (if_neg (not_not.2 hal)))
  case read => exact exec_luwinRead_of_alive ha ((luwinRead_of_permitted hbad hbar).trans (if_neg (not_not.2 hal)))
  case badWrite =>
    have hs : lwWriteStatus h a w c b (lwSeen s.start) = lwBADFRAME := lwWriteStatus_of_bad hbad
    exact exec_luwinWrite_of_not_done ha hs (by decide) (luwinWrite_of_unheard hs (.inl rfl))
  case refused =>
    have hs : lwWriteStatus h a w c b (lwSeen s.start) = n := lwWriteStatus_of_refused hbad hbar
    exact exec_luwinWrite_of_not_done ha hs (by obtain rfl | rfl := hn <;> decide) (luwinWrite_of_refused hs hn)
  case writeUnaligned =>
    have hs : lwWriteStatus h a w c b (lwSeen s.start) = lwBARRED := (lwWriteStatus_of_permitted hbad hbar).trans (if_pos hal)
    exact exec_luwinWrite_of_not_done ha hs (by decide) (luwinWrite_of_refused hs (.inr rfl))
  case writeBusy =>
    have hs : lwWriteStatus h a w c true (lwSeen s.start) = lwBUSY := (lwWriteStatus_of_permitted hbad hbar).trans (if_neg (not_not.2 hal))
    exact exec_luwinWrite_of_not_done ha hs (by decide) (luwinWrite_of_unheard hs (.inr rfl))
  case write =>
    have hs : lwWriteStatus h a w c false (lwSeen s.start) = lwDONE := (lwWriteStatus_of_permitted hbad hbar).trans (if_neg (not_not.2 hal))
    exact exec_luwinWrite_of_kept ha hr (luwinWrite_of_done hs)

end Sys2Proof.Machine
end

section
/-! Proofs of the family `11_station_networks.md`: the Ethernet commands and the steps of the ports (R337–R354, R366–R368). -/
namespace Sys2Proof.Machine

/-! ### The effects of the Ethernet commands, branch by branch (R344–R350, R368) -/

section EthernetCommands
variable {c : Cmd} {m : Mach}

theorem effGoosePublish_of_ports_on (hon : portOff m (c.b 2 1) = false) :
    effGoosePublish c m = okDone { m with net := { m.net with pubs := setAt m.net.pubs (c.b 0 1) { goosePubInit with cfg := some (parseGoose c) } } } :=
  if_neg (ne_true_of_eq_false hon)

theorem effGooseSubscribe_of_free (hon : portOff m (parseGoose c).ports = false)
    (hfree : ((parseGoose c).members.all fun x => freeDecl m (c.b 0 1 - 32) (x.ref % 2 ^ 20)) = true) :
    effGooseSubscribe c m =
      okDone { m with net := { m.net with subs := setAt m.net.subs (c.b 0 1 - 32) { gooseSubInit with cfg := some (parseGoose c), state := .waiting } } } :=
  if_neg (by rw [hon, hfree]; decide)

theorem effGooseUnsubscribe_of_subscribed {g : GooseCfg} (hg : (m.gooseSub (c.f 0 1 - 32)).cfg = some g) :
    effGooseUnsubscribe c m =
      okDone (((List.range 4).foldl (fun m o => m.invalidate (gooseBase (c.f 0 1 - 32 + 32) + o) true) (gooseHold g m)).setGooseSub (c.f 0 1 - 32) gooseSubInit) := by
  simp only [effGooseUnsubscribe, hg]

theorem effGooseUnsubscribe_of_free (hg : (m.gooseSub (c.f 0 1 - 32)).cfg = none) : effGooseUnsubscribe c m = okEmpty m := by
  simp only [effGooseUnsubscribe, hg]

/-- The launch time of a timed frame: with none given, the first instant that is not too near (R347). -/
def timedAt (c : Cmd) (m : Mach) : Nat :=
  if c.b 0 8 * 1000000000 + c.b 8 4 = 0 then intakeAt m + 1000 else c.b 0 8 * 1000000000 + c.b 8 4

/-- Every port that a timed frame names has room for it (R347). -/
abbrev TimedRoom (c : Cmd) (m : Mach) : Prop := ∀ p < 2, bitOf (c.b 12 1) p = true → timedCount (m.ethPort p) < 64

theorem TimedRoom.not_full (h : TimedRoom c m) : ¬((List.range 2).any fun p => bitOf (c.b 12 1) p && decide (64 ≤ timedCount (m.ethPort p))) = true := by
  rw [List.any_eq_true]
  rintro ⟨p, hp, hfull⟩
  rw [Bool.and_eq_true, decide_eq_true_eq] at hfull
  exact Nat.not_lt.2 hfull.2 (h p (List.mem_range.1 hp) hfull.1)

theorem effEthTimedTx_of_room (hroom : TimedRoom c m) (hat : intakeAt m + 1000 ≤ timedAt c m) :
    effEthTimedTx c m =
      (queueFrame (c.b 12 1) (bitOf (c.b 13 1) 0)
        (fun p rct => ⟨.timed, timedAt c m, m.net.txOrder, some (c.ring, c.seq), false, 0, 0, .raw (closeFrame p rct ((c.buf.take c.len).drop 16))⟩)
        { m with net := { m.net with timed := m.net.timed ++ [⟨c.ring, c.seq, c.b 12 1, 0, bitOf (c.b 13 1) 1, false, none, none⟩] } }, .hold) :=
  (if_neg hroom.not_full).trans (if_neg (Nat.not_lt.2 hat))

/-- A launch time that is too near expires (R347). -/
theorem effEthTimedTx_of_near (hroom : TimedRoom c m) (hat : timedAt c m < intakeAt m + 1000) : effEthTimedTx c m = reject stEXPIRED m :=
  (if_neg hroom.not_full).trans (if_pos hat)

theorem effFarConfig_of_same (hsame : ((farReads m (c.b 0 1)).any fun x =>
      decide (farFormat (m.farCh (c.b 0 1)).cfg x ≠ farFormat (some (parseFar c)) x)) = false) :
    effFarConfig c m = okDone (m.setFar (c.b 0 1) { farInit with cfg := some (parseFar c), state := if (parseFar c).rxEn then 1 else 0 }) :=
  if_neg (ne_true_of_eq_false hsame)

theorem effFarSend_of_sender {g : FarCfg} (hg : (m.farCh (c.b 0 1)).cfg = some g) (htx : g.txEn = true) :
    effFarSend c m =
      (farQueue (c.b 0 1) 2 0 ((c.buf.take c.len).drop 4) (some (c.ring, c.seq))
        { m with net := { m.net with timed := m.net.timed ++ [⟨c.ring, c.seq, g.ports, 0, false, false, none, none⟩] } }, .hold) := by
  simp only [effFarSend, hg, htx, if_true]

end EthernetCommands

/-- Settles O31: acceptance leaves the networks and the time that an effect reads, so each row owes only the branch of its effect; a timed frame and a message telegram stay in effect. -/
theorem stationNetworkCommandsComplete : Obligations.StationNetworkCommandsComplete := by
  unfold Obligations.StationNetworkCommandsComplete
  refine ⟨fun d s h hon => ?publish, fun d s h hon hfree => ?subscribe, fun d s h g hg => ?unsubscribe, fun d s h hg => ?unsubscribeFree,
    fun d s h hroom hat => ?timed, fun d s h hroom hset hat => ?expired, fun d s h hsame => ?farConfig, fun d s h g hg htx => ?farSend⟩
  case timed =>
    have he := effEthTimedTx_of_room (c := s.held infoEthTimedTx d) (m := s.accepts infoEthTimedTx d) (by simpa [TimedRoom] using hroom)
      (by simpa [timedAt] using hat)
    simp only [timedAt, State.accepts_intakeAt] at he
    exact congrArg Host.Outcome.next (run_hostCommand_of_hold h he)
  case farSend => exact congrArg Host.Outcome.next (run_hostCommand_of_hold h (effFarSend_of_sender (by simpa using hg) htx))
  all_goals refine congrArg Host.Outcome.next (run_hostCommand_of_done h ?_)
  case publish => exact effGoosePublish_of_ports_on hon
  case subscribe => exact effGooseSubscribe_of_free hon hfree
  case unsubscribe => exact effGooseUnsubscribe_of_subscribed (by simpa using hg)
  case unsubscribeFree => exact effGooseUnsubscribe_of_free (by simpa using hg)
  case expired => exact effEthTimedTx_of_near (by simpa [TimedRoom] using hroom) (by rwa [timedAt, if_neg hset, State.accepts_intakeAt])
  case farConfig => exact effFarConfig_of_same (by simpa [farReads] using hsame)

/-! ### The steps of the ports (R337–R341, R347, R353, R354, R366) -/

section Ports
variable {m : Mach} {p st x src : Nat} {busy b : Bool} {f : TxFrame}

theorem linkChange_lost (hp : p < 2) (hl : (m.ethPort p).link = true) :
    linkChange p false m = ((m.setEthPort p { m.ethPort p with link := false }).raise F.ethStatusLinkLost).post 0x0708 [] := by
  have hp1 : p ≤ 1 := Nat.le_of_lt_succ hp
  simp [linkChange, hp1, hl]

theorem linkChange_returned (hp : p < 2) (hl : (m.ethPort p).link = false) :
    linkChange p true m = (m.setEthPort p { m.ethPort p with link := true }).post 0x0709 [] := by
  have hp1 : p ≤ 1 := Nat.le_of_lt_succ hp
  simp [linkChange, hp1, hl]

theorem linkChange_same (hl : (m.ethPort p).link = b) : linkChange p b m = m := if_pos (by simp [hl])

/-- A frame is ready to leave a port at an instant: its transmit instant has come, and the Siphon channels that carry it work (R230, R339, R366). -/
abbrev readyToLeave (m : Mach) (p st : Nat) (f : TxFrame) : Bool :=
  decide (f.at_ * 65536 ≤ st) && !siphonLost m (10 + p) && !siphonLost m (f.kind.channel p)

/-- The port without a frame of its queue. -/
def dequeue (p : Nat) (f : TxFrame) (m : Mach) : Mach := m.setEthPort p { m.ethPort p with queue := (m.ethPort p).queue.erase f }

theorem stampCopies_of_raw {l : List Byte} (hb : f.body = .raw l) (m : Mach) : stampCopies f m = m := by
  unfold stampCopies
  rw [hb]

theorem frameLeaves_of_none (hf : (m.ethPort p).queue.find? (readyToLeave m p st) = none) : frameLeaves p st busy b m = m := by
  unfold readyToLeave at hf
  simp only [frameLeaves, hf]

/-- A frame without a launch time, a timestamp or a command leaves its port, where this unit sends its kind (R354). -/
theorem frameLeaves_of_plain (hf : (m.ethPort p).queue.find? (readyToLeave m p st) = some f) (hk : f.kind ≠ .timed) (hts : f.tsRec = false)
    (hc : f.cmd = none) (hb : ∀ o, f.body ≠ .ptp o) :
    frameLeaves p st busy b m =
      let m1 := stampCopies f (dequeue p f m)
      if kindLeaves m f.kind then m1.send (f.out m p) else m1 := by
  have hkb : (f.kind == .timed) = false := beq_false_of_ne hk
  unfold readyToLeave at hf
  simp only [frameLeaves, hf, hkb, hts, hc, Bool.false_and, Bool.false_eq_true, if_false]
  cases hbody : f.body
  case ptp o => exact absurd hbody (hb o)
  all_goals rfl

/-- A timed frame that is not in the transmit buffer expires (R347). -/
theorem frameLeaves_of_late {r q : Nat} {l : List Byte} (hf : (m.ethPort p).queue.find? (readyToLeave m p st) = some f) (hk : f.kind = .timed)
    (hc : f.cmd = some (r, q)) (hb : f.body = .raw l) :
    frameLeaves p st busy false m =
      completeLater r q (fin stEXPIRED)
        { dequeue p f m with net := { (dequeue p f m).net with timed := (dequeue p f m).net.timed.filter fun t => !(t.ring == r && t.seq == q) } } := by
  unfold readyToLeave at hf
  simp [frameLeaves, hf, hk, hc, stampCopies_of_raw hb, dequeue]

theorem prpSupRx_of_new (hport : portTakes m p x = true) (hprp : m.flag F.ethCtrlPrpEn = true) (hnew : m.net.nodes.any (fun y => y.src == src) = false)
    (hroom : m.net.nodes.length < 512) :
    prpSupRx p x src m = { m with net := { m.net with nodes := m.net.nodes ++ [⟨src, []⟩], prpFullRun := false } } :=
  (if_neg (by simp [hport, hprp, hnew])).trans (if_pos hroom)

theorem prpSupRx_of_idle (h : portTakes m p x = false ∨ m.flag F.ethCtrlPrpEn = false ∨ m.net.nodes.any (fun y => y.src == src) = true) :
    prpSupRx p x src m = m := by
  refine if_pos ?_
  obtain h | h | h := h <;> simp [h]

end Ports

/-- Settles O51: a step of a port acts where the networks work, the departure of a frame where the device is up; a clause without that premise is of a meaning that does nothing. -/
theorem ethernetPortStepsComplete : Obligations.EthernetPortStepsComplete := by
  unfold Obligations.EthernetPortStepsComplete
  refine ⟨fun p s hw hp hl => ?lost, fun p s hw hp hl => ?returned, fun p u s hl => ?same, fun p x s hw hport => ?unknown, fun p x s hport => ?unknownNot,
    fun p s hw hen => ?bad, fun p s hen => ?badNot, fun p st busy b f x s up hen hf hk hts hc hb => ?raw,
    fun p st busy b f o s up hen hf hk hts hc hb => ?telegram, fun p st r q busy f x s up hen hf hk hc hb => ?late, fun p st busy b s up h => ?nothing,
    fun p x src s hw hport hprp hnew hroom => ?node, fun p x src s h => ?nodeNot, fun s hw hprp => ?supervise, fun s hprp => ?superviseNot,
    fun src s hw => ?forget⟩
  case lost => exact next_run_of_working hw (linkChange_lost hp hl)
  case returned => exact next_run_of_working hw (linkChange_returned hp hl)
  case same => exact next_run_whenWorking_of_idle (linkChange_same hl)
  case unknown => exact next_run_of_working hw (if_pos hport)
  case unknownNot => exact next_run_whenWorking_of_idle (if_neg (ne_true_of_eq_false hport))
  case bad => exact next_run_of_working hw (if_pos hen)
  case badNot => exact next_run_whenWorking_of_idle (if_neg (ne_true_of_eq_false hen))
  case raw =>
    refine next_run_of_up up ((if_pos hen).trans ((frameLeaves_of_plain hf hk hts hc (by simp [hb])).trans ?_))
    rw [stampCopies_of_raw hb]
    simp only [TxFrame.out, hb]
    rfl
  case telegram => exact next_run_of_up up ((if_pos hen).trans (frameLeaves_of_plain hf hk hts hc (by simp [hb])))
  case late => exact next_run_of_up up ((if_pos hen).trans (frameLeaves_of_late hf hk hc hb))
  case nothing =>
    refine next_run_of_up up ?_
    obtain hen | hf := h
    · exact if_neg (ne_true_of_eq_false hen)
    · exact (ite_congr rfl (fun _ => frameLeaves_of_none hf) fun _ => rfl).trans (ite_self _)
  case node => exact next_run_of_working hw (prpSupRx_of_new hport hprp hnew hroom)
  case nodeNot => exact next_run_whenWorking_of_idle (prpSupRx_of_idle h)
  case supervise => exact next_run_of_working hw (if_pos hprp)
  case superviseNot => exact next_run_whenWorking_of_idle (if_neg (ne_true_of_eq_false hprp))
  case forget => exact next_run_of_working hw rfl

end Sys2Proof.Machine
end

section
/-! Proofs of the family `11_station_networks.md`: the CAN commands and the steps of the channels (R354–R365, R368). -/
namespace Sys2Proof.Machine

/-! ### A channel after a write to it -/

section Channel
variable {m : Mach} {c : Nat} {x : CanCh}

/-- A channel that is written reads back, unless the device has none of that number. -/
theorem canCh_setCan_cases (m : Mach) (c : Nat) (x : CanCh) : (m.setCan c x).canCh c = x ∨ (m.setCan c x).canCh c = m.canCh c := by
  have hread : (m.setCan c x).canCh c = (m.net.can.set c x).getD c canInit := rfl
  by_cases hc : c < m.net.can.length
  · refine .inl (hread.trans ?_)
    rw [List.getD_eq_getElem?_getD, List.getElem?_set_self hc]
    rfl
  · refine .inr (hread.trans ?_)
    rw [List.set_eq_of_length_le (Nat.le_of_not_lt hc)]
    rfl

/-- A write that keeps a part of the channel keeps it read. -/
theorem canCh_setCan_keeps {β : Type} (p : CanCh → β) (hx : p x = p (m.canCh c)) : p ((m.setCan c x).canCh c) = p (m.canCh c) := by
  obtain h | h := canCh_setCan_cases m c x
  · rw [h, hx]
  · rw [h]

@[simp] theorem completeLater_net (r q : Nat) (f : Fin) (m : Mach) : (completeLater r q f m).net = m.net := by
  unfold completeLater
  split
  · exact complete_net _ _ _
  · rfl

/-- The end of a frame touches the queue of its channel alone (R364). -/
theorem canFinish_auto (f : CanTx) (r k : Fin) (m : Mach) : ((canFinish c f r k m).canCh c).auto = (m.canCh c).auto := by
  have hnet : (canFinish c f r k m).net = (m.setCan c { m.canCh c with txq := (m.canCh c).txq.erase f }).net := by
    unfold canFinish
    rw [foldl_keeps Mach.net fun m (q : Nat × Nat) => completeLater_net q.1 q.2 k m, completeLater_net]
  have hch : (canFinish c f r k m).canCh c = (m.setCan c { m.canCh c with txq := (m.canCh c).txq.erase f }).canCh c :=
    congrArg (fun n => n.can.getD c canInit) hnet
  rw [hch]
  exact canCh_setCan_keeps CanCh.auto rfl

theorem dropQueue_auto (c : Nat) (m : Mach) : ((dropQueue c m).canCh c).auto = (m.canCh c).auto :=
  foldl_keeps (fun m => (m.canCh c).auto) (fun m f => canFinish_auto f _ _ m) _ m

end Channel

/-! ### The effects of the CAN commands, branch by branch (R356, R362–R365) -/

section CanCommands
variable {c : Cmd} {m : Mach}

/-- A channel of CAN_CONFIG: in its mode, with fresh counters and mailboxes (R356). -/
theorem effCanConfig_of_no_search (ha : (m.canCh (c.b 0 1)).auto = none) :
    effCanConfig c m =
      okDone ((dropQueue (c.b 0 1) m).setCan (c.b 0 1)
        { (dropQueue (c.b 0 1) m).canCh (c.b 0 1) with
            cfg := some (parseCan c), timing := none, state := if (parseCan c).mode = 0 then 3 else 0, listen := (parseCan c).mode == 2, txErr := 0, rxErr := 0
            boxes := List.replicate 64 mailboxInit, txq := [], exclusive := none, exclWait := none, auto := none }) := by
  have hdrop : ((dropQueue (c.b 0 1) m).canCh (c.b 0 1)).auto = none := (dropQueue_auto _ m).trans ha
  simp only [effCanConfig, hdrop]

theorem effCanAutobaud_of_no_search (ha : (m.canCh (c.b 0 1)).auto = none) :
    effCanAutobaud c m =
      (m.setCan (c.b 0 1) { m.canCh (c.b 0 1) with
        auto := some ⟨(List.range (c.b 1 1)).map (parseNominal c), (List.range (c.b 2 1)).map (parseData c), c.ring, c.seq, 0, 0, false, 0⟩
        listen := true, exclusive := none, exclWait := none, state := if (m.canCh (c.b 0 1)).state = 3 then 0 else (m.canCh (c.b 0 1)).state
        txq := (m.canCh (c.b 0 1)).txq.map fun f => { f with started := false } }, .hold) := by
  simp only [effCanAutobaud, ha]

theorem effCanSchedule_of_none_waiting (hn : (m.canCh (c.b 0 1)).schedNext = none) :
    effCanSchedule c m = (m.setCan (c.b 0 1) { m.canCh (c.b 0 1) with schedNext := some (parseSched c, c.ring, c.seq) }, .hold) := by
  simp only [effCanSchedule, hn]

theorem effCanTx_of_room {g : CanCfg} (hg : (m.canCh (txField c 0 1)).cfg = some g) (hmode : g.mode = 1)
    (hl : (m.canCh (txField c 0 1)).listen = false) (hfd : bitOf (txField c 4 4) 30 = true → g.fdEn = true)
    (hroom : (m.canCh (txField c 0 1)).txq.length < 32) :
    effCanTx c m =
      (m.setCan (txField c 0 1) { m.canCh (txField c 0 1) with
        txq := (m.canCh (txField c 0 1)).txq ++ [⟨c.ring, c.seq, txField c 4 4, txData c, false, []⟩] }, .hold) := by
  have hsends : ¬(g.mode ≠ 1 ∨ (m.canCh (txField c 0 1)).listen = true ∨ (bitOf (txField c 4 4) 30 = true ∧ (!g.fdEn) = true)) := by
    simpa [hmode, hl] using hfd
  simp only [effCanTx, hg]
  exact (if_neg hsends).trans (if_neg (Nat.not_le.2 hroom))

/-- The frame of a CAN_TX in the queue of a channel, by the command that CAN_CANCEL names (R364). -/
abbrev queuedFrame (c : Cmd) (m : Mach) (ch : Nat) : Option CanTx := (m.canCh ch).txq.find? fun f => f.ring == c.f 0 1 && f.seq == c.f 8 8

theorem queuedFrame_accepts (s : State) (i : CmdInfo) (d : Desc) (ch : Nat) : queuedFrame c (s.accepts i d) ch = queuedFrame c s.m ch := by
  simp [queuedFrame]

/-- CAN_CANCEL of a queued frame: one that is on the bus ends first (R364). -/
def cancelFrame (c : Cmd) (ch : Nat) (f : CanTx) (m : Mach) : Mach × Eff :=
  if f.started then
    (m.setCan ch { m.canCh ch with txq := (m.canCh ch).txq.map fun g => if g = f then { g with cancel := g.cancel ++ [(c.ring, c.seq)] } else g }, .hold)
  else okDone (canFinish ch f (fin stSUPERSEDED) (fin stDONE) m)

theorem effCanCancel_of_first {f : CanTx} (hf : queuedFrame c m 0 = some f) : effCanCancel c m = cancelFrame c 0 f m := by
  unfold queuedFrame at hf
  simp [effCanCancel, cancelFrame, List.range_succ, hf]

theorem effCanCancel_of_second {f : CanTx} (h0 : queuedFrame c m 0 = none) (hf : queuedFrame c m 1 = some f) : effCanCancel c m = cancelFrame c 1 f m := by
  unfold queuedFrame at h0 hf
  simp only [effCanCancel, List.range_succ, List.range_zero, List.nil_append, List.cons_append, List.findSome?_cons, h0, hf, Option.map_none, Option.map_some]
  rfl

theorem effCanCancel_of_none (hn : ∀ ch < 2, queuedFrame c m ch = none) (hp : m.findCmd (c.f 0 1) (c.f 8 8) = none) : effCanCancel c m = okEmpty m := by
  have h0 := hn 0 (by decide)
  have h1 := hn 1 (by decide)
  unfold queuedFrame at h0 h1
  simp only [effCanCancel, List.range_succ, List.range_zero, List.nil_append, List.cons_append, List.findSome?_cons, List.findSome?_nil, h0, h1, hp, Option.map_none]

end CanCommands

/-- Settles O32: acceptance leaves the channels, so each row owes only the branch of its effect; a search, a schedule, a frame and the CANCEL of one on the bus stay in effect. -/
theorem canCommandsTakeEffect : Obligations.CanCommandsTakeEffect := by
  unfold Obligations.CanCommandsTakeEffect
  refine ⟨fun d s h ha => ?config, fun d s h ha => ?autobaud, fun d s h hn => ?schedule, fun d s h g hg hmode hl hfd hroom => ?tx,
    fun d s h f hf hs => ?cancel, fun d s h f h0 hf hs => ?cancelSecond, fun d s h f hf hs => ?cancelStarted, fun d s h hn hp => ?cancelNone⟩
  case autobaud => exact congrArg Host.Outcome.next (run_hostCommand_of_hold h (effCanAutobaud_of_no_search (by simpa using ha)))
  case schedule => exact congrArg Host.Outcome.next (run_hostCommand_of_hold h (effCanSchedule_of_none_waiting (by simpa using hn)))
  case tx =>
    exact congrArg Host.Outcome.next
      (run_hostCommand_of_hold h (effCanTx_of_room (by simpa using hg) hmode (by simpa using hl) hfd (by simpa using hroom)))
  case cancelStarted =>
    exact congrArg Host.Outcome.next (run_hostCommand_of_hold h ((effCanCancel_of_first ((queuedFrame_accepts ..).trans hf)).trans (if_pos hs)))
  all_goals refine congrArg Host.Outcome.next (run_hostCommand_of_done h ?_)
  case config => exact effCanConfig_of_no_search (by simpa using ha)
  case cancel => exact (effCanCancel_of_first ((queuedFrame_accepts ..).trans hf)).trans (if_neg (ne_true_of_eq_false hs))
  case cancelSecond => exact (effCanCancel_of_second ((queuedFrame_accepts ..).trans h0) ((queuedFrame_accepts ..).trans hf)).trans (if_neg (ne_true_of_eq_false hs))
  case cancelNone => exact effCanCancel_of_none (fun ch hch => (queuedFrame_accepts ..).trans (hn ch hch)) hp

/-! ### Reception, acknowledgement and errors (R357–R359, R363) -/

section CanFrames
variable {m : Mach} {c b : Nat} {f : CanFrame} {g : CanCfg}

theorem canMute_of_listen {x : CanCh} (hl : x.listen = true) : canMute m x = true := by simp [canMute, canListens, hl]

theorem canSettle_of_same (hs : canStateOf (m.canCh c) = (m.canCh c).state) : canSettle c m = m := if_pos (.inl hs)

theorem autoFrame_of_no_search (ha : (m.canCh c).auto = none) : autoFrame c f m = m := by simp only [autoFrame, ha]

/-- With no EXCLUSIVE frame that waits for the bus, the end of another node's frame starts none (R361). -/
theorem canIdle_of_none_waiting (hw : (m.canCh c).exclWait = none) : canIdle c m = m := if_neg (by simp [hw])

theorem canRx_of_deaf (h : 1 < c ∨ 2 ≤ (m.canCh c).state ∨ siphonLost m (16 + c) = true) : canRx c f m = m := by
  refine if_pos ?_
  obtain h | h | h := h <;> simp [h]

/-- A mailbox that has taken a frame (R359). -/
def boxTakes (f : CanFrame) (o : Mailbox) : Mailbox := ⟨some f, if o.frame.isSome then incSat 8 o.overwrite 1 else o.overwrite, o.count + 1, true, false⟩

/-- The device that has counted one more good frame of a channel. -/
def countRx (c : Nat) (m : Mach) : Mach := m.setF (F.canCountRxOk c) ((m.reg.raw (F.canCountRxOk c) + 1) % 65536)

/-- A channel that listens, without a search and with settled counters, counts a data frame and keeps it in the mailbox that takes it; one whose filter asks no record keeps it there alone (R359). -/
theorem canRx_of_box (hc : c < 2) (hst : (m.canCh c).state < 2) (hmoves : siphonLost m (16 + c) = false) (ha : (m.canCh c).auto = none)
    (hl : (m.canCh c).listen = true) (hw : (m.canCh c).exclWait = none) (hset : canStateOf (m.canCh c) = (m.canCh c).state) (hdata : f.remote = false)
    (hbox : boxFor (m.canCh c) f = some b) (hheard : ((m.canCh c).boxes.getD b mailboxInit).silent = false) (hg : (m.canCh c).cfg = some g)
    (hrec : (g.filters.getD b ⟨0, false, false, 0, false⟩).record = false) :
    canRx c f m =
      (countRx c m).setCan c { m.canCh c with boxes := setAt (m.canCh c).boxes b (boxTakes f ((m.canCh c).boxes.getD b mailboxInit)) } := by
  have htaken : ¬(decide (1 < c) || decide (2 ≤ (m.canCh c).state) || siphonLost m (16 + c)) = true := by
    simp [Nat.not_lt.2 (Nat.le_of_lt_succ hc), Nat.not_le.2 hst, hmoves]
  have hch : (countRx c m).canCh c = m.canCh c := rfl
  have hauto : autoFrame c f (countRx c m) = countRx c m := autoFrame_of_no_search ha
  have hsettle : canSettle c (countRx c m) = countRx c m := canSettle_of_same hset
  refine (if_neg htaken).trans ?_
  simp only [← countRx.eq_def, hauto, hch, canMute_of_listen hl, if_true, hsettle, hdata, hbox, hheard, hg, hrec, Bool.false_eq_true, if_false]
  refine canIdle_of_none_waiting (Eq.trans (canCh_setCan_keeps (m := countRx c m) CanCh.exclWait ?_) hw)
  rfl

theorem canAck_of_idle {n sof a : Nat} (he : (m.canCh c).exclusive = none) (hq : (m.canCh c).txq.any CanTx.started = false) : canAck c n sof a m = m :=
  if_pos (by simp [CanCh.busy, he, hq])

/-- The counters of a channel after a frame of its own is acknowledged (R357, R363). -/
def ackCounted (c : Nat) (m : Mach) : Mach :=
  canSettle c ((m.setCan c { m.canCh c with txErr := (m.canCh c).txErr - 1 }).setF (F.canCountTxOk c) ((m.reg.raw (F.canCountTxOk c) + 1) % 65536))

theorem canAck_of_queued {n sof a : Nat} {t : CanTx} (hq : (m.canCh c).txq.any CanTx.started = true)
    (he : ((ackCounted c m).canCh c).exclusive = none) (ht : ((ackCounted c m).canCh c).txq.find? CanTx.started = some t) :
    canAck c n sof a m = canStart c a (canFinish c t ⟨stDONE, n, sof, 0, []⟩ ⟨stDONEEMPTY, 1, 0, 0, []⟩ (ackCounted c m)) := by
  unfold ackCounted at he ht
  refine (if_neg (by simp [CanCh.busy, hq])).trans ?_
  simp only [he, ht, Option.isSome_none, Bool.false_eq_true, if_false]
  rfl

/-- A bit error that a channel sees as receiver raises its count and sends an error frame (R357, R358). -/
theorem canBitError_of_receiver {w bp a : Nat} {arb col : Bool} (hc : c < 2) (hst : (m.canCh c).state < 2) (ha : (m.canCh c).auto = none)
    (hmute : canMute m (m.canCh c) = false) :
    canBitError c false w bp a arb col m =
      canSettle c (((m.setCan c { m.canCh c with rxErr := min ((m.canCh c).rxErr + if Config.canException c a then 8 else 1) 255 }).send (.canError c)).bump
        (F.canErrErrFrames c) 1) := by
  have hserved : ¬(decide (1 < c) || decide (2 ≤ (m.canCh c).state)) = true := by
    simp [Nat.not_lt.2 (Nat.le_of_lt_succ hc), Nat.not_le.2 hst]
  refine (if_neg hserved).trans ?_
  simp only [ha, hmute, canCount, Bool.false_and, Bool.false_eq_true, if_false]

/-- A channel that may not answer on the bus takes no part in an error (R354, R476). -/
theorem canBitError_of_mute {w bp a : Nat} {tx arb col : Bool} (ha : (m.canCh c).auto = none) (hmute : canMute m (m.canCh c) = true) :
    canBitError c tx w bp a arb col m = m := by
  simp only [canBitError, ha, hmute, if_true, ite_self]

theorem canRecover_of_auto {a : Nat} (hs : (m.canCh c).state = 2) (hf : m.flag (if c = 0 then F.canCtrlAutoRecover0 else F.canCtrlAutoRecover1) = true) :
    canRecover c a m = canStart c a ((m.setCan c { m.canCh c with state := 0, txErr := 0, rxErr := 0 }).post 0x070E []) := if_pos ⟨hs, hf⟩

theorem canRecover_of_on_bus {a : Nat} (hs : (m.canCh c).state ≠ 2) : canRecover c a m = m := if_neg fun h => hs h.1

end CanFrames

/-! ### The schedule matrix and the search for the bit rate (R361, R362, R365) -/

section CanSchedule
variable {m : Mach} {c i a w : Nat} {st : Bool} {x : CanSched} {e : CanEntry} {g : CanAuto}

theorem slotEnds_of_missed (hw : (m.canCh c).exclWait = some w) (hr : (m.canCh c).missRun = false) :
    slotEnds c m =
      (((m.setCan c { m.canCh c with exclWait := none, exclOver := true, missRun := true }).raise F.canStatusSlotMiss).bump (F.canCountSlotMissed c) 1).post
        0x070F [] := by
  simp [slotEnds, hw, hr]

theorem cycleStart_of_waiting {r q : Nat} (hn : (m.canCh c).schedNext = some (x, r, q))
    (hgrid : fromAnchor m a % ((1000 * x.len * x.cycles : Nat) : Int) = 0) :
    cycleStart c a m =
      let m1 := slotEnds c m
      canStart c a (m1.setCan c { m1.canCh c with
        sched := some x, schedNext := none, schedDone := some (r, q), base := a, cycle := 0, window := false
        checks := List.replicate 64 (none, false), tplData := (m1.canCh c).tplNext, tplNext := [] }) := by
  simp only [cycleStart, hn, hgrid, if_true]

theorem cycleStart_of_in_force (hn : (m.canCh c).schedNext = none) (hs : (m.canCh c).sched = some x)
    (hgrid : fromAnchor m a % ((1000 * x.len : Nat) : Int) = 0) :
    cycleStart c a m =
      let m1 := slotEnds c m
      m1.setCan c { m1.canCh c with base := a, cycle := ((fromAnchor m a / ((1000 * x.len : Nat) : Int)) % (x.cycles : Int)).toNat, window := false } := by
  simp only [cycleStart, nextCycle, hn, hs, hgrid, if_true]

theorem cycleStart_of_none (hn : (m.canCh c).schedNext = none) (hs : (m.canCh c).sched = none) : cycleStart c a m = m := by
  simp only [cycleStart, nextCycle, hn, hs]

/-- An instant is that of an entry of the schedule in force, in a basic cycle of its mask (R361). -/
structure AtEntry (m : Mach) (c i a : Nat) (e : CanEntry) : Prop where
  listed : ((m.canCh c).sched.bind fun x => x.entries[i]?) = some e
  instant : (a : Int) - (m.canCh c).base = (1000 * e.ofs : Nat)
  inCycle : bitOf e.cycleMask (m.canCh c).cycle = true

/-- An entry acts by its kind once the window before it has ended (R361). -/
theorem scheduleEntry_of_atEntry (h : AtEntry m c i a e) :
    scheduleEntry c i a st m =
      let m1 := slotEnds c m
      if e.kind = 1 then
        (if st then canStart c a (m1.setCan c { m1.canCh c with window := false, exclWait := some e.which })
          else m1.setCan c { m1.canCh c with window := false, exclWait := some e.which })
      else if e.kind = 2 then canStart c a (m1.setCan c { m1.canCh c with window := true })
      else rxCheck c i e.which m1 := by
  have hnow : ¬((a : Int) - (m.canCh c).base ≠ (1000 * e.ofs : Nat) ∨ (!bitOf e.cycleMask (m.canCh c).cycle) = true) := by
    simp [h.instant, h.inCycle]
  simp only [scheduleEntry, h.listed]
  exact if_neg hnow

theorem scheduleEntry_of_none (h : ((m.canCh c).sched.bind fun x => x.entries[i]?) = none) : scheduleEntry c i a st m = m := by
  simp only [scheduleEntry, h]

theorem autoDwell_of_searching (ha : (m.canCh c).auto = some g) (hf : g.found = false) :
    autoDwell c m = m.setCan c { m.canCh c with auto := some { g with idx := (g.idx + 1) % max g.nominal.length 1, good := 0 } } := by
  simp [autoDwell, ha, hf]

theorem autoDwell_of_found (ha : (m.canCh c).auto = some g) (hf : g.found = true) :
    autoDwell c m = completeLater g.ring g.seq ⟨stDONE, 0xFF, g.idx, 0, []⟩ (m.setCan c { m.canCh c with auto := none }) := by
  simp [autoDwell, ha, hf]

theorem autoTimeout_of_searching (ha : (m.canCh c).auto = some g) (hf : g.found = false) :
    autoTimeout c m = completeLater g.ring g.seq (fin stDONEEMPTY) (m.setCan c { m.canCh c with auto := none }) := by
  simp [autoTimeout, ha, hf]

theorem autoTimeout_of_none (ha : (m.canCh c).auto = none) : autoTimeout c m = m := by simp only [autoTimeout, ha]

end CanSchedule

/-- Settles O52: every row asks that the networks work, and its clauses are the branches of its meaning; a clause without that premise is of a meaning that does nothing. -/
theorem canStepsComplete : Obligations.CanStepsComplete := by
  unfold Obligations.CanStepsComplete
  refine ⟨fun c b f g s hw hc hst hmoves ha hl hwait hset hdata hbox hheard hg hrec => ?received, fun c f s h => ?deaf,
    fun c n sof a f s hw he hq hcounted => ?acked, fun c n sof a s he hq => ?notAcked, fun c w bp a arb col s hw hc hst ha hl hdrives hsafe => ?error,
    fun c w bp a tx arb col s ha h => ?mute, fun c s hw hs hf => ?recovery, fun c s hs => ?noRecovery,
    fun c a r q x s hw hn hgrid => ?cycleNew, fun c a x s hw hn hs hgrid => ?cycle, fun c a s hn hs => ?noCycle,
    fun c i a st e s hw hl hat hin hk => ?arbitrating, fun c i a st e s hw hl hat hin hk => ?exclusive, fun c i a st e s hw hl hat hin hk => ?rxCheck,
    fun c i a w st e s hw hl hat hin hk hwait hr => ?missed, fun c i a st s h => ?noEntry, fun c g s hw ha hf => ?dwell, fun c g s hw ha hf => ?found,
    fun c g s hw ha hf => ?timeout, fun c s ha => ?noTimeout⟩
  case received => exact next_run_of_working hw (canRx_of_box hc hst hmoves ha hl hwait hset hdata hbox hheard hg hrec)
  case deaf => exact next_run_whenWorking_of_idle (canRx_of_deaf h)
  case acked => exact next_run_of_working hw (canAck_of_queued hq hcounted.1 hcounted.2)
  case notAcked => exact next_run_whenWorking_of_idle (canAck_of_idle he hq)
  case error =>
    refine next_run_of_working hw (canBitError_of_receiver hc hst ha ?_)
    rw [canMute, canListens, hl, hdrives]
    simpa [Mach.inState] using hsafe
  case mute =>
    refine next_run_whenWorking_of_idle (canBitError_of_mute ha ?_)
    obtain hl | hd | hsafe := h
    · exact canMute_of_listen hl
    · simp [canMute, canListens, hd]
    · rw [canMute, Mach.inState, hsafe]; exact Bool.or_true _
  case recovery => exact next_run_of_working hw (canRecover_of_auto hs hf)
  case noRecovery => exact next_run_whenWorking_of_idle (canRecover_of_on_bus hs)
  case cycleNew => exact next_run_of_working hw (cycleStart_of_waiting hn hgrid)
  case cycle => exact next_run_of_working hw (cycleStart_of_in_force hn hs hgrid)
  case noCycle => exact next_run_whenWorking_of_idle (cycleStart_of_none hn hs)
  case noEntry => exact next_run_whenWorking_of_idle (scheduleEntry_of_none h)
  case dwell => exact next_run_of_working hw (autoDwell_of_searching ha hf)
  case found => exact next_run_of_working hw (autoDwell_of_found ha hf)
  case timeout => exact next_run_of_working hw (autoTimeout_of_searching ha hf)
  case noTimeout => exact next_run_whenWorking_of_idle (autoTimeout_of_none ha)
  all_goals refine next_run_of_working hw ((scheduleEntry_of_atEntry ⟨hl, hat, hin⟩).trans ?_)
  case arbitrating => simp only [hk, Nat.reduceEqDiff, if_false, if_true]
  case exclusive => exact if_pos hk
  case rxCheck => simp only [hk, Nat.reduceEqDiff, if_false]
  case missed => simp only [hk, Nat.reduceEqDiff, if_false, slotEnds_of_missed hwait hr]

end Sys2Proof.Machine
end

section
/-! Proofs of the family `12_bridge_outputs_and_lantern.md`: the outputs of a Lantern channel, the steps of the PWM channels, the trips and the Lantern drivers (R371–R385). -/
namespace Sys2Proof.Machine

/-! ### The outputs of a Lantern channel (R382) -/

section LanternOutputs
variable {m : Mach} {n : Nat}

theorem onLantern_of_lt (hn : n < 6) : onLantern m n = bitOf (m.fld F.lanCtrlLanEn) n := by simp [onLantern, hn]

theorem bitOf_pwmH (m : Mach) (n : Nat) : bitOf (pinsOf m).pwmH n = (decide (n < 12) && pwmLevel m .high n) := bitOf_maskOf 12 _ n
theorem bitOf_pwmL (m : Mach) (n : Nat) : bitOf (pinsOf m).pwmL n = (decide (n < 12) && pwmLevel m .low n) := bitOf_maskOf 12 _ n
theorem bitOf_lho (hn : n < 6) : bitOf (pinsOf m).lho n = lanLevel m .high n := (bitOf_maskOf 6 _ n).trans (by simp [hn])
theorem bitOf_llo (hn : n < 6) : bitOf (pinsOf m).llo n = lanLevel m .low n := (bitOf_maskOf 6 _ n).trans (by simp [hn])

/-- A driver is served: its outputs are driven, its channel is enabled and given to it, and no trip holds it (R378, R382). -/
structure LanternServed (m : Mach) (n : Nat) : Prop where
  drives : driving m = true
  enabled : pwmEnabled m n = true
  given : onLantern m n = true
  free : bitOf (tripMask m true) n = false

/-- The high side of a served driver follows the leg, but for an under-voltage hold and a refresh (R383, R384). -/
theorem lanLevel_high_of_served (h : LanternServed m n) :
    lanLevel m .high n = ((m.pwmCh n).h && !(m.pwmCh n).l && !(m.pwm.lan.getD n lanternInit).uvHold && (m.pwm.lan.getD n lanternInit).refresh == .none) := by
  have hen : bitOf (m.fld F.pwmCtrlChEn) n = true := h.enabled
  simp [lanLevel, legLevels, Mach.pwmCh, h.drives, hen, h.given, h.free]

/-- The low side of a served driver follows the leg, and pulses in a refresh (R384). -/
theorem lanLevel_low_of_served (h : LanternServed m n) (hr : (m.pwm.lan.getD n lanternInit).refresh = .none) :
    lanLevel m .low n = ((m.pwmCh n).l && !(m.pwmCh n).h) := by
  have hen : bitOf (m.fld F.pwmCtrlChEn) n = true := h.enabled
  have hpulse : ((m.pwm.lan.getD n lanternInit).refresh == .pulse) = false := by rw [hr]; rfl
  simp only [lanLevel, legLevels, Mach.pwmCh, h.drives, hen, h.given, h.free, hpulse, Bool.not_false, Bool.and_true, Bool.and_false, Bool.true_and,
    Bool.or_false]

end LanternOutputs

/-- Settles O19: each ball is a bit of a mask, whose level LAN_EN decides; a driver that is served follows its leg. -/
theorem lanternBitChoosesTheOutputs : Obligations.LanternBitChoosesTheOutputs := by
  unfold Obligations.LanternBitChoosesTheOutputs
  intro m n hn c
  have hon : onLantern m n = bitOf (m.fld F.lanCtrlLanEn) n := onLantern_of_lt hn
  refine ⟨fun hset hen => ?given, fun hclear => ?notGiven⟩
  case given =>
    have hgiven : onLantern m n = true := hon.trans hset
    refine ⟨?_, ?_, fun hdrive htrip => ?_⟩
    · rw [bitOf_pwmH, pwmLevel_of_lantern hgiven, Bool.and_false]
    · rw [bitOf_pwmL, pwmLevel_of_lantern hgiven, Bool.and_false]
    · have hserved : LanternServed m n := ⟨hdrive, hen, hgiven, htrip⟩
      rw [bitOf_llo hn, bitOf_lho hn, lanLevel_high_of_served hserved]
      refine ⟨fun hr => ⟨lanLevel_low_of_served hserved hr, fun huv => ?_⟩, fun hr => ?_⟩
      · rw [huv, hr]; simp [c]
      · rw [beq_false_of_ne hr, Bool.and_false]
  case notGiven =>
    have hnot : onLantern m n = false := hon.trans hclear
    rw [bitOf_lho hn, bitOf_llo hn]
    exact ⟨lanLevel_of_no_lantern hnot _, lanLevel_of_no_lantern hnot _⟩

/-! ### Carriers, dead times and triggers (R371–R377) -/

section Carriers
variable {m : Mach} {n a : Nat} {b : Nat × Nat} {k : Option Nat} {t : Nat} {restart : Bool}

/-- A channel that is enabled and has no carrier starts one at a restart (R371). -/
theorem carrierAt_first (hen : pwmEnabled m n = true) (hs : (m.pwmCh n).startAt = none)
    (hb : restartFor m (m.pwmCh n).restartK (carrierPhase m n) = some b) : carrierAt m n true = some (some b.1, 16 * b.2 + carrierPhase m n) := by
  simp [carrierAt, hen, hs, hb]

theorem carrierAt_next (hen : pwmEnabled m n = true) (hs : (m.pwmCh n).startAt = some a) :
    carrierAt m n false = some ((m.pwmCh n).restartK, a + carrierTicks (m.pwmCh n)) := by
  simp [carrierAt, hen, hs]

theorem carrierAt_aligned (hen : pwmEnabled m n = true) (hs : (m.pwmCh n).startAt = some a) (hal : m.flag (F.pwmPerAlign n) = true)
    (hb : restartFor m (m.pwmCh n).restartK (m.pwmCh n).phase = some b) : carrierAt m n true = some (some b.1, 16 * b.2 + (m.pwmCh n).phase) := by
  simp [carrierAt, hen, hs, hal, hb]

theorem carrierAt_not_aligned (hs : (m.pwmCh n).startAt = some a) (hal : m.flag (F.pwmPerAlign n) = false) : carrierAt m n true = none := by
  simp [carrierAt, hs, hal]

theorem carrierAt_of_disabled (hen : pwmEnabled m n = false) : carrierAt m n restart = none := by simp [carrierAt, hen]

theorem carrierStart_of_none (h : carrierAt m n restart = none) : carrierStart n restart m = m := by simp only [carrierStart, h]

/-- The carrier in force is cut short by one that starts at an instant (R371). -/
def cutsShort (m : Mach) (n : Nat) (restart : Bool) (t : Nat) : Bool :=
  restart && (match (m.pwmCh n).startAt with | some s => decide (t < s + carrierTicks (m.pwmCh n)) | none => false)

/-- The first instant at which a waiting override or release acts has passed (R387). -/
def pendActs (c : PwmCh) (t : Nat) : Bool := match c.pend with | some p => decide (p.1 < t / 32) | none => false

/-- The Lantern drivers once the carrier of channel `n` has started: an under-voltage that has recovered no longer holds (R383). -/
def lanStarted (m : Mach) (n : Nat) : List Lantern :=
  match m.pwm.lan[n]? with
  | some x => setAt m.pwm.lan n { x with uvHold := x.uvHold && !x.recovered, recovered := false }
  | none => m.pwm.lan

/-- The device with a channel set at a carrier start, its two sides following. -/
def startWith (n t : Nat) (e : PwmCh) (m1 m : Mach) : Mach := follow n t { m1.setPwm n e with pwm := { (m1.setPwm n e).pwm with lan := lanStarted m n } }

/-- The settings of a carrier start, but for the mark of a cut and the override in force (R371, R373). -/
def started (m : Mach) (n t : Nat) (k : Option Nat) : PwmCh :=
  { reload m n (m.pwmCh n) with startAt := some t, restartK := k, ref := decide (0 < (reload m n (m.pwmCh n)).cmp), resuming := false }

/-- The shape that every carrier start has (R371, R373). -/
theorem carrierStart_of_some (h : carrierAt m n restart = some (k, t)) :
    carrierStart n restart m =
      let cut := cutsShort m n restart t
      let acts := pendActs (m.pwmCh n) t
      let m1 := if cut then m.raise F.pwmStatusCut else m
      let m2 := if cut && !(m.pwmCh n).cutRun then m1.post 0x0C07 [] else m1
      startWith n t { started m n t k with
        cutRun := if restart then cut else (m.pwmCh n).cutRun
        forced := if acts then (m.pwmCh n).pend.bind Prod.snd else (m.pwmCh n).forced, pend := if acts then none else (m.pwmCh n).pend } m2 m := by
  simp only [carrierStart, h]
  rfl

theorem pendActs_of_none {c : PwmCh} (h : c.pend = none) (t : Nat) : pendActs c t = false := by simp only [pendActs, h]

theorem pendActs_of_due {c : PwmCh} {p : Nat × Option (Bool × Bool)} (h : c.pend = some p) (hp : p.1 < t / 32) : pendActs c t = true := by
  simp only [pendActs, h, hp, decide_true]

/-- Without a carrier that runs, none is cut short. -/
theorem cutsShort_of_none (hs : (m.pwmCh n).startAt = none) : cutsShort m n restart t = false := by simp [cutsShort, hs]

theorem cutsShort_of_early (hs : (m.pwmCh n).startAt = some a) (ht : t < a + carrierTicks (m.pwmCh n)) : cutsShort m n true t = true := by
  simp [cutsShort, hs, ht]

/-- A restart starts a carrier and cuts none short, with no override or release waiting. -/
theorem carrierStart_restart (h : carrierAt m n true = some (k, t)) (hcut : cutsShort m n true t = false) (hp : (m.pwmCh n).pend = none) :
    carrierStart n true m = startWith n t { started m n t k with cutRun := false } m m := by
  rw [carrierStart_of_some h, hcut, pendActs_of_none hp]
  rfl

/-- A restart starts a carrier and cuts none short, and the override or release that waits for it is taken (R387). -/
theorem carrierStart_restart_pending {p : Nat × Option (Bool × Bool)} (h : carrierAt m n true = some (k, t)) (hcut : cutsShort m n true t = false)
    (hp : (m.pwmCh n).pend = some p) (hdue : p.1 < t / 32) :
    carrierStart n true m = startWith n t { started m n t k with cutRun := false, forced := p.2, pend := none } m m := by
  rw [carrierStart_of_some h, hcut, pendActs_of_due hp hdue, hp]
  rfl

/-- A carrier follows the last one, with no override or release waiting. -/
theorem carrierStart_next (h : carrierAt m n false = some (k, t)) (hp : (m.pwmCh n).pend = none) :
    carrierStart n false m = startWith n t (started m n t k) m m := by
  rw [carrierStart_of_some h, pendActs_of_none hp]
  rfl

/-- A carrier follows the last one, and the override or release that waits for it is taken (R387). -/
theorem carrierStart_next_pending {p : Nat × Option (Bool × Bool)} (h : carrierAt m n false = some (k, t)) (hp : (m.pwmCh n).pend = some p)
    (hdue : p.1 < t / 32) : carrierStart n false m = startWith n t { started m n t k with forced := p.2, pend := none } m m := by
  rw [carrierStart_of_some h, pendActs_of_due hp hdue, hp]
  rfl

/-- A restart cuts a carrier short for the first time in a run, with CUT and its event (R371). -/
theorem carrierStart_cut (h : carrierAt m n true = some (k, t)) (hcut : cutsShort m n true t = true) (hrun : (m.pwmCh n).cutRun = false)
    (hp : (m.pwmCh n).pend = none) :
    carrierStart n true m = startWith n t { started m n t k with cutRun := true } ((m.raise F.pwmStatusCut).post 0x0C07 []) m := by
  rw [carrierStart_of_some h, hcut, hrun, pendActs_of_none hp]
  rfl

theorem compareMatch_of_running (hs : (m.pwmCh n).startAt = some a) (hc : (m.pwmCh n).cmp < carrierTicks (m.pwmCh n)) :
    compareMatch n m = follow n (a + (m.pwmCh n).cmp) (m.setPwm n { m.pwmCh n with ref := false }) := by
  simp only [compareMatch, hs, if_neg (Nat.not_le.2 hc)]

theorem compareMatch_of_idle (h : (m.pwmCh n).startAt = none ∨ carrierTicks (m.pwmCh n) ≤ (m.pwmCh n).cmp) : compareMatch n m = m := by
  unfold compareMatch
  dsimp only
  split
  next s hs => exact if_pos (h.resolve_left (by simp [hs]))
  next => rfl

theorem pwmTrigger_of_due (hs : (m.pwmCh n).startAt = some a) (hen : pwmEnabled m n = true) (hdiv : 0 < (m.pwmCh n).trgDiv)
    (hcmp : (m.pwmCh n).trgCmp < carrierTicks (m.pwmCh n)) (hcar : 0 < (m.pwmCh n).carriers) (hmod : (m.pwmCh n).carriers % (m.pwmCh n).trgDiv = 0) :
    pwmTrigger n m = triggerSlots (4 + n) ((a + (m.pwmCh n).trgCmp) / 16) m := by
  have hmax : max (m.pwmCh n).trgDiv 1 = (m.pwmCh n).trgDiv := Nat.max_eq_left hdiv
  simp [pwmTrigger, hs, hen, hdiv, hcmp, hcar, hmax, hmod]

theorem pwmTrigger_of_idle (h : (m.pwmCh n).startAt = none ∨ pwmEnabled m n = false ∨ (m.pwmCh n).trgDiv = 0) : pwmTrigger n m = m := by
  obtain h | h | h := h
  · simp only [pwmTrigger, h]
  · unfold pwmTrigger
    dsimp only
    split
    · exact if_neg (by simp [h])
    · rfl
  · unfold pwmTrigger
    dsimp only
    split
    · exact if_neg (by simp [h])
    · rfl

end Carriers

/-! ### Trips and the Lantern drivers (R378, R383–R385) -/

section TripsAndDrivers
variable {m : Mach} {t n ns : Nat} {x : Lantern}

theorem tripLatch_of_enabled (ht : t < 8) (hen : bitOf (m.fld F.tripCfgTripEn) t = true) :
    tripLatch t ns m =
      let m1 := { m with pwm := { m.pwm with active := m.pwm.active ||| 2 ^ t } }
      if bitOf m.pwm.latched t then m1
      else tripAct (ticksOfNs m ns) { m1 with pwm := { m1.pwm with latched := m1.pwm.latched ||| 2 ^ t, tripEv := m1.pwm.tripEv ++ [(t, ns)] } } :=
  if_neg (by simp [Nat.not_lt.2 (Nat.le_of_lt_succ ht), hen])

theorem tripLatch_of_disabled (h : 7 < t ∨ bitOf (m.fld F.tripCfgTripEn) t = false) : tripLatch t ns m = m := by
  refine if_pos ?_
  obtain h | h := h <;> simp [h]

theorem bootUv_of_free (hx : m.pwm.lan[n]? = some x) (hu : x.uvHold = false) :
    bootUv n m =
      ({ m with pwm := { m.pwm with lan := setAt m.pwm.lan n ⟨true, false, .none⟩ } }.setF F.lanStatusBootUv (putBits (m.reg.raw F.lanStatusBootUv) n 1 1)).post
        0x0C05 [n] := by
  simp [bootUv, hx, hu]

theorem bootUv_of_held (hx : m.pwm.lan[n]? = some x) (hu : x.uvHold = true) (hr : x.recovered = false) : bootUv n m = m := by
  simp [bootUv, hx, hu, hr]

theorem bootRecover_of_driver (hx : m.pwm.lan[n]? = some x) :
    bootRecover n m = { m with pwm := { m.pwm with lan := setAt m.pwm.lan n { x with recovered := x.uvHold } } } := by
  simp only [bootRecover, hx]

/-- The refresh of a driver in its next part (R384). -/
def putRefresh (n : Nat) (r : Refresh) (m : Mach) : Mach :=
  { m with pwm := { m.pwm with lan := modAt m.pwm.lan n fun x => { x with refresh := r } } }

theorem bootRefresh_of_none (hr : (m.pwm.lan.getD n lanternInit).refresh = .none) :
    bootRefresh n m =
      if lanLevel m .high n then putRefresh n .before ((m.send (.refresh n (m.fld F.lanBootLsMin))).bump F.lanCountRefreshCnt 1) else m := by
  simp only [bootRefresh, hr]
  rfl

theorem bootRefresh_of_before (hr : (m.pwm.lan.getD n lanternInit).refresh = .before) : bootRefresh n m = putRefresh n .pulse m := by
  simp only [bootRefresh, hr]
  rfl

theorem bootRefresh_of_pulse (hr : (m.pwm.lan.getD n lanternInit).refresh = .pulse) : bootRefresh n m = putRefresh n .after m := by
  simp only [bootRefresh, hr]
  rfl

theorem bootRefresh_of_after (hr : (m.pwm.lan.getD n lanternInit).refresh = .after) : bootRefresh n m = putRefresh n .none m := by
  simp only [bootRefresh, hr]
  rfl

theorem lanternShort_of_off {y : Side} (h : lanLevel m y n = false) : lanternShort n y ns m = m := if_pos (by simp [h])

/-- The flag and the code of the side of a driver that is short-circuited (R385). -/
def shortFlag : Side → FieldRef
  | .high => F.lanStatusScH
  | .low => F.lanStatusScL

def shortCode : Side → Nat
  | .high => 0
  | .low => 1

/-- A short circuit on a side that is on: the flag of the side, the count and the event for the next boundary (R385). -/
theorem lanternShort_of_on {y : Side} (h : lanLevel m y n = true) :
    lanternShort n y ns m =
      let m1 := (m.setF (shortFlag y) (putBits (m.reg.raw (shortFlag y)) n 1 1)).bump F.lanCountScCnt 1
      { m1 with pwm := { m1.pwm with shortEv := m1.pwm.shortEv ++ [(n, shortCode y, ns)] } } := by
  cases y <;> exact if_neg (by simp [h])

end TripsAndDrivers

/-- Settles O53: a carrier start is decided by where a carrier may start, whether it cuts one short and whether an override waits for it; the other rows are the branches of their meanings. -/
theorem pwmAndLanternStepsComplete : Obligations.PwmAndLanternStepsComplete := by
  unfold Obligations.PwmAndLanternStepsComplete
  refine ⟨fun n b s hw hen hs hb hp => ?first, fun n b p s hw hen hs hb hp => ?firstPending, fun n a s hw hen hs hp => ?next,
    fun n a p s hw hen hs hp => ?nextPending, fun n a b s hw hen hs hal hb hp ht hrun => ?cut, fun n a s hs hal => ?notAligned, fun n r s hen => ?disabled,
    fun n a s hw hs hc => ?compare, fun n s h => ?noCompare, fun n s hw hd => ?deadHigh, fun n s hw hd => ?deadLow, fun n s hd => ?noDeadHigh,
    fun n s hd => ?noDeadLow, fun n a s hw hs hen hdiv hcmp hcar hmod => ?trigger, fun n s h => ?noTrigger, fun t ns s up ht hen hl => ?trip,
    fun t ns s up ht hen hl => ?tripAgain, fun t ns s up h => ?noTrip, fun n x s hw hx hu => ?bootUv, fun n x s hx hu hr => ?bootUvHeld,
    fun n x s hw hx => ?recover, fun n s hw hl hr => ?refresh, fun n s hw hr => ?pulse, fun n s hw hr => ?after, fun n s hw hr => ?ends,
    fun n s hl hr => ?noRefresh, fun n ns s hw hl => ?shortHigh, fun n ns s hw hl => ?shortLow, fun n ns y s hl => ?noShort⟩
  case first => exact next_run_of_working hw (carrierStart_restart (carrierAt_first hen hs hb) (cutsShort_of_none hs) hp)
  case firstPending => exact next_run_of_working hw (carrierStart_restart_pending (carrierAt_first hen hs hb) (cutsShort_of_none hs) hp.1 hp.2)
  case next => exact next_run_of_working hw (carrierStart_next (carrierAt_next hen hs) hp)
  case nextPending => exact next_run_of_working hw (carrierStart_next_pending (carrierAt_next hen hs) hp.1 hp.2)
  case cut => exact next_run_of_working hw (carrierStart_cut (carrierAt_aligned hen hs hal hb) (cutsShort_of_early hs ht) hrun hp)
  case notAligned => exact next_run_whenWorking_of_idle (carrierStart_of_none (carrierAt_not_aligned hs hal))
  case disabled => exact next_run_whenWorking_of_idle (carrierStart_of_none (carrierAt_of_disabled hen))
  case compare => exact next_run_of_working hw (compareMatch_of_running hs hc)
  case noCompare => exact next_run_whenWorking_of_idle (compareMatch_of_idle h)
  case deadHigh | deadLow => exact next_run_of_working hw (if_pos hd)
  case noDeadHigh | noDeadLow => exact next_run_whenWorking_of_idle (if_neg (ne_true_of_eq_false hd))
  case trigger => exact next_run_of_working hw (pwmTrigger_of_due hs hen hdiv hcmp hcar hmod)
  case noTrigger => exact next_run_whenWorking_of_idle (pwmTrigger_of_idle h)
  case trip => exact next_run_of_up up ((tripLatch_of_enabled ht hen).trans (if_neg (ne_true_of_eq_false hl)))
  case tripAgain => exact next_run_of_up up ((tripLatch_of_enabled ht hen).trans (if_pos hl))
  case noTrip => exact next_run_of_up up (tripLatch_of_disabled h)
  case bootUv => exact next_run_of_working hw (bootUv_of_free hx hu)
  case bootUvHeld => exact next_run_whenWorking_of_idle (bootUv_of_held hx hu hr)
  case recover => exact next_run_of_working hw (bootRecover_of_driver hx)
  case refresh => exact next_run_of_working hw ((bootRefresh_of_none hr).trans (if_pos hl))
  case pulse => exact next_run_of_working hw (bootRefresh_of_before hr)
  case after => exact next_run_of_working hw (bootRefresh_of_pulse hr)
  case ends => exact next_run_of_working hw (bootRefresh_of_after hr)
  case noRefresh => exact next_run_whenWorking_of_idle ((bootRefresh_of_none hr).trans (if_neg (ne_true_of_eq_false hl)))
  case shortHigh | shortLow => exact next_run_of_working hw (lanternShort_of_on hl)
  case noShort => exact next_run_whenWorking_of_idle (lanternShort_of_off hl)

end Sys2Proof.Machine
end

section
/-! Proofs of the family `13_safety_functions.md`: the commands of the safety subsystem and of the outputs, and the steps of the subsystem's own clock (R373, R376, R381, R386–R413). -/
namespace Sys2Proof.Machine

/-! ### The effects of the safety commands, branch by branch (R407, R410–R413) -/

section SafetyCommands
variable {c : Cmd} {m : Mach}

theorem effSafetyConfig_of_no_resets (hp : ((parseSafety c).tels.any fun t => (t.tx || t.rx) && portOff m t.ports) = false) (hr : m.safety.resets = []) :
    effSafetyConfig c m =
      ((List.range 4).foldl (fun m o => outOff false o m) { m with safety := { m.safety with
        cfg := some (parseSafety c)
        ins := (m.safety.ins.zipIdx).map fun x => { x.1 with
          untested := ((parseSafety c).ins.getD x.2 inCfgOff).en && (((parseSafety c).ins.getD x.2 inCfgOff).startTest || x.1.untested)
          disc := none, openFor := 0, closing := none, due := ((parseSafety c).ins.getD x.2 inCfgOff).periodic && x.1.due }
        tels := List.replicate 4 safeTelInit, resets := [], selfTest := m.safety.selfTest ++ [⟨c.ring, c.seq, some (parseSafety c).crc⟩]
        runFound := m.safety.runFound && !m.safety.selfTest.isEmpty } }, .hold) := by
  have hnone : m.safety.resets.foldl resetCycle m = m := by rw [hr, List.foldl_nil]
  simp only [effSafetyConfig, hp, hnone, Bool.false_eq_true, if_false]

theorem effSafetyStartTest_of_nothing (hm : c.f 0 1 = 0) (hr : bitOf (c.f 1 1) 0 = false) : effSafetyStartTest c m = okEmpty m :=
  if_pos ⟨hm, by simp [hr]⟩

/-- The inputs of a mask are marked for a start test (R398). -/
def markedInputs (c : Cmd) (m : Mach) : List SafeIn :=
  (m.safety.ins.zipIdx).map fun x => if bitOf (c.f 0 1) x.2 && (m.inCfg x.2).en then { x.1 with untested := true, openFor := 0, closing := none } else x.1

theorem effSafetyStartTest_of_mask (hm : c.f 0 1 ≠ 0) (hr : bitOf (c.f 1 1) 0 = false) :
    effSafetyStartTest c m = okDone { m with safety := { m.safety with ins := markedInputs c m } } :=
  (if_neg fun h => hm h.1).trans (if_neg (ne_true_of_eq_false hr))

theorem effSafetyStartTest_of_run (hr : bitOf (c.f 1 1) 0 = true) :
    effSafetyStartTest c m =
      ({ m with safety := { m.safety with
        ins := markedInputs c m, selfTest := m.safety.selfTest ++ [⟨c.ring, c.seq, none⟩], runFound := m.safety.runFound && !m.safety.selfTest.isEmpty } }, .hold) :=
  (if_neg (by simp [hr])).trans (if_pos hr)

/-- The device by which a SAFETY_RESET is judged: with CLEAR_FAULT, as if the latches that may be cleared were (R407). -/
def judged (c : Cmd) (m : Mach) : Mach := if bitOf (c.f 1 1) 0 then clearLatches m else m

theorem judged_of_clear (hc : bitOf (c.f 1 1) 0 = true) : judged c m = clearLatches m := if_pos hc

theorem judged_of_keep (hc : bitOf (c.f 1 1) 0 = false) : judged c m = m := if_neg (ne_true_of_eq_false hc)

theorem effSafetyReset_of_failing (hf : resetFails (c.f 0 1) (judged c m) ≠ 0) : effSafetyReset c m = rejectR stSTATE (resetFails (c.f 0 1) (judged c m)) m := by
  unfold effSafetyReset
  exact if_pos hf

/-- A SAFETY_RESET that passes waits for the next safety cycle where there is something for it to do (R407). -/
theorem effSafetyReset_of_passing (hf : resetFails (c.f 0 1) (judged c m) = 0)
    (hdo : (∃ o < 4, bitOf (c.f 0 1) o = true ∧ (m.safeOut o).on = false) ∨ faultWord (judged c m) ≠ faultWord m) :
    effSafetyReset c m =
      ({ m with safety := { m.safety with resets := m.safety.resets ++ [⟨c.ring, c.seq, c.f 0 1, bitOf (c.f 1 1) 0⟩] } }, .hold) := by
  unfold effSafetyReset
  refine (if_neg (not_not.2 hf)).trans (if_neg fun hidle => ?_)
  obtain ⟨hall, hsame⟩ := (Bool.and_eq_true _ _).mp hidle
  obtain ⟨o, ho, hbit, hoff⟩ | hne := hdo
  · have hon := List.all_eq_true.1 hall o (List.mem_range.2 ho)
    simp [hbit, hoff] at hon
  · exact hne (beq_iff_eq.1 hsame)

end SafetyCommands

/-! ### The effects of TRIP_CLEAR and OUTPUT_OVERRIDE, branch by branch (R381, R387) -/

section OutputCommands
variable {c : Cmd} {m : Mach}

theorem effTripClear_of_active (ha : c.f 0 1 &&& m.pwm.active ≠ 0) : effTripClear c m = reject stSTATE m := by
  have hmask : c.f 0 1 ≠ 0 := fun h => ha (by rw [h, Nat.zero_and])
  exact (if_neg hmask).trans (if_pos ha)

theorem effTripClear_of_none_latched (ha : c.f 0 1 &&& m.pwm.active = 0) (hl : c.f 0 1 &&& m.pwm.latched = 0) : effTripClear c m = okEmpty m := by
  by_cases hmask : c.f 0 1 = 0
  · exact if_pos hmask
  · exact (if_neg hmask).trans ((if_neg (not_not.2 ha)).trans (if_pos hl))

theorem effTripClear_of_latched (ha : c.f 0 1 &&& m.pwm.active = 0) (hl : c.f 0 1 &&& m.pwm.latched ≠ 0) :
    effTripClear c m =
      let m1 : Mach := { m with pwm := { m.pwm with latched := without m.pwm.latched (c.f 0 1) } }
      okDone (((List.range 12).foldl
        (fun a n => if tripped m n && !tripped m1 n then follow n (16 * intakeAt m) (a.setPwm n { a.pwmCh n with resuming := true }) else a) m1).post 0x0C02 []) := by
  have hmask : c.f 0 1 ≠ 0 := fun h => hl (by rw [h, Nat.zero_and])
  exact (if_neg hmask).trans ((if_neg (not_not.2 ha)).trans (if_neg hl))

/-- The channel of an OUTPUT_OVERRIDE takes one: it is enabled, no trip holds it, and the unit may drive (R387). -/
structure TakesOverride (m : Mach) (n : Nat) : Prop where
  enabled : pwmEnabled m n = true
  free : tripped m n = false
  drives : mayDrive m = true

theorem effOutputOverride_of_refused (h : pwmEnabled m (c.f 0 1) = false ∨ tripped m (c.f 0 1) = true) : effOutputOverride c m = reject stSTATE m := by
  refine if_pos ?_
  obtain h | h := h <;> simp [h]

theorem effOutputOverride_of_taken (h : TakesOverride m (c.f 0 1)) :
    effOutputOverride c m =
      let n := c.f 0 1
      let x := m.pwmCh n
      let t := 16 * intakeAt m
      if c.f 1 1 = 0 then (if !x.overridden then okEmpty m else okDone (m.setPwm n { x with pend := some (t / 32, none) }))
      else
        let h := bitOf (c.f 2 1) 0
        let l := bitOf (c.f 2 1) 1
        let m1 := if reloadIn m n t then m.setPwm n { x with pend := some (t / 32, some (h, l)) } else follow n t (m.setPwm n { x with forced := some (h, l), pend := none })
        if h && l then (((m1.raise F.pwmStatusShootBlock).post 0x0C03 [n]), .done ⟨stDONE, 1, 0, 0, []⟩) else okDone m1 :=
  if_neg (by simp [h.enabled, h.free, h.drives])

theorem effOutputOverride_release (h : TakesOverride m (c.f 0 1)) (hop : c.f 1 1 = 0) :
    effOutputOverride c m =
      if !(m.pwmCh (c.f 0 1)).overridden then okEmpty m
      else okDone (m.setPwm (c.f 0 1) { m.pwmCh (c.f 0 1) with pend := some (16 * intakeAt m / 32, none) }) :=
  (effOutputOverride_of_taken h).trans (if_pos hop)

theorem effOutputOverride_of_one_side (h : TakesOverride m (c.f 0 1)) (hop : c.f 1 1 = 1) (hr : reloadIn m (c.f 0 1) (16 * intakeAt m) = false)
    (hsides : (bitOf (c.f 2 1) 0 && bitOf (c.f 2 1) 1) = false) :
    effOutputOverride c m =
      okDone (follow (c.f 0 1) (16 * intakeAt m)
        (m.setPwm (c.f 0 1) { m.pwmCh (c.f 0 1) with forced := some (bitOf (c.f 2 1) 0, bitOf (c.f 2 1) 1), pend := none })) := by
  rw [effOutputOverride_of_taken h]
  simp only [hop, hr, hsides, Nat.one_ne_zero, Bool.false_eq_true, if_false]

theorem effOutputOverride_of_reload (h : TakesOverride m (c.f 0 1)) (hop : c.f 1 1 = 1) (hr : reloadIn m (c.f 0 1) (16 * intakeAt m) = true)
    (hsides : (bitOf (c.f 2 1) 0 && bitOf (c.f 2 1) 1) = false) :
    effOutputOverride c m =
      okDone (m.setPwm (c.f 0 1) { m.pwmCh (c.f 0 1) with pend := some (16 * intakeAt m / 32, some (bitOf (c.f 2 1) 0, bitOf (c.f 2 1) 1)) }) := by
  rw [effOutputOverride_of_taken h]
  simp only [hop, hr, hsides, Nat.one_ne_zero, Bool.false_eq_true, if_false, if_true]

/-- An override that asks for both sides turns neither on, with SHOOT_BLOCK and its event (R376). -/
theorem effOutputOverride_of_both_sides (h : TakesOverride m (c.f 0 1)) (hop : c.f 1 1 = 1) (hr : reloadIn m (c.f 0 1) (16 * intakeAt m) = false)
    (hsides : (bitOf (c.f 2 1) 0 && bitOf (c.f 2 1) 1) = true) :
    effOutputOverride c m =
      (((follow (c.f 0 1) (16 * intakeAt m) (m.setPwm (c.f 0 1) { m.pwmCh (c.f 0 1) with forced := some (true, true), pend := none })).raise
        F.pwmStatusShootBlock).post 0x0C03 [c.f 0 1], .done ⟨stDONE, 1, 0, 0, []⟩) := by
  obtain ⟨hh, hl⟩ := (Bool.and_eq_true _ _).mp hsides
  rw [effOutputOverride_of_taken h]
  simp only [hop, hr, hh, hl, Nat.one_ne_zero, Bool.false_eq_true, Bool.and_self, if_false, if_true]

end OutputCommands

/-- Settles O34: acceptance leaves the safety state and the channels, so each row owes only the branch of its effect; what waits for a self-test or for a safety cycle stays in effect. -/
theorem safetyAndOutputCommandsTakeEffect : Obligations.SafetyAndOutputCommandsTakeEffect := by
  unfold Obligations.SafetyAndOutputCommandsTakeEffect
  refine ⟨fun d s h hp hr => ?config, fun d s h hm hr => ?startNothing, fun d s h hm hr => ?startMask, fun d s h hr => ?startRun,
    fun d s h hc hf hdo => ?reset, fun d s h n hc hf hn => ?resetFails, fun d s h hc hf hdo => ?clear, fun d s h n hc hf hn => ?clearFails,
    fun d s h => ?report, fun d s h ha => ?tripActive, fun d s h ha hl => ?tripNone, fun d s h ha hl => ?tripClear,
    fun d s h hen => ?disabled, fun d s h ht => ?tripped, fun d s h hen ht hdr hop ho => ?release, fun d s h hen ht hdr hop ho => ?releaseNone,
    fun d s h hen ht hdr hop hr hsides => ?oneSide, fun d s h hen ht hdr hop hr hsides => ?reload, fun d s h hen ht hdr hop hr hsides => ?bothSides⟩
  case config => exact congrArg Host.Outcome.next (run_hostCommand_of_hold h (effSafetyConfig_of_no_resets hp (by simpa using hr)))
  case startRun => exact congrArg Host.Outcome.next (run_hostCommand_of_hold h (effSafetyStartTest_of_run hr))
  case reset =>
    have he := effSafetyReset_of_passing (c := s.held infoSafetyReset d) (m := s.accepts infoSafetyReset d) (by rwa [judged_of_keep hc]) (.inl (by simpa using hdo))
    rw [hc] at he
    exact congrArg Host.Outcome.next (run_hostCommand_of_hold h he)
  case clear =>
    have he := effSafetyReset_of_passing (c := s.held infoSafetyReset d) (m := s.accepts infoSafetyReset d) (by rwa [judged_of_clear hc])
      (.inr (by rwa [judged_of_clear hc]))
    rw [hc] at he
    exact congrArg Host.Outcome.next (run_hostCommand_of_hold h he)
  all_goals refine congrArg Host.Outcome.next (run_hostCommand_of_done h ?_)
  case startNothing => exact effSafetyStartTest_of_nothing hm hr
  case startMask => exact effSafetyStartTest_of_mask hm hr
  case resetFails =>
    subst hf
    rw [← judged_of_keep (m := s.accepts infoSafetyReset d) hc] at hn
    exact (effSafetyReset_of_failing hn).trans (by rw [judged_of_keep hc]; rfl)
  case clearFails =>
    subst hf
    rw [← judged_of_clear (m := s.accepts infoSafetyReset d) hc] at hn
    exact (effSafetyReset_of_failing hn).trans (by rw [judged_of_clear hc]; rfl)
  case report => exact congrArg okDone (writeBuf_taken h _)
  case tripActive => exact effTripClear_of_active (by simpa using ha)
  case tripNone => exact effTripClear_of_none_latched (by simpa using ha) (by simpa using hl)
  case tripClear => exact effTripClear_of_latched (by simpa using ha) (by simpa using hl)
  case disabled => exact effOutputOverride_of_refused (.inl hen)
  case tripped => exact effOutputOverride_of_refused (.inr ht)
  case release => exact (effOutputOverride_release ⟨hen, ht, hdr⟩ hop).trans (if_neg (by simp [ho]))
  case releaseNone => exact (effOutputOverride_release ⟨hen, ht, hdr⟩ hop).trans (if_pos (by simp [ho]))
  case oneSide => exact effOutputOverride_of_one_side ⟨hen, ht, hdr⟩ hop (by rwa [State.accepts_intakeAt]) hsides
  case reload => exact effOutputOverride_of_reload ⟨hen, ht, hdr⟩ hop (by rwa [State.accepts_intakeAt]) hsides
  case bothSides => exact effOutputOverride_of_both_sides ⟨hen, ht, hdr⟩ hop (by rwa [State.accepts_intakeAt]) hsides

end Sys2Proof.Machine
end

section
/-! Proofs of the family `13_safety_functions.md`: the steps of the subsystem's own clock: inputs, safe outputs, the safety cycle, telegrams and self-tests (R391–R407, R412). -/
namespace Sys2Proof.Machine

section Clock
variable {s : State} {m : Mach} {f : Mach → Mach}

/-- The safety subsystem runs whenever the device has its supply and is out of reset (R390). -/
theorem next_run_of_alive (ha : s.start.alive = true) (h : f s.start = m) :
    (Host.Outcome.next (s.run fun m => if m.alive then f m else m) : Host.Outcome State Fault Refusal) = .next (s.to m) :=
  next_run_of_eq ((if_pos ha).trans h)

end Clock

/-! ### Inputs and safe outputs (R394–R402) -/

section InputsAndOutputs
variable {m : Mach} {i o n stp sia sib chan : Nat} {g : SafeCfg} {grace : Bool}

theorem testPulse_of_configured (hg : m.safety.cfg = some g) (hs : stp ≤ 3) :
    testPulse stp sia sib m = evalOuts ((List.range 8).foldl (pulseIn stp sia sib) (m.send (.testPulse stp))) :=
  if_neg (by simp [hg, Nat.not_lt.2 hs])

theorem testPulse_of_idle (h : m.safety.cfg = none ∨ 3 < stp) : testPulse stp sia sib m = m := by
  refine if_pos ?_
  obtain h | h := h <;> simp [h]

theorem discrepancy_of_due (hen : (m.inCfg i).en = true) (hd : (m.safeIn i).disc = some n) (hn : 20 * (m.inCfg i).discT ≤ n)
    (hl : (m.safeIn i).discLatch = false) :
    discrepancy i m =
      evalOuts (dropFor i true ((m.setIn i { m.safeIn i with discLatch := true, openSeen := false, closedSeen := false }).post 0x0902 [i, (m.safeIn i).discChan])) :=
  if_neg (by simp [hen, hd, hl, discDue, hn])

theorem discrepancy_of_idle (h : (m.inCfg i).en = false ∨ (m.safeIn i).disc = none ∨ (m.safeIn i).discLatch = true) : discrepancy i m = m := by
  refine if_pos ?_
  obtain h | h | h := h <;> simp [h]

theorem discrepancy_of_early (hd : (m.safeIn i).disc = some n) (hn : n < 20 * (m.inCfg i).discT) : discrepancy i m = m :=
  if_pos (by simp [hd, discDue, hn])

theorem outFault_of_output (ho : o ≤ 3) :
    outFault o chan m =
      (outOff true o (m.setOut o { m.safeOut o with outLatch := true, clearable := false, midRun := !m.safety.selfTest.isEmpty })).post 0x0904 [o, chan] :=
  if_neg (Nat.not_lt.2 ho)

theorem outFault_of_none (ho : 3 < o) : outFault o chan m = m := if_pos ho

theorem soTest_of_configured (hg : m.safety.cfg = some g) : soTest m = g.soTest := by simp only [soTest, hg]

theorem darkTest_of_off {ok : Bool} (hoff : (m.safeOut o).on = false) : darkTest o chan ok m = m := if_pos (by simp [hoff])

theorem darkTest_of_on {ok : Bool} (hg : m.safety.cfg = some g) (hon : (m.safeOut o).on = true) :
    darkTest o chan ok m = if ok then m.send (.darkTest o chan g.soTest) else outFault o chan (m.send (.darkTest o chan g.soTest)) := by
  rw [← soTest_of_configured hg]
  exact if_neg (by simp [hon])

/-- The hours that have to pass on a periodic input (R399). -/
def hoursLimit (g : SafeCfg) (grace : Bool) : Nat := g.testInt + if grace then g.grace else 0

theorem hoursUp_of_configured (hg : m.safety.cfg = some g) :
    hoursUp i grace m = ((m.inCfg i).en && (m.inCfg i).periodic && decide (hoursLimit g grace ≤ (m.safeIn i).hours)) := by
  unfold hoursUp
  rw [hg]
  rfl

theorem hoursUp_of_due (hg : m.safety.cfg = some g) (hen : (m.inCfg i).en = true) (hp : (m.inCfg i).periodic = true)
    (hh : hoursLimit g grace ≤ (m.safeIn i).hours) : hoursUp i grace m = true := by
  simp [hoursUp_of_configured hg, hen, hp, hh]

theorem hoursUp_of_short (hg : m.safety.cfg = some g) (hh : (m.safeIn i).hours < hoursLimit g grace) : hoursUp i grace m = false := by
  simp [hoursUp_of_configured hg, Nat.not_le.2 hh]

theorem hoursUp_of_unasked (h : (m.inCfg i).en = false ∨ (m.inCfg i).periodic = false) : hoursUp i grace m = false := by
  unfold hoursUp
  split
  · obtain h | h := h <;> simp [h]
  · rfl

theorem testDue_of_due (hh : hoursUp i false m = true) (hd : (m.safeIn i).due = false) :
    testDue i m = ((m.setIn i { m.safeIn i with due := true }).raise F.safeStatusTestDue).post 0x0909 [i] :=
  if_pos (by simp [hh, hd])

theorem testDue_of_idle (h : hoursUp i false m = false ∨ (m.safeIn i).due = true) : testDue i m = m := by
  refine if_neg ?_
  obtain h | h := h <;> simp [h]

theorem testOverdue_of_due (hh : hoursUp i true m = true) (hd : (m.safeIn i).due = true) :
    testOverdue i m = (dropFor i false (m.setIn i { m.safeIn i with untested := true })).post 0x090A [i] :=
  if_pos (by simp [hh, hd])

theorem testOverdue_of_idle (h : hoursUp i true m = false ∨ (m.safeIn i).due = false) : testOverdue i m = m := by
  refine if_neg ?_
  obtain h | h := h <;> simp [h]

end InputsAndOutputs

/-- Settles O54: each step is the branch of its meaning that the configuration, the latches and the hours choose. -/
theorem safetyInputAndOutputStepsComplete : Obligations.SafetyInputAndOutputStepsComplete := by
  unfold Obligations.SafetyInputAndOutputStepsComplete
  refine ⟨fun stp sia sib g s ha hg hs => ?pulse, fun stp sia sib s ha h => ?noPulse, fun i n s ha hen hd hn hl => ?disc, fun i s ha h => ?noDisc,
    fun i n s ha hd hn => ?earlyDisc, fun o b ok s ha hoff => ?darkOff, fun o b g s ha hg hon => ?darkGood, fun o b g s ha hg ho hon => ?darkBad,
    fun o b s ha ho => ?readback, fun o b s ha ho => ?noReadback, fun i g s ha hg hen hp hh hd => ?due, fun i s ha h => ?noDue,
    fun i g s ha hg hh => ?dueShort, fun i g s ha hg hen hp hh hd => ?overdue, fun i s ha h => ?noOverdue, fun i g s ha hg hh => ?overdueShort⟩
  all_goals refine next_run_of_alive ha ?_
  case pulse => exact testPulse_of_configured hg hs
  case noPulse => exact testPulse_of_idle h
  case disc => exact discrepancy_of_due hen hd hn hl
  case noDisc => exact discrepancy_of_idle h
  case earlyDisc => exact discrepancy_of_early hd hn
  case darkOff => exact darkTest_of_off hoff
  case darkGood => exact darkTest_of_on hg hon
  case darkBad => exact (darkTest_of_on hg hon).trans (outFault_of_output ho)
  case readback => exact outFault_of_output ho
  case noReadback => exact outFault_of_none ho
  case due => exact testDue_of_due (hoursUp_of_due hg hen hp hh) hd
  case noDue => exact testDue_of_idle ((or_assoc.2 h).imp_left hoursUp_of_unasked)
  case dueShort => exact testDue_of_idle (.inl (hoursUp_of_short hg hh))
  case overdue => exact testOverdue_of_due (hoursUp_of_due hg hen hp hh) hd
  case noOverdue => exact testOverdue_of_idle ((or_assoc.2 h).imp_left hoursUp_of_unasked)
  case overdueShort => exact testOverdue_of_idle (.inl (hoursUp_of_short hg hh))

/-! ### The safety cycle (R391) -/

section Cycle
variable {m : Mach} {r : SafetyRead}

/-- The levels that a cycle reads, and the STP outputs it drives (R391, R395). -/
def cycleRead (r : SafetyRead) (m : Mach) : Mach :=
  let m0 := telChanges m
  { m0 with safety := { m0.safety with
      sia := r.sia % 256, sib := r.sib % 256, soaRb := r.soaRb % 16, sobRb := r.sobRb % 16
      stp := match m.safety.cfg with | some _ => 15 - (match r.window with | some w => 2 ^ w | none => 0) | none => 0 } }

/-- The inputs, the resets that wait and the outputs, acted on after the levels have been read (R391). -/
def cycleActs (r : SafetyRead) (m1 : Mach) : Mach :=
  let m2 := (List.range 8).foldl (inCycle r) m1
  let m3 := m2.safety.resets.foldl resetCycle m2
  evalOuts { m3 with safety := { m3.safety with resets := [] } }

theorem safetyCycle_eq : safetyCycle r m = compareCycle r.agree (cycleActs r (cycleRead r m)) := by
  unfold safetyCycle cycleActs cycleRead
  rfl

theorem compareCycle_of_agree : compareCycle true m = { m with safety := { m.safety with differ := 0 } } := by
  unfold compareCycle
  exact if_neg (by simp)

/-- A second difference in a row de-energises every output. -/
theorem compareCycle_of_differ :
    compareCycle false m =
      let m1 : Mach := { m with safety := { m.safety with differ := m.safety.differ + 1 } }
      if 1 ≤ m.safety.differ ∧ m.safety.internal = false then
        ((List.range 4).foldl (fun q o => outOff true o q) { m1 with safety := { m1.safety with internal := true } }).post 0x0905 []
      else m1 := by
  have hsecond : (2 ≤ m.safety.differ + 1 ∧ (!m.safety.internal) = true) ↔ (1 ≤ m.safety.differ ∧ m.safety.internal = false) := by simp
  exact if_congr hsecond rfl rfl

end Cycle

/-! ### Telegrams (R403–R406) -/

section Telegrams
variable {m : Mach} {p x a n seq data : Nat} {b body : List Byte} {g : SafeCfg}

/-- A frame that its port takes, of a channel that receives (R404). -/
structure TelTaken (m : Mach) (p x : Nat) (b : List Byte) (n : Nat) (g : SafeCfg) : Prop where
  number : n = fieldLE b 2 1
  configured : m.safety.cfg = some g
  port : portTakes m p x = true
  kept : siphonLost m 12 = false
  channel : n ≤ 3
  receives : (m.telCfg n).rx = true

/-- The checks of a telegram (R404). -/
def telSound (m : Mach) (b : List Byte) (n : Nat) (g : SafeCfg) : Bool :=
  b.length == 64 && fieldLE b 0x3C 4 == scrc b && sliceBytes b 0x2C 16 == (sliceBytes b 0x1C 16).map (fun x => ~~~x) && fieldLE b 0 2 == 1
    && fieldLE b 4 4 == (m.telCfg n).peer && fieldLE b 8 4 == g.ownId && telResvOk (fieldLE b 0x1C 16) && newer (m.tel n) (fieldLE b 0x0C 4)

/-- A telegram is older than MAX_AGE, where both ends know the time (R404). -/
def telLate (m : Mach) (b : List Byte) (n a : Nat) : Bool :=
  m.tb.timeValid && !bitOf (fieldLE b 0x1C 16) 18 && decide (fieldLE b 0x10 8 * 1000000000 + fieldLE b 0x18 4 + (m.telCfg n).maxAge * 1000000 < a)

theorem telRx_of_taken (h : TelTaken m p x b n g) :
    telRx p x b a m =
      if !telSound m b n g then m.bump (F.safeTelDisc n) 1
      else if telLate m b n a then m.bump (F.safeTelLate n) 1
      else evalOuts (telCopy n p (fieldLE b 0x0C 4) (fieldLE b 0x1C 16) ((b.take 60).set 3 0#8) m) := by
  obtain ⟨rfl, hg, hport, hkept, hn, hrx⟩ := h
  have htaken : ¬(!portTakes m p x || siphonLost m 12 || decide (3 < fieldLE b 2 1) || !(m.telCfg (fieldLE b 2 1)).rx) = true := by
    simp [hport, hkept, hrx, Nat.not_lt.2 hn]
  unfold telRx
  simp only [hg]
  exact if_neg htaken

theorem telRx_of_not_taken
    (h : m.safety.cfg = none ∨ portTakes m p x = false ∨ siphonLost m 12 = true ∨ 3 < fieldLE b 2 1 ∨ (m.telCfg (fieldLE b 2 1)).rx = false) :
    telRx p x b a m = m := by
  unfold telRx
  dsimp only
  split
  next => rfl
  next g hg =>
    refine if_pos ?_
    obtain h | h | h | h | h := h
    · simp [hg] at h
    all_goals simp [h]

/-- A telegram that a check of R404 refuses. -/
theorem telSound_of_failed
    (h : b.length ≠ 64 ∨ fieldLE b 0x3C 4 ≠ scrc b ∨ sliceBytes b 0x2C 16 ≠ (sliceBytes b 0x1C 16).map (fun y => ~~~y) ∨ fieldLE b 0 2 ≠ 1
      ∨ fieldLE b 4 4 ≠ (m.telCfg n).peer ∨ fieldLE b 8 4 ≠ g.ownId ∨ telResvOk (fieldLE b 0x1C 16) = false ∨ newer (m.tel n) (fieldLE b 0x0C 4) = false) :
    telSound m b n g = false := by
  unfold telSound
  simp only [Bool.and_eq_false_iff, beq_eq_false_iff_ne, or_assoc]
  exact h

theorem telSound_of_passed (hlen : b.length = 64) (hcrc : fieldLE b 0x3C 4 = scrc b)
    (hinv : sliceBytes b 0x2C 16 = (sliceBytes b 0x1C 16).map (fun y => ~~~y)) (hver : fieldLE b 0 2 = 1) (hpeer : fieldLE b 4 4 = (m.telCfg n).peer)
    (hown : fieldLE b 8 4 = g.ownId) (hresv : telResvOk (fieldLE b 0x1C 16) = true) (hnew : newer (m.tel n) (fieldLE b 0x0C 4) = true) :
    telSound m b n g = true := by
  unfold telSound
  simp only [Bool.and_eq_true, beq_iff_eq]
  exact ⟨⟨⟨⟨⟨⟨⟨hlen, hcrc⟩, hinv⟩, hver⟩, hpeer⟩, hown⟩, hresv⟩, hnew⟩

theorem telLate_of_old (htv : m.tb.timeValid = true) (hbit : bitOf (fieldLE b 0x1C 16) 18 = false)
    (hage : fieldLE b 0x10 8 * 1000000000 + fieldLE b 0x18 4 + (m.telCfg n).maxAge * 1000000 < a) : telLate m b n a = true := by
  simp [telLate, htv, hbit, hage]

theorem telLate_of_fresh
    (h : m.tb.timeValid = false ∨ bitOf (fieldLE b 0x1C 16) 18 = true ∨ a ≤ fieldLE b 0x10 8 * 1000000000 + fieldLE b 0x18 4 + (m.telCfg n).maxAge * 1000000) :
    telLate m b n a = false := by
  obtain h | h | h := h
  · simp [telLate, h]
  · simp [telLate, h]
  · simp [telLate, Nat.not_lt.2 h]

theorem telRx_of_unsound (h : TelTaken m p x b n g) (hs : telSound m b n g = false) : telRx p x b a m = m.bump (F.safeTelDisc n) 1 :=
  (telRx_of_taken h).trans (if_pos (by simp [hs]))

theorem telRx_of_late (h : TelTaken m p x b n g) (hs : telSound m b n g = true) (hl : telLate m b n a = true) : telRx p x b a m = m.bump (F.safeTelLate n) 1 :=
  (telRx_of_taken h).trans ((if_neg (by simp [hs])).trans (if_pos hl))

theorem telRx_of_good (h : TelTaken m p x b n g) (hs : telSound m b n g = true) (hl : telLate m b n a = false) :
    telRx p x b a m = evalOuts (telCopy n p (fieldLE b 0x0C 4) (fieldLE b 0x1C 16) ((b.take 60).set 3 0#8) m) :=
  (telRx_of_taken h).trans ((if_neg (by simp [hs])).trans (if_neg (ne_true_of_eq_false hl)))

/-- A channel on one port, with no copy that waits, accepts a telegram at once (R405). -/
theorem telCopy_of_one_port (hp : (m.telCfg n).ports ≠ 3) (hc : (m.tel n).copies = []) : telCopy n p seq data body m = telAccept n seq data m := by
  simp only [telCopy, hc, List.find?_nil]
  exact if_pos hp

theorem telSend_of_sender (hg : m.safety.cfg = some g) (htx : (m.telCfg n).tx = true) :
    telSend n m =
      let seq := ((m.tel n).txSeq + 1) % 2 ^ 32
      let m1 := m.setTel n { m.tel n with txSeq := seq, sent := telBits m }
      queueFrame (m.telCfg n).ports false (fun _ _ => ⟨.safety, m.now, m.net.txOrder, none, false, 0, 0, .tel ⟨n, g.ownId, (m.telCfg n).peer, seq, telBits m, g.crc, none⟩⟩)
        (if (m.telCfg n).rx then m1 else m1.setF (F.safeTelLastSeq n) seq) := by
  unfold telSend
  simp only [hg]
  exact if_neg (by simp [htx])

theorem telSend_of_none (h : m.safety.cfg = none ∨ (m.telCfg n).tx = false) : telSend n m = m := by
  unfold telSend
  dsimp only
  split
  next => rfl
  next g hg => exact if_pos (by simpa [hg] using h)

theorem telWatchdog_of_valid (hv : (m.tel n).valid = true) :
    telWatchdog n m = evalOuts (((m.setTel n { m.tel n with valid := false, data := 0 }).bump F.safeCountTelLost 1).post 0x0906 []) := if_pos hv

theorem telWatchdog_of_invalid (hv : (m.tel n).valid = false) : telWatchdog n m = m := if_neg (ne_true_of_eq_false hv)

theorem telCmpWin_of_waiting {f : TelCopy} {l : List TelCopy} (hc : (m.tel n).copies = f :: l) :
    telCmpWin n m =
      if otherDown m n f.port && !(m.tel n).disagree then evalOuts (telSingle n f.seq f.data (m.setTel n { m.tel n with copies := l }))
      else m.setTel n { m.tel n with copies := l } := by
  simp only [telCmpWin, hc]

theorem telCmpWin_of_kept {f : TelCopy} {l : List TelCopy} (hc : (m.tel n).copies = f :: l) (h : otherDown m n f.port = false ∨ (m.tel n).disagree = true) :
    telCmpWin n m = m.setTel n { m.tel n with copies := l } := by
  refine (telCmpWin_of_waiting hc).trans (if_neg ?_)
  obtain h | h := h <;> simp [h]

theorem telCmpWin_of_single {f : TelCopy} {l : List TelCopy} (hc : (m.tel n).copies = f :: l) (ho : otherDown m n f.port = true)
    (hd : (m.tel n).disagree = false) : telCmpWin n m = evalOuts (telSingle n f.seq f.data (m.setTel n { m.tel n with copies := l })) :=
  (telCmpWin_of_waiting hc).trans (if_pos (by simp [ho, hd]))

theorem telCmpWin_of_none (hc : (m.tel n).copies = []) : telCmpWin n m = m := by simp only [telCmpWin, hc]

end Telegrams

/-! ### Self-tests (R407, R412) -/

section SelfTests
variable {m : Mach} {f : Nat} {t : SelfTest}

theorem selfTestDone_of_none (h : m.safety.selfTest = []) : selfTestDone f m = m := if_pos (by simp [h])

/-- The outputs once a run has found its failures (R407, R412). -/
def testedOuts (f : Nat) (outs : List SafeOut) : List SafeOut :=
  (outs.zipIdx).map fun x =>
    if (!bitOf f x.2 && !bitOf f (4 + x.2)) && x.1.outLatch then { x.1 with clearable := x.1.clearable || !x.1.midRun, midRun := false } else { x.1 with midRun := false }

/-- The failures of a run latch (R401, R412). -/
def latchFailed (f : Nat) (m : Mach) : Mach := (List.range 8).foldl (fun q j => if bitOf f j then outFault (j % 4) (j / 4) q else q) m

/-- A run that passed says so. -/
theorem selfTestDone_of_one (h : m.safety.selfTest = [t]) :
    selfTestDone f m =
      let good := f % 256 == 0 && !m.safety.runFound
      let m1 := latchFailed f m
      let m2 := { m1 with safety := { m1.safety with outs := testedOuts f m1.safety.outs, selfTest := [], selfTestOk := good, runFound := false } }
      completeLater t.ring t.seq (finR (match t.crc with | some c => c | none => f % 256)) (if good then m2.post 0x090C [] else m2) := by
  have hsome : ¬m.safety.selfTest.isEmpty = true := by simp [h]
  refine (if_neg hsome).trans ?_
  simp only [h, List.foldl_cons, List.foldl_nil]
  rfl

/-- An output without a latch, which a run does not mark, is as before. -/
theorem testedOuts_of_unlatched {outs : List SafeOut} (h : ∀ x ∈ outs, x.outLatch = false ∧ x.midRun = false) : testedOuts f outs = outs := by
  have hkeeps : ∀ x ∈ outs.zipIdx, (if (!bitOf f x.2 && !bitOf f (4 + x.2)) && x.1.outLatch then { x.1 with clearable := x.1.clearable || !x.1.midRun, midRun := false }
      else { x.1 with midRun := false }) = x.1 := by
    intro x hx
    obtain ⟨hlatch, hmid⟩ := h x.1 (List.fst_mem_of_mem_zipIdx hx)
    rw [if_neg (by simp [hlatch]), ← hmid]
  exact (List.map_congr_left hkeeps).trans (List.zipIdx_map_fst 0 outs)

theorem latchFailed_zero : latchFailed 0 m = m := foldl_keeps id (fun _ _ => if_neg (by simp)) _ m

theorem selfTestDone_of_good (h : m.safety.selfTest = [t]) (hfound : m.safety.runFound = false) (houts : ∀ x ∈ m.safety.outs, x.outLatch = false ∧ x.midRun = false) :
    selfTestDone 0 m =
      completeLater t.ring t.seq (finR (match t.crc with | some c => c | none => 0))
        (({ m with safety := { m.safety with selfTest := [], selfTestOk := true } } : Mach).post 0x090C []) := by
  rw [selfTestDone_of_one h, latchFailed_zero]
  simp only [testedOuts_of_unlatched houts, hfound, Nat.zero_mod, beq_self_eq_true, Bool.not_false, Bool.and_self, if_true]

theorem selfTestDone_of_failed (hf : f % 256 ≠ 0 ∨ m.safety.runFound = true) (h : m.safety.selfTest = [t]) :
    selfTestDone f m =
      completeLater t.ring t.seq (finR (match t.crc with | some c => c | none => f % 256))
        { latchFailed f m with safety := { (latchFailed f m).safety with
          outs := testedOuts f (latchFailed f m).safety.outs, selfTest := [], selfTestOk := false, runFound := false } } := by
  have hbad : (f % 256 == 0 && !m.safety.runFound) = false := by
    obtain hf | hf := hf <;> simp [hf]
  rw [selfTestDone_of_one h]
  simp only [hbad, Bool.false_eq_true, if_false]

end SelfTests

/-- Settles O55: a cycle is compared after it has acted; a telegram is judged by its frame, its checks and its age; the other rows are the branches of their meanings. -/
theorem safetyCycleAndTelegramStepsComplete : Obligations.SafetyCycleAndTelegramStepsComplete := by
  unfold Obligations.SafetyCycleAndTelegramStepsComplete
  refine ⟨fun r s ha hr => ?agree, fun r s ha hr => ?differ, fun p x a n b g s ha hn hg hp hk hc hrx hf => ?unsound,
    fun p x a n b g s ha hn hg hp hk hc hrx hlen hcrc hinv hver hpeer hown hresv hnew htv hbit hage => ?late,
    fun p x a n b g s ha hn hg hp hk hc hrx hlen hcrc hinv hver hpeer hown hresv hnew hfresh => ?good,
    fun p x a n b g s ha hn hg hp hk hc hrx hlen hcrc hinv hver hpeer hown hresv hnew hfresh hports hcopies => ?accepted,
    fun p x a b s ha h => ?notTaken, fun n g s ha hg htx hrx => ?sendReceiver, fun n g s ha hg htx hrx => ?send, fun n s ha h => ?noSend,
    fun n s ha hv => ?watchdog, fun n s ha hv => ?noWatchdog, fun n f l s ha hc hd => ?drop, fun n f l s ha hc ho hd => ?single, fun n s ha hc => ?noCopy,
    fun f s ha h => ?noTest, fun t s ha h hfound houts => ?testGood, fun f t s ha hf h => ?testFailed⟩
  all_goals refine next_run_of_alive ha ?_
  case agree =>
    extract_lets m0 src0 m1 m2 m3 src3 m4
    have hread : m1 = cycleRead r s.start := rfl
    have hacted : m4 = cycleActs r (cycleRead r s.start) := congrArg (cycleActs r) hread
    exact safetyCycle_eq.trans (by rw [hr, ← hacted, compareCycle_of_agree])
  case differ =>
    extract_lets m0 src0 m1 m2 m3 src3 m4 src4 m5
    have hread : m1 = cycleRead r s.start := rfl
    have hacted : m4 = cycleActs r (cycleRead r s.start) := congrArg (cycleActs r) hread
    exact safetyCycle_eq.trans (by rw [hr, ← hacted, compareCycle_of_differ])
  case unsound => exact telRx_of_unsound ⟨hn, hg, hp, hk, hc, hrx⟩ (telSound_of_failed hf)
  case late =>
    exact telRx_of_late ⟨hn, hg, hp, hk, hc, hrx⟩ (telSound_of_passed hlen hcrc hinv hver hpeer hown hresv hnew) (telLate_of_old htv hbit hage)
  case good => exact telRx_of_good ⟨hn, hg, hp, hk, hc, hrx⟩ (telSound_of_passed hlen hcrc hinv hver hpeer hown hresv hnew) (telLate_of_fresh hfresh)
  case accepted =>
    exact (telRx_of_good ⟨hn, hg, hp, hk, hc, hrx⟩ (telSound_of_passed hlen hcrc hinv hver hpeer hown hresv hnew) (telLate_of_fresh hfresh)).trans
      (congrArg evalOuts (telCopy_of_one_port hports hcopies))
  case notTaken => exact telRx_of_not_taken h
  case sendReceiver => exact (telSend_of_sender hg htx).trans (congrArg (queueFrame _ _ _) (if_pos hrx))
  case send => exact (telSend_of_sender hg htx).trans (congrArg (queueFrame _ _ _) (if_neg (ne_true_of_eq_false hrx)))
  case noSend => exact telSend_of_none h
  case watchdog => exact telWatchdog_of_valid hv
  case noWatchdog => exact telWatchdog_of_invalid hv
  case drop => exact telCmpWin_of_kept hc hd
  case single => exact telCmpWin_of_single hc ho hd
  case noCopy => exact telCmpWin_of_none hc
  case noTest => exact selfTestDone_of_none h
  case testGood => exact selfTestDone_of_good h hfound houts
  case testFailed => exact selfTestDone_of_failed hf h

end Sys2Proof.Machine
end

section
/-! Proofs of the family `15_power_boot_security.md`: the security commands: quotes, keys, images and debug access (R448–R459). -/
namespace Sys2Proof.Machine

/-- A command taken in this step whose effect completes it, or leaves it, on its own leaves the device as that effect does. -/
theorem run_hostCommand_of_left {info : CmdInfo} {eff : Cmd → Mach → Mach × Eff} {d : Desc} {s : State} {m : Mach} (h : Taken info d s)
    (he : eff (s.held info d) (s.accepts info d) = (m, .wait)) : s.run (hostCommand info eff d) = s.to m := by
  have hm := hostCommand_taken (eff := eff) h
  rw [he] at hm
  exact congrArg s.to hm

/-! ### The effects of the security commands, branch by branch (R451–R458) -/

section SecurityCommands
variable {c : Cmd} {m : Mach} {n v slot : Nat}

theorem effQuote_of_none (hm : mirrored c m = false) (hq : m.sec.quote = none) :
    effQuote c m = ({ m with sec := { m.sec with quote := some ⟨c.ring, c.seq, quoteBody c.pay m, false⟩ } }, .hold) :=
  (if_neg (ne_true_of_eq_false hm)).trans (if_neg (by simp [hq]))

theorem effKeyInstall_of_failed (hf : imgFails 2 (ownerSigners m) c.img m = some n) : effKeyInstall c m = (authFail 0x0A02 n m, .done (fin (authStatus n))) := by
  unfold effKeyInstall
  simp only [hf, refuseImage]

/-- The key and the policy bits of an owner slot that is installed (R454). -/
def installKey (b : List Byte) (m : Mach) : Mach :=
  let m1 := putSlot (fieldLE b 0 1) ⟨.valid, sliceBytes b 16 48⟩ m
  { m1 with sec := { m1.sec with
      ownerCosign := m1.sec.ownerCosign || bitOf (fieldLE b 1 1) 0, deny1 := m1.sec.deny1 || bitOf (fieldLE b 1 1) 1
      deny2 := m1.sec.deny2 || bitOf (fieldLE b 1 1) 2, deny3 := m1.sec.deny3 || bitOf (fieldLE b 1 1) 3 } }.post 0x0A06 [fieldLE b 0 1, 1]

theorem effKeyInstall_of_passed (hf : imgFails 2 (ownerSigners m) c.img m = none) (ho : isOwner (fieldLE (imgBody c.img) 0 1) = true)
    (hp : fieldLE (imgBody c.img) 1 1 < 16) (hz : allZero (sliceBytes (imgBody c.img) 2 14) = true)
    (he : (keySlot m (fieldLE (imgBody c.img) 0 1)).state = .empty) : effKeyInstall c m = okDone (installKey (imgBody c.img) m) := by
  unfold effKeyInstall
  simp only [hf]
  exact (if_neg (by simp [ho, hz, Nat.not_le.2 hp])).trans (if_neg (not_not.2 he))

theorem effKeyRevoke_of_failed (hf : imgFails 3 (revokeSigners c.img) c.img m = some n) : effKeyRevoke c m = (authFail 0x0A03 n m, .done (fin (authStatus n))) := by
  unfold effKeyRevoke
  simp only [hf, refuseImage]

/-- A slot is not the last VALID one of its class (R454). -/
abbrev NotLastValid (m : Mach) (k : Nat) : Prop :=
  slotValid m k = false ∨ (k < 2 ∧ vendorsValid m ≠ 2 ^ k) ∨ (2 ≤ k ∧ ownersValid m ≠ 2 ^ (k - 0x10))

theorem lastValid_eq_false (h : NotLastValid m slot) :
    (slotValid m slot && (if isVendor slot then vendorsValid m else ownersValid m) == 2 ^ (if isVendor slot then slot else slot - 0x10)) = false := by
  obtain hv | ⟨hk, hne⟩ | ⟨hk, hne⟩ := h
  · rw [hv, Bool.false_and]
  · have hven : isVendor slot = true := decide_eq_true hk
    rw [hven, if_pos rfl, if_pos rfl, beq_false_of_ne hne, Bool.and_false]
  · have hven : ¬isVendor slot = true := by simp [isVendor, Nat.not_lt.2 hk]
    rw [if_neg hven, if_neg hven, beq_false_of_ne hne, Bool.and_false]

/-- KEY_REVOKE whose image passes its checks and names a slot that is not the last VALID one of its class (R454). -/
theorem effKeyRevoke_of_passed (hf : imgFails 3 (revokeSigners c.img) c.img m = none) (hs : (slotIndex (fieldLE (imgBody c.img) 0 1)).isSome = true)
    (hz : allZero (sliceBytes (imgBody c.img) 1 63) = true) (hl : NotLastValid m (fieldLE (imgBody c.img) 0 1)) :
    effKeyRevoke c m =
      let slot := fieldLE (imgBody c.img) 0 1
      if (keySlot m slot).state = .revoked then okEmpty m else okDone ((putSlot slot ⟨.revoked, (keySlot m slot).key⟩ m).post 0x0A06 [slot, 2]) := by
  unfold effKeyRevoke
  simp only [hf, lastValid_eq_false hl, Bool.false_eq_true, if_false]
  exact if_neg (by simp [hz, Option.isSome_iff_ne_none.1 hs])

theorem effImageStage_of_free (hb : m.inState [.boot] = false) (ht : m.onTrial = false) (hs : m.sec.staging = none) :
    effImageStage c m =
      ({ m.send (.flash (slotAddr (stageSlot m)) c.img) with sec := { m.sec with staging := some (c.ring, c.seq, c.img), staged := none } }, .hold) :=
  (if_neg (ne_true_of_eq_false hb)).trans ((if_neg (ne_true_of_eq_false ht)).trans (if_neg (by simp [hs])))

theorem effImageActivate_restart (hop : c.f 0 1 = 1) :
    effImageActivate c m = if m.inState [.run] || m.sec.staged.isNone then reject stSTATE m else okDone (activateStaged m) := by
  simp only [effImageActivate, hop]
  rfl

theorem effImageActivate_accept (hop : c.f 0 1 = 2) (hs : m.inState [.ready, .run] = true) :
    effImageActivate c m = if !m.onTrial then okEmpty m else okDone (updateBcr (fun b => { b with trial := false }) m) := by
  simp only [effImageActivate, hop]
  exact if_neg (by simp [hs])

theorem effImageActivate_raise {i : RunImage} (hop : c.f 0 1 = 3) (hs : m.inState [.ready, .run] = true) (ht : m.onTrial = false)
    (hi : m.sec.image = some i) (hsvn : m.sec.svnMin < i.svn) (hl : m.sec.stepsLeft ≠ 0) :
    effImageActivate c m = okDone { m with sec := { m.sec with svnMin := i.svn, stepsLeft := m.sec.stepsLeft - 1 } } := by
  simp only [effImageActivate, hop, hi]
  exact (if_neg (by simp [hs, ht])).trans ((if_neg (Nat.not_le.2 hsvn)).trans (if_neg hl))

theorem effDebugUnlock_token (hp : c.ptr = true) :
    effDebugUnlock c m =
      if endsTest m (tryToken 0x0A06 c.img m).2 then
        (testEnds (complete c (fin (tryToken 0x0A06 c.img m).1) (tryToken 0x0A06 c.img m).2), .wait)
      else ((tryToken 0x0A06 c.img m).2, .done (fin (tryToken 0x0A06 c.img m).1)) := if_pos hp

theorem effDebugUnlock_challenge (hp : c.ptr = false) (hop : c.f 0 1 = 1) (hn : m.dbg.challengeCount = n) :
    effDebugUnlock c m = (newChallenge m, .done ⟨stDONE, 0, 0, 0, leBytes 32 (Config.challenge n)⟩) := by
  subst hn
  exact (if_neg (ne_true_of_eq_false hp)).trans (if_pos hop)

theorem effDebugUnlock_end (hp : c.ptr = false) (hop : c.f 0 1 ≠ 1) :
    effDebugUnlock c m = if m.dbg.level = 0 then okEmpty m else (endLevel (complete c (fin stDONE) m), .wait) :=
  (if_neg (ne_true_of_eq_false hp)).trans (if_neg hop)

end SecurityCommands

/-- Settles O35: acceptance leaves the keys, the images and the debug level, so each row owes the branch of its effect; a level-3 session that ends, ends with a reset after the command. -/
theorem securityCommandsTakeEffect : Obligations.SecurityCommandsTakeEffect := by
  unfold Obligations.SecurityCommandsTakeEffect
  have hrunning : ∀ (info : CmdInfo) (d : Desc) (s : State), (s.m.dev.state = .ready ∨ s.m.dev.state = .run) →
      (s.accepts info d).inState [.ready, .run] = true := by
    intro info d s h
    obtain h | h := h <;> simp [Mach.inState, h]
  refine ⟨fun d s h hm hq => ?quote, fun d s h n hf => ?installFails, fun d s h ho hp hz he => ?install,
    fun d s h hs hz hl => ?revoke, fun d s h hb ht hs => ?stage, fun d s h hop hr => ?restartRefused,
    fun d s h v hop hr hs => ?restart, fun d s h hop hr ht => ?acceptNone, fun d s h hop hr ht => ?accept, fun d s h i hop hr ht hi hsvn hl => ?raise,
    fun d s h hp hop => ?challenge, fun d s h hp hop hl => ?noLevel, fun d s h hp hop hl => ?endLevel, fun d s h hp => ?token⟩
  case quote => exact congrArg Host.Outcome.next (run_hostCommand_of_hold h (effQuote_of_none hm (by simpa using hq)))
  case install =>
    change Host.Outcome.next (s.run (hostCommand infoKeyInstall effKeyInstall d)) = _
    cases hf : imgFails 2 (ownerSigners (s.accepts infoKeyInstall d)) (s.held infoKeyInstall d).img (s.accepts infoKeyInstall d) with
    | some n => exact congrArg Host.Outcome.next (run_hostCommand_of_done h (effKeyInstall_of_failed hf))
    | none => exact congrArg Host.Outcome.next (run_hostCommand_of_done h (effKeyInstall_of_passed hf ho hp hz he))
  case revoke =>
    change Host.Outcome.next (s.run (hostCommand infoKeyRevoke effKeyRevoke d)) = _
    cases hf : imgFails 3 (revokeSigners (s.held infoKeyRevoke d).img) (s.held infoKeyRevoke d).img (s.accepts infoKeyRevoke d) with
    | some n => exact congrArg Host.Outcome.next (run_hostCommand_of_done h (effKeyRevoke_of_failed hf))
    | none =>
      have heff := effKeyRevoke_of_passed hf hs hz hl
      dsimp only
      split
      next hrev => exact congrArg Host.Outcome.next (run_hostCommand_of_done h (heff.trans (if_pos hrev)))
      next hrev => exact congrArg Host.Outcome.next (run_hostCommand_of_done h (heff.trans (if_neg hrev)))
  case stage =>
    exact congrArg Host.Outcome.next
      (run_hostCommand_of_hold h (effImageStage_of_free (by simpa [Mach.inState] using hb) ((State.accepts_onTrial ..).trans ht) (by simpa using hs)))
  case endLevel => exact congrArg Host.Outcome.next (run_hostCommand_of_left h ((effDebugUnlock_end hp hop).trans (if_neg (by simpa using hl))))
  case token =>
    change Host.Outcome.next (s.run (hostCommand infoDebugUnlock effDebugUnlock d)) = _
    split
    next hend => exact congrArg Host.Outcome.next (run_hostCommand_of_left h ((effDebugUnlock_token hp).trans (if_pos hend)))
    next hend => exact congrArg Host.Outcome.next (run_hostCommand_of_done h ((effDebugUnlock_token hp).trans (if_neg hend)))
  all_goals refine congrArg Host.Outcome.next (run_hostCommand_of_done h ?_)
  case installFails => exact effKeyInstall_of_failed hf
  case restartRefused =>
    refine (effImageActivate_restart hop).trans (if_pos ?_)
    obtain hr | hr := hr <;> simp [Mach.inState, hr]
  case restart => exact (effImageActivate_restart hop).trans (if_neg (by simp [Mach.inState, hr, hs]))
  case acceptNone => exact (effImageActivate_accept hop (hrunning _ d s hr)).trans (if_pos (by simpa using ht))
  case accept => exact (effImageActivate_accept hop (hrunning _ d s hr)).trans (if_neg (by simpa using ht))
  case raise =>
    exact effImageActivate_raise hop (hrunning _ d s hr) ((State.accepts_onTrial ..).trans ht) (by simpa using hi) (by simpa using hsvn) (by simpa using hl)
  case challenge => exact effDebugUnlock_challenge hp hop (by simp)
  case noLevel => exact (effDebugUnlock_end hp hop).trans (if_pos (by simpa using hl))

end Sys2Proof.Machine
end

section
/-! Proofs of the family `15_power_boot_security.md`: the supply, the resets, the boot, quotes and the expiries of debug access (R436–R458). -/
namespace Sys2Proof.Machine

/-! ### Supply and resets (R436–R443) -/

section Supply
variable {m : Mach} {hours : Nat} {x : Straps} {wake : Bool}

theorem vinRise_of_off (hv : m.pwr.vin = false) :
    vinRise wake m =
      { m with
          reg := machInit.reg, safety := safeInit, dev := { m.dev with state := if wake then .off else .dormant }
          pwr := { m.pwr with vin := true, wake := wake, rails := wake, inReset := true, hotOff := false } } :=
  if_neg (ne_true_of_eq_false hv)

theorem resetRelease_of_held (hr : m.pwr.rails = true) (hi : m.pwr.inReset = true) :
    resetRelease x m = postEnded (resetContent { m with pwr := { m.pwr with straps := x, crystal := x.crystal, inReset := false } }) :=
  if_pos (by simp [hr, hi])

theorem resetRelease_of_idle (h : m.pwr.rails = false ∨ m.pwr.inReset = false) : resetRelease x m = m := by
  refine if_neg ?_
  obtain h | h := h <;> simp [h]

theorem vinFail_of_supplied (hv : m.pwr.vin = true) :
    vinFail m =
      { powerDown .off (pairSafe m false) with pwr := { (powerDown .off (pairSafe m false)).pwr with vin := false, hotOff := false } } :=
  if_neg (by simp [hv])

theorem vinFail_of_none (hv : m.pwr.vin = false) : vinFail m = m := if_pos (by simp [hv])

theorem thermalShutdown_of_rails (hr : m.pwr.rails = true) :
    thermalShutdown m = { powerDown .off (pairSafe m false) with pwr := { (powerDown .off (pairSafe m false)).pwr with hotOff := true } } :=
  if_neg (by simp [hr])

theorem thermalShutdown_of_none (hr : m.pwr.rails = false) : thermalShutdown m = m := if_pos (by simp [hr])

theorem asleep_of_dormant (hd : m.dev.state = .dormant) (hr : m.pwr.rails = false) : asleep m = true := by simp [asleep, Mach.inState, hd, hr]

theorem asleep_eq_false (h : m.dev.state ≠ .dormant ∨ m.pwr.rails = true) : asleep m = false := by
  obtain h | h := h <;> simp [asleep, Mach.inState, h]

theorem wakeUp_of_asleep (ha : asleep m = true) : wakeUp hours m = restart .wake hours { m with pwr := { m.pwr with wake := true } } := if_pos ha

theorem wakeUp_of_awake (ha : asleep m = false) : wakeUp hours m = m := if_neg (ne_true_of_eq_false ha)

theorem alarmUp_of_asleep (ha : asleep m = true) (hc : m.pwr.crystal = true) (hs : m.reg.raw F.pwrAlarmSeconds ≠ 0) :
    alarmUp hours m = restart .wake hours m := if_pos (by simp [ha, hc, hs])

theorem alarmUp_of_idle (h : asleep m = false ∨ m.pwr.crystal = false ∨ m.reg.raw F.pwrAlarmSeconds = 0) : alarmUp hours m = m := by
  refine if_neg ?_
  obtain h | h | h := h <;> simp [h]

/-- RST_N does nothing in a device without its supply, or held in reset. -/
theorem rstPin_guard_eq : (m.inState [.off, .dormant] || m.pwr.inReset) = !m.alive := by simp [Mach.alive]

theorem rstPin_of_alive (ha : m.alive = true) : rstPin m = { resetFrom .rstPin m with pwr := { (resetFrom .rstPin m).pwr with inReset := true } } :=
  if_neg (by simp [rstPin_guard_eq, ha])

theorem rstPin_of_dead (ha : m.alive = false) : rstPin m = m := if_pos (by simp [rstPin_guard_eq, ha])

theorem lockstepMismatch_of_alive (ha : m.alive = true) :
    lockstepMismatch m = { enterSafe 2 0 m with pwr := { (enterSafe 2 0 m).pwr with held := true } } := if_neg (by simp [ha])

theorem lockstepMismatch_of_dead (ha : m.alive = false) : lockstepMismatch m = m := if_pos (by simp [ha])

end Supply

/-- Settles O56: each row is the branch of its meaning that the supply, the rails, the reset and the state choose. -/
theorem supplyAndResetStepsComplete : Obligations.SupplyAndResetStepsComplete := by
  unfold Obligations.SupplyAndResetStepsComplete
  refine ⟨fun w s hv => ?rise, fun w s hv => ?noRise, fun x s hr hi => ?release, fun x s h => ?noRelease, fun s hv => ?fail, fun s hv => ?noFail,
    fun s hr => ?shutdown, fun s hr => ?noShutdown, fun s hh => ?restart, fun s hh => ?noRestart, fun h s hd hr => ?wake, fun h s hd => ?noWake,
    fun h s hd hr hc hs => ?alarm, fun h s hd => ?noAlarm, fun s ha => ?rstN, fun s ha => ?noRstN, fun s => ?perstN, fun s ha => ?mismatch,
    fun s ha => ?noMismatch, fun s hh => ?lockstep, fun s hh => ?noLockstep⟩
  all_goals refine next_run_of_eq ?_
  case rise => exact vinRise_of_off hv
  case noRise => exact if_pos hv
  case release => exact resetRelease_of_held hr hi
  case noRelease => exact resetRelease_of_idle h
  case fail => exact vinFail_of_supplied hv
  case noFail => exact vinFail_of_none hv
  case shutdown => exact thermalShutdown_of_rails hr
  case noShutdown => exact thermalShutdown_of_none hr
  case restart => exact if_pos hh
  case noRestart => exact if_neg (ne_true_of_eq_false hh)
  case wake => exact wakeUp_of_asleep (asleep_of_dormant hd hr)
  case noWake => exact wakeUp_of_awake (asleep_eq_false hd)
  case alarm => exact alarmUp_of_asleep (asleep_of_dormant hd hr) hc hs
  case noAlarm => exact alarmUp_of_idle ((or_assoc.2 hd).imp_left asleep_eq_false)
  case rstN => exact rstPin_of_alive ha
  case noRstN => exact rstPin_of_dead ha
  case perstN => rfl
  case mismatch => exact lockstepMismatch_of_alive ha
  case noMismatch => exact lockstepMismatch_of_dead ha
  case lockstep => exact if_pos hh
  case noLockstep => exact if_neg (ne_true_of_eq_false hh)

/-! ### Warnings and SLEEP (R436, R439) -/

section Warnings
variable {m : Mach} {mv d : Nat} {tj : Int}

/-- The control die, or the power die, seen above T_WARN (R436). -/
def markHot (d : Nat) (hot : Bool) (m : Mach) : Mach := { m with pwr := if d = 0 then { m.pwr with hotCtrl := hot } else { m.pwr with hotPwr := hot } }

/-- A die has been seen above T_WARN at its last reading. -/
def seenHot (d : Nat) (m : Mach) : Bool := if d = 0 then m.pwr.hotCtrl else m.pwr.hotPwr

theorem vinLow_of_new (hl : mv < m.fld F.pwrThreshVinWarn) (hs : m.pwr.lowSeen = false) :
    vinLow mv m = (({ m with pwr := { m.pwr with lowSeen := true } } : Mach).raise F.pwrStatusVinLow).post 0x0A01 [mv] := by
  simp only [vinLow, decide_eq_true hl, hs, Bool.not_false, Bool.and_self, if_true]

theorem vinLow_of_known (hl : mv < m.fld F.pwrThreshVinWarn) (hs : m.pwr.lowSeen = true) : vinLow mv m = { m with pwr := { m.pwr with lowSeen := true } } := by
  simp only [vinLow, decide_eq_true hl, hs, Bool.not_true, Bool.and_false, Bool.false_eq_true, if_false]

theorem vinLow_of_high (hl : m.fld F.pwrThreshVinWarn ≤ mv) : vinLow mv m = { m with pwr := { m.pwr with lowSeen := false } } := by
  simp only [vinLow, decide_eq_false (Nat.not_lt.2 hl), Bool.false_and, Bool.false_eq_true, if_false]

theorem tjHigh_eq :
    tjHigh d tj m =
      let hot := decide (((8 * m.fld F.pwrThreshTWarn : Nat) : Int) < tj)
      if hot && !seenHot d m then ((markHot d hot m).raise F.pwrStatusHot).post 0x0A02 [d, unsigned 32 tj] else markHot d hot m := rfl

theorem tjHigh_of_new (hh : ((8 * m.fld F.pwrThreshTWarn : Nat) : Int) < tj) (hs : seenHot d m = false) :
    tjHigh d tj m = ((markHot d true m).raise F.pwrStatusHot).post 0x0A02 [d, unsigned 32 tj] := by
  rw [tjHigh_eq]
  simp only [decide_eq_true hh, hs, Bool.not_false, Bool.and_self, if_true]

theorem tjHigh_of_known (h : seenHot d m = true ∨ tj ≤ ((8 * m.fld F.pwrThreshTWarn : Nat) : Int)) :
    tjHigh d tj m = markHot d (decide (((8 * m.fld F.pwrThreshTWarn : Nat) : Int) < tj)) m := by
  rw [tjHigh_eq]
  refine if_neg ?_
  obtain h | h := h
  · simp [h]
  · simp only [decide_eq_false (Int.not_lt.2 h), Bool.false_and, Bool.false_eq_true, not_false_eq_true]

theorem seenHot_of_power (hd : d ≠ 0) : seenHot d m = m.pwr.hotPwr := if_neg hd

theorem markHot_of_power {hot : Bool} (hd : d ≠ 0) : markHot d hot m = { m with pwr := { m.pwr with hotPwr := hot } } := by
  unfold markHot
  rw [if_neg hd]

theorem sleepRow_of_decoded (hs : m.inState [.boot, .recovery] = false) (ht : m.dev.test = false) : sleepRow m = askSleep m := if_neg (by simp [hs, ht])

theorem sleepRow_of_undecoded (h : m.inState [.boot, .recovery] = true ∨ m.dev.test = true) : sleepRow m = m := by
  refine if_pos ?_
  obtain h | h := h <;> simp [h]

end Warnings

/-! ### The boot (R446, R449, R450, R452) -/

section Boot
variable {m : Mach} {f : FlashRead} {b : Bcr} {n : Nat}

/-- The first slot is tried: its image is started where it verifies, else the other slot is tried (R449, R452). -/
def trySlot (f : FlashRead) (r : Nat × Bool × Mach) : Mach :=
  match firmwareFails (slotImage f r.1) r.2.2 with
  | none => if r.2.1 then fellBack r.1 (1 - r.1) (startImage r.1 (slotImage f r.1) r.2.2) else startImage r.1 (slotImage f r.1) r.2.2
  | some _ => bootOther f r.1 r.2.2

theorem trySlot_of_failed {k : Nat} {given : Bool} (h : firmwareFails (slotImage f k) m = some n) : trySlot f (k, given, m) = bootOther f k m := by
  unfold trySlot
  simp only [h]

theorem trySlot_of_verified {k : Nat} (h : firmwareFails (slotImage f k) m = none) : trySlot f (k, false, m) = startImage k (slotImage f k) m := by
  unfold trySlot
  simp only [h, Bool.false_eq_true, if_false]

/-- A start from the other slot of a trial that is given up is a fallback (R452). -/
theorem trySlot_of_given_up {k : Nat} (h : firmwareFails (slotImage f k) m = none) :
    trySlot f (k, true, m) = fellBack k (1 - k) (startImage k (slotImage f k) m) := by
  unfold trySlot
  simp only [h, if_true]

/-- The device is in BOOT, where the ROM does not serve ring 0 (R449). -/
structure Booting (m : Mach) : Prop where
  boot : m.dev.state = .boot
  idle : m.sec.romRing = false

theorem bootFromFlash_of_booting (h : Booting m) (hs : m.pwr.straps.bootSel % 4 ≠ 1) :
    bootFromFlash f m = if m.pwr.straps.bootSel % 4 = 3 then enterRecovery (romStart f m) else trySlot f (chooseSlot (romStart f m)) :=
  if_neg (by simp [Mach.inState, h.boot, h.idle, hs])

theorem bootFromFlash_of_flash (h : Booting m) (hs : m.pwr.straps.bootSel % 4 = 0 ∨ m.pwr.straps.bootSel % 4 = 2) :
    bootFromFlash f m = trySlot f (chooseSlot (romStart f m)) :=
  (bootFromFlash_of_booting h (by omega)).trans (if_neg (by omega))

theorem bootFromFlash_of_idle (h : m.dev.state ≠ .boot ∨ m.sec.romRing = true ∨ m.pwr.straps.bootSel % 4 = 1) : bootFromFlash f m = m := by
  refine if_pos ?_
  obtain h | h | h := h <;> simp [Mach.inState, h]

theorem romStart_bcr (h : readBcr f.recA f.recB = some b) : (romStart f m).bcr = b := by simp [Mach.bcr, romStart, h]

theorem chooseSlot_of_no_trial (hb : m.bcr = b) (ht : b.trial = false) : chooseSlot m = (b.active, false, m) := by
  subst hb
  exact if_pos (by simp [ht])

theorem chooseSlot_of_tries (hb : m.bcr = b) (ht : b.trial = true) (hn : 0 < b.tries) :
    chooseSlot m = (b.active, false, updateBcr (fun b => { b with tries := b.tries - 1 }) m) := by
  subst hb
  exact (if_neg (by simp [ht])).trans (if_neg (Nat.pos_iff_ne_zero.1 hn))

/-- A trial with no try left boots the other slot. -/
theorem chooseSlot_of_no_tries (hb : m.bcr = b) (ht : b.trial = true) (hn : b.tries = 0) :
    chooseSlot m = (1 - b.active % 2, true, updateBcr (fun b => { b with trial := false }) m) := by
  subst hb
  exact (if_neg (by simp [ht])).trans (if_pos hn)

/-- The ROM serves ring 0, with the boot control record read unless it has been (R446, R450). -/
def serveRing0 (m : Mach) : Mach :=
  { m with sec := { m.sec with
      idKey := leBytes 32 Config.identityKey, romRing := true
      bcr := if m.sec.bcr.isSome then m.sec.bcr else readBcr (Config.flashRecord m.pwr.resets 0) (Config.flashRecord m.pwr.resets 1) } }

theorem hostBoot_of_recovery (hs : m.dev.state = .recovery) : hostBoot m = serveRing0 m := if_pos (by simp [Mach.inState, hs])

theorem hostBoot_of_boot (hs : m.dev.state = .boot) (hb : m.pwr.straps.bootSel % 4 = 1) : hostBoot m = serveRing0 m :=
  (if_neg (by simp [Mach.inState, hs])).trans (if_pos (by simp [Mach.inState, hs, hb]))

theorem hostBoot_of_other (hs : m.dev.state ≠ .recovery) (h : m.dev.state ≠ .boot ∨ m.pwr.straps.bootSel % 4 ≠ 1) : hostBoot m = m := by
  refine (if_neg (by simp [Mach.inState, hs])).trans (if_neg ?_)
  obtain h | h := h <;> simp [Mach.inState, h]

end Boot

/-! ### Staging, quotes and debug access (R451, R455–R458) -/

section ImagesAndQuotes
variable {m : Mach} {back w : List Byte} {r q n : Nat} {x : QuoteRun}

/-- The device once a staged image has been written. -/
def unstaging (m : Mach) : Mach := { m with sec := { m.sec with staging := none } }

theorem flashWritten_of_none (h : m.sec.staging = none) : flashWritten back m = m := by simp only [flashWritten, h]

theorem flashWritten_of_verified (h : m.sec.staging = some (r, q, w)) (hf : firmwareFails back (unstaging m) = none) :
    flashWritten back m =
      completeLater r q (fin stDONE)
        (({ unstaging m with sec := { (unstaging m).sec with staged := some (imgSvn back) } } : Mach).post 0x0A05 [stageSlot (unstaging m), imgSvn back]) := by
  unfold unstaging at hf ⊢
  simp only [flashWritten, h, hf]

theorem flashWritten_of_failed (h : m.sec.staging = some (r, q, w)) (hf : firmwareFails back (unstaging m) = some n) :
    flashWritten back m = completeLater r q (fin (authStatus n)) (authFail 0x0A04 n (unstaging m)) := by
  unfold unstaging at hf ⊢
  simp only [flashWritten, h, hf]

/-- The record of a signed quote is posted, and the quote waits for it to be written (R457). -/
def postQuote (x : QuoteRun) (m : Mach) : Mach :=
  let m1 := postRec 3 0x0A01 (x.seq % 2 ^ 32) (x.body ++ sliceBytes (Config.quoteSignature x.body) 0 17088) m
  quoteDrain { m1 with sec := { m1.sec with certSent := true, quote := some { x with signed := true } } }

/-- The first quote since reset goes after the certificate (R455). -/
theorem quoteSigned_of_running (h : m.sec.quote = some x) (hs : x.signed = false) :
    quoteSigned m = postQuote x (if m.sec.certSent then m else postRec 3 0x0A02 (Config.unstatedArg 0x0A02 0 % 2 ^ 32) Config.certificate m) := by
  unfold quoteSigned postQuote
  rw [h]
  exact if_neg (ne_true_of_eq_false hs)

theorem quoteSigned_of_none (h : m.sec.quote = none) : quoteSigned m = m := by
  unfold quoteSigned
  rw [h]

theorem endLevel_of_zero (hl : m.dbg.level = 0) : endLevel m = m := if_pos hl

/-- The end of a level-3 session resets the device (R458). -/
theorem endLevel_of_three (hl : m.dbg.level = 3) : endLevel m = deviceReset .debug (dbgRelease m) := by simp [endLevel, hl]

end ImagesAndQuotes

/-- Settles O57: the boot is the choice of a slot and its trial; the other rows are the branches of their meanings. -/
theorem bootAndSecurityStepsComplete : Obligations.BootAndSecurityStepsComplete := by
  unfold Obligations.BootAndSecurityStepsComplete
  refine ⟨fun mv s up hl hs => ?low, fun mv s up hl hs => ?lowKnown, fun mv s up hl => ?vinGood, fun tj s up hh hs => ?hotCtrl,
    fun d tj s up hd hh hs => ?hotPwr, fun tj s up h => ?ctrlKnown, fun d tj s up hd h => ?pwrKnown, fun s up hs ht => ?sleep, fun s up h => ?noSleep,
    fun f b s up hs hr hb hrec ht => ?boot, fun f b s up hs hr hb hrec ht hn => ?bootTrial, fun f b s up hs hr hb hrec ht hn => ?bootGivenUp,
    fun f s up hs hr hb => ?recovery, fun f s up h => ?noBoot, fun s up hs hb => ?hostBoot, fun s up hs => ?hostRecovery, fun s up hs h => ?noHostBoot,
    fun back w r q s up h => ?written, fun back s up h => ?noWrite, fun s up h => ?activate, fun s up h => ?noActivate, fun q s up h hs hc => ?firstQuote,
    fun q s up h hs hc => ?quote, fun s up h => ?noQuote, fun s up hl => ?level0, fun s up hl => ?level1, fun s up hl => ?level2, fun s up hl => ?level3,
    fun s up => ?challenge⟩
  all_goals refine next_run_of_up up ?_
  case low => exact vinLow_of_new hl hs
  case lowKnown => exact vinLow_of_known hl hs
  case vinGood => exact vinLow_of_high hl
  case hotCtrl => exact tjHigh_of_new hh hs
  case hotPwr => exact (tjHigh_of_new hh ((seenHot_of_power hd).trans hs)).trans (by rw [markHot_of_power hd])
  case ctrlKnown => exact tjHigh_of_known h
  case pwrKnown => exact (tjHigh_of_known (by rwa [seenHot_of_power hd])).trans (markHot_of_power hd)
  case sleep => exact sleepRow_of_decoded hs ht
  case noSleep => exact sleepRow_of_undecoded h
  case boot =>
    have htried := (bootFromFlash_of_flash (f := f) ⟨hs, hr⟩ hb).trans (congrArg (trySlot f) (chooseSlot_of_no_trial (romStart_bcr hrec) ht))
    cases hf : firmwareFails (slotImage f b.active) (romStart f s.start) with
    | none => exact htried.trans (trySlot_of_verified hf)
    | some n => exact htried.trans (trySlot_of_failed hf)
  case bootTrial =>
    have htried := (bootFromFlash_of_flash (f := f) ⟨hs, hr⟩ hb).trans (congrArg (trySlot f) (chooseSlot_of_tries (romStart_bcr hrec) ht hn))
    extract_lets m1
    cases hf : firmwareFails (slotImage f b.active) m1 with
    | none => exact htried.trans (trySlot_of_verified hf)
    | some n => exact htried.trans (trySlot_of_failed hf)
  case bootGivenUp =>
    have htried := (bootFromFlash_of_flash (f := f) ⟨hs, hr⟩ hb).trans (congrArg (trySlot f) (chooseSlot_of_no_tries (romStart_bcr hrec) ht hn))
    extract_lets m1 o
    cases hf : firmwareFails (slotImage f o) m1 with
    | none => exact htried.trans (trySlot_of_given_up hf)
    | some n => exact htried.trans (trySlot_of_failed hf)
  case recovery => exact (bootFromFlash_of_booting ⟨hs, hr⟩ (by omega)).trans (if_pos hb)
  case noBoot => exact bootFromFlash_of_idle h
  case hostBoot => exact hostBoot_of_boot hs hb
  case hostRecovery => exact hostBoot_of_recovery hs
  case noHostBoot => exact hostBoot_of_other hs h
  case written =>
    extract_lets src m1
    cases hf : firmwareFails back m1 with
    | none => exact flashWritten_of_verified h hf
    | some n => exact flashWritten_of_failed h hf
  case noWrite => exact flashWritten_of_none h
  case activate => exact if_pos h
  case noActivate => exact if_neg (ne_true_of_eq_false h)
  case firstQuote => exact (quoteSigned_of_running h hs).trans (congrArg (postQuote q) (if_neg (ne_true_of_eq_false hc)))
  case quote => exact (quoteSigned_of_running h hs).trans (congrArg (postQuote q) (if_pos hc))
  case noQuote => exact quoteSigned_of_none h
  case level0 => exact endLevel_of_zero hl
  case level1 => exact endLevel_of_one hl
  case level2 => exact endLevel_of_two hl
  case level3 => exact endLevel_of_three hl
  case challenge => rfl

end Sys2Proof.Machine
end
